-- ==== Sys2Proof/Word.lean ====
section
/-!
DEFINITION. The words the block handles: 32-bit register and payload words, bytes of the serial transports, and the 64-bit
chip tick (R22).
-/
namespace Sys2Proof

/-- A 32-bit word of a register or of a packet payload. -/
abbrev Word := BitVec 32

/-- A byte of a serial transport. -/
abbrev Byte := BitVec 8

/-- A count of the chip timebase, in ticks of 2.5 ns (R22). -/
abbrev Tick := BitVec 64

end Sys2Proof
end

