-- ==== Sys2Proof/Syntax.lean ====
section
/-!
DEFINITION. The commands and events of spec/opcode_table.json, one constructor per row. A Milliner command (chapter 4) carries the
fields of its packet after framing and CRC; a register-write row carries the value written; an event row names the unit and
carries what the outside world supplies (a converted sample, a received frame, a comparator's result). A row that fixes an
instant carries it as `t`.
-/
namespace Sys2Proof

/-- What an outer packet echoes in the packets that answer it (R72): its tag, opcode, flags and index. -/
structure OuterHdr where
  tag   : BitVec 6
  op    : BitVec 8
  want  : Bool
  snap  : Bool
  index : BitVec 4
  deriving DecidableEq, Repr

/-- Where a command came from, and so where its replies go (R66, R72): the SPI port, the UART port, the tunnel of a CAN
controller, the hatband (the forwarding chip's ring position and the outer header), or the chip's own position (the outer
header). -/
inductive Transport where
  | spi
  | uart
  | can (ctl : Fin 4)
  | ring (pos : Fin 8) (o : OuterHdr)
  | own (o : OuterHdr)
  deriving DecidableEq, Repr

/-- A command packet after framing and CRC (Tables PK-1 and PK-2). `rsv` holds the bits of header word 1 that a command must
send as 0; the opcode is the constructor's own. -/
structure Cmd where
  tr      : Transport
  tag     : BitVec 6
  want    : Bool
  snap    : Bool
  scope   : BitVec 4
  index   : BitVec 4
  rsv     : BitVec 24
  payload : List Word
  deriving DecidableEq, Repr

/-- A CAN frame as it stands on the bus: identifier, format bits, DLC code and data bytes. -/
structure CanFrame where
  id   : BitVec 29
  ide  : Bool
  fdf  : Bool
  brs  : Bool
  esi  : Bool
  dlc  : Fin 16
  data : List Byte
  deriving DecidableEq, Repr

/-- What one current-loop update takes from its three channels (R163, R167): in shunt mode the raw ADC codes, in sigma-delta mode the modulator's bits
up to the result clock, that clock's bit lowest; whether the sampling instant follows a valley rather than a peak; and whether Step 5 of Table AR-10
comes after the update boundary (R161). -/
structure CurIn where
  u      : BitVec 768
  v      : BitVec 768
  w      : BitVec 768
  valley : Bool
  late   : Bool
  deriving DecidableEq, Repr

/-- An identity ordered set of the hatband (R266): ring number, sender's position, N − 1, `T_SC`, `LMAX` and `TOPO`. -/
structure Ident where
  ringNo : BitVec 16
  pos    : BitVec 3
  nchip  : BitVec 3
  tSc    : BitVec 10
  lmax   : BitVec 8
  topo   : Bool
  deriving DecidableEq, Repr

/-- How a hatband frame ended (R266): K29.7, K23.7 after an upstream hop found it late, or K30.7. -/
inductive FrameEnd where
  | normal
  | late
  | abort
  deriving DecidableEq, Repr

/-- The hatband link of a chip: west or east (R264). -/
inductive Link where
  | west
  | east
  deriving DecidableEq, Repr

/-- A wake event that has passed its filter (R58); a frame event carries the frame that the transceiver decoded (R348), and one of
WAKE_N the level the pin has taken, so that its rise is reported too (R36; DESIGN CHOICE, log entry 64). -/
inductive WakeCause where
  | pin (low : Bool)
  | c0Edge
  | c1Edge
  | c0Frame (f : CanFrame)
  | c1Frame (f : CanFrame)
  | c0Fec
  | c1Fec
  deriving DecidableEq, Repr

/-- What a start-up finds outside the chip: the three samples of the ID straps (R34), `VIO_SEL` low (R41), and whether a reference is
detected within 10 ms (R49). -/
structure Boot where
  id0       : BitVec 3
  id1       : BitVec 3
  id2       : BitVec 3
  vio18     : Bool
  reference : Bool
  deriving DecidableEq, Repr

/-- The blocks that go out of service and steam (Tables FH-3, FH-8 and FH-9). -/
inductive Block where
  | cfg | recorder | lnkW | lnkE | mbx | spi | uart | abmbx
  | stn (n : Fin 4) | axs (n : Fin 4) | bgd (h : Fin 2) | can (c : Fin 4)
  | len (h : Fin 2) | asc (h : Fin 2) | spt (h : Fin 2) | thm (h : Fin 2)
  deriving DecidableEq, Repr

/-- What steams: a block (R368), or a CAN queue entry (R346): 0 to 63 are RX entries, 64 to 95 are TX entries 0 to 31. -/
inductive Steamed where
  | block (b : Block)
  | canEntry (c : Fin 4) (ix : Fin 96)
  deriving DecidableEq, Repr

/-- The cells of Table AR-3, and a record of the recorder's staging RAM (R395), that find an error of their own (R367). A leg or current
channel is 0 to 2 for U, V and W. -/
inductive Cell where
  | gate (n : Fin 4) (leg : Fin 3)
  | pwm (n : Fin 4) (leg : Fin 3)
  | adc (n : Fin 4) (ch : Fin 3)
  | position (n : Fin 4)
  | commutation (n : Fin 4)
  | slot (h : Fin 2) (m : Fin 48)
  | canEntry (c : Fin 4) (ix : Fin 96)
  | axis (n : Fin 4)
  | record (ix : Nat)
  deriving DecidableEq, Repr

/-- A command or event: one constructor per row of spec/opcode_table.json. `n` is a station or an axis, `h` a half, `c` a CAN
controller or the command's packet, `t` the arbiter's count at the event. -/
inductive Instr where
  /-- Command that returns its payload unchanged (R82). -/
  | echo (c : Cmd)
  /-- Command that returns CHIP_ID, CHIP_STATUS, ROM version, CHIP_PINS, epoch and chip tick (R82). -/
  | identify (c : Cmd)
  /-- Command that reads 1-255 register words in ascending order, clearing RC fields and loading R9 shadows (R83). -/
  | readReg (c : Cmd)
  /-- Command that checks every word, then writes 1-254 register words all or nothing (R83). -/
  | writeReg (c : Cmd)
  /-- Command that makes a locked read-modify-write of the masked bits of one register (R83). -/
  | modifyReg (c : Cmd)
  /-- Command that samples listed registers at one chip tick, or returns the last SNAP capture (R83). -/
  | statusSnapshot (c : Cmd)
  /-- Command that, when all stations are OFF and idle, replies OK and starts entry to deep or selective-wake sleep (R57). -/
  | sleep (c : Cmd)
  /-- Command that restarts one region by Table FH-4 unless it is held or already restarting (R373). -/
  | resetRegion (c : Cmd)
  /-- Command that reads words of the copy in force, the other copy or the staging area (R89). -/
  | cfgRead (c : Cmd)
  /-- Command that writes words into the staging area, with key and seal checks by area (R89). -/
  | cfgStage (c : Cmd)
  /-- Command that captures staging and starts writing it into the slot not in force (R98). -/
  | cfgCommit (c : Cmd)
  /-- Command that commits staging with the sealed flag and writes the permanent seal mark (R102). -/
  | cfgSeal (c : Cmd)
  /-- Command that writes words into a table in force and its staging copy (R94). -/
  | tableLoad (c : Cmd)
  /-- Command that starts arming a station from OFF with diagnostics, bootstrap charge and position check (R188). -/
  | stnArm (c : Cmd)
  /-- Command that takes an ARMED station to RUN with a SOURCE and KIND (R242). -/
  | stnRun (c : Cmd)
  /-- Command that sets the host set-point of a station running from SOURCE 0 (R242). -/
  | stnSetpoint (c : Cmd)
  /-- Command that starts or replaces a stop of a station by type (R84). -/
  | stnStop (c : Cmd)
  /-- Command that runs off-state diagnostic items on a station in OFF (R186). -/
  | stnDiag (c : Cmd)
  /-- Command that starts the sizing items of a station in order (R128). -/
  | stnSizing (c : Cmd)
  /-- Command that marks a swap pending for a loop group, to take effect at the swap boundary (R256). -/
  | bankSwap (c : Cmd)
  /-- Command that starts or replaces a point-to-point or profile move of an axis (R320). -/
  | axisMove (c : Cmd)
  /-- Command that replaces target and rates of a running move at the next planner tick (R322). -/
  | axisRetarget (c : Cmd)
  /-- Command that cuts or decelerates an axis and ends its pending completions (R330). -/
  | axisStop (c : Cmd)
  /-- Command that sets up a straight-line move of one to four axes from a common start tick (R326). -/
  | axisGroup (c : Cmd)
  /-- Command that makes an axis follow a STEP input or a station count through a ratio (R327). -/
  | axisFollow (c : Cmd)
  /-- Command that starts a service on named stations and axes and assigns a handle (R301). -/
  | svcStart (c : Cmd)
  /-- Command that checks and applies service parameter pairs at the next tick (R302). -/
  | svcParam (c : Cmd)
  /-- Command that ends a service with a stop of its stations (R302). -/
  | svcStop (c : Cmd)
  /-- Command that writes a sharing group definition in force and in staging (R283). -/
  | shareCfg (c : Cmd)
  /-- Command that arms or replaces a scheduler slot with compare value, action and options (R134). -/
  | evtArm (c : Cmd)
  /-- Command that disarms a scheduler slot and reports whether it had fired (R85). -/
  | evtCancel (c : Cmd)
  /-- Command that returns up to seven valid records of one recorder area in SEQ order (R398). -/
  | recRead (c : Cmd)
  /-- Command that sets enable, felt setting and snapshot list of one recorder trigger (R388). -/
  | recTriggerCfg (c : Cmd)
  /-- Command that writes a disabled controller's configuration block and filters in one step (R338). -/
  | canCfg (c : Cmd)
  /-- Command that starts bus-off recovery of a controller (R344). -/
  | canRecover (c : Cmd)
  /-- Command that sets the network-time role, priority and period of a controller (R350). -/
  | timeMaster (c : Cmd)
  /-- Command that places a frame in a free host TX entry for transmission (R343). -/
  | canSend (c : Cmd)
  /-- Command that returns host-partition RX entries owned by software (R342). -/
  | canFetch (c : Cmd)
  /-- Command that returns named host RX entries to hardware (R86). -/
  | canAck (c : Cmd)
  /-- Command that enters all its words into an outbound or local mailbox queue, or none (R356). -/
  | mbxPost (c : Cmd)
  /-- Command that returns words from an inbound or local queue, stopping at an epoch boundary (R357). -/
  | mbxFetch (c : Cmd)
  /-- Command that ORs a doorbell mask into MBX_DBL of a position (R361). -/
  | dblRing (c : Cmd)
  /-- Command that returns entries of one unit's fault list (R375). -/
  | faultRead (c : Cmd)
  /-- Command that removes entries whose cause is no longer present and may return a station to OFF or an axis to IDLE (R377). -/
  | faultClear (c : Cmd)
  /-- Command that queries the token or hands it over to the other half (R381). -/
  | mastership (c : Cmd)
  /-- Command that selects internal signals onto the TMA and TMD pins (R430). -/
  | testmuxSel (c : Cmd)
  /-- Command that runs steaming of a block or of every block of a region (R371). -/
  | selftest (c : Cmd)
  /-- Write of a register field that has no behaviour of its own, by its access type (R5); it carries the word `v` to the address `a`.
  -/
  | registerWrite (a : Word) (v : Word)
  /-- Write that sets a station's position count as a jump (R117); it carries both words of `PF_POS`. -/
  | pfPosWrite (n : Fin 4) (v : BitVec 64)
  /-- Write that changes MODE, SRC or DIR_INV and restarts acquisition (R107); it carries the word for `PF_CTRL`. -/
  | pfCtrlSourceChange (n : Fin 4) (v : Word)
  /-- Write that sets an idle axis count as a jump (R319); it carries both words of `AXS_POS`. -/
  | axsPosWrite (n : Fin 4) (v : BitVec 64)
  /-- Write of the commutation offset that sets OFS_VALID (R147); it carries the word for `COM_OFS`. -/
  | comOfsWrite (n : Fin 4) (v : Word)
  /-- Write of carrier period or phase that starts re-phasing from the next valley (R157); it carries the words for `PWM_HPER` and
  `PWM_PHASE`. -/
  | pwmHperWrite (n : Fin 4) (v : Word) (p : Word)
  /-- Write that changes VGD_SET while all stations are OFF or DIAG and starts the VGD ramp (R44); it carries the value for `VGD_SET`.
  -/
  | vgdSetChange (v : BitVec 4)
  /-- VGD reaches its new window after a change and VGD_OK returns to 1 (R44). -/
  | vgdSettled
  /-- Write of MIL_HOST_WD that arms or disarms the host watchdog (R81); it carries the word for `MIL_HOST_WD`. -/
  | hostWatchdogArm (v : Word)
  /-- Write of a slot configuration checked for admission that switches type and resets slot state (R261); it carries the word for
  `LEN_CFG` of slot `m`. -/
  | lenCfgWrite (h : Fin 2) (m : Fin 48) (v : Word)
  /-- Write that replaces a slot integrator or O-slot state before its next update (R255); it carries both words of `LEN_ACC` of slot
  `m`. -/
  | lenAccWrite (h : Fin 2) (m : Fin 48) (v : BitVec 64)
  /-- Write of EN 0 to 1 that wakes the transceiver and integrates the controller on the bus (R339). -/
  | canEnable (c : Fin 4)
  /-- Write of EN 1 to 0 that leaves the bus after the frame in progress and aborts sends (R339). -/
  | canDisable (c : Fin 4)
  /-- Write of HBD_CTRL.EN that enables or disables the hatband links (R266); it carries the value for `EN`. -/
  | hatbandEnable (v : Bool)
  /-- Write of REC_SOFT that raises recorder trigger 15 (R387). -/
  | recSoftWrite (v : Word)
  /-- One SPI chip-select window that carries at most one command and one outbound packet (R69); it carries the bytes of MOSI. -/
  | spiWindow (mosi : List Byte)
  /-- A packet after the sync word on the host UART (R70); it carries the bytes after the sync word. -/
  | uartPacketReceived (bs : List Byte)
  /-- A gap of two character times inside a packet ends it (R70); it carries the bytes before the gap. -/
  | uartGapTimeout (bs : List Byte)
  /-- An outbound packet sent on the UART once the line is free (R70). -/
  | uartPacketSend
  /-- A CAN FD frame on the tunnel identifier assembled into a Milliner packet (R71); it carries whether the frame is a CAN FD frame,
  and its data. -/
  | tunnelSegmentReceived (c : Fin 4) (fd : Bool) (d : List Byte)
  /-- More than 10 ms between tunnel segments discards the message (R71). -/
  | tunnelSegmentTimeout (c : Fin 4)
  /-- An inner packet arriving over the hatband and executed in this chip's tag space (R72); it carries the outer packet from position
  `p`. -/
  | forwardedCommand (p : Fin 8) (ws : List Word)
  /-- No inner reply within FWD_TIMEOUT or the target leaves REACH; the outer command ends with TIMEOUT (R72). -/
  | forwardTimeout (tag : BitVec 6)
  /-- A completion not arrived within its limit is sent with TIMEOUT and the work abandoned (R75). -/
  | completionTimeout (tag : BitVec 6)
  /-- The host watchdog interval passes without refresh; stations take their fallbacks (R81). -/
  | hostWatchdogExpiry
  /-- VIN rises through VIN_START and the chip starts up by Table PW-5 (R49); it carries what start-up samples. -/
  | powerOn (b : Boot)
  /-- Start-up reaches READY high after configuration load and token take (R49). -/
  | startUpComplete
  /-- No reference detected by 10 ms; PLLs lock to the fallback oscillators (R49). -/
  | startNoReference
  /-- A taken RESET_N pulse stops stations, flushes the recorder and resets the chip (R48). -/
  | resetN
  /-- RESET_N rises and start-up proceeds from Step 4 (R49); it carries what start-up samples. -/
  | resetNRelease (b : Boot)
  /-- VIN below VIN_UV resets the chip as on RESET_N (R54). -/
  | brownout
  /-- VIN below the PFW level starts the flush and optional station stop (R52). -/
  | powerFailWarning
  /-- VIN rises above PFW level plus hysteresis and PFW clears (R53). -/
  | powerFailRecovery
  /-- The recorder flush ends and FLUSH_DONE sets or reset proceeds (R394). -/
  | flushComplete
  /-- VIN rises above or falls below VIN_OV (R38); it carries VIN is above. -/
  | vinOvervoltage (above : Bool)
  /-- The buck-boost reaches its current limit and VGD starts to fall (R43); it carries VGD has left its window (R63). -/
  | buckBoostCurrentLimit (out : Bool)
  /-- VGD below VGD_UV turns off every gate cell of both halves (R43). -/
  | vgdUv
  /-- VGD below 5.5 V resets the chip as on brown-out (R43). -/
  | vgdCollapse
  /-- VIN below the shutdown-latch clear threshold clears a latched die shutdown (R55). -/
  | shutdownLatchClear
  /-- A region declares the reference lost and moves to its fallback oscillator (R46). -/
  | referenceLoss (r : Fin 3)
  /-- After 10 ms of good reference a region returns to it (R47). -/
  | referenceReturn (r : Fin 3)
  /-- Sleep entry ends with regions in reset and rails off (R57). -/
  | sleepEntryComplete
  /-- A filtered wake event starts the chip from Step 2 of Table PW-5 (R59); it carries the wake event and what start-up samples. -/
  | wake (w : WakeCause) (b : Boot)
  /-- PRES_N low for 1000 samples sets PRES_VALID (R95); it carries whether the samples are complete, or the pin has only just gone low
  (R36; DESIGN CHOICE, log entry 64). -/
  | presenceKeyValid (full : Bool)
  /-- Two high samples clear PRES_VALID and abandon a keyed commit before SEQ (R95); it carries whether both samples have been taken, or the
  pin has only just gone high (R36; DESIGN CHOICE, log entry 64). -/
  | presenceKeyRelease (full : Bool)
  /-- A commit or seal ends its write, read-back and felt record and puts the new copy in force (R98); it carries the read-back
  agrees. -/
  | commitFinish (ok : Bool)
  /-- A filtered comparator change updates the quadrant counter and edge timing (R111); it carries the tick at which the comparators took
  their levels, the levels, and the filter clocks for which they held them (R110). -/
  | positionCoarseEdge (n : Fin 4) (t : BitVec 64) (la : Bool) (lb : Bool) (hold : BitVec 16)
  /-- A conversion pair or tracking update gives the fine angle, count and mechanical angle (R111); it carries the channel pair and, of a
  resolver, the carrier phase at which it was converted, 2^16 a period, and whether that is of the negative peak (R109). -/
  | positionFineSample (n : Fin 4) (t : BitVec 64) (rs : BitVec 16) (rc : BitVec 16) (ph : BitVec 16) (neg : Bool)
  /-- No valid sample or frame within 20 ms raises ACQ (R115). -/
  | acquisitionTimeout (n : Fin 4)
  /-- A serial position frame starts, or is skipped while one is running (R122). -/
  | psFrameTrigger (h : Fin 2) (t : BitVec 64)
  /-- A BiSS C or SSI frame completes and is used or discarded (R125); it carries SLO at the start, the start bit and its delay, the
  data bits, nE, nW and the CRC as sent. -/
  | psFrameEnd (h : Fin 2) (t : BitVec 64) (slo : Bool) (start : Bool) (dly : BitVec 16) (bits : BitVec 64) (ne : Bool) (nw : Bool) (crc : BitVec 16)
  /-- The repeater emits a quadrature edge at the rate limit (R126). -/
  | repeaterEdgeEmit (h : Fin 2) (t : BitVec 64)
  /-- The sizing run ends, writes results and returns the station to OFF (R128); it carries its tick and whether the
  shaft stood still in the resolver phase item, as R128 has it. -/
  | sizingComplete (n : Fin 4) (t : BitVec 64) (still : Bool)
  /-- The 100 ns scheduler tick latches timebases and evaluates armed slots (R132). -/
  | schedulerTick (h : Fin 2) (t : BitVec 64)
  /-- One update from the sampling instant to new duties at the update boundary (R161); it carries what the update takes from its
  channels. -/
  | currentLoopUpdate (n : Fin 4) (t : BitVec 64) (i : CurIn)
  /-- At the first valley after a PWM_SYNC firing the cell loads the new period (R158). -/
  | pwmSyncLoad (n : Fin 4) (t : BitVec 64)
  /-- A whole period without a firing returns the carrier to PWM_HPER (R158). -/
  | pwmSyncEnd (n : Fin 4)
  /-- A bitstream without transition for 256 modulator clocks raises SDSTUCK (R166). -/
  | sdstuck (n : Fin 4)
  /-- An alignment step time expires and the next alignment step or check runs (R171). -/
  | alignStep (n : Fin 4) (t : BitVec 64)
  /-- A leg's bootstrap below threshold for 100 ns sets BSUV_SEEN (R183); it carries the leg's voltage in 0.1 V. -/
  | bootstrapUndervoltage (n : Fin 4) (leg : Fin 3) (v : BitVec 8)
  /-- A low-side refresh pulse at a peak, with BSFAIL after three failed periods (R183); it carries the leg's voltage at the end of
  the pulse in 0.1 V. -/
  | bootstrapRefreshPulse (n : Fin 4) (leg : Fin 3) (v : BitVec 8)
  /-- Arming ends ARMED with OK or in FAULT with FAULTED (R188); it carries the legs that failed an item, and those whose charge did not
  complete. -/
  | armComplete (n : Fin 4) (legs : BitVec 3) (low : BitVec 3)
  /-- STN_DIAG items end and the completion carries pass and fail bitmaps (R187); it carries the SH voltages of both short tests in
  mV, and the legs that failed OPEN and BST. -/
  | diagComplete (n : Fin 4) (gu : BitVec 16) (gv : BitVec 16) (gw : BitVec 16) (ku : BitVec 16) (kv : BitVec 16) (kw : BitVec 16) (op : BitVec 3) (bs : BitVec 3)
  /-- A soft or absolute VDS comparator trips (R189); it carries the legs, the side and the comparator. -/
  | vdsTrip (n : Fin 4) (legs : BitVec 3) (high : Bool) (hard : Bool)
  /-- A gate fails to reach its level by the end of blanking or dead time (R189). -/
  | gateFollowFail (n : Fin 4) (legs : BitVec 3)
  /-- A soft overcurrent comparator trips in a PWM period (R190); it carries the period before tripped too. -/
  | ocSoftTrip (n : Fin 4) (legs : BitVec 3) (again : Bool)
  /-- The hard overcurrent comparator trips (R190). -/
  | ochard (n : Fin 4) (legs : BitVec 3)
  /-- S<n>_LFLT_N low after its filter turns the station off (R185); it carries the filtered level is low. -/
  | lflt (n : Fin 4) (low : Bool)
  /-- S<n>_LRDY falls with LRDY_REQ set (R185); it carries the level is high. -/
  | lrdy (n : Fin 4) (high : Bool)
  /-- T_MID expires and held gates discharge at the soft current (R193). -/
  | turnoffMidHoldEnd (n : Fin 4)
  /-- Every gate is below 1.5 V and OFF_CONF sets (R193). -/
  | turnoffComplete (n : Fin 4)
  /-- A filtered STO channel goes low and removes torque from the half (R197); it carries the filtered levels. -/
  | stoActive (h : Fin 2) (ch1 : Bool) (ch2 : Bool)
  /-- Both filtered channels high make STO inactive (R198). -/
  | stoRelease (h : Fin 2)
  /-- Channels differ beyond DISC_T and DISC latches (R197). -/
  | stoDiscrepancy (h : Fin 2)
  /-- A DC-link sample every 0.5 µs drives the chopper and BUSOV check (R201); it carries the code of BG_VDC and the level of BG_CHI
  in mV. -/
  | busSample (h : Fin 2) (t : BitVec 64) (v : BitVec 16) (chi : BitVec 16)
  /-- vdc_f below V_UV for 1 ms raises BUSUV and opens the contactor (R202). -/
  | busuv (h : Fin 2)
  /-- No chopper current 2 µs after CHG rises (R206). -/
  | chnofb (h : Fin 2)
  /-- Chopper current above CH_OC or desaturation level (R206); it carries the desaturation level was reached. -/
  | choc (h : Fin 2) (desat : Bool)
  /-- Chopper current for 10 µs with CHG low (R206). -/
  | chstuck (h : Fin 2)
  /-- Zero-vector braking of a holding-class station ends in turn-off and FAULT (R207). -/
  | zeroVectorBrakingEnd (n : Fin 4)
  /-- The link is stable above V_PRE and PRE rises (R210). -/
  | prechargeDone (h : Fin 2)
  /-- Precharge not done within T_PRE_MAX raises PRECHG (R210). -/
  | prechg (h : Fin 2)
  /-- Internal sensors convert and T_reg and throttling factors update (R214); it carries the sensors' readings in 0.1 °C. -/
  | temperatureConversion (r : Fin 3) (rd : List (BitVec 16))
  /-- An external thermal input converts and k_ext updates (R215); it carries the input's code. -/
  | extTemperatureConversion (x : Fin 4) (code : BitVec 12)
  /-- The observer evaluates in open form every 2 µs from phase voltages (R221); it carries the codes of the phase-voltage inputs. -/
  | observerOpenEval (n : Fin 4) (t : BitVec 64) (u : BitVec 16) (v : BitVec 16) (w : BitVec 16)
  /-- After 5 ms of open-form observation at entry to RUN the station checks rotation (R225). -/
  | rotationCheck (n : Fin 4)
  /-- Reverse rotation persists to T_REVWAIT and raises REVROT (R225). -/
  | reverseWaitTimeout (n : Fin 4)
  /-- T_ALIGN ends and the open-loop ramp starts (R227). -/
  | startAlignEnd (n : Fin 4)
  /-- No handover within T_HAND_MAX raises STARTFAIL (R227). -/
  | startHandoverTimeout (n : Fin 4)
  /-- EMF stays below EMF_MIN from 5 ms and the shaft counts as stopped (R235). -/
  | catchStopped (n : Fin 4)
  /-- No lock or stop within 200 ms raises CATCHFAIL (R235). -/
  | catchTimeout (n : Fin 4)
  /-- A triggered loop slot update computes its output by type (R244). -/
  | loopSlotUpdate (h : Fin 2) (m : Fin 48) (t : BitVec 64)
  /-- At the pacer's next update the group's bank in force inverts (R256). -/
  | bankSwapBoundary (h : Fin 2) (g : Fin 16) (t : BitVec 64)
  /-- The set-point port converts its analogue input every 10 µs (R257); it carries the converted code. -/
  | setpointConversion (h : Fin 2) (t : BitVec 64) (code : BitVec 16)
  /-- A filtered rising edge on SP<k>_PIN is counted (R257); it carries a rising edge. -/
  | setpointPulseEdge (h : Fin 2) (t : BitVec 64) (rising : Bool)
  /-- Set-point signal lost for LOS_T or PULSE_TO raises SPLOS (R259); it carries the pulse input, else the analogue input. -/
  | splos (h : Fin 2) (pulse : Bool)
  /-- A slot state parity error puts the slot in its safe state (R262). -/
  | sloterr (h : Fin 2) (m : Fin 48)
  /-- An engine error takes the loop engine out of service (R262). -/
  | lenerr (h : Fin 2)
  /-- Training completes with matching identity sets and the link is UP (R266); it carries the set received. -/
  | linkUp (l : Link) (x : Ident)
  /-- An echo ordered set every 1 ms measures link delay (R266); it carries half a round trip. -/
  | linkDelayMeasure (l : Link) (d : BitVec 20)
  /-- No valid symbol for 1 µs takes the link DOWN (R267). -/
  | lnkloss (l : Link)
  /-- LATE_MAX consecutive cycles with late frames take the link DOWN (R267). -/
  | lnklate (l : Link)
  /-- Mismatching identity sets hold the link (R267); it carries the set received. -/
  | lnkid (l : Link) (x : Ident)
  /-- A third DOWN or OUT within 1 s holds the link (R267). -/
  | lnkflap (l : Link)
  /-- A DOWN link retries training every 1 ms (R267). -/
  | linkRetrain (l : Link)
  /-- At t_c records latch and the chip launches its frame (R271). -/
  | shareCycleStart (t : BitVec 64)
  /-- A frame copy is checked, used or discarded and forwarded (R274); it carries the words with the CRC, how the frame ended, a code
  error inside it, the reception instant of its opening symbol in 156.25 ps, the tick of its closing symbol, the delays of the earlier
  links and the residence time. -/
  | hatbandFrameReceived (l : Link) (ws : List Word) (e : FrameEnd) (err : Bool) (rx : BitVec 68) (t : BitVec 64) (path : BitVec 20) (res : BitVec 20)
  /-- At t_u cycle data come into force and allocations are computed (R276). -/
  | shareCycleUse (t : BitVec 64)
  /-- HOLD lasts T_HOLD; the station takes its fallback (R286). -/
  | allocloss (n : Fin 4)
  /-- No root frame for 1 ms; the chip takes the root role and SYNC_OK clears (R278). -/
  | rootTimeout
  /-- Both links not UP for 1 ms raises ALONE (R280). -/
  | alone
  /-- No SYNC_OK within 200 ms of a link becoming UP (R288). -/
  | nosync
  /-- The master half updates every running service each 100 µs (R300). -/
  | serviceTick (t : BitVec 64)
  /-- Carriage deviation above CHK_TOL in three ticks stops the drum (R306). -/
  | spooldev (k : Fin 16)
  /-- No motion-reference frame for T_MRU fades compensation out (R307). -/
  | heaveloss (k : Fin 16)
  /-- No power-limit frame for T_PMS uses P_SAFE (R308). -/
  | pmsloss (k : Fin 16)
  /-- T_KEEP ends after a shed trigger and the factor starts to rise (R309). -/
  | shedKeepEnd (k : Fin 16)
  /-- No half holds the token for 1 ms and services end with REGION_DOWN (R303). -/
  | serviceTokenTimeout
  /-- T_BRK after brake release ends and the station follows its command (R291). -/
  | brakeReleaseDelayEnd (n : Fin 4)
  /-- Speed below W_STOP for T_DWELL ends a stop or starts the hold-brake sequence (R292). -/
  | stopDwellEnd (n : Fin 4)
  /-- T_BRK after the brake applies, I* ramps to zero (R293). -/
  | holdBrakeUnload (n : Fin 4)
  /-- T_UNLOAD ends and the station turns off to OFF (R293). -/
  | holdBrakeEnd (n : Fin 4)
  /-- A stop not ended within T_STOP_MAX makes a fault stop (R295). -/
  | stopto (n : Fin 4)
  /-- A token access without answer for 2 µs makes the half ISOLATED (R378). -/
  | isolationEntry (h : Fin 2)
  /-- Token answered for 1 ms; the half leaves ISOLATED (R378). -/
  | isolationEnd (h : Fin 2)
  /-- The axis planner updates reference position and velocity each 1 µs (R321). -/
  | plannerTick (h : Fin 2) (t : BitVec 64)
  /-- The step engine emits a step at its step instant (R313). -/
  | axisStep (n : Fin 4) (t : BitVec 64)
  /-- At the common start tick group members begin their path (R326); it carries the members. -/
  | axisGroupStart (g : BitVec 4) (t : BitVec 64)
  /-- A coil chopper cycle of drive, fast decay and slow decay (R316). -/
  | axisChopperCycle (n : Fin 4) (coilB : Bool)
  /-- No threshold crossing within 100 µs; NOREACH counts (R316). -/
  | axisChopperNoreach (n : Fin 4) (coilB : Bool)
  /-- Coil sense above OC_MV for 100 ns (R317). -/
  | axoc (n : Fin 4)
  /-- No step for T_HOLD puts the coils in standby (R318). -/
  | axisStandby (n : Fin 4)
  /-- T_ENER ends and the first step of a move from standby may start (R318). -/
  | axisEnergised (n : Fin 4) (t : BitVec 64)
  /-- A filtered STEP input edge changes the coarse count (R328); it carries the DIR level. -/
  | axisStepInputEdge (n : Fin 4) (t : BitVec 64) (dir : Bool)
  /-- A received frame is filtered and stored in a partition entry or dropped (R340); it carries whether it is a remote frame, and the
  frame. -/
  | canFrameReceived (c : Fin 4) (t : BitVec 64) (rtr : Bool) (f : CanFrame)
  /-- The 1 ms notice delay ends and a deferred CAN_RX notice is queued (R342). -/
  | canRxNoticeDelay (c : Fin 4)
  /-- A TX entry wins arbitration and is acknowledged or retried (R343); it carries it was acknowledged. -/
  | canFrameSent (c : Fin 4) (ack : Bool)
  /-- TX_TO expires and the send completes with TIMEOUT (R343). -/
  | canTxTimeout (c : Fin 4) (ix : Fin 32)
  /-- 128 × 11 recessive bits end recovery; the controller is error-active (R344). -/
  | canRecoveryComplete (c : Fin 4)
  /-- Internal TXD dominant for 1.5 ms releases the bus (R336). -/
  | txdDominantTimeout (c : Fin 4)
  /-- An active master sends a reference message each period (R349). -/
  | timeReferenceSend (c : Fin 4) (t : BitVec 64)
  /-- A reference message updates the network time offset (R351); it carries the message. -/
  | timeReferenceReceived (c : Fin 4) (t : BitVec 64) (f : CanFrame)
  /-- A backup hears no higher priority for (2 + priority) periods and becomes active (R350). -/
  | timeBackupActivate (c : Fin 4)
  /-- No valid pair for 3 periods clears NT_OK (R351). -/
  | ntloss (c : Fin 4)
  /-- A cell finds its own error and enters its safe state (R367). -/
  | cellError (x : Cell)
  /-- A block goes out of service and starts steaming (R368). -/
  | blockError (b : Block)
  /-- Steaming ends in pass, restoring the block, or fail, marking it lasting (R368); it carries every pattern passed. -/
  | steamingEnd (x : Steamed) (ok : Bool)
  /-- Every SRAM and queue RAM is scrubbed every 10 ms (R366); it carries the single-bit errors that the pass corrected. -/
  | ramScrub (k : BitVec 16)
  /-- LOCKSTEP or RAMECC restarts the region by Table FH-4 (R372); it carries RAMECC, else LOCKSTEP. -/
  | regionError (r : Fin 3) (ram : Bool)
  /-- The restarted region runs again and writes its record (R372). -/
  | regionRestartComplete (r : Fin 3)
  /-- An arbiter compare mismatch resets the chip (R374). -/
  | arberr
  /-- A half sends a heartbeat every 10 µs (R379). -/
  | heartbeatSend (h : Fin 2)
  /-- A heartbeat from the other half arrives (R379). -/
  | heartbeatReceived (h : Fin 2)
  /-- No heartbeat within 11 µs; on the second miss a follower takes the token (R379). -/
  | heartbeatMiss (h : Fin 2)
  /-- A trigger leaves the FIFO and its record is captured into staging (R389). -/
  | recordCapture
  /-- The NVA writer writes the oldest staged record (R393). -/
  | recordNvaWrite
  /-- The write bucket gains one token per millisecond (R393). -/
  | recorderBucketRefill
  /-- A new JTAG instruction takes effect, resetting the chip if intrusive (R428); it carries the instruction. -/
  | tapUpdateIr (ir : BitVec 8)
  /-- TRST_N low or Test-Logic-Reset resets the test port (R426). -/
  | tapReset
  /-- Every 10 µs while the station's current loop is not running, the position cell recomputes PF_SPEED, including the ZERO_TO and
  bound decay (R119). -/
  | positionSpeedUpdate (n : Fin 4) (t : BitVec 64)
  /-- After a BAD_LENGTH the UART receiver, having ignored bytes, finds the line idle for two character times and starts to look for
  the next sync word (R70). -/
  | uartIdleResync
  /-- An inner reply or completion of a forwarded command arrives back over the hatband and is sent out wrapped in an outer packet,
  freeing the outer tag on the final reply (R72); it carries the inner packet from position `p`. -/
  | forwardedReplyReceived (p : Fin 8) (ws : List Word)
  /-- After EN goes to 1, or after CLK_FB clears, the controller sees 11 consecutive recessive bits and becomes error-active with ACT
  set (R339). -/
  | canBusIntegrated (c : Fin 4)
  /-- A stuff, form, CRC, bit or acknowledge error on the bus updates LEC and the error counters and may make the controller error-
  passive (R344); it carries the error code, whether the controller was sending, and whether the error counts 8. -/
  | canErrorDetected (c : Fin 4) (lec : Fin 8) (tx : Bool) (heavy : Bool)
  /-- With PSRC = 1 an edge on S<n>_PLx or S<n>_ENx from another controller switches the gate cell after synchronisation, filter and
  dead time (R177); it carries the pins' levels. -/
  | linkPulseInputEdge (n : Fin 4) (leg : Fin 3) (t : BitVec 64) (level : Bool) (en : Bool)
  /-- The carrier crosses a compare value, the pulse level changes, and after the dead time the gate cell switches a transistor on
  (R176). -/
  | pwmCarrierEdge (n : Fin 4) (leg : Fin 3) (t : BitVec 64)
  deriving DecidableEq, Repr

end Sys2Proof
end

