-- ==== Sys2Proof/Decode.lean ====
section
/-!
DEFINITION. Words of the opcode table. spec/opcode_table.json gives no row any bits: its rows are commands and events of a block, not
encoded instructions, so no word spells one. The packets of chapter 4 are decoded where they arrive (`State.packetIn`).
-/
namespace Sys2Proof

/-- The command that a word spells by the table's bits: none, for every row. -/
def decodeTableWord (_nbits _w : Nat) : Option Instr := none

end Sys2Proof
end

