-- ==== Sys2Proof/Config.lean ====
section
/-!
DEFINITION. What the specification leaves to the part: the open values, each a constant with no body, so that nothing can be proved of
its value.
-/
namespace Sys2Proof.Config

/-- The value at the n-th use of a value that the specification leaves open (DESIGN CHOICE, log entry 2). `State.free` counts the uses. -/
opaque freeValue : Nat → Nat

/-- The Milliner ROM version that IDENTIFY returns; no rule states it (R82, DESIGN CHOICE, log entry 2). -/
opaque romVersion : Nat

/-- Another chip on the wire-OR holds FAULT_N low at a tick (R36): an input of the block that no row reports (DESIGN CHOICE, log entry 64). -/
opaque faultWire : Nat → Bool

/-- VIN and VGD in mV at the n-th conversion of `CHIP_SUPPLY_MEAS`, one every 10 µs (R63): inputs that no row reports (DESIGN CHOICE, log
entry 64). -/
opaque supplyMv : Nat → Nat × Nat

/-- Bootstrap voltage of a station's leg in a microsecond, 0.1 V (R182): an input that no row reports but at a refresh or an undervoltage
(DESIGN CHOICE, log entry 84). -/
opaque bootVolts : Nat → Nat → Nat → Nat

/-- Where in a chopper cycle that started at a tick the comparator of an axis's coil has found a crossing, in ticks after that start (R316): an
input that no row reports (DESIGN CHOICE, log entry 102). -/
opaque coilCross : Nat → Bool → Nat → Nat

/-- What IDCODE shows as the part where the fuses name none (R426; DESIGN CHOICE, log entry 113). -/
opaque blankPart : Nat

/-- The angle that a handback takes at an I* with `I_OL` 0, where R229's quotient has no value (DESIGN CHOICE, log entry 107). -/
opaque handAngle : Int → Nat

/-- One update of the resolver's tracking loop: from its bandwidth code, its angle in 2^-32 of a revolution, its speed and the demodulated pair of the
windings, the next angle and speed. R109 gives the loop's type and bandwidth, and not its gains (DESIGN CHOICE, log entry 75). -/
opaque trackLoop : Nat → Nat → Int → Int → Int → Nat × Int

/-- `RES_PHASE` that the two sums of the larger winding's correlation give (R128); no rule gives the arithmetic (DESIGN CHOICE, log entry 75). -/
opaque resPhase : Int → Int → Nat

end Sys2Proof.Config
end

