-- ==== Sys2Proof/Machine/State.lean ====
section
/-!
DEFINITION. The block's state, as plain data. Every register field, and every number a block keeps for itself, stands in `regs`
at its bit address (8 × byte address + lowest bit), held as its difference from its reset value, so that an unlisted field
reads as reset and equal states are equal data. What is no number of a register (queues, lists of faults, records, images,
frames, phases) has a typed field of its own.
-/
namespace Sys2Proof.Machine

/-- A sparse map from addresses to whole numbers: an unlisted address holds 0; keys rise and no entry is 0 (`Sparse.wf`). -/
abbrev Sparse := List (Nat × Int)

/-- A field of a register: its offset in its unit, lowest bit, width, sign (R4) and reset value (R10), and whether the chip sets it for a
write of 1 to clear (W1C), or counts in it for a read to clear (RC, Table SC-2). -/
structure Fld where
  off  : Nat
  lo   : Nat
  w    : Nat
  sgn  : Bool
  dflt : Int
  w1c  : Bool := false
  rc   : Bool := false
  deriving DecidableEq, Repr

/-- What the chip has done at tick `tick` to its W1C and RC fields (R7): by bit address, the bits it has set, or an RC field's value before
its first event of the tick and the events counted since. -/
structure Marks where
  tick : Nat
  set  : List (Nat × Nat)
  cnt  : List (Nat × Int × Int)
  deriving DecidableEq, Repr

/-- Access types of Table SC-2. -/
inductive Acc where
  | rw | ro | w1c | wk | ws | rc
  deriving DecidableEq, Repr

/-- The unit whose base address a register's offset counts from (Tables AR-5 and AR-6). `stn0` is the position area of a half's
first station, which holds the serial port and the repeater of the half. -/
inductive Area where
  | abs | half | stn | stn0 | axs | can
  deriving DecidableEq, Repr

/-- A field with its access type, its stated range, and whether its reset value comes from the configuration. -/
structure FD where
  f   : Fld
  acc : Acc
  rng : Option (Int × Int)
  cfg : Bool
  deriving DecidableEq, Repr

/-- A register: its area, offset, words, copies and their stride, and its fields. -/
structure RegD where
  area   : Area
  off    : Nat
  words  : Nat
  count  : Nat
  stride : Nat
  flds   : List FD
  deriving DecidableEq, Repr

/-- The four parts (R2, R20). -/
inductive Part where
  | cx9440 | cx9430 | cx9420 | cx9410
  deriving DecidableEq, Repr

/-- Where the chip stands between supply off and running (R48, R49, R57). -/
inductive Phase where
  /-- Supply below VIN_START, or in brown-out. -/
  | off
  /-- RESET_N low; the flush is over. -/
  | reset
  /-- RESET_N or an arbiter error taken; the recorder's flush is running. -/
  | resetFlush
  /-- Table PW-5 before Step 7. -/
  | starting
  /-- Steps 7 to 11 of Table PW-5: the restricted command set. -/
  | restricted
  /-- READY high. -/
  | running
  /-- SLEEP accepted, entry not complete. -/
  | sleepEntry
  | asleep
  /-- Die shutdown latched; the flush may still run. -/
  | shutdown
  deriving DecidableEq, Repr

/-- A region's own condition (R372, R373). -/
inductive RegSt where
  | down | run | restarting | held
  deriving DecidableEq, Repr

/-- The instructions of the test access port (Table PT-4). -/
inductive TapInstr where
  | idcode | samplePreload | extest | clamp | highz | bypass
  deriving DecidableEq, Repr

/-- Chip-level state behind the registers of chapters 1 to 3. `fuseA` and `fuseB` are the two stored copies of the part fuse, none where a
copy decodes to no valid part, and `grade` the two copies of the grade fuse (R28). -/
structure Chip where
  phase     : Phase
  regions   : Vector RegSt 3
  fuseA     : Option Part
  fuseB     : Option Part
  grade     : Nat × Nat
  /-- The die-shutdown latch of the always-on domain (R55). -/
  dieLatch  : Bool
  /-- VIN fell below the shutdown-latch clear threshold since the last start (R54). -/
  vinLost   : Bool
  /-- The reset under way was an arbiter error (R374). -/
  arbPend   : Bool
  /-- RESET_N is low. -/
  resetLow  : Bool
  /-- What the latest start-up sampled, or RESET_N's rise supplied for the next (R34, R49). -/
  boot      : Boot
  /-- A wake event during sleep entry (R59). -/
  wakePend  : Option WakeCause
  /-- Sleep was selective-wake (R57, R58). -/
  selective : Bool
  /-- The wake frames a SLEEP command carried, seven words each for C0 and C1 (Table PK-12). -/
  wakeFrame : List Nat
  /-- The level of READY (R35). -/
  ready     : Bool
  /-- The instruction in force in the test access port (R427). -/
  ir        : TapInstr
  /-- The port is in Test-Logic-Reset, where TRST_N low holds it (R426). -/
  tapOff    : Bool
  /-- The update latches of the boundary register, the cell next to TDI lowest, as EXTEST or CLAMP found them (R429). -/
  latches   : Nat
  /-- The chip is in reset for an intrusive instruction (R428). -/
  tapHold   : Bool
  /-- The supply was lost or the chip slept since the mailboxes last started (R363, R364). -/
  mbxLost   : Bool
  deriving DecidableEq, Repr

/-- A Milliner packet (Tables PK-1 and PK-2), with its payload as words. -/
structure Packet where
  cls     : Nat
  tag     : Nat
  opcode  : Nat
  want    : Bool
  snap    : Bool
  scope   : Nat
  index   : Nat
  status  : Nat
  detail  : Nat
  payload : List Nat
  /-- On the hatband, the ring position it goes to (R72). -/
  dest    : Nat := 0
  deriving DecidableEq, Repr

/-- The three outbound queues of a transport (R78); one list keeps the order in which packets were queued. -/
inductive QKind where
  | reply | reject | notice
  deriving DecidableEq, Repr

/-- A transport's outbound side (R78): what is queued, whether a rejection or a notice has been lost since the last one sent,
and the rolling notice count. -/
structure Port where
  out     : List (QKind × Packet)
  rejLost : Bool
  evtLost : Bool
  count   : Nat
  deriving DecidableEq, Repr

/-- An accepted command whose final reply is still owed (R74). `fwd` is the ring position a forwarded command went to (R72). `late` holds the
packets of a command whose work is done, while an earlier command to the same loop engine has its first reply outstanding (R76). -/
structure Busy where
  tag   : Nat
  op    : Nat
  want  : Bool
  snap  : Bool
  scope : Nat
  index : Nat
  tr    : Transport
  fwd   : Option Nat
  arg   : Nat
  late  : List Packet := []
  deriving DecidableEq, Repr

/-- A tunnel message under assembly on one port, or one that has been discarded and whose last segment has not come (R71). -/
structure TunAsm where
  segTag : Nat
  next   : Nat
  bytes  : List Byte
  dead   : Bool := false
  deriving DecidableEq, Repr

/-- Milliner: the seven outbound ports (SPI, UART, tunnels of C0 to C3, hatband), the busy tags, the UART receiver's
resynchronisation, the tunnel assemblies, the snapshot buffer of R79, and what SPI and UART last sent. -/
structure Mil where
  ports   : Vector Port 7
  busy    : List Busy
  uartBad : Bool
  tun     : Vector (Option TunAsm) 4
  /-- Snapshot buffer: tick, regions, tag, opcode, values. -/
  snap    : Option (Nat × Nat × Nat × Nat × List Nat)
  /-- Bytes the last SPI window clocked out on MISO. -/
  miso    : List Byte
  /-- Bytes the last UART transmission sent. -/
  uartTx  : List Byte
  /-- Host firmware has lost contact: the interval of the watchdog is running (R81). -/
  wdArmed : Bool
  deriving DecidableEq, Repr

/-- A station record of a hatband frame (Table LS-3). -/
structure StnRec where
  rsn     : Nat
  mode    : Nat
  follow  : Bool
  limited : Bool
  pvalid  : Bool
  torque  : Int
  speed   : Int
  pos     : Int
  head    : Int
  deriving DecidableEq, Repr

/-- An allocation record (Table LS-4). -/
structure AllocRec where
  rsn   : Nat
  group : Nat
  epoch : Nat
  alloc : Int
  deriving DecidableEq, Repr

/-- A segment of the mailbox window (Table MB-1). -/
structure Seg where
  kind  : Nat
  dest  : Nat
  seq   : Nat
  first : Bool
  last  : Bool
  data  : List Nat
  deriving DecidableEq, Repr

/-- A hatband frame (Table LS-2). -/
structure Frame where
  type    : Nat
  origin  : Nat
  ringNo  : Nat
  cycle   : Nat
  hops    : Nat
  root    : Bool
  clkfb   : Bool
  sync    : Bool
  epoch   : Nat
  tlaunch : Nat
  corr    : Nat
  gsig    : Nat
  stns    : List StnRec
  allocs  : List AllocRec
  segs    : List Seg
  deriving DecidableEq, Repr

/-- The hatband: frames of the cycle in progress and of the cycle in force, the allocation records computed for the next frame,
what the links last sent (0 west, 1 east) with how it ended, and the ticks at which links went out. -/
structure Hat where
  frames  : List Frame
  inForce : List Frame
  alloc   : List AllocRec
  tx      : List (Nat × List Nat × FrameEnd)
  downs   : List (Nat × Nat)
  /-- Words already sent of the oldest ring reply, and of the oldest forwarded command (R358). -/
  fwdSent : Nat
  cmdSent : Nat
  /-- Commands forwarded by this chip that wait for the window: position and packet words (R72). -/
  fwdOut  : List (Nat × List Nat)
  deriving DecidableEq, Repr

/-- What a chip keeps of one ring position's mailbox (R355 to R364). `out` holds the posts not wholly sent, `outSent` the words of
the oldest that are sent, `sent` is S and `credit` F; `inq` holds words with their sender epoch, for the own position those of the
local queue. -/
structure Peer where
  out     : List (List Nat)
  outSent : Nat
  sent    : Nat
  credit  : Nat
  inq     : List (Nat × Nat)
  /-- Epoch of the last word fetched; 0 before any. -/
  lastEp  : Nat
  /-- Latest epoch heard from the position, and the latest that a credit of it showed; 0 before any. -/
  peerEp  : Nat
  credEp  : Nat
  /-- F of the words received from the position, and its value in the latest credit sent. -/
  fetched : Nat
  credOut : Nat
  /-- Cycles since the latest credit sent. -/
  credAge : Nat
  /-- A post under assembly: its epoch, its length and the words so far. -/
  asm     : Option (Nat × Nat × List Nat)
  /-- Data segments up to the next FIRST are of a post that is discarded already, or that began before this end listened. -/
  skip    : Bool
  seqTx   : Nat
  seqRx   : Option Nat
  /-- Words discarded at this chip's latest reset, 0xFFFF when not known (R359, R363). -/
  disc    : Nat
  /-- Doorbell mask waiting to be sent. -/
  bell    : Nat
  /-- Stages before data may go after a start of this chip: 3 no credit segment of the new epoch has been sent, 2 it goes in this cycle, 1 the
  position's own is awaited, 0 none (R359; DESIGN CHOICE, log entry 100). -/
  hold    : Nat
  deriving DecidableEq, Repr

/-- An RX entry owned by software (R341, Table PK-13): its index, the frame, the filter that took it and its reception tick. -/
structure RxEnt where
  ix   : Nat
  fr   : CanFrame
  flt  : Nat
  tick : Nat
  deriving DecidableEq, Repr

/-- A TX entry that carries a frame of CAN_SEND (R343). -/
structure TxEnt where
  ix : Nat
  fr : CanFrame
  deriving DecidableEq, Repr

/-- A CAN controller's queues: RX entries owned by software, entries withdrawn after an ECC error with whether they steam (R346; numbered as in
`Steamed`), TX entries of CAN_SEND, the tunnel bytes of the oldest outbound packet that have been acknowledged, the frame the controller last
sent, the RX entries released at a tick (R341), and the registers of the controller as they stood before each write of a filter since the
latest start of frame received, with the tick of that write, oldest first (R340). -/
structure CanS where
  rx      : List RxEnt
  gone    : List (Nat × Bool)
  tx      : List TxEnt
  tunSent : Nat
  lastTx  : Option CanFrame
  freed   : List Nat
  freedT  : Nat
  fltOld  : List (Nat × Sparse)
  deriving DecidableEq, Repr

/-- A commit or seal in progress (R98, R102). -/
structure Commit where
  image   : Sparse
  target  : Nat
  sealing : Bool
  tag     : Nat
  seq     : Nat
  /-- The key must be held until SEQ is written (R96). -/
  keyed   : Bool
  /-- A felt record is reserved (R103). -/
  felt    : Bool
  deriving DecidableEq, Repr

/-- The configuration store: the two NVA slots, the image in force and the staging area as words at their word offset, the seal
mark, and a commit in progress. -/
structure CfgStore where
  slots    : Vector Sparse 2
  inForce  : Sparse
  staging  : Sparse
  sealMark : Bool
  commit   : Option Commit
  deriving DecidableEq, Repr

/-- A stamped trigger (R386). `data` is the fixed content its unit supplies, where Table ER-4 gives one. -/
structure Trig where
  trig   : Nat
  region : Nat
  code   : Nat
  tick   : Nat
  rseq   : Nat
  felt   : Bool
  /-- Felt-bound, but every felt record was in use (R396). -/
  redir  : Bool
  data   : List Nat
  deriving DecidableEq, Repr

/-- A record (Table ER-3). -/
structure Recd where
  felt   : Bool
  seq    : Nat
  tick   : Nat
  trig   : Nat
  redir  : Bool
  part   : Bool
  region : Nat
  code   : Nat
  rep    : Nat
  lost   : Nat
  rseq   : Nat
  data   : List Nat
  deriving DecidableEq, Repr

/-- What a flush in progress was started by (R394). -/
inductive FlushKind where
  | powerFail | reset | shutdown | sleep
  deriving DecidableEq, Repr

/-- The recorder: FIFO, staging buffer, the two NVA areas (felt records by number, circulating records by number), the write
bucket, lost counts, sequence numbers and reservations. -/
structure Recorder where
  fifo     : List Trig
  staging  : List Recd
  felt     : List Recd
  circ     : List Recd
  bucket   : Nat
  pendLost : Nat
  halfLost : Vector Nat 2
  rseq     : Vector Nat 3
  nextFelt : Nat
  nextCirc : Nat
  reserved : Nat
  flush    : Option FlushKind
  /-- SH ran as the flush of a RESET_N began, and runs until it ends (R48 Step 4). -/
  flushSh  : Bool
  /-- The lost-count word of the recorder pointer area (R394). -/
  lostWord : Nat
  /-- The NVA copy of `MBX_EPOCH`, kept with the recorder pointers (R364). -/
  nvaEpoch : Nat
  deriving DecidableEq, Repr

/-- The units that keep a fault list (R375). -/
inductive FUnit where
  | chip
  | region (r : Fin 3)
  | stn (n : Fin 4)
  | axs (n : Fin 4)
  | bgd (h : Fin 2)
  | can (c : Fin 4)
  deriving DecidableEq, Repr

/-- An active fault entry (R375), with the tick of its latest occurrence (R377). -/
structure FEntry where
  unit    : FUnit
  code    : Nat
  occ     : Nat
  tick    : Nat
  last    : Nat
  lasting : Bool
  /-- What the errors of the entry took out of service and has not been restored (R368, R377). -/
  out     : List Steamed
  deriving DecidableEq, Repr

/-- A SELFTEST in progress (R371): its tag, the blocks still to be steamed, the first of them now, and the first failing cause. -/
structure SelfTest where
  tag   : Nat
  todo  : List Block
  cause : Nat
  deriving DecidableEq, Repr

/-- The fault unit's lists, the lists that have overflowed, and the ticks of past transient errors and region restarts (R370,
R373). -/
structure Faults where
  list    : List FEntry
  ovf     : List FUnit
  trans   : List (Steamed × Nat)
  restart : List (Nat × Nat)
  /-- Ticks of entries to CATCH, by station (R236). -/
  catches : List (Nat × Nat)
  /-- Self-tests in progress. -/
  tests   : List SelfTest
  deriving DecidableEq, Repr

/-- Why a step may stop: no rule of the specification leaves a command or event without an effect, so no meaning raises one;
the type keeps one constructor for a machine description that is not the one reset gives. -/
inductive Fault where
  /-- Raised by nothing. Safe. -/
  | none
  deriving DecidableEq, Repr

/-- Refusals. -/
inductive Refusal where
  /-- Raised only by an arm of `exec` whose row has no meaning yet; safe. -/
  | notModelled (mnemonic : String)
  deriving DecidableEq, Repr

/-- The block. `time` is the chip arbiter's count (R22). -/
structure State where
  time    : Nat
  /-- Register fields and block-internal numbers, as differences from their reset values. -/
  regs    : Sparse
  /-- Tables in force, by word offset in the image (Table CF-4), as differences from their default content. -/
  tabs    : Sparse
  /-- Captured upper words of multi-word quantities, by bit address (R9). -/
  shadows : List (Nat × Int)
  /-- Low words written and held until the highest word is written, by bit address (R9). -/
  held    : List (Nat × Int)
  /-- Uses so far of values the specification leaves open; the model's own. -/
  free    : Nat
  /-- What the present tick has set and counted (R7). -/
  marks   : Marks
  chip    : Chip
  mil     : Mil
  hat     : Hat
  mbx     : Vector Peer 8
  can     : Vector CanS 4
  /-- Microstep entries that a coil's running chopper cycle still has, the tables in force being loaded anew (R315): offset in the image,
  coil B, word. -/
  axOld   : List (Nat × Bool × Nat)
  /-- Service parameters accepted and waiting for the next service tick (R302): handle, index, value. -/
  svcNew  : List (Nat × Nat × Int)
  cfg     : CfgStore
  log     : Recorder
  flt     : Faults
  pending : List Instr
  deriving DecidableEq, Repr

/-! ### The state before the first supply -/

/-- A mailbox at power-on (R359, R363). -/
def Peer.zero : Peer :=
  { out := [], outSent := 0, sent := 0, credit := 0, inq := [], lastEp := 0, peerEp := 0, credEp := 0, fetched := 0, credOut := 0, credAge := 0,
    asm := none, skip := true, seqTx := 0, seqRx := none, disc := 0xFFFF, bell := 0, hold := 0 }

/-- A CAN controller's queues, empty. -/
def CanS.zero : CanS := { rx := [], gone := [], tx := [], tunSent := 0, lastTx := none, freed := [], freedT := 0, fltOld := [] }

/-- An outbound port, empty. -/
def Port.zero : Port := { out := [], rejLost := false, evtLost := false, count := 0 }

/-- Milliner with nothing queued, no tag busy and its watchdog disarmed. -/
def Mil.zero : Mil :=
  { ports := Vector.replicate 7 Port.zero, busy := [], uartBad := false, tun := Vector.replicate 4 none, snap := none, miso := [],
    uartTx := [], wdArmed := false }

/-- The hatband with no frame. -/
def Hat.zero : Hat := { frames := [], inForce := [], alloc := [], tx := [], downs := [], fwdSent := 0, cmdSent := 0, fwdOut := [] }

/-- The configuration store of a part that has never been written (DESIGN CHOICE, log entry 3). -/
def CfgStore.zero : CfgStore := { slots := Vector.replicate 2 [], inForce := [], staging := [], sealMark := false, commit := none }

/-- The recorder of a part that has never been supplied. -/
def Recorder.zero : Recorder :=
  { fifo := [], staging := [], felt := [], circ := [], bucket := 64, pendLost := 0, halfLost := Vector.replicate 2 0,
    rseq := Vector.replicate 3 0, nextFelt := 0, nextCirc := 0, reserved := 0, flush := none, flushSh := false, lostWord := 0, nvaEpoch := 0 }

/-- Fault lists, empty. -/
def Faults.zero : Faults := { list := [], ovf := [], trans := [], restart := [], catches := [], tests := [] }

/-- The chip without supply. Its fuses say CX9440-M (DESIGN CHOICE, log entry 4). -/
def Chip.zero : Chip :=
  { phase := .off, regions := Vector.replicate 3 .down, fuseA := some .cx9440, fuseB := some .cx9440, grade := (3, 3), dieLatch := false,
    vinLost := true, arbPend := false, resetLow := false, boot := ⟨0, 0, 0, false, true⟩, wakePend := none, selective := false,
    wakeFrame := [], ready := false, ir := .idcode, tapOff := true, latches := 0, tapHold := false, mbxLost := true }

/-- The block before VIN first rises: no supply, every register at its reset value, nothing stored, no command waiting. The events
POWER_ON and START_UP_COMPLETE bring it to READY (DESIGN CHOICE, log entry 1). -/
def State.reset : State :=
  { time := 0, regs := [], tabs := [], shadows := [], held := [], free := 0, marks := ⟨0, [], []⟩, chip := Chip.zero, mil := Mil.zero, hat := Hat.zero,
    mbx := Vector.replicate 8 Peer.zero, can := Vector.replicate 4 CanS.zero, axOld := [], svcNew := [], cfg := CfgStore.zero, log := Recorder.zero,
    flt := Faults.zero, pending := [] }

end Sys2Proof.Machine
end

