-- ==== Sys2Proof/Machine/Fields.lean ====
section
/-!
DEFINITION. Every field of every register table of the specification, as a named constant: its offset from its unit's
base address, its lowest bit, its width, whether it is signed (R4), and its value at reset: the Reset column's number; for a
CFG field the default of R90; for a field whose Reset column reads "—", 0 (DESIGN CHOICE, log entry 3). Registers of 48 or 64 bits are one
field at their low word (R9). A register that stands several times lists the offset of its first copy.
-/
namespace Sys2Proof.Machine.F


/-! `CHIP_ID` (R20). -/
/-- `CHIP_ID.PART`, [31:16], RO, reset —. -/
def CHIP_ID_PART : Fld := { off := 0x0, lo := 16, w := 16, sgn := false, dflt := 0 }
/-- `CHIP_ID.GRADE`, [15:12], RO, reset —. -/
def CHIP_ID_GRADE : Fld := { off := 0x0, lo := 12, w := 4, sgn := false, dflt := 0 }
/-- `CHIP_ID.STEP_LETTER`, [11:8], RO, reset —. -/
def CHIP_ID_STEP_LETTER : Fld := { off := 0x0, lo := 8, w := 4, sgn := false, dflt := 0 }
/-- `CHIP_ID.STEP_NUM`, [7:4], RO, reset —. -/
def CHIP_ID_STEP_NUM : Fld := { off := 0x0, lo := 4, w := 4, sgn := false, dflt := 0 }
/-- `CHIP_ID.HALF_B`, [3:3], RO, reset —. -/
def CHIP_ID_HALF_B : Fld := { off := 0x0, lo := 3, w := 1, sgn := false, dflt := 0 }
/-- `CHIP_ID.G_LAW`, [2:2], RO, reset —. -/
def CHIP_ID_G_LAW : Fld := { off := 0x0, lo := 2, w := 1, sgn := false, dflt := 0 }

/-! `CHIP_STATUS` (R20). -/
/-- `CHIP_STATUS.SH_RUN`, [0:0], RO, reset 0. -/
def CHIP_STATUS_SH_RUN : Fld := { off := 0x4, lo := 0, w := 1, sgn := false, dflt := 0 }
/-- `CHIP_STATUS.HA_RUN`, [1:1], RO, reset 0. -/
def CHIP_STATUS_HA_RUN : Fld := { off := 0x4, lo := 1, w := 1, sgn := false, dflt := 0 }
/-- `CHIP_STATUS.HB_RUN`, [2:2], RO, reset 0. -/
def CHIP_STATUS_HB_RUN : Fld := { off := 0x4, lo := 2, w := 1, sgn := false, dflt := 0 }
/-- `CHIP_STATUS.MASTER`, [5:4], RO, reset 0. -/
def CHIP_STATUS_MASTER : Fld := { off := 0x4, lo := 4, w := 2, sgn := false, dflt := 0 }
/-- `CHIP_STATUS.HA_ISOL`, [6:6], RO, reset 0. -/
def CHIP_STATUS_HA_ISOL : Fld := { off := 0x4, lo := 6, w := 1, sgn := false, dflt := 0 }
/-- `CHIP_STATUS.HB_ISOL`, [7:7], RO, reset 0. -/
def CHIP_STATUS_HB_ISOL : Fld := { off := 0x4, lo := 7, w := 1, sgn := false, dflt := 0 }
/-- `CHIP_STATUS.CFG_VALID`, [8:8], RO, reset 0. -/
def CHIP_STATUS_CFG_VALID : Fld := { off := 0x4, lo := 8, w := 1, sgn := false, dflt := 0 }
/-- `CHIP_STATUS.READY`, [9:9], RO, reset 0. -/
def CHIP_STATUS_READY : Fld := { off := 0x4, lo := 9, w := 1, sgn := false, dflt := 0 }
/-- `CHIP_STATUS.FAULT_SUM`, [10:10], RO, reset 0. -/
def CHIP_STATUS_FAULT_SUM : Fld := { off := 0x4, lo := 10, w := 1, sgn := false, dflt := 0 }
/-- `CHIP_STATUS.CLK_FB`, [14:12], RO, reset 0. -/
def CHIP_STATUS_CLK_FB : Fld := { off := 0x4, lo := 12, w := 3, sgn := false, dflt := 0 }
/-- `CHIP_STATUS.TB_SRC`, [17:16], RO, reset 0. -/
def CHIP_STATUS_TB_SRC : Fld := { off := 0x4, lo := 16, w := 2, sgn := false, dflt := 0 }
/-- `CHIP_STATUS.TB_RING`, [18:18], RO, reset 0. -/
def CHIP_STATUS_TB_RING : Fld := { off := 0x4, lo := 18, w := 1, sgn := false, dflt := 0 }

/-! `CHIP_PINS` (R20). -/
/-- `CHIP_PINS.ID_STRAP`, [2:0], RO, reset —. -/
def CHIP_PINS_ID_STRAP : Fld := { off := 0x18, lo := 0, w := 3, sgn := false, dflt := 0 }
/-- `CHIP_PINS.STRAP_UNST`, [3:3], RO, reset 0. -/
def CHIP_PINS_STRAP_UNST : Fld := { off := 0x18, lo := 3, w := 1, sgn := false, dflt := 0 }
/-- `CHIP_PINS.PRES_LOW`, [4:4], RO, reset 0. -/
def CHIP_PINS_PRES_LOW : Fld := { off := 0x18, lo := 4, w := 1, sgn := false, dflt := 0 }
/-- `CHIP_PINS.PRES_VALID`, [5:5], RO, reset 0. -/
def CHIP_PINS_PRES_VALID : Fld := { off := 0x18, lo := 5, w := 1, sgn := false, dflt := 0 }
/-- `CHIP_PINS.WAKE_LOW`, [6:6], RO, reset 0. -/
def CHIP_PINS_WAKE_LOW : Fld := { off := 0x18, lo := 6, w := 1, sgn := false, dflt := 0 }
/-- `CHIP_PINS.FAULT_PIN_LOW`, [7:7], RO, reset —. -/
def CHIP_PINS_FAULT_PIN_LOW : Fld := { off := 0x18, lo := 7, w := 1, sgn := false, dflt := 0 }
/-- `CHIP_PINS.FUSE_ALT`, [8:8], RO, reset —. -/
def CHIP_PINS_FUSE_ALT : Fld := { off := 0x18, lo := 8, w := 1, sgn := false, dflt := 0 }

/-! `CHIP_PWR_CTRL` (R61). -/
/-- `CHIP_PWR_CTRL.VGD_SET`, [3:0], WK, reset CFG (default 4). -/
def CHIP_PWR_CTRL_VGD_SET : Fld := { off := 0x60000, lo := 0, w := 4, sgn := false, dflt := 4 }
/-- `CHIP_PWR_CTRL.PFW_LEVEL`, [13:8], RW, reset CFG (default 0). -/
def CHIP_PWR_CTRL_PFW_LEVEL : Fld := { off := 0x60000, lo := 8, w := 6, sgn := false, dflt := 0 }
/-- `CHIP_PWR_CTRL.PFW_STOP`, [16:16], RW, reset CFG (default 0). -/
def CHIP_PWR_CTRL_PFW_STOP : Fld := { off := 0x60000, lo := 16, w := 1, sgn := false, dflt := 0 }
/-- `CHIP_PWR_CTRL.BB_SSC`, [17:17], RW, reset CFG (default 0). -/
def CHIP_PWR_CTRL_BB_SSC : Fld := { off := 0x60000, lo := 17, w := 1, sgn := false, dflt := 0 }

/-! `CHIP_PWR_STAT` (R61). -/
/-- `CHIP_PWR_STAT.VIN_OV`, [0:0], RO, reset 0. -/
def CHIP_PWR_STAT_VIN_OV : Fld := { off := 0x60004, lo := 0, w := 1, sgn := false, dflt := 0 }
/-- `CHIP_PWR_STAT.VIN_OV_SEEN`, [1:1], W1C, reset 0. -/
def CHIP_PWR_STAT_VIN_OV_SEEN : Fld := { off := 0x60004, lo := 1, w := 1, sgn := false, dflt := 0, w1c := true }
/-- `CHIP_PWR_STAT.PFW`, [2:2], RO, reset 0. -/
def CHIP_PWR_STAT_PFW : Fld := { off := 0x60004, lo := 2, w := 1, sgn := false, dflt := 0 }
/-- `CHIP_PWR_STAT.PFW_SEEN`, [3:3], W1C, reset 0. -/
def CHIP_PWR_STAT_PFW_SEEN : Fld := { off := 0x60004, lo := 3, w := 1, sgn := false, dflt := 0, w1c := true }
/-- `CHIP_PWR_STAT.VGD_OK`, [4:4], RO, reset 0. -/
def CHIP_PWR_STAT_VGD_OK : Fld := { off := 0x60004, lo := 4, w := 1, sgn := false, dflt := 0 }
/-- `CHIP_PWR_STAT.VGD_UV_SEEN`, [5:5], W1C, reset 0. -/
def CHIP_PWR_STAT_VGD_UV_SEEN : Fld := { off := 0x60004, lo := 5, w := 1, sgn := false, dflt := 0, w1c := true }
/-- `CHIP_PWR_STAT.BB_ILIM_SEEN`, [6:6], W1C, reset 0. -/
def CHIP_PWR_STAT_BB_ILIM_SEEN : Fld := { off := 0x60004, lo := 6, w := 1, sgn := false, dflt := 0, w1c := true }
/-- `CHIP_PWR_STAT.VIO_18`, [7:7], RO, reset —. -/
def CHIP_PWR_STAT_VIO_18 : Fld := { off := 0x60004, lo := 7, w := 1, sgn := false, dflt := 0 }
/-- `CHIP_PWR_STAT.FLUSH_DONE`, [8:8], RO, reset 0. -/
def CHIP_PWR_STAT_FLUSH_DONE : Fld := { off := 0x60004, lo := 8, w := 1, sgn := false, dflt := 0 }

/-! `CHIP_SUPPLY_MEAS` (R61). -/
/-- `CHIP_SUPPLY_MEAS.VIN_MV`, [15:0], RO, reset —. -/
def CHIP_SUPPLY_MEAS_VIN_MV : Fld := { off := 0x60008, lo := 0, w := 16, sgn := false, dflt := 0 }
/-- `CHIP_SUPPLY_MEAS.VGD_MV`, [31:16], RO, reset —. -/
def CHIP_SUPPLY_MEAS_VGD_MV : Fld := { off := 0x60008, lo := 16, w := 16, sgn := false, dflt := 0 }

/-! `CHIP_RST_CAUSE` (R61). -/
/-- `CHIP_RST_CAUSE.POR`, [0:0], RO, reset —. -/
def CHIP_RST_CAUSE_POR : Fld := { off := 0x6000C, lo := 0, w := 1, sgn := false, dflt := 0 }
/-- `CHIP_RST_CAUSE.RESET_PIN`, [1:1], RO, reset —. -/
def CHIP_RST_CAUSE_RESET_PIN : Fld := { off := 0x6000C, lo := 1, w := 1, sgn := false, dflt := 0 }
/-- `CHIP_RST_CAUSE.BROWNOUT`, [2:2], RO, reset —. -/
def CHIP_RST_CAUSE_BROWNOUT : Fld := { off := 0x6000C, lo := 2, w := 1, sgn := false, dflt := 0 }
/-- `CHIP_RST_CAUSE.WAKE`, [3:3], RO, reset —. -/
def CHIP_RST_CAUSE_WAKE : Fld := { off := 0x6000C, lo := 3, w := 1, sgn := false, dflt := 0 }
/-- `CHIP_RST_CAUSE.WAKE_PIN`, [4:4], RO, reset —. -/
def CHIP_RST_CAUSE_WAKE_PIN : Fld := { off := 0x6000C, lo := 4, w := 1, sgn := false, dflt := 0 }
/-- `CHIP_RST_CAUSE.WAKE_C0_EDGE`, [5:5], RO, reset —. -/
def CHIP_RST_CAUSE_WAKE_C0_EDGE : Fld := { off := 0x6000C, lo := 5, w := 1, sgn := false, dflt := 0 }
/-- `CHIP_RST_CAUSE.WAKE_C1_EDGE`, [6:6], RO, reset —. -/
def CHIP_RST_CAUSE_WAKE_C1_EDGE : Fld := { off := 0x6000C, lo := 6, w := 1, sgn := false, dflt := 0 }
/-- `CHIP_RST_CAUSE.WAKE_C0_FRAME`, [7:7], RO, reset —. -/
def CHIP_RST_CAUSE_WAKE_C0_FRAME : Fld := { off := 0x6000C, lo := 7, w := 1, sgn := false, dflt := 0 }
/-- `CHIP_RST_CAUSE.WAKE_C1_FRAME`, [8:8], RO, reset —. -/
def CHIP_RST_CAUSE_WAKE_C1_FRAME : Fld := { off := 0x6000C, lo := 8, w := 1, sgn := false, dflt := 0 }
/-- `CHIP_RST_CAUSE.WAKE_C0_FEC`, [9:9], RO, reset —. -/
def CHIP_RST_CAUSE_WAKE_C0_FEC : Fld := { off := 0x6000C, lo := 9, w := 1, sgn := false, dflt := 0 }
/-- `CHIP_RST_CAUSE.WAKE_C1_FEC`, [10:10], RO, reset —. -/
def CHIP_RST_CAUSE_WAKE_C1_FEC : Fld := { off := 0x6000C, lo := 10, w := 1, sgn := false, dflt := 0 }
/-- `CHIP_RST_CAUSE.SLEEP_ABORT`, [11:11], RO, reset —. -/
def CHIP_RST_CAUSE_SLEEP_ABORT : Fld := { off := 0x6000C, lo := 11, w := 1, sgn := false, dflt := 0 }
/-- `CHIP_RST_CAUSE.ARBITER`, [12:12], RO, reset —. -/
def CHIP_RST_CAUSE_ARBITER : Fld := { off := 0x6000C, lo := 12, w := 1, sgn := false, dflt := 0 }

/-! `CHIP_CLK_CTRL` (R61). -/
/-- `CHIP_CLK_CTRL.FB_RETURN`, [0:0], RW, reset CFG (default 0). -/
def CHIP_CLK_CTRL_FB_RETURN : Fld := { off := 0x60010, lo := 0, w := 1, sgn := false, dflt := 0 }

/-! `CHIP_CLK_STAT` (R61). -/
/-- `CHIP_CLK_STAT.XTAL_OK`, [0:0], RO, reset 0. -/
def CHIP_CLK_STAT_XTAL_OK : Fld := { off := 0x60014, lo := 0, w := 1, sgn := false, dflt := 0 }
/-- `CHIP_CLK_STAT.XTAL_LOST`, [1:1], W1C, reset 0. -/
def CHIP_CLK_STAT_XTAL_LOST : Fld := { off := 0x60014, lo := 1, w := 1, sgn := false, dflt := 0, w1c := true }
/-- `CHIP_CLK_STAT.PLL_LOCK`, [4:2], RO, reset 0. -/
def CHIP_CLK_STAT_PLL_LOCK : Fld := { off := 0x60014, lo := 2, w := 3, sgn := false, dflt := 0 }
/-- `CHIP_CLK_STAT.HOLDOVER`, [7:5], RO, reset 0. -/
def CHIP_CLK_STAT_HOLDOVER : Fld := { off := 0x60014, lo := 5, w := 3, sgn := false, dflt := 0 }
/-- `CHIP_CLK_STAT.XTAL_LOSS_CNT`, [15:8], RO, reset 0. -/
def CHIP_CLK_STAT_XTAL_LOSS_CNT : Fld := { off := 0x60014, lo := 8, w := 8, sgn := false, dflt := 0 }

/-! `MIL_PORT_CFG` (R87). -/
/-- `MIL_PORT_CFG.SPI_EN`, [0:0], RW, reset CFG (default 1). -/
def MIL_PORT_CFG_SPI_EN : Fld := { off := 0x10000, lo := 0, w := 1, sgn := false, dflt := 1 }
/-- `MIL_PORT_CFG.UART_EN`, [1:1], RW, reset CFG (default 1). -/
def MIL_PORT_CFG_UART_EN : Fld := { off := 0x10000, lo := 1, w := 1, sgn := false, dflt := 1 }
/-- `MIL_PORT_CFG.RS485`, [2:2], RW, reset CFG (default 0). -/
def MIL_PORT_CFG_RS485 : Fld := { off := 0x10000, lo := 2, w := 1, sgn := false, dflt := 0 }
/-- `MIL_PORT_CFG.BAUD_DIV`, [27:16], RW, reset CFG (default 430). -/
def MIL_PORT_CFG_BAUD_DIV : Fld := { off := 0x10000, lo := 16, w := 12, sgn := false, dflt := 430 }

/-! `MIL_HOST_WD` (R87). -/
/-- `MIL_HOST_WD.TIMEOUT_MS`, [15:0], RW, reset CFG (default 0). -/
def MIL_HOST_WD_TIMEOUT_MS : Fld := { off := 0x10004, lo := 0, w := 16, sgn := false, dflt := 0 }
/-- `MIL_HOST_WD.SOURCE`, [18:16], RW, reset CFG (default 0). -/
def MIL_HOST_WD_SOURCE : Fld := { off := 0x10004, lo := 16, w := 3, sgn := false, dflt := 0 }

/-! `MIL_STAT` (R87). -/
/-- `MIL_STAT.HOST_LOST`, [0:0], RO, reset 0. -/
def MIL_STAT_HOST_LOST : Fld := { off := 0x10008, lo := 0, w := 1, sgn := false, dflt := 0 }
/-- `MIL_STAT.HOST_LOST_SEEN`, [1:1], W1C, reset 0. -/
def MIL_STAT_HOST_LOST_SEEN : Fld := { off := 0x10008, lo := 1, w := 1, sgn := false, dflt := 0, w1c := true }
/-- `MIL_STAT.EVT_LOST_SEEN`, [2:2], W1C, reset 0. -/
def MIL_STAT_EVT_LOST_SEEN : Fld := { off := 0x10008, lo := 2, w := 1, sgn := false, dflt := 0, w1c := true }
/-- `MIL_STAT.TAGS_IN_USE`, [10:4], RO, reset 0. -/
def MIL_STAT_TAGS_IN_USE : Fld := { off := 0x10008, lo := 4, w := 7, sgn := false, dflt := 0 }

/-! `MIL_TAG_BUSY_LO` (R87). -/
/-- `MIL_TAG_BUSY_LO.BUSY`, [31:0], RO, reset 0. -/
def MIL_TAG_BUSY_LO_BUSY : Fld := { off := 0x1000C, lo := 0, w := 32, sgn := false, dflt := 0 }

/-! `MIL_TAG_BUSY_HI` (R87). -/
/-- `MIL_TAG_BUSY_HI.BUSY`, [31:0], RO, reset 0. -/
def MIL_TAG_BUSY_HI_BUSY : Fld := { off := 0x10010, lo := 0, w := 32, sgn := false, dflt := 0 }

/-! `MIL_ERR_CNT` (R87). -/
/-- `MIL_ERR_CNT.CRC`, [7:0], RC, reset 0. -/
def MIL_ERR_CNT_CRC : Fld := { off := 0x10014, lo := 0, w := 8, sgn := false, dflt := 0, rc := true }
/-- `MIL_ERR_CNT.LEN`, [15:8], RC, reset 0. -/
def MIL_ERR_CNT_LEN : Fld := { off := 0x10014, lo := 8, w := 8, sgn := false, dflt := 0, rc := true }
/-- `MIL_ERR_CNT.RUNT`, [23:16], RC, reset 0. -/
def MIL_ERR_CNT_RUNT : Fld := { off := 0x10014, lo := 16, w := 8, sgn := false, dflt := 0, rc := true }
/-- `MIL_ERR_CNT.EVT_LOST`, [31:24], RC, reset 0. -/
def MIL_ERR_CNT_EVT_LOST : Fld := { off := 0x10014, lo := 24, w := 8, sgn := false, dflt := 0, rc := true }

/-! `MIL_TUN_STAT` (R87). -/
/-- `MIL_TUN_STAT.TUN_DISC`, [15:0], RC, reset 0. -/
def MIL_TUN_STAT_TUN_DISC : Fld := { off := 0x10018, lo := 0, w := 16, sgn := false, dflt := 0, rc := true }
/-- `MIL_TUN_STAT.FWD_TO`, [31:16], RC, reset 0. -/
def MIL_TUN_STAT_FWD_TO : Fld := { off := 0x10018, lo := 16, w := 16, sgn := false, dflt := 0, rc := true }

/-! `MIL_EVT_CFG` (R87). -/
/-- `MIL_EVT_CFG.TYPE_EN`, [7:0], RW, reset CFG (default 0). -/
def MIL_EVT_CFG_TYPE_EN : Fld := { off := 0x1001C, lo := 0, w := 8, sgn := false, dflt := 0 }
/-- `MIL_EVT_CFG.ROUTE`, [18:16], RW, reset CFG (default 0). -/
def MIL_EVT_CFG_ROUTE : Fld := { off := 0x1001C, lo := 16, w := 3, sgn := false, dflt := 0 }

/-! `MIL_FWD_CTRL` (R87). -/
/-- `MIL_FWD_CTRL.FWD_TIMEOUT`, [15:0], RW, reset CFG (default 0). -/
def MIL_FWD_CTRL_FWD_TIMEOUT : Fld := { off := 0x10020, lo := 0, w := 16, sgn := false, dflt := 0 }

/-! `MIL_REJ_CNT` (R87). -/
/-- `MIL_REJ_CNT.REJ_LOST`, [15:0], RC, reset 0. -/
def MIL_REJ_CNT_REJ_LOST : Fld := { off := 0x10024, lo := 0, w := 16, sgn := false, dflt := 0, rc := true }

/-! `CFG_STAT` (R105). -/
/-- `CFG_STAT.BUSY`, [0:0], RO, reset 0. -/
def CFG_STAT_BUSY : Fld := { off := 0x40000, lo := 0, w := 1, sgn := false, dflt := 0 }
/-- `CFG_STAT.SEALED`, [1:1], RO, reset —. -/
def CFG_STAT_SEALED : Fld := { off := 0x40000, lo := 1, w := 1, sgn := false, dflt := 0 }
/-- `CFG_STAT.SLOT`, [2:2], RO, reset —. -/
def CFG_STAT_SLOT : Fld := { off := 0x40000, lo := 2, w := 1, sgn := false, dflt := 0 }
/-- `CFG_STAT.SLOT0_OK`, [3:3], RO, reset —. -/
def CFG_STAT_SLOT0_OK : Fld := { off := 0x40000, lo := 3, w := 1, sgn := false, dflt := 0 }
/-- `CFG_STAT.SLOT1_OK`, [4:4], RO, reset —. -/
def CFG_STAT_SLOT1_OK : Fld := { off := 0x40000, lo := 4, w := 1, sgn := false, dflt := 0 }
/-- `CFG_STAT.DEFAULT`, [5:5], RO, reset —. -/
def CFG_STAT_DEFAULT : Fld := { off := 0x40000, lo := 5, w := 1, sgn := false, dflt := 0 }
/-- `CFG_STAT.DIRTY`, [6:6], RO, reset 0. -/
def CFG_STAT_DIRTY : Fld := { off := 0x40000, lo := 6, w := 1, sgn := false, dflt := 0 }
/-- `CFG_STAT.KEY_NEEDED`, [7:7], RO, reset 0. -/
def CFG_STAT_KEY_NEEDED : Fld := { off := 0x40000, lo := 7, w := 1, sgn := false, dflt := 0 }
/-- `CFG_STAT.SKIPPED`, [8:8], RO, reset —. -/
def CFG_STAT_SKIPPED : Fld := { off := 0x40000, lo := 8, w := 1, sgn := false, dflt := 0 }
/-- `CFG_STAT.SEAL_REJECT`, [9:9], RO, reset —. -/
def CFG_STAT_SEAL_REJECT : Fld := { off := 0x40000, lo := 9, w := 1, sgn := false, dflt := 0 }
/-- `CFG_STAT.WORN`, [10:10], RO, reset —. -/
def CFG_STAT_WORN : Fld := { off := 0x40000, lo := 10, w := 1, sgn := false, dflt := 0 }
/-- `CFG_STAT.LOAD_REJ`, [11:11], RO, reset —. -/
def CFG_STAT_LOAD_REJ : Fld := { off := 0x40000, lo := 11, w := 1, sgn := false, dflt := 0 }

/-! `CFG_SEQ` (R105). -/
/-- `CFG_SEQ.SEQ`, [31:0], RO, reset —. -/
def CFG_SEQ_SEQ : Fld := { off := 0x40004, lo := 0, w := 32, sgn := false, dflt := 0 }

/-! `CFG_SEAL_SEQ` (R105). -/
/-- `CFG_SEAL_SEQ.SEAL_SEQ`, [31:0], RO, reset —. -/
def CFG_SEAL_SEQ_SEAL_SEQ : Fld := { off := 0x40008, lo := 0, w := 32, sgn := false, dflt := 0 }

/-! `CFG_LAST_ERR` (R105). -/
/-- `CFG_LAST_ERR.STATUS`, [7:0], RO, reset 0. -/
def CFG_LAST_ERR_STATUS : Fld := { off := 0x4000C, lo := 0, w := 8, sgn := false, dflt := 0 }
/-- `CFG_LAST_ERR.DETAIL`, [31:16], RO, reset 0. -/
def CFG_LAST_ERR_DETAIL : Fld := { off := 0x4000C, lo := 16, w := 16, sgn := false, dflt := 0 }

/-! `PF_CTRL` (R130). -/
/-- `PF_CTRL.MODE`, [1:0], RW, reset CFG (default 0). -/
def PF_CTRL_MODE : Fld := { off := 0x5000, lo := 0, w := 2, sgn := false, dflt := 0 }
/-- `PF_CTRL.SRC`, [2:2], RW, reset CFG (default 0). -/
def PF_CTRL_SRC : Fld := { off := 0x5000, lo := 2, w := 1, sgn := false, dflt := 0 }
/-- `PF_CTRL.DIR_INV`, [3:3], RW, reset CFG (default 0). -/
def PF_CTRL_DIR_INV : Fld := { off := 0x5000, lo := 3, w := 1, sgn := false, dflt := 0 }
/-- `PF_CTRL.HYST`, [6:4], RW, reset CFG (default 0). -/
def PF_CTRL_HYST : Fld := { off := 0x5000, lo := 4, w := 3, sgn := false, dflt := 0 }
/-- `PF_CTRL.FLT_N`, [15:8], RW, reset CFG (default 1). -/
def PF_CTRL_FLT_N : Fld := { off := 0x5000, lo := 8, w := 8, sgn := false, dflt := 1 }

/-! `PF_LINES` (R130). -/
/-- `PF_LINES.LINES_M1`, [15:0], WK, reset CFG (default 0). -/
def PF_LINES_LINES_M1 : Fld := { off := 0x5004, lo := 0, w := 16, sgn := false, dflt := 0 }

/-! `PF_EXC` (R130). -/
/-- `PF_EXC.EXC_DIV`, [6:0], RW, reset CFG (default 20). -/
def PF_EXC_EXC_DIV : Fld := { off := 0x5008, lo := 0, w := 7, sgn := false, dflt := 20 }
/-- `PF_EXC.EXC_AMP`, [11:8], RW, reset CFG (default 0). -/
def PF_EXC_EXC_AMP : Fld := { off := 0x5008, lo := 8, w := 4, sgn := false, dflt := 0 }

/-! `PF_RES` (R130). -/
/-- `PF_RES.RES_PHASE`, [15:0], RW, reset CFG (default 0). -/
def PF_RES_RES_PHASE : Fld := { off := 0x500C, lo := 0, w := 16, sgn := false, dflt := 0 }
/-- `PF_RES.TRK_BW`, [22:16], RW, reset CFG (default 20). -/
def PF_RES_TRK_BW : Fld := { off := 0x500C, lo := 16, w := 7, sgn := false, dflt := 20 }

/-! `PF_AMP_CHK` (R130). -/
/-- `PF_AMP_CHK.RAD_LO`, [7:0], RW, reset CFG (default 50). -/
def PF_AMP_CHK_RAD_LO : Fld := { off := 0x5010, lo := 0, w := 8, sgn := false, dflt := 50 }
/-- `PF_AMP_CHK.RAD_HI`, [15:8], RW, reset CFG (default 130). -/
def PF_AMP_CHK_RAD_HI : Fld := { off := 0x5010, lo := 8, w := 8, sgn := false, dflt := 130 }
/-- `PF_AMP_CHK.RAD_N`, [23:16], RW, reset CFG (default 8). -/
def PF_AMP_CHK_RAD_N : Fld := { off := 0x5010, lo := 16, w := 8, sgn := false, dflt := 8 }

/-! `PF_SPD_CFG` (R130). -/
/-- `PF_SPD_CFG.ZERO_TO`, [15:0], RW, reset CFG (default 0). -/
def PF_SPD_CFG_ZERO_TO : Fld := { off := 0x5014, lo := 0, w := 16, sgn := false, dflt := 0 }

/-! `PF_CAL_SIN` (R130). -/
/-- `PF_CAL_SIN.OFS`, [15:0], RW, reset CFG (default 0). -/
def PF_CAL_SIN_OFS : Fld := { off := 0x5018, lo := 0, w := 16, sgn := true, dflt := 0 }
/-- `PF_CAL_SIN.GAIN`, [31:16], RW, reset CFG (default 16384). -/
def PF_CAL_SIN_GAIN : Fld := { off := 0x5018, lo := 16, w := 16, sgn := false, dflt := 16384 }

/-! `PF_CAL_COS` (R130). -/
/-- `PF_CAL_COS.OFS`, [15:0], RW, reset CFG (default 0). -/
def PF_CAL_COS_OFS : Fld := { off := 0x501C, lo := 0, w := 16, sgn := true, dflt := 0 }
/-- `PF_CAL_COS.GAIN`, [31:16], RW, reset CFG (default 16384). -/
def PF_CAL_COS_GAIN : Fld := { off := 0x501C, lo := 16, w := 16, sgn := false, dflt := 16384 }

/-! `PF_QDBL` (R130). -/
/-- `PF_QDBL.QDBL`, [15:0], RC, reset 0. -/
def PF_QDBL_QDBL : Fld := { off := 0x5024, lo := 0, w := 16, sgn := false, dflt := 0, rc := true }

/-! `PF_POS` (R130). -/
/-- `PF_POS.POS`, [47:0], RW, reset 0. -/
def PF_POS_POS : Fld := { off := 0x5028, lo := 0, w := 48, sgn := true, dflt := 0 }

/-! `PF_LIM_LO` (R130). -/
/-- `PF_LIM_LO.LIM_LO`, [47:0], WK, reset CFG (default -140737488355328). -/
def PF_LIM_LO_LIM_LO : Fld := { off := 0x5030, lo := 0, w := 48, sgn := true, dflt := (-140737488355328) }

/-! `PF_LIM_HI` (R130). -/
/-- `PF_LIM_HI.LIM_HI`, [47:0], WK, reset CFG (default 140737488355327). -/
def PF_LIM_HI_LIM_HI : Fld := { off := 0x5038, lo := 0, w := 48, sgn := true, dflt := 140737488355327 }

/-! `PF_SPEED` (R130). -/
/-- `PF_SPEED.SPEED`, [31:0], RO, reset 0. -/
def PF_SPEED_SPEED : Fld := { off := 0x5040, lo := 0, w := 32, sgn := true, dflt := 0 }

/-! `PF_ANGLE` (R130). -/
/-- `PF_ANGLE.THETA_M`, [31:0], RO, reset 0. -/
def PF_ANGLE_THETA_M : Fld := { off := 0x5044, lo := 0, w := 32, sgn := false, dflt := 0 }

/-! `PF_FINE` (R130). -/
/-- `PF_FINE.FINE`, [13:0], RO, reset 0. -/
def PF_FINE_FINE : Fld := { off := 0x5048, lo := 0, w := 14, sgn := false, dflt := 0 }
/-- `PF_FINE.CQ`, [15:14], RO, reset 0. -/
def PF_FINE_CQ : Fld := { off := 0x5048, lo := 14, w := 2, sgn := false, dflt := 0 }
/-- `PF_FINE.REV_PER`, [31:16], RO, reset 0. -/
def PF_FINE_REV_PER : Fld := { off := 0x5048, lo := 16, w := 16, sgn := false, dflt := 0 }

/-! `PF_RADIUS` (R130). -/
/-- `PF_RADIUS.RAD_NOW`, [15:0], RO, reset 0. -/
def PF_RADIUS_RAD_NOW : Fld := { off := 0x504C, lo := 0, w := 16, sgn := false, dflt := 0 }

/-! `PF_SIZ` (R130). -/
/-- `PF_SIZ.DRIVE`, [0:0], RW, reset CFG (default 0). -/
def PF_SIZ_DRIVE : Fld := { off := 0x5050, lo := 0, w := 1, sgn := false, dflt := 0 }

/-! `PF_STAT` (R130). -/
/-- `PF_STAT.VALID`, [0:0], RO, reset 0. -/
def PF_STAT_VALID : Fld := { off := 0x5020, lo := 0, w := 1, sgn := false, dflt := 0 }
/-- `PF_STAT.COARSE_ONLY`, [1:1], RO, reset 0. -/
def PF_STAT_COARSE_ONLY : Fld := { off := 0x5020, lo := 1, w := 1, sgn := false, dflt := 0 }
/-- `PF_STAT.DIR`, [2:2], RO, reset 0. -/
def PF_STAT_DIR : Fld := { off := 0x5020, lo := 2, w := 1, sgn := false, dflt := 0 }
/-- `PF_STAT.LIM_LO`, [3:3], W1C, reset 0. -/
def PF_STAT_LIM_LO : Fld := { off := 0x5020, lo := 3, w := 1, sgn := false, dflt := 0, w1c := true }
/-- `PF_STAT.LIM_HI`, [4:4], W1C, reset 0. -/
def PF_STAT_LIM_HI : Fld := { off := 0x5020, lo := 4, w := 1, sgn := false, dflt := 0, w1c := true }
/-- `PF_STAT.POS_SUSPECT`, [5:5], W1C, reset 0. -/
def PF_STAT_POS_SUSPECT : Fld := { off := 0x5020, lo := 5, w := 1, sgn := false, dflt := 0, w1c := true }
/-- `PF_STAT.CAUSE`, [13:8], RO, reset 0. -/
def PF_STAT_CAUSE : Fld := { off := 0x5020, lo := 8, w := 6, sgn := false, dflt := 0 }

/-! `PS_CTRL` (R130). -/
/-- `PS_CTRL.PROTO`, [1:0], RW, reset CFG (default 0). -/
def PS_CTRL_PROTO : Fld := { off := 0x5800, lo := 0, w := 2, sgn := false, dflt := 0 }
/-- `PS_CTRL.GRAY`, [2:2], RW, reset CFG (default 0). -/
def PS_CTRL_GRAY : Fld := { off := 0x5800, lo := 2, w := 1, sgn := false, dflt := 0 }
/-- `PS_CTRL.CLK_DIV`, [15:8], RW, reset CFG (default 20). -/
def PS_CTRL_CLK_DIV : Fld := { off := 0x5800, lo := 8, w := 8, sgn := false, dflt := 20 }
/-- `PS_CTRL.SLO_FLT_N`, [18:16], RW, reset CFG (default 1). -/
def PS_CTRL_SLO_FLT_N : Fld := { off := 0x5800, lo := 16, w := 3, sgn := false, dflt := 1 }
/-- `PS_CTRL.ERR_MAX`, [31:24], RW, reset CFG (default 4). -/
def PS_CTRL_ERR_MAX : Fld := { off := 0x5800, lo := 24, w := 8, sgn := false, dflt := 4 }

/-! `PS_FMT` (R130). -/
/-- `PS_FMT.ST_BITS`, [5:0], WK, reset CFG (default 1: R90 gives 0, which its range does not hold; DESIGN CHOICE, log entry 118). -/
def PS_FMT_ST_BITS : Fld := { off := 0x5804, lo := 0, w := 6, sgn := false, dflt := 1 }
/-- `PS_FMT.MT_BITS`, [12:8], WK, reset CFG (default 0). -/
def PS_FMT_MT_BITS : Fld := { off := 0x5804, lo := 8, w := 5, sgn := false, dflt := 0 }
/-- `PS_FMT.TRAIL`, [18:16], RW, reset CFG (default 0). -/
def PS_FMT_TRAIL : Fld := { off := 0x5804, lo := 16, w := 3, sgn := false, dflt := 0 }
/-- `PS_FMT.TOUT`, [25:20], RW, reset CFG (default 0). -/
def PS_FMT_TOUT : Fld := { off := 0x5804, lo := 20, w := 6, sgn := false, dflt := 0 }
/-- `PS_FMT.JUMP`, [31:26], RW, reset CFG (default 0). -/
def PS_FMT_JUMP : Fld := { off := 0x5804, lo := 26, w := 6, sgn := false, dflt := 0 }

/-! `PS_STAT` (R130). -/
/-- `PS_STAT.ERR`, [7:0], RC, reset 0. -/
def PS_STAT_ERR : Fld := { off := 0x5808, lo := 0, w := 8, sgn := false, dflt := 0, rc := true }
/-- `PS_STAT.SKIP`, [15:8], RC, reset 0. -/
def PS_STAT_SKIP : Fld := { off := 0x5808, lo := 8, w := 8, sgn := false, dflt := 0, rc := true }
/-- `PS_STAT.LINE_DLY`, [24:16], RO, reset 0. -/
def PS_STAT_LINE_DLY : Fld := { off := 0x5808, lo := 16, w := 9, sgn := false, dflt := 0 }
/-- `PS_STAT.WARN`, [25:25], W1C, reset 0. -/
def PS_STAT_WARN : Fld := { off := 0x5808, lo := 25, w := 1, sgn := false, dflt := 0, w1c := true }

/-! `PS_RAW` (R130). -/
/-- `PS_RAW.RAW`, [63:0], RO, reset 0. -/
def PS_RAW_RAW : Fld := { off := 0x580C, lo := 0, w := 64, sgn := false, dflt := 0 }

/-! `RP_CTRL` (R130). -/
/-- `RP_CTRL.EN`, [0:0], RW, reset CFG (default 0). -/
def RP_CTRL_EN : Fld := { off := 0x5900, lo := 0, w := 1, sgn := false, dflt := 0 }
/-- `RP_CTRL.SRC`, [2:1], RW, reset CFG (default 0). -/
def RP_CTRL_SRC : Fld := { off := 0x5900, lo := 1, w := 2, sgn := false, dflt := 0 }
/-- `RP_CTRL.RP_INV`, [3:3], RW, reset CFG (default 0). -/
def RP_CTRL_RP_INV : Fld := { off := 0x5900, lo := 3, w := 1, sgn := false, dflt := 0 }
/-- `RP_CTRL.FLT_MODE`, [4:4], RW, reset CFG (default 0). -/
def RP_CTRL_FLT_MODE : Fld := { off := 0x5900, lo := 4, w := 1, sgn := false, dflt := 0 }
/-- `RP_CTRL.RP_LINES`, [31:16], RW, reset CFG (default 0). -/
def RP_CTRL_RP_LINES : Fld := { off := 0x5900, lo := 16, w := 16, sgn := false, dflt := 0 }

/-! `RP_STAT` (R130). -/
/-- `RP_STAT.OVR`, [0:0], W1C, reset 0. -/
def RP_STAT_OVR : Fld := { off := 0x5904, lo := 0, w := 1, sgn := false, dflt := 0, w1c := true }
/-- `RP_STAT.LOST`, [1:1], W1C, reset 0. -/
def RP_STAT_LOST : Fld := { off := 0x5904, lo := 1, w := 1, sgn := false, dflt := 0, w1c := true }
/-- `RP_STAT.SRC_FLT`, [2:2], RO, reset 0. -/
def RP_STAT_SRC_FLT : Fld := { off := 0x5904, lo := 2, w := 1, sgn := false, dflt := 0 }
/-- `RP_STAT.ZPOS`, [31:16], RW, reset CFG (default 0). -/
def RP_STAT_ZPOS : Fld := { off := 0x5904, lo := 16, w := 16, sgn := false, dflt := 0 }

/-! `ASC_TB_SEL` (R144). -/
/-- `ASC_TB_SEL.SRC`, [2:0], RW, reset CFG (default 1). -/
def ASC_TB_SEL_SRC : Fld := { off := 0xA0000, lo := 0, w := 3, sgn := false, dflt := 1 }
/-- `ASC_TB_SEL.STN`, [4:4], RW, reset CFG (default 0). -/
def ASC_TB_SEL_STN : Fld := { off := 0xA0000, lo := 4, w := 1, sgn := false, dflt := 0 }
/-- `ASC_TB_SEL.RCH`, [12:8], RW, reset CFG (default 0). -/
def ASC_TB_SEL_RCH : Fld := { off := 0xA0000, lo := 8, w := 5, sgn := false, dflt := 0 }

/-! `ASC_STAT` (R144). -/
/-- `ASC_STAT.TB_HOLD`, [3:0], RO, reset 0. -/
def ASC_STAT_TB_HOLD : Fld := { off := 0xA0010, lo := 0, w := 4, sgn := false, dflt := 0 }
/-- `ASC_STAT.OVR_SEEN`, [7:4], W1C, reset 0. -/
def ASC_STAT_OVR_SEEN : Fld := { off := 0xA0010, lo := 4, w := 4, sgn := false, dflt := 0, w1c := true }

/-! `ASC_CNT` (R144). -/
/-- `ASC_CNT.MERGED`, [15:0], RC, reset 0. -/
def ASC_CNT_MERGED : Fld := { off := 0xA0014, lo := 0, w := 16, sgn := false, dflt := 0, rc := true }
/-- `ASC_CNT.LATE_CNT`, [31:16], RC, reset 0. -/
def ASC_CNT_LATE_CNT : Fld := { off := 0xA0014, lo := 16, w := 16, sgn := false, dflt := 0, rc := true }

/-! `ASC_TBV` (R144). -/
/-- `ASC_TBV.TBV`, [47:0], RO, reset 0. -/
def ASC_TBV_TBV : Fld := { off := 0xA0020, lo := 0, w := 48, sgn := true, dflt := 0 }

/-! `ASC_CMP` (R144). -/
/-- `ASC_CMP.CMP`, [47:0], RO, reset 0. -/
def ASC_CMP_CMP : Fld := { off := 0xA0100, lo := 0, w := 48, sgn := true, dflt := 0 }

/-! `ASC_PER` (R144). -/
/-- `ASC_PER.PER`, [30:0], RW, reset 0. -/
def ASC_PER_PER : Fld := { off := 0xA0108, lo := 0, w := 31, sgn := false, dflt := 0 }

/-! `ASC_HYST` (R144). -/
/-- `ASC_HYST.HYST`, [30:0], RW, reset 0. -/
def ASC_HYST_HYST : Fld := { off := 0xA010C, lo := 0, w := 31, sgn := false, dflt := 0 }

/-! `ASC_ACT` (R144). -/
/-- `ASC_ACT.ACTION`, [2:0], RO, reset 0. -/
def ASC_ACT_ACTION : Fld := { off := 0xA0110, lo := 0, w := 3, sgn := false, dflt := 0 }
/-- `ASC_ACT.DIR`, [5:4], RO, reset 0. -/
def ASC_ACT_DIR : Fld := { off := 0xA0110, lo := 4, w := 2, sgn := false, dflt := 0 }
/-- `ASC_ACT.REPEAT`, [6:6], RO, reset 0. -/
def ASC_ACT_REPEAT : Fld := { off := 0xA0110, lo := 6, w := 1, sgn := false, dflt := 0 }
/-- `ASC_ACT.ARG`, [15:8], RO, reset 0. -/
def ASC_ACT_ARG : Fld := { off := 0xA0110, lo := 8, w := 8, sgn := false, dflt := 0 }

/-! `ASC_SST` (R144). -/
/-- `ASC_SST.ARMED`, [0:0], RO, reset 0. -/
def ASC_SST_ARMED : Fld := { off := 0xA0114, lo := 0, w := 1, sgn := false, dflt := 0 }
/-- `ASC_SST.FIRED`, [1:1], W1C, reset 0. -/
def ASC_SST_FIRED : Fld := { off := 0xA0114, lo := 1, w := 1, sgn := false, dflt := 0, w1c := true }
/-- `ASC_SST.LATE`, [2:2], W1C, reset 0. -/
def ASC_SST_LATE : Fld := { off := 0xA0114, lo := 2, w := 1, sgn := false, dflt := 0, w1c := true }
/-- `ASC_SST.OVERRUN`, [3:3], W1C, reset 0. -/
def ASC_SST_OVERRUN : Fld := { off := 0xA0114, lo := 3, w := 1, sgn := false, dflt := 0, w1c := true }
/-- `ASC_SST.NOEFF`, [4:4], W1C, reset 0. -/
def ASC_SST_NOEFF : Fld := { off := 0xA0114, lo := 4, w := 1, sgn := false, dflt := 0, w1c := true }
/-- `ASC_SST.JUMP`, [5:5], W1C, reset 0. -/
def ASC_SST_JUMP : Fld := { off := 0xA0114, lo := 5, w := 1, sgn := false, dflt := 0, w1c := true }
/-- `ASC_SST.FIRINGS`, [31:16], RC, reset 0. -/
def ASC_SST_FIRINGS : Fld := { off := 0xA0114, lo := 16, w := 16, sgn := false, dflt := 0, rc := true }

/-! `ASC_FIRE` (R144). -/
/-- `ASC_FIRE.FIRE_TICK`, [63:0], RO, reset 0. -/
def ASC_FIRE_FIRE_TICK : Fld := { off := 0xA0118, lo := 0, w := 64, sgn := false, dflt := 0 }

/-! `COM_CTRL` (R174). -/
/-- `COM_CTRL.LAW`, [1:0], RW, reset CFG (default 0). -/
def COM_CTRL_LAW : Fld := { off := 0x1000, lo := 0, w := 2, sgn := false, dflt := 0 }
/-- `COM_CTRL.ASRC`, [3:2], RW, reset CFG (default 0). -/
def COM_CTRL_ASRC : Fld := { off := 0x1000, lo := 2, w := 2, sgn := false, dflt := 0 }
/-- `COM_CTRL.OVM`, [4:4], RW, reset CFG (default 0). -/
def COM_CTRL_OVM : Fld := { off := 0x1000, lo := 4, w := 1, sgn := false, dflt := 0 }
/-- `COM_CTRL.PRED`, [6:5], RW, reset CFG (default 0). -/
def COM_CTRL_PRED : Fld := { off := 0x1000, lo := 5, w := 2, sgn := false, dflt := 0 }
/-- `COM_CTRL.ALIGN_EN`, [7:7], RW, reset CFG (default 0). -/
def COM_CTRL_ALIGN_EN : Fld := { off := 0x1000, lo := 7, w := 1, sgn := false, dflt := 0 }
/-- `COM_CTRL.LR_EN`, [8:8], RW, reset CFG (default 1). -/
def COM_CTRL_LR_EN : Fld := { off := 0x1000, lo := 8, w := 1, sgn := false, dflt := 1 }

/-! `COM_MOTOR` (R174). -/
/-- `COM_MOTOR.PP`, [6:0], WK, reset CFG (default 1). -/
def COM_MOTOR_PP : Fld := { off := 0x1004, lo := 0, w := 7, sgn := false, dflt := 1 }
/-- `COM_MOTOR.FMAX`, [27:16], WK, reset CFG (default 3000). -/
def COM_MOTOR_FMAX : Fld := { off := 0x1004, lo := 16, w := 12, sgn := false, dflt := 3000 }

/-! `COM_OFS` (R174). -/
/-- `COM_OFS.OFS`, [31:0], RW, reset CFG (default 0). -/
def COM_OFS_OFS : Fld := { off := 0x1008, lo := 0, w := 32, sgn := false, dflt := 0 }

/-! `COM_VBASE` (R174). -/
/-- `COM_VBASE.VBASE`, [15:0], WK, reset CFG (default 480). -/
def COM_VBASE_VBASE : Fld := { off := 0x100C, lo := 0, w := 16, sgn := false, dflt := 480 }
/-- `COM_VBASE.VDC_MIN`, [31:16], RW, reset CFG (default 819). -/
def COM_VBASE_VDC_MIN : Fld := { off := 0x100C, lo := 16, w := 16, sgn := false, dflt := 819 }

/-! `COM_FW` (R174). -/
/-- `COM_FW.FW_IMIN`, [15:0], RW, reset CFG (default 0). -/
def COM_FW_FW_IMIN : Fld := { off := 0x1010, lo := 0, w := 16, sgn := false, dflt := 0 }

/-! `COM_SOFT` (R174). -/
/-- `COM_SOFT.T_SOFT`, [9:0], RW, reset CFG (default 0). -/
def COM_SOFT_T_SOFT : Fld := { off := 0x1014, lo := 0, w := 10, sgn := false, dflt := 0 }

/-! `COM_LR` (R174). -/
/-- `COM_LR.LR_I`, [15:0], RW, reset CFG (default 4096). -/
def COM_LR_LR_I : Fld := { off := 0x1018, lo := 0, w := 16, sgn := false, dflt := 4096 }
/-- `COM_LR.LR_T`, [31:16], RW, reset CFG (default 2000). -/
def COM_LR_LR_T : Fld := { off := 0x1018, lo := 16, w := 16, sgn := false, dflt := 2000 }

/-! `COM_ALIGN` (R174). -/
/-- `COM_ALIGN.I_ALIGN`, [15:0], RW, reset CFG (default 2048). -/
def COM_ALIGN_I_ALIGN : Fld := { off := 0x101C, lo := 0, w := 16, sgn := false, dflt := 2048 }
/-- `COM_ALIGN.T_ALIGN`, [31:16], RW, reset CFG (default 500). -/
def COM_ALIGN_T_ALIGN : Fld := { off := 0x101C, lo := 16, w := 16, sgn := false, dflt := 500 }

/-! `COM_OL` (R174). -/
/-- `COM_OL.I_OL`, [15:0], RW, reset CFG (default 0). -/
def COM_OL_I_OL : Fld := { off := 0x1020, lo := 0, w := 16, sgn := true, dflt := 0 }
/-- `COM_OL.F_OL`, [31:16], RW, reset CFG (default 0). -/
def COM_OL_F_OL : Fld := { off := 0x1020, lo := 16, w := 16, sgn := true, dflt := 0 }

/-! `COM_STAT` (R174). -/
/-- `COM_STAT.OFS_VALID`, [0:0], RO, reset 0. -/
def COM_STAT_OFS_VALID : Fld := { off := 0x1024, lo := 0, w := 1, sgn := false, dflt := 0 }
/-- `COM_STAT.SECTOR`, [3:1], RO, reset 0. -/
def COM_STAT_SECTOR : Fld := { off := 0x1024, lo := 1, w := 3, sgn := false, dflt := 0 }
/-- `COM_STAT.VSAT`, [4:4], RO, reset 0. -/
def COM_STAT_VSAT : Fld := { off := 0x1024, lo := 4, w := 1, sgn := false, dflt := 0 }
/-- `COM_STAT.MINON`, [5:5], RO, reset 0. -/
def COM_STAT_MINON : Fld := { off := 0x1024, lo := 5, w := 1, sgn := false, dflt := 0 }
/-- `COM_STAT.ALIGNING`, [6:6], RO, reset 0. -/
def COM_STAT_ALIGNING : Fld := { off := 0x1024, lo := 6, w := 1, sgn := false, dflt := 0 }
/-- `COM_STAT.SOFTING`, [7:7], RO, reset 0. -/
def COM_STAT_SOFTING : Fld := { off := 0x1024, lo := 7, w := 1, sgn := false, dflt := 0 }
/-- `COM_STAT.LAW_NOW`, [9:8], RO, reset 0. -/
def COM_STAT_LAW_NOW : Fld := { off := 0x1024, lo := 8, w := 2, sgn := false, dflt := 0 }
/-- `COM_STAT.ASRC_NOW`, [11:10], RO, reset 0. -/
def COM_STAT_ASRC_NOW : Fld := { off := 0x1024, lo := 10, w := 2, sgn := false, dflt := 0 }
/-- `COM_STAT.CAUSE`, [23:16], RO, reset 0. -/
def COM_STAT_CAUSE : Fld := { off := 0x1024, lo := 16, w := 8, sgn := false, dflt := 0 }

/-! `COM_ANGLE` (R174). -/
/-- `COM_ANGLE.THETA_E`, [31:0], RO, reset 0. -/
def COM_ANGLE_THETA_E : Fld := { off := 0x1028, lo := 0, w := 32, sgn := false, dflt := 0 }

/-! `COM_IDQ` (R174). -/
/-- `COM_IDQ.ID`, [15:0], RO, reset 0. -/
def COM_IDQ_ID : Fld := { off := 0x102C, lo := 0, w := 16, sgn := true, dflt := 0 }
/-- `COM_IDQ.IQ`, [31:16], RO, reset 0. -/
def COM_IDQ_IQ : Fld := { off := 0x102C, lo := 16, w := 16, sgn := true, dflt := 0 }

/-! `COM_IREF` (R174). -/
/-- `COM_IREF.ID_REF`, [15:0], RO, reset 0. -/
def COM_IREF_ID_REF : Fld := { off := 0x1030, lo := 0, w := 16, sgn := true, dflt := 0 }
/-- `COM_IREF.IQ_REF`, [31:16], RO, reset 0. -/
def COM_IREF_IQ_REF : Fld := { off := 0x1030, lo := 16, w := 16, sgn := true, dflt := 0 }

/-! `COM_VDQ` (R174). -/
/-- `COM_VDQ.VD`, [15:0], RO, reset 0. -/
def COM_VDQ_VD : Fld := { off := 0x1034, lo := 0, w := 16, sgn := true, dflt := 0 }
/-- `COM_VDQ.VQ`, [31:16], RO, reset 0. -/
def COM_VDQ_VQ : Fld := { off := 0x1034, lo := 16, w := 16, sgn := true, dflt := 0 }

/-! `COM_ADV` (R174). -/
/-- `COM_ADV.ADV`, [15:0], RO, reset 0. -/
def COM_ADV_ADV : Fld := { off := 0x1038, lo := 0, w := 16, sgn := false, dflt := 0 }

/-! `PWM_CTRL` (R174). -/
/-- `PWM_CTRL.UPD2`, [0:0], RW, reset CFG (default 0). -/
def PWM_CTRL_UPD2 : Fld := { off := 0x2000, lo := 0, w := 1, sgn := false, dflt := 0 }
/-- `PWM_CTRL.DTC_EN`, [1:1], RW, reset CFG (default 0). -/
def PWM_CTRL_DTC_EN : Fld := { off := 0x2000, lo := 1, w := 1, sgn := false, dflt := 0 }
/-- `PWM_CTRL.OVR_MAX`, [15:8], RW, reset CFG (default 8). -/
def PWM_CTRL_OVR_MAX : Fld := { off := 0x2000, lo := 8, w := 8, sgn := false, dflt := 8 }

/-! `PWM_HPER` (R174). -/
/-- `PWM_HPER.HPER`, [16:0], RW, reset CFG (default 10000). -/
def PWM_HPER_HPER : Fld := { off := 0x2004, lo := 0, w := 17, sgn := false, dflt := 10000 }

/-! `PWM_PHASE` (R174). -/
/-- `PWM_PHASE.PHASE`, [17:0], RW, reset CFG (default 0). -/
def PWM_PHASE_PHASE : Fld := { off := 0x2008, lo := 0, w := 18, sgn := false, dflt := 0 }

/-! `PWM_DT` (R174). -/
/-- `PWM_DT.DT`, [11:0], RW, reset CFG (default 200). -/
def PWM_DT_DT : Fld := { off := 0x200C, lo := 0, w := 12, sgn := false, dflt := 200 }

/-! `PWM_DTC` (R174). -/
/-- `PWM_DTC.EXTRA`, [15:0], RW, reset CFG (default 0). -/
def PWM_DTC_EXTRA : Fld := { off := 0x2010, lo := 0, w := 16, sgn := true, dflt := 0 }
/-- `PWM_DTC.I0`, [31:16], RW, reset CFG (default 164). -/
def PWM_DTC_I0 : Fld := { off := 0x2010, lo := 16, w := 16, sgn := false, dflt := 164 }

/-! `PWM_MINP` (R174). -/
/-- `PWM_MINP.MINP`, [15:0], RW, reset CFG (default 0). -/
def PWM_MINP_MINP : Fld := { off := 0x2014, lo := 0, w := 16, sgn := false, dflt := 0 }

/-! `PWM_CMP` (R174). -/
/-- `PWM_CMP.CMP`, [23:0], RO, reset 0. -/
def PWM_CMP_CMP : Fld := { off := 0x2018, lo := 0, w := 24, sgn := false, dflt := 0 }
/-- `PWM_CMP.EN`, [24:24], RO, reset 0. -/
def PWM_CMP_EN : Fld := { off := 0x2018, lo := 24, w := 1, sgn := false, dflt := 0 }

/-! `PWM_STAT` (R174). -/
/-- `PWM_STAT.SYNCED`, [0:0], RO, reset 0. -/
def PWM_STAT_SYNCED : Fld := { off := 0x2024, lo := 0, w := 1, sgn := false, dflt := 0 }
/-- `PWM_STAT.OVR_SEEN`, [1:1], W1C, reset 0. -/
def PWM_STAT_OVR_SEEN : Fld := { off := 0x2024, lo := 1, w := 1, sgn := false, dflt := 0, w1c := true }
/-- `PWM_STAT.REPHASE`, [2:2], RO, reset 0. -/
def PWM_STAT_REPHASE : Fld := { off := 0x2024, lo := 2, w := 1, sgn := false, dflt := 0 }
/-- `PWM_STAT.OVR_CNT`, [31:16], RC, reset 0. -/
def PWM_STAT_OVR_CNT : Fld := { off := 0x2024, lo := 16, w := 16, sgn := false, dflt := 0, rc := true }

/-! `PWM_PER_NOW` (R174). -/
/-- `PWM_PER_NOW.PER`, [17:0], RO, reset 0. -/
def PWM_PER_NOW_PER : Fld := { off := 0x2028, lo := 0, w := 18, sgn := false, dflt := 0 }

/-! `CS_CTRL` (R174). -/
/-- `CS_CTRL.MODE`, [0:0], RW, reset CFG (default 0). -/
def CS_CTRL_MODE : Fld := { off := 0x4000, lo := 0, w := 1, sgn := false, dflt := 0 }
/-- `CS_CTRL.POL`, [3:1], RW, reset CFG (default 0). -/
def CS_CTRL_POL : Fld := { off := 0x4000, lo := 1, w := 3, sgn := false, dflt := 0 }
/-- `CS_CTRL.PGA`, [6:4], RW, reset CFG (default 0). -/
def CS_CTRL_PGA : Fld := { off := 0x4000, lo := 4, w := 3, sgn := false, dflt := 0 }
/-- `CS_CTRL.MLS`, [7:7], RW, reset CFG (default 0). -/
def CS_CTRL_MLS : Fld := { off := 0x4000, lo := 7, w := 1, sgn := false, dflt := 0 }
/-- `CS_CTRL.SUM_N`, [15:8], RW, reset CFG (default 4). -/
def CS_CTRL_SUM_N : Fld := { off := 0x4000, lo := 8, w := 8, sgn := false, dflt := 4 }
/-- `CS_CTRL.SUM_LIM`, [31:16], RW, reset CFG (default 819). -/
def CS_CTRL_SUM_LIM : Fld := { off := 0x4000, lo := 16, w := 16, sgn := false, dflt := 819 }

/-! `CS_SAMP` (R174). -/
/-- `CS_SAMP.OFS`, [16:0], RW, reset CFG (default 0). -/
def CS_SAMP_OFS : Fld := { off := 0x4004, lo := 0, w := 17, sgn := false, dflt := 0 }
/-- `CS_SAMP.TSET`, [26:17], RW, reset CFG (default 200). -/
def CS_SAMP_TSET : Fld := { off := 0x4004, lo := 17, w := 10, sgn := false, dflt := 200 }
/-- `CS_SAMP.REF`, [27:27], RW, reset CFG (default 0). -/
def CS_SAMP_REF : Fld := { off := 0x4004, lo := 27, w := 1, sgn := false, dflt := 0 }

/-! `CS_SD` (R174). -/
/-- `CS_SD.SDCK_DIV`, [6:0], RW, reset CFG (default 20). -/
def CS_SD_SDCK_DIV : Fld := { off := 0x4008, lo := 0, w := 7, sgn := false, dflt := 20 }
/-- `CS_SD.OSR`, [16:8], RW, reset CFG (default 32). -/
def CS_SD_OSR : Fld := { off := 0x4008, lo := 8, w := 9, sgn := false, dflt := 32 }
/-- `CS_SD.SKEW`, [23:20], RW, reset CFG (default 0). -/
def CS_SD_SKEW : Fld := { off := 0x4008, lo := 20, w := 4, sgn := false, dflt := 0 }

/-! `CS_CAL` (R174). -/
/-- `CS_CAL.OFS`, [15:0], RW, reset CFG (default 0). -/
def CS_CAL_OFS : Fld := { off := 0x400C, lo := 0, w := 16, sgn := true, dflt := 0 }
/-- `CS_CAL.GAIN`, [31:16], RW, reset CFG (default 16384). -/
def CS_CAL_GAIN : Fld := { off := 0x400C, lo := 16, w := 16, sgn := false, dflt := 16384 }

/-! `CS_I_UV` (R174). -/
/-- `CS_I_UV.IU`, [15:0], RO, reset 0. -/
def CS_I_UV_IU : Fld := { off := 0x4018, lo := 0, w := 16, sgn := true, dflt := 0 }
/-- `CS_I_UV.IV`, [31:16], RO, reset 0. -/
def CS_I_UV_IV : Fld := { off := 0x4018, lo := 16, w := 16, sgn := true, dflt := 0 }

/-! `CS_I_W` (R174). -/
/-- `CS_I_W.IW`, [15:0], RO, reset 0. -/
def CS_I_W_IW : Fld := { off := 0x401C, lo := 0, w := 16, sgn := true, dflt := 0 }
/-- `CS_I_W.MEAS`, [18:16], RO, reset 0. -/
def CS_I_W_MEAS : Fld := { off := 0x401C, lo := 16, w := 3, sgn := false, dflt := 0 }
/-- `CS_I_W.RECON`, [19:19], RO, reset 0. -/
def CS_I_W_RECON : Fld := { off := 0x401C, lo := 19, w := 1, sgn := false, dflt := 0 }
/-- `CS_I_W.VALID`, [20:20], RO, reset 0. -/
def CS_I_W_VALID : Fld := { off := 0x401C, lo := 20, w := 1, sgn := false, dflt := 0 }

/-! `CS_STAT` (R174). -/
/-- `CS_STAT.SAT_SEEN`, [0:0], W1C, reset 0. -/
def CS_STAT_SAT_SEEN : Fld := { off := 0x4020, lo := 0, w := 1, sgn := false, dflt := 0, w1c := true }
/-- `CS_STAT.SKIP_SEEN`, [1:1], W1C, reset 0. -/
def CS_STAT_SKIP_SEEN : Fld := { off := 0x4020, lo := 1, w := 1, sgn := false, dflt := 0, w1c := true }
/-- `CS_STAT.SUM_SEEN`, [2:2], W1C, reset 0. -/
def CS_STAT_SUM_SEEN : Fld := { off := 0x4020, lo := 2, w := 1, sgn := false, dflt := 0, w1c := true }
/-- `CS_STAT.SKIP_CNT`, [31:16], RC, reset 0. -/
def CS_STAT_SKIP_CNT : Fld := { off := 0x4020, lo := 16, w := 16, sgn := false, dflt := 0, rc := true }

/-! `GC_CTRL` (R200). -/
/-- `GC_CTRL.DMODE`, [1:0], WK, reset CFG (default 0). -/
def GC_CTRL_DMODE : Fld := { off := 0x3000, lo := 0, w := 2, sgn := false, dflt := 0 }
/-- `GC_CTRL.PSRC`, [2:2], RW, reset CFG (default 0). -/
def GC_CTRL_PSRC : Fld := { off := 0x3000, lo := 2, w := 1, sgn := false, dflt := 0 }

/-! `GC_DRV` (R200). -/
/-- `GC_DRV.ISRC`, [2:0], RW, reset CFG (default 7). -/
def GC_DRV_ISRC : Fld := { off := 0x3004, lo := 0, w := 3, sgn := false, dflt := 7 }
/-- `GC_DRV.ISNK`, [6:4], RW, reset CFG (default 7). -/
def GC_DRV_ISNK : Fld := { off := 0x3004, lo := 4, w := 3, sgn := false, dflt := 7 }

/-! `GC_SOFT` (R200). -/
/-- `GC_SOFT.MID`, [3:0], RW, reset CFG (default 4). -/
def GC_SOFT_MID : Fld := { off := 0x3008, lo := 0, w := 4, sgn := false, dflt := 4 }
/-- `GC_SOFT.T_MID`, [15:8], RW, reset CFG (default 20). -/
def GC_SOFT_T_MID : Fld := { off := 0x3008, lo := 8, w := 8, sgn := false, dflt := 20 }
/-- `GC_SOFT.ISNK_SOFT`, [17:16], RW, reset CFG (default 0). -/
def GC_SOFT_ISNK_SOFT : Fld := { off := 0x3008, lo := 16, w := 2, sgn := false, dflt := 0 }

/-! `GC_BS` (R200). -/
/-- `GC_BS.BSUV_SET`, [3:0], WK, reset CFG (default 4). -/
def GC_BS_BSUV_SET : Fld := { off := 0x300C, lo := 0, w := 4, sgn := false, dflt := 4 }
/-- `GC_BS.T_REFR`, [13:8], RW, reset CFG (default 10). -/
def GC_BS_T_REFR : Fld := { off := 0x300C, lo := 8, w := 6, sgn := false, dflt := 10 }
/-- `GC_BS.CHG_MAX`, [23:16], RW, reset CFG (default 64). -/
def GC_BS_CHG_MAX : Fld := { off := 0x300C, lo := 16, w := 8, sgn := false, dflt := 64 }

/-! `GC_VDS` (R200). -/
/-- `GC_VDS.VDS_TH`, [5:0], WK, reset CFG (default 20). -/
def GC_VDS_VDS_TH : Fld := { off := 0x3010, lo := 0, w := 6, sgn := false, dflt := 20 }
/-- `GC_VDS.VDS_ABS`, [7:6], WK, reset CFG (default 1). -/
def GC_VDS_VDS_ABS : Fld := { off := 0x3010, lo := 6, w := 2, sgn := false, dflt := 1 }
/-- `GC_VDS.BLANK`, [18:8], RW, reset CFG (default 400). -/
def GC_VDS_BLANK : Fld := { off := 0x3010, lo := 8, w := 11, sgn := false, dflt := 400 }
/-- `GC_VDS.VDS_FLT`, [25:20], RW, reset CFG (default 8). -/
def GC_VDS_VDS_FLT : Fld := { off := 0x3010, lo := 20, w := 6, sgn := false, dflt := 8 }

/-! `GC_OC` (R200). -/
/-- `GC_OC.OC_SOFT`, [6:0], WK, reset CFG (default 40). -/
def GC_OC_OC_SOFT : Fld := { off := 0x3014, lo := 0, w := 7, sgn := false, dflt := 40 }
/-- `GC_OC.OC_N`, [11:8], RW, reset CFG (default 1). -/
def GC_OC_OC_N : Fld := { off := 0x3014, lo := 8, w := 4, sgn := false, dflt := 1 }
/-- `GC_OC.OC_SOFT_PU`, [29:16], WK, reset CFG (default 8192). -/
def GC_OC_OC_SOFT_PU : Fld := { off := 0x3014, lo := 16, w := 14, sgn := false, dflt := 8192 }

/-! `GC_DIAG` (R200). -/
/-- `GC_DIAG.ARM_ITEMS`, [4:0], RW, reset CFG (default 15). -/
def GC_DIAG_ARM_ITEMS : Fld := { off := 0x3018, lo := 0, w := 5, sgn := false, dflt := 15 }
/-- `GC_DIAG.T_SETTLE`, [11:8], RW, reset CFG (default 2). -/
def GC_DIAG_T_SETTLE : Fld := { off := 0x3018, lo := 8, w := 4, sgn := false, dflt := 2 }

/-! `GC_LINK` (R200). -/
/-- `GC_LINK.LFLT_FLT`, [7:0], RW, reset CFG (default 4). -/
def GC_LINK_LFLT_FLT : Fld := { off := 0x301C, lo := 0, w := 8, sgn := false, dflt := 4 }
/-- `GC_LINK.LRDY_REQ`, [8:8], RW, reset CFG (default 1). -/
def GC_LINK_LRDY_REQ : Fld := { off := 0x301C, lo := 8, w := 1, sgn := false, dflt := 1 }

/-! `GC_STAT` (R200). -/
/-- `GC_STAT.BS_OK`, [2:0], RO, reset 0. -/
def GC_STAT_BS_OK : Fld := { off := 0x3020, lo := 0, w := 3, sgn := false, dflt := 0 }
/-- `GC_STAT.BSUV_SEEN`, [6:4], W1C, reset 0. -/
def GC_STAT_BSUV_SEEN : Fld := { off := 0x3020, lo := 4, w := 3, sgn := false, dflt := 0, w1c := true }
/-- `GC_STAT.VDS_SEEN`, [10:8], W1C, reset 0. -/
def GC_STAT_VDS_SEEN : Fld := { off := 0x3020, lo := 8, w := 3, sgn := false, dflt := 0, w1c := true }
/-- `GC_STAT.OC_SEEN`, [14:12], W1C, reset 0. -/
def GC_STAT_OC_SEEN : Fld := { off := 0x3020, lo := 12, w := 3, sgn := false, dflt := 0, w1c := true }
/-- `GC_STAT.HARD_SEEN`, [15:15], W1C, reset 0. -/
def GC_STAT_HARD_SEEN : Fld := { off := 0x3020, lo := 15, w := 1, sgn := false, dflt := 0, w1c := true }
/-- `GC_STAT.LRDY`, [16:16], RO, reset 0. -/
def GC_STAT_LRDY : Fld := { off := 0x3020, lo := 16, w := 1, sgn := false, dflt := 0 }
/-- `GC_STAT.LFLT`, [17:17], RO, reset 0. -/
def GC_STAT_LFLT : Fld := { off := 0x3020, lo := 17, w := 1, sgn := false, dflt := 0 }
/-- `GC_STAT.TURNOFF`, [18:18], RO, reset 0. -/
def GC_STAT_TURNOFF : Fld := { off := 0x3020, lo := 18, w := 1, sgn := false, dflt := 0 }
/-- `GC_STAT.OFF_CONF`, [19:19], RO, reset 0. -/
def GC_STAT_OFF_CONF : Fld := { off := 0x3020, lo := 19, w := 1, sgn := false, dflt := 0 }

/-! `GC_FAULT` (R200). -/
/-- `GC_FAULT.CAUSE`, [5:0], RO, reset 0. -/
def GC_FAULT_CAUSE : Fld := { off := 0x3024, lo := 0, w := 6, sgn := false, dflt := 0 }
/-- `GC_FAULT.LEGS`, [10:8], RO, reset 0. -/
def GC_FAULT_LEGS : Fld := { off := 0x3024, lo := 8, w := 3, sgn := false, dflt := 0 }
/-- `GC_FAULT.SIDE`, [11:11], RO, reset 0. -/
def GC_FAULT_SIDE : Fld := { off := 0x3024, lo := 11, w := 1, sgn := false, dflt := 0 }
/-- `GC_FAULT.LEGS2`, [14:12], RO, reset 0. -/
def GC_FAULT_LEGS2 : Fld := { off := 0x3024, lo := 12, w := 3, sgn := false, dflt := 0 }

/-! `GC_BSV` (R200). -/
/-- `GC_BSV.BSV_U`, [7:0], RO, reset 0. -/
def GC_BSV_BSV_U : Fld := { off := 0x3028, lo := 0, w := 8, sgn := false, dflt := 0 }
/-- `GC_BSV.BSV_V`, [15:8], RO, reset 0. -/
def GC_BSV_BSV_V : Fld := { off := 0x3028, lo := 8, w := 8, sgn := false, dflt := 0 }
/-- `GC_BSV.BSV_W`, [23:16], RO, reset 0. -/
def GC_BSV_BSV_W : Fld := { off := 0x3028, lo := 16, w := 8, sgn := false, dflt := 0 }

/-! `GC_CNT` (R200). -/
/-- `GC_CNT.REFR_CNT`, [15:0], RC, reset 0. -/
def GC_CNT_REFR_CNT : Fld := { off := 0x302C, lo := 0, w := 16, sgn := false, dflt := 0, rc := true }
/-- `GC_CNT.OC_PER`, [31:16], RC, reset 0. -/
def GC_CNT_OC_PER : Fld := { off := 0x302C, lo := 16, w := 16, sgn := false, dflt := 0, rc := true }

/-! `SUP_STO_CFG` (R200). -/
/-- `SUP_STO_CFG.FILT`, [1:0], WK, reset CFG (default 3). -/
def SUP_STO_CFG_FILT : Fld := { off := 0x800, lo := 0, w := 2, sgn := false, dflt := 3 }
/-- `SUP_STO_CFG.DISC_T`, [15:8], WK, reset CFG (default 50). -/
def SUP_STO_CFG_DISC_T : Fld := { off := 0x800, lo := 8, w := 8, sgn := false, dflt := 50 }
/-- `SUP_STO_CFG.STO_BRK`, [16:16], WK, reset CFG (default 1). -/
def SUP_STO_CFG_STO_BRK : Fld := { off := 0x800, lo := 16, w := 1, sgn := false, dflt := 1 }

/-! `SUP_STO_STAT` (R200). -/
/-- `SUP_STO_STAT.CH1`, [0:0], RO, reset 0. -/
def SUP_STO_STAT_CH1 : Fld := { off := 0x804, lo := 0, w := 1, sgn := false, dflt := 0 }
/-- `SUP_STO_STAT.CH2`, [1:1], RO, reset 0. -/
def SUP_STO_STAT_CH2 : Fld := { off := 0x804, lo := 1, w := 1, sgn := false, dflt := 0 }
/-- `SUP_STO_STAT.ACTIVE`, [2:2], RO, reset 1. -/
def SUP_STO_STAT_ACTIVE : Fld := { off := 0x804, lo := 2, w := 1, sgn := false, dflt := 1 }
/-- `SUP_STO_STAT.SEEN`, [3:3], W1C, reset 0. -/
def SUP_STO_STAT_SEEN : Fld := { off := 0x804, lo := 3, w := 1, sgn := false, dflt := 0, w1c := true }
/-- `SUP_STO_STAT.DISC`, [4:4], RO, reset 0. -/
def SUP_STO_STAT_DISC : Fld := { off := 0x804, lo := 4, w := 1, sgn := false, dflt := 0 }
/-- `SUP_STO_STAT.OFF_CONF`, [5:5], RO, reset 0. -/
def SUP_STO_STAT_OFF_CONF : Fld := { off := 0x804, lo := 5, w := 1, sgn := false, dflt := 0 }
/-- `SUP_STO_STAT.EVENTS`, [31:16], RC, reset 0. -/
def SUP_STO_STAT_EVENTS : Fld := { off := 0x804, lo := 16, w := 16, sgn := false, dflt := 0, rc := true }

/-! `BGD_CTRL` (R217). -/
/-- `BGD_CTRL.CH_EN`, [0:0], RW, reset CFG (default 0). -/
def BGD_CTRL_CH_EN : Fld := { off := 0x60000, lo := 0, w := 1, sgn := false, dflt := 0 }
/-- `BGD_CTRL.PRE_EN`, [1:1], RW, reset CFG (default 0). -/
def BGD_CTRL_PRE_EN : Fld := { off := 0x60000, lo := 1, w := 1, sgn := false, dflt := 0 }
/-- `BGD_CTRL.GROUP_TRIP`, [2:2], WK, reset CFG (default 0). -/
def BGD_CTRL_GROUP_TRIP : Fld := { off := 0x60000, lo := 2, w := 1, sgn := false, dflt := 0 }
/-- `BGD_CTRL.CLASS`, [5:4], WK, reset CFG (default 3). -/
def BGD_CTRL_CLASS : Fld := { off := 0x60000, lo := 4, w := 2, sgn := false, dflt := 3 }

/-! `BGD_SCALE` (R217). -/
/-- `BGD_SCALE.VSCALE`, [15:0], WK, reset CFG (default 1000). -/
def BGD_SCALE_VSCALE : Fld := { off := 0x60004, lo := 0, w := 16, sgn := false, dflt := 1000 }

/-! `BGD_VCHOP` (R217). -/
/-- `BGD_VCHOP.V_CHOP`, [15:0], WK, reset CFG (default 850). -/
def BGD_VCHOP_V_CHOP : Fld := { off := 0x60008, lo := 0, w := 16, sgn := false, dflt := 850 }
/-- `BGD_VCHOP.CHOP_HYST`, [31:16], RW, reset CFG (default 20). -/
def BGD_VCHOP_CHOP_HYST : Fld := { off := 0x60008, lo := 16, w := 16, sgn := false, dflt := 20 }

/-! `BGD_VBRIM` (R217). -/
/-- `BGD_VBRIM.V_BRIM`, [15:0], WK, reset CFG (default 900). -/
def BGD_VBRIM_V_BRIM : Fld := { off := 0x6000C, lo := 0, w := 16, sgn := false, dflt := 900 }
/-- `BGD_VBRIM.V_BAND`, [31:16], WK, reset CFG (default 30). -/
def BGD_VBRIM_V_BAND : Fld := { off := 0x6000C, lo := 16, w := 16, sgn := false, dflt := 30 }

/-! `BGD_VTRIP` (R217). -/
/-- `BGD_VTRIP.V_TRIP`, [15:0], WK, reset CFG (default 950). -/
def BGD_VTRIP_V_TRIP : Fld := { off := 0x60010, lo := 0, w := 16, sgn := false, dflt := 950 }
/-- `BGD_VTRIP.V_UV`, [31:16], WK, reset CFG (default 50). -/
def BGD_VTRIP_V_UV : Fld := { off := 0x60010, lo := 16, w := 16, sgn := false, dflt := 50 }

/-! `BGD_PRE` (R217). -/
/-- `BGD_PRE.V_PRE`, [15:0], WK, reset CFG (default 100). -/
def BGD_PRE_V_PRE : Fld := { off := 0x60014, lo := 0, w := 16, sgn := false, dflt := 100 }
/-- `BGD_PRE.T_PRE_MAX`, [23:16], RW, reset CFG (default 50). -/
def BGD_PRE_T_PRE_MAX : Fld := { off := 0x60014, lo := 16, w := 8, sgn := false, dflt := 50 }

/-! `BGD_CHOP` (R217). -/
/-- `BGD_CHOP.T_CHMIN`, [7:0], RW, reset CFG (default 10). -/
def BGD_CHOP_T_CHMIN : Fld := { off := 0x60018, lo := 0, w := 8, sgn := false, dflt := 10 }
/-- `BGD_CHOP.I_PRES`, [15:8], RW, reset CFG (default 10). -/
def BGD_CHOP_I_PRES : Fld := { off := 0x60018, lo := 8, w := 8, sgn := false, dflt := 10 }
/-- `BGD_CHOP.CH_OC`, [23:16], WK, reset CFG (default 180). -/
def BGD_CHOP_CH_OC : Fld := { off := 0x60018, lo := 16, w := 8, sgn := false, dflt := 180 }

/-! `BGD_REGEN` (R217). -/
/-- `BGD_REGEN.I_REGEN`, [15:0], WK, reset CFG (default 8192). -/
def BGD_REGEN_I_REGEN : Fld := { off := 0x6001C, lo := 0, w := 16, sgn := false, dflt := 8192 }

/-! `BGD_ILIM` (R217). -/
/-- `BGD_ILIM.ILIM0`, [15:0], WK, reset CFG (default 8192). -/
def BGD_ILIM_ILIM0 : Fld := { off := 0x60020, lo := 0, w := 16, sgn := false, dflt := 8192 }
/-- `BGD_ILIM.ILIM1`, [31:16], WK, reset CFG (default 8192). -/
def BGD_ILIM_ILIM1 : Fld := { off := 0x60020, lo := 16, w := 16, sgn := false, dflt := 8192 }

/-! `BGD_ZVB` (R217). -/
/-- `BGD_ZVB.ZVB_I`, [15:0], RW, reset CFG (default 8192). -/
def BGD_ZVB_ZVB_I : Fld := { off := 0x60024, lo := 0, w := 16, sgn := false, dflt := 8192 }
/-- `BGD_ZVB.T_ZVB`, [23:16], RW, reset CFG (default 20). -/
def BGD_ZVB_T_ZVB : Fld := { off := 0x60024, lo := 16, w := 8, sgn := false, dflt := 20 }
/-- `BGD_ZVB.ZVB_WMIN`, [31:24], RW, reset CFG (default 5). -/
def BGD_ZVB_ZVB_WMIN : Fld := { off := 0x60024, lo := 24, w := 8, sgn := false, dflt := 5 }

/-! `BGD_STAT` (R217). -/
/-- `BGD_STAT.PRE_DONE`, [0:0], RO, reset 0. -/
def BGD_STAT_PRE_DONE : Fld := { off := 0x60028, lo := 0, w := 1, sgn := false, dflt := 0 }
/-- `BGD_STAT.CHOP_ON`, [1:1], RO, reset 0. -/
def BGD_STAT_CHOP_ON : Fld := { off := 0x60028, lo := 1, w := 1, sgn := false, dflt := 0 }
/-- `BGD_STAT.CHFAULT`, [2:2], RO, reset 0. -/
def BGD_STAT_CHFAULT : Fld := { off := 0x60028, lo := 2, w := 1, sgn := false, dflt := 0 }
/-- `BGD_STAT.REGEN_LIM`, [3:3], RO, reset 0. -/
def BGD_STAT_REGEN_LIM : Fld := { off := 0x60028, lo := 3, w := 1, sgn := false, dflt := 0 }
/-- `BGD_STAT.ZVB`, [5:4], RO, reset 0. -/
def BGD_STAT_ZVB : Fld := { off := 0x60028, lo := 4, w := 2, sgn := false, dflt := 0 }
/-- `BGD_STAT.TRIP_SEEN`, [6:6], W1C, reset 0. -/
def BGD_STAT_TRIP_SEEN : Fld := { off := 0x60028, lo := 6, w := 1, sgn := false, dflt := 0, w1c := true }
/-- `BGD_STAT.CHF_SEEN`, [7:7], W1C, reset 0. -/
def BGD_STAT_CHF_SEEN : Fld := { off := 0x60028, lo := 7, w := 1, sgn := false, dflt := 0, w1c := true }
/-- `BGD_STAT.CAUSE`, [13:8], RO, reset 0. -/
def BGD_STAT_CAUSE : Fld := { off := 0x60028, lo := 8, w := 6, sgn := false, dflt := 0 }

/-! `BGD_MEAS` (R217). -/
/-- `BGD_MEAS.VDC`, [15:0], RO, reset 0. -/
def BGD_MEAS_VDC : Fld := { off := 0x6002C, lo := 0, w := 16, sgn := false, dflt := 0 }
/-- `BGD_MEAS.ICH`, [31:16], RO, reset 0. -/
def BGD_MEAS_ICH : Fld := { off := 0x6002C, lo := 16, w := 16, sgn := false, dflt := 0 }

/-! `BGD_CNT` (R217). -/
/-- `BGD_CNT.CHOP_CNT`, [15:0], RC, reset 0. -/
def BGD_CNT_CHOP_CNT : Fld := { off := 0x60030, lo := 0, w := 16, sgn := false, dflt := 0, rc := true }
/-- `BGD_CNT.LIM_UPD`, [31:16], RC, reset 0. -/
def BGD_CNT_LIM_UPD : Fld := { off := 0x60030, lo := 16, w := 16, sgn := false, dflt := 0, rc := true }

/-! `THM_CTRL` (R218). -/
/-- `THM_CTRL.T_START`, [10:0], WK, reset CFG (default 1350). -/
def THM_CTRL_T_START : Fld := { off := 0x90000, lo := 0, w := 11, sgn := false, dflt := 1350 }

/-! `THM_STAT` (R218). -/
/-- `THM_STAT.BROKEN`, [3:0], RO, reset 0. -/
def THM_STAT_BROKEN : Fld := { off := 0x90004, lo := 0, w := 4, sgn := false, dflt := 0 }
/-- `THM_STAT.BORROW`, [4:4], RO, reset 0. -/
def THM_STAT_BORROW : Fld := { off := 0x90004, lo := 4, w := 1, sgn := false, dflt := 0 }
/-- `THM_STAT.NOSENSE`, [5:5], RO, reset 0. -/
def THM_STAT_NOSENSE : Fld := { off := 0x90004, lo := 5, w := 1, sgn := false, dflt := 0 }
/-- `THM_STAT.THROTTLE`, [6:6], RO, reset 0. -/
def THM_STAT_THROTTLE : Fld := { off := 0x90004, lo := 6, w := 1, sgn := false, dflt := 0 }
/-- `THM_STAT.T_REG`, [31:16], RO, reset 0. -/
def THM_STAT_T_REG : Fld := { off := 0x90004, lo := 16, w := 16, sgn := true, dflt := 0 }

/-! `THM_T01` (R218). -/
/-- `THM_T01.T0`, [15:0], RO, reset 0. -/
def THM_T01_T0 : Fld := { off := 0x90008, lo := 0, w := 16, sgn := true, dflt := 0 }
/-- `THM_T01.T1`, [31:16], RO, reset 0. -/
def THM_T01_T1 : Fld := { off := 0x90008, lo := 16, w := 16, sgn := true, dflt := 0 }

/-! `THM_T23` (R218). -/
/-- `THM_T23.T2`, [15:0], RO, reset 0. -/
def THM_T23_T2 : Fld := { off := 0x9000C, lo := 0, w := 16, sgn := true, dflt := 0 }
/-- `THM_T23.T3`, [31:16], RO, reset 0. -/
def THM_T23_T3 : Fld := { off := 0x9000C, lo := 16, w := 16, sgn := true, dflt := 0 }

/-! `THM_K` (R218). -/
/-- `THM_K.K0`, [15:0], RO, reset 32768. -/
def THM_K_K0 : Fld := { off := 0x90010, lo := 0, w := 16, sgn := false, dflt := 32768 }
/-- `THM_K.K1`, [31:16], RO, reset 32768. -/
def THM_K_K1 : Fld := { off := 0x90010, lo := 16, w := 16, sgn := false, dflt := 32768 }

/-! `THM_SH_T` (R218). -/
/-- `THM_SH_T.T0`, [15:0], RO, reset 0. -/
def THM_SH_T_T0 : Fld := { off := 0x60100, lo := 0, w := 16, sgn := true, dflt := 0 }
/-- `THM_SH_T.T1`, [31:16], RO, reset 0. -/
def THM_SH_T_T1 : Fld := { off := 0x60100, lo := 16, w := 16, sgn := true, dflt := 0 }

/-! `THM_SH_STAT` (R218). -/
/-- `THM_SH_STAT.BROKEN`, [1:0], RO, reset 0. -/
def THM_SH_STAT_BROKEN : Fld := { off := 0x60104, lo := 0, w := 2, sgn := false, dflt := 0 }
/-- `THM_SH_STAT.BORROW`, [2:2], RO, reset 0. -/
def THM_SH_STAT_BORROW : Fld := { off := 0x60104, lo := 2, w := 1, sgn := false, dflt := 0 }
/-- `THM_SH_STAT.NOSENSE`, [3:3], RO, reset 0. -/
def THM_SH_STAT_NOSENSE : Fld := { off := 0x60104, lo := 3, w := 1, sgn := false, dflt := 0 }
/-- `THM_SH_STAT.EXT_BROKEN`, [7:4], RO, reset 0. -/
def THM_SH_STAT_EXT_BROKEN : Fld := { off := 0x60104, lo := 4, w := 4, sgn := false, dflt := 0 }

/-! `THM_EXT_CFG` (R218). -/
/-- `THM_EXT_CFG.TYPE`, [1:0], RW, reset CFG (default 0). -/
def THM_EXT_CFG_TYPE : Fld := { off := 0x60110, lo := 0, w := 2, sgn := false, dflt := 0 }
/-- `THM_EXT_CFG.STN`, [7:4], RW, reset CFG (default 0). -/
def THM_EXT_CFG_STN : Fld := { off := 0x60110, lo := 4, w := 4, sgn := false, dflt := 0 }
/-- `THM_EXT_CFG.T_X_START`, [18:8], WK, reset CFG (default 0). -/
def THM_EXT_CFG_T_X_START : Fld := { off := 0x60110, lo := 8, w := 11, sgn := false, dflt := 0 }
/-- `THM_EXT_CFG.T_X_ZERO`, [29:19], WK, reset CFG (default 0). -/
def THM_EXT_CFG_T_X_ZERO : Fld := { off := 0x60110, lo := 19, w := 11, sgn := false, dflt := 0 }

/-! `THM_EXT_T` (R218). -/
/-- `THM_EXT_T.TXA`, [15:0], RO, reset 0. -/
def THM_EXT_T_TXA : Fld := { off := 0x60120, lo := 0, w := 16, sgn := true, dflt := 0 }
/-- `THM_EXT_T.TXB`, [31:16], RO, reset 0. -/
def THM_EXT_T_TXB : Fld := { off := 0x60120, lo := 16, w := 16, sgn := true, dflt := 0 }

/-! `OBS_CTRL` (R238). -/
/-- `OBS_CTRL.OBS_EN`, [0:0], RW, reset CFG (default 0). -/
def OBS_CTRL_OBS_EN : Fld := { off := 0x6000, lo := 0, w := 1, sgn := false, dflt := 0 }
/-- `OBS_CTRL.LIMP_EN`, [1:1], RW, reset CFG (default 0). -/
def OBS_CTRL_LIMP_EN : Fld := { off := 0x6000, lo := 1, w := 1, sgn := false, dflt := 0 }
/-- `OBS_CTRL.LIMP_LAW`, [2:2], RW, reset CFG (default 0). -/
def OBS_CTRL_LIMP_LAW : Fld := { off := 0x6000, lo := 2, w := 1, sgn := false, dflt := 0 }
/-- `OBS_CTRL.START_LAW`, [3:3], RW, reset CFG (default 0). -/
def OBS_CTRL_START_LAW : Fld := { off := 0x6000, lo := 3, w := 1, sgn := false, dflt := 0 }
/-- `OBS_CTRL.REV_ACT`, [5:4], RW, reset CFG (default 0). -/
def OBS_CTRL_REV_ACT : Fld := { off := 0x6000, lo := 4, w := 2, sgn := false, dflt := 0 }
/-- `OBS_CTRL.ARM_GUARD`, [6:6], RW, reset CFG (default 0). -/
def OBS_CTRL_ARM_GUARD : Fld := { off := 0x6000, lo := 6, w := 1, sgn := false, dflt := 0 }
/-- `OBS_CTRL.CATCH_EN`, [7:7], RW, reset CFG (default 1). -/
def OBS_CTRL_CATCH_EN : Fld := { off := 0x6000, lo := 7, w := 1, sgn := false, dflt := 1 }
/-- `OBS_CTRL.EMF_SH`, [10:8], RW, reset CFG (default 0). -/
def OBS_CTRL_EMF_SH : Fld := { off := 0x6000, lo := 8, w := 3, sgn := false, dflt := 0 }

/-! `OBS_MOTOR` (R238). -/
/-- `OBS_MOTOR.RS`, [15:0], WK, reset CFG (default 0). -/
def OBS_MOTOR_RS : Fld := { off := 0x6004, lo := 0, w := 16, sgn := false, dflt := 0 }
/-- `OBS_MOTOR.LS`, [31:16], WK, reset CFG (default 0). -/
def OBS_MOTOR_LS : Fld := { off := 0x6004, lo := 16, w := 16, sgn := false, dflt := 0 }

/-! `OBS_PLL` (R238). -/
/-- `OBS_PLL.BW`, [11:0], RW, reset CFG (default 100). -/
def OBS_PLL_BW : Fld := { off := 0x6008, lo := 0, w := 12, sgn := false, dflt := 100 }
/-- `OBS_PLL.CATCH_BW`, [27:16], RW, reset CFG (default 200). -/
def OBS_PLL_CATCH_BW : Fld := { off := 0x6008, lo := 16, w := 12, sgn := false, dflt := 200 }

/-! `OBS_RES` (R238). -/
/-- `OBS_RES.RES_TH`, [13:0], RW, reset CFG (default 2802). -/
def OBS_RES_RES_TH : Fld := { off := 0x600C, lo := 0, w := 14, sgn := false, dflt := 2802 }
/-- `OBS_RES.RES_N`, [23:16], RW, reset CFG (default 8). -/
def OBS_RES_RES_N : Fld := { off := 0x600C, lo := 16, w := 8, sgn := false, dflt := 8 }
/-- `OBS_RES.LOCK_N`, [31:24], RW, reset CFG (default 64). -/
def OBS_RES_LOCK_N : Fld := { off := 0x600C, lo := 24, w := 8, sgn := false, dflt := 64 }

/-! `OBS_EMF` (R238). -/
/-- `OBS_EMF.EMF_MIN`, [15:0], RW, reset CFG (default 410). -/
def OBS_EMF_EMF_MIN : Fld := { off := 0x6010, lo := 0, w := 16, sgn := false, dflt := 410 }

/-! `OBS_START` (R238). -/
/-- `OBS_START.F_HAND`, [15:0], RW, reset CFG (default 100). -/
def OBS_START_F_HAND : Fld := { off := 0x6014, lo := 0, w := 16, sgn := false, dflt := 100 }
/-- `OBS_START.RAMP_ACC`, [31:16], RW, reset CFG (default 20). -/
def OBS_START_RAMP_ACC : Fld := { off := 0x6014, lo := 16, w := 16, sgn := false, dflt := 20 }

/-! `OBS_LIMP` (R238). -/
/-- `OBS_LIMP.T_HAND_MAX`, [7:0], RW, reset CFG (default 50). -/
def OBS_LIMP_T_HAND_MAX : Fld := { off := 0x6018, lo := 0, w := 8, sgn := false, dflt := 50 }
/-- `OBS_LIMP.LIMP_SLOW`, [15:8], RW, reset CFG (default 128). -/
def OBS_LIMP_LIMP_SLOW : Fld := { off := 0x6018, lo := 8, w := 8, sgn := false, dflt := 128 }
/-- `OBS_LIMP.CATCH_MAX`, [19:16], RW, reset CFG (default 3). -/
def OBS_LIMP_CATCH_MAX : Fld := { off := 0x6018, lo := 16, w := 4, sgn := false, dflt := 3 }
/-- `OBS_LIMP.T_RAMPIN`, [31:24], RW, reset CFG (default 50). -/
def OBS_LIMP_T_RAMPIN : Fld := { off := 0x6018, lo := 24, w := 8, sgn := false, dflt := 50 }

/-! `OBS_ROT` (R238). -/
/-- `OBS_ROT.W_ROT`, [15:0], RW, reset CFG (default 50). -/
def OBS_ROT_W_ROT : Fld := { off := 0x601C, lo := 0, w := 16, sgn := false, dflt := 50 }
/-- `OBS_ROT.T_REVWAIT`, [23:16], RW, reset CFG (default 100). -/
def OBS_ROT_T_REVWAIT : Fld := { off := 0x601C, lo := 16, w := 8, sgn := false, dflt := 100 }

/-! `OBS_VPH` (R238). -/
/-- `OBS_VPH.VPH_SCALE`, [15:0], WK, reset CFG (default 1000). -/
def OBS_VPH_VPH_SCALE : Fld := { off := 0x6020, lo := 0, w := 16, sgn := false, dflt := 1000 }

/-! `OBS_STAT` (R238). -/
/-- `OBS_STAT.LOCKED`, [0:0], RO, reset 0. -/
def OBS_STAT_LOCKED : Fld := { off := 0x6024, lo := 0, w := 1, sgn := false, dflt := 0 }
/-- `OBS_STAT.LIMP`, [1:1], RO, reset 0. -/
def OBS_STAT_LIMP : Fld := { off := 0x6024, lo := 1, w := 1, sgn := false, dflt := 0 }
/-- `OBS_STAT.CATCHING`, [2:2], RO, reset 0. -/
def OBS_STAT_CATCHING : Fld := { off := 0x6024, lo := 2, w := 1, sgn := false, dflt := 0 }
/-- `OBS_STAT.BW_LIM`, [3:3], RO, reset 0. -/
def OBS_STAT_BW_LIM : Fld := { off := 0x6024, lo := 3, w := 1, sgn := false, dflt := 0 }
/-- `OBS_STAT.STARTING`, [6:4], RO, reset 0. -/
def OBS_STAT_STARTING : Fld := { off := 0x6024, lo := 4, w := 3, sgn := false, dflt := 0 }
/-- `OBS_STAT.REV_SEEN`, [7:7], W1C, reset 0. -/
def OBS_STAT_REV_SEEN : Fld := { off := 0x6024, lo := 7, w := 1, sgn := false, dflt := 0, w1c := true }
/-- `OBS_STAT.LOSS_SEEN`, [8:8], W1C, reset 0. -/
def OBS_STAT_LOSS_SEEN : Fld := { off := 0x6024, lo := 8, w := 1, sgn := false, dflt := 0, w1c := true }
/-- `OBS_STAT.CAUSE`, [21:16], RO, reset 0. -/
def OBS_STAT_CAUSE : Fld := { off := 0x6024, lo := 16, w := 6, sgn := false, dflt := 0 }

/-! `OBS_ANGLE` (R238). -/
/-- `OBS_ANGLE.THETA_H`, [31:0], RO, reset 0. -/
def OBS_ANGLE_THETA_H : Fld := { off := 0x6028, lo := 0, w := 32, sgn := false, dflt := 0 }

/-! `OBS_SPEED` (R238). -/
/-- `OBS_SPEED.WE`, [31:0], RO, reset 0. -/
def OBS_SPEED_WE : Fld := { off := 0x602C, lo := 0, w := 32, sgn := true, dflt := 0 }

/-! `OBS_EMFV` (R238). -/
/-- `OBS_EMFV.MAG`, [15:0], RO, reset 0. -/
def OBS_EMFV_MAG : Fld := { off := 0x6030, lo := 0, w := 16, sgn := false, dflt := 0 }
/-- `OBS_EMFV.RES`, [31:16], RO, reset 0. -/
def OBS_EMFV_RES : Fld := { off := 0x6030, lo := 16, w := 16, sgn := false, dflt := 0 }

/-! `OBS_CNT` (R238). -/
/-- `OBS_CNT.LOSS_CNT`, [15:0], RC, reset 0. -/
def OBS_CNT_LOSS_CNT : Fld := { off := 0x6034, lo := 0, w := 16, sgn := false, dflt := 0, rc := true }
/-- `OBS_CNT.CATCH_OK`, [31:16], RC, reset 0. -/
def OBS_CNT_CATCH_OK : Fld := { off := 0x6034, lo := 16, w := 16, sgn := false, dflt := 0, rc := true }

/-! `LEN_STAT` (R263). -/
/-- `LEN_STAT.IN_SERVICE`, [0:0], RO, reset 0. -/
def LEN_STAT_IN_SERVICE : Fld := { off := 0x10000, lo := 0, w := 1, sgn := false, dflt := 0 }
/-- `LEN_STAT.STEAMING`, [1:1], RO, reset 0. -/
def LEN_STAT_STEAMING : Fld := { off := 0x10000, lo := 1, w := 1, sgn := false, dflt := 0 }

/-! `LEN_LOAD` (R263). -/
/-- `LEN_LOAD.LOAD`, [31:0], RO, reset 0. -/
def LEN_LOAD_LOAD : Fld := { off := 0x10004, lo := 0, w := 32, sgn := false, dflt := 0 }

/-! `LEN_BANK` (R263). -/
/-- `LEN_BANK.BANK`, [15:0], RO, reset CFG (default 0). -/
def LEN_BANK_BANK : Fld := { off := 0x10008, lo := 0, w := 16, sgn := false, dflt := 0 }
/-- `LEN_BANK.BUMPLESS`, [31:16], RW, reset CFG (default 0). -/
def LEN_BANK_BUMPLESS : Fld := { off := 0x10008, lo := 16, w := 16, sgn := false, dflt := 0 }

/-! `LEN_SWAP` (R263). -/
/-- `LEN_SWAP.PENDING`, [15:0], RO, reset 0. -/
def LEN_SWAP_PENDING : Fld := { off := 0x1000C, lo := 0, w := 16, sgn := false, dflt := 0 }

/-! `LEN_SNK` (R263). -/
/-- `LEN_SNK.VD_SLOT`, [5:0], RW, reset CFG (default 63). -/
def LEN_SNK_VD_SLOT : Fld := { off := 0x10020, lo := 0, w := 6, sgn := false, dflt := 63 }
/-- `LEN_SNK.VQ_SLOT`, [13:8], RW, reset CFG (default 63). -/
def LEN_SNK_VQ_SLOT : Fld := { off := 0x10020, lo := 8, w := 6, sgn := false, dflt := 63 }
/-- `LEN_SNK.FF_SLOT`, [21:16], RW, reset CFG (default 63). -/
def LEN_SNK_FF_SLOT : Fld := { off := 0x10020, lo := 16, w := 6, sgn := false, dflt := 63 }

/-! `LEN_CHAIN` (R263). -/
/-- `LEN_CHAIN.K0`, [5:0], RW, reset CFG (default 63). -/
def LEN_CHAIN_K0 : Fld := { off := 0x10024, lo := 0, w := 6, sgn := false, dflt := 63 }
/-- `LEN_CHAIN.K1`, [13:8], RW, reset CFG (default 63). -/
def LEN_CHAIN_K1 : Fld := { off := 0x10024, lo := 8, w := 6, sgn := false, dflt := 63 }
/-- `LEN_CHAIN.K2`, [21:16], RW, reset CFG (default 63). -/
def LEN_CHAIN_K2 : Fld := { off := 0x10024, lo := 16, w := 6, sgn := false, dflt := 63 }
/-- `LEN_CHAIN.SP_SLOT`, [29:24], RW, reset CFG (default 63). -/
def LEN_CHAIN_SP_SLOT : Fld := { off := 0x10024, lo := 24, w := 6, sgn := false, dflt := 63 }

/-! `LEN_WBASE` (R263). -/
/-- `LEN_WBASE.WBASE`, [15:0], RW, reset CFG (default 100). -/
def LEN_WBASE_WBASE : Fld := { off := 0x10028, lo := 0, w := 16, sgn := false, dflt := 100 }

/-! `LEN_PBASE` (R263). -/
/-- `LEN_PBASE.PBASE`, [31:0], RW, reset CFG (default 16384). -/
def LEN_PBASE_PBASE : Fld := { off := 0x1002C, lo := 0, w := 32, sgn := false, dflt := 16384 }

/-! `LEN_PARAM` (R263). -/
/-- `LEN_PARAM.PARAM`, [31:0], RW, reset 0. -/
def LEN_PARAM_PARAM : Fld := { off := 0x10100, lo := 0, w := 32, sgn := true, dflt := 0 }

/-! `LEN_CFG` (R263). -/
/-- `LEN_CFG.TYPE`, [2:0], RW, reset CFG (default 0). -/
def LEN_CFG_TYPE : Fld := { off := 0x11000, lo := 0, w := 3, sgn := false, dflt := 0 }
/-- `LEN_CFG.TRIG`, [4:3], RW, reset CFG (default 0). -/
def LEN_CFG_TRIG : Fld := { off := 0x11000, lo := 3, w := 2, sgn := false, dflt := 0 }
/-- `LEN_CFG.OWNER`, [5:5], RW, reset CFG (default 0). -/
def LEN_CFG_OWNER : Fld := { off := 0x11000, lo := 5, w := 1, sgn := false, dflt := 0 }
/-- `LEN_CFG.RUNGATE`, [6:6], RW, reset CFG (default 1). -/
def LEN_CFG_RUNGATE : Fld := { off := 0x11000, lo := 6, w := 1, sgn := false, dflt := 1 }
/-- `LEN_CFG.SEL_HOLD`, [7:7], RW, reset CFG (default 1). -/
def LEN_CFG_SEL_HOLD : Fld := { off := 0x11000, lo := 7, w := 1, sgn := false, dflt := 1 }
/-- `LEN_CFG.GROUP`, [11:8], RW, reset CFG (default 0). -/
def LEN_CFG_GROUP : Fld := { off := 0x11000, lo := 8, w := 4, sgn := false, dflt := 0 }
/-- `LEN_CFG.TOPT`, [15:12], RW, reset CFG (default 0). -/
def LEN_CFG_TOPT : Fld := { off := 0x11000, lo := 12, w := 4, sgn := false, dflt := 0 }
/-- `LEN_CFG.TPARAM`, [31:16], RW, reset CFG (default 1). -/
def LEN_CFG_TPARAM : Fld := { off := 0x11000, lo := 16, w := 16, sgn := false, dflt := 1 }

/-! `LEN_IN` (R263). -/
/-- `LEN_IN.IN_A`, [7:0], RW, reset CFG (default 0). -/
def LEN_IN_IN_A : Fld := { off := 0x11004, lo := 0, w := 8, sgn := false, dflt := 0 }
/-- `LEN_IN.IN_B`, [15:8], RW, reset CFG (default 0). -/
def LEN_IN_IN_B : Fld := { off := 0x11004, lo := 8, w := 8, sgn := false, dflt := 0 }
/-- `LEN_IN.IN_C`, [23:16], RW, reset CFG (default 0). -/
def LEN_IN_IN_C : Fld := { off := 0x11004, lo := 16, w := 8, sgn := false, dflt := 0 }
/-- `LEN_IN.IN_D`, [31:24], RW, reset CFG (default 0). -/
def LEN_IN_IN_D : Fld := { off := 0x11004, lo := 24, w := 8, sgn := false, dflt := 0 }

/-! `LEN_LO` (R263). -/
/-- `LEN_LO.LO`, [31:0], RW, reset CFG (default -2147483648). -/
def LEN_LO_LO : Fld := { off := 0x11008, lo := 0, w := 32, sgn := true, dflt := (-2147483648) }

/-! `LEN_HI` (R263). -/
/-- `LEN_HI.HI`, [31:0], RW, reset CFG (default 2147483647). -/
def LEN_HI_HI : Fld := { off := 0x1100C, lo := 0, w := 32, sgn := true, dflt := 2147483647 }

/-! `LEN_ACC` (R263). -/
/-- `LEN_ACC.ACC`, [47:0], RW, reset 0. -/
def LEN_ACC_ACC : Fld := { off := 0x11030, lo := 0, w := 48, sgn := true, dflt := 0 }

/-! `LEN_OUT` (R263). -/
/-- `LEN_OUT.OUT`, [31:0], RO, reset 0. -/
def LEN_OUT_OUT : Fld := { off := 0x11038, lo := 0, w := 32, sgn := true, dflt := 0 }

/-! `LEN_WRAPS` (R263). -/
/-- `LEN_WRAPS.WRAPS`, [31:0], RO, reset 0. -/
def LEN_WRAPS_WRAPS : Fld := { off := 0x1103C, lo := 0, w := 32, sgn := true, dflt := 0 }

/-! `LEN_SST` (R263). -/
/-- `LEN_SST.BANK_USED`, [0:0], RO, reset 0. -/
def LEN_SST_BANK_USED : Fld := { off := 0x11040, lo := 0, w := 1, sgn := false, dflt := 0 }
/-- `LEN_SST.HELD`, [1:1], RO, reset 0. -/
def LEN_SST_HELD : Fld := { off := 0x11040, lo := 1, w := 1, sgn := false, dflt := 0 }
/-- `LEN_SST.SELLOSE`, [2:2], RO, reset 0. -/
def LEN_SST_SELLOSE : Fld := { off := 0x11040, lo := 2, w := 1, sgn := false, dflt := 0 }
/-- `LEN_SST.WRAP_SEEN`, [3:3], W1C, reset 0. -/
def LEN_SST_WRAP_SEEN : Fld := { off := 0x11040, lo := 3, w := 1, sgn := false, dflt := 0, w1c := true }
/-- `LEN_SST.AT_LIMIT`, [4:4], RO, reset 0. -/
def LEN_SST_AT_LIMIT : Fld := { off := 0x11040, lo := 4, w := 1, sgn := false, dflt := 0 }
/-- `LEN_SST.PRESET_SEEN`, [5:5], W1C, reset 0. -/
def LEN_SST_PRESET_SEEN : Fld := { off := 0x11040, lo := 5, w := 1, sgn := false, dflt := 0, w1c := true }
/-- `LEN_SST.ERR`, [6:6], RO, reset 0. -/
def LEN_SST_ERR : Fld := { off := 0x11040, lo := 6, w := 1, sgn := false, dflt := 0 }
/-- `LEN_SST.MISS`, [31:16], RC, reset 0. -/
def LEN_SST_MISS : Fld := { off := 0x11040, lo := 16, w := 16, sgn := false, dflt := 0, rc := true }

/-! `SPT_CTRL` (R263). -/
/-- `SPT_CTRL.AMODE`, [1:0], RW, reset CFG (default 0). -/
def SPT_CTRL_AMODE : Fld := { off := 0xB0000, lo := 0, w := 2, sgn := false, dflt := 0 }
/-- `SPT_CTRL.PMODE`, [3:2], RW, reset CFG (default 0). -/
def SPT_CTRL_PMODE : Fld := { off := 0xB0000, lo := 2, w := 2, sgn := false, dflt := 0 }
/-- `SPT_CTRL.DUTY_BIP`, [4:4], RW, reset CFG (default 0). -/
def SPT_CTRL_DUTY_BIP : Fld := { off := 0xB0000, lo := 4, w := 1, sgn := false, dflt := 0 }
/-- `SPT_CTRL.PIN_FLT`, [15:8], RW, reset CFG (default 1). -/
def SPT_CTRL_PIN_FLT : Fld := { off := 0xB0000, lo := 8, w := 8, sgn := false, dflt := 1 }
/-- `SPT_CTRL.LOS_T`, [23:16], RW, reset CFG (default 20). -/
def SPT_CTRL_LOS_T : Fld := { off := 0xB0000, lo := 16, w := 8, sgn := false, dflt := 20 }

/-! `SPT_FFS` (R263). -/
/-- `SPT_FFS.F_FS`, [19:0], RW, reset CFG (default 10000). -/
def SPT_FFS_F_FS : Fld := { off := 0xB0004, lo := 0, w := 20, sgn := false, dflt := 10000 }
/-- `SPT_FFS.PULSE_TO`, [31:24], RW, reset CFG (default 100). -/
def SPT_FFS_PULSE_TO : Fld := { off := 0xB0004, lo := 24, w := 8, sgn := false, dflt := 100 }

/-! `SPT_AIN` (R263). -/
/-- `SPT_AIN.CODE`, [15:0], RO, reset 0. -/
def SPT_AIN_CODE : Fld := { off := 0xB0008, lo := 0, w := 16, sgn := true, dflt := 0 }

/-! `SPT_XA` (R263). -/
/-- `SPT_XA.XA`, [31:0], RO, reset 0. -/
def SPT_XA_XA : Fld := { off := 0xB000C, lo := 0, w := 32, sgn := true, dflt := 0 }

/-! `SPT_XP` (R263). -/
/-- `SPT_XP.XP`, [31:0], RO, reset 0. -/
def SPT_XP_XP : Fld := { off := 0xB0010, lo := 0, w := 32, sgn := true, dflt := 0 }

/-! `SPT_STAT` (R263). -/
/-- `SPT_STAT.LOS_A`, [0:0], RO, reset 0. -/
def SPT_STAT_LOS_A : Fld := { off := 0xB0014, lo := 0, w := 1, sgn := false, dflt := 0 }
/-- `SPT_STAT.LOS_P`, [1:1], RO, reset 0. -/
def SPT_STAT_LOS_P : Fld := { off := 0xB0014, lo := 1, w := 1, sgn := false, dflt := 0 }
/-- `SPT_STAT.LOS_SEEN`, [2:2], W1C, reset 0. -/
def SPT_STAT_LOS_SEEN : Fld := { off := 0xB0014, lo := 2, w := 1, sgn := false, dflt := 0, w1c := true }
/-- `SPT_STAT.LOS_CNT`, [31:16], RC, reset 0. -/
def SPT_STAT_LOS_CNT : Fld := { off := 0xB0014, lo := 16, w := 16, sgn := false, dflt := 0, rc := true }

/-! `SPT_CNT` (R263). -/
/-- `SPT_CNT.CNT`, [47:0], RO, reset 0. -/
def SPT_CNT_CNT : Fld := { off := 0xB0018, lo := 0, w := 48, sgn := true, dflt := 0 }

/-! `HBD_CTRL` (R289). -/
/-- `HBD_CTRL.EN`, [0:0], RW, reset CFG (default 0). -/
def HBD_CTRL_EN : Fld := { off := 0x50000, lo := 0, w := 1, sgn := false, dflt := 0 }
/-- `HBD_CTRL.TOPO`, [1:1], WK, reset CFG (default 0). -/
def HBD_CTRL_TOPO : Fld := { off := 0x50000, lo := 1, w := 1, sgn := false, dflt := 0 }

/-! `HBD_RING` (R289). -/
/-- `HBD_RING.RING_NO`, [15:0], WK, reset CFG (default 1). -/
def HBD_RING_RING_NO : Fld := { off := 0x50004, lo := 0, w := 16, sgn := false, dflt := 1 }
/-- `HBD_RING.POS`, [18:16], WK, reset CFG (default 0). -/
def HBD_RING_POS : Fld := { off := 0x50004, lo := 16, w := 3, sgn := false, dflt := 0 }
/-- `HBD_RING.NCHIP_M1`, [22:20], WK, reset CFG (default 0). -/
def HBD_RING_NCHIP_M1 : Fld := { off := 0x50004, lo := 20, w := 3, sgn := false, dflt := 0 }
/-- `HBD_RING.LMAX`, [31:24], WK, reset CFG (default 8). -/
def HBD_RING_LMAX : Fld := { off := 0x50004, lo := 24, w := 8, sgn := false, dflt := 8 }

/-! `HBD_CYC` (R289). -/
/-- `HBD_CYC.T_SC`, [9:0], WK, reset CFG (default 100). -/
def HBD_CYC_T_SC : Fld := { off := 0x50008, lo := 0, w := 10, sgn := false, dflt := 100 }
/-- `HBD_CYC.LATE_MAX`, [23:16], RW, reset CFG (default 4). -/
def HBD_CYC_LATE_MAX : Fld := { off := 0x50008, lo := 16, w := 8, sgn := false, dflt := 4 }

/-! `HBD_PUB` (R289). -/
/-- `HBD_PUB.PUB`, [3:0], RW, reset CFG (default 0). -/
def HBD_PUB_PUB : Fld := { off := 0x5000C, lo := 0, w := 4, sgn := false, dflt := 0 }
/-- `HBD_PUB.MBX_WIN`, [11:8], RW, reset CFG (default 0). -/
def HBD_PUB_MBX_WIN : Fld := { off := 0x5000C, lo := 8, w := 4, sgn := false, dflt := 0 }

/-! `HBD_LOSS` (R289). -/
/-- `HBD_LOSS.T_HOLD`, [15:0], RW, reset CFG (default 10). -/
def HBD_LOSS_T_HOLD : Fld := { off := 0x50010, lo := 0, w := 16, sgn := false, dflt := 10 }

/-! `HBD_STAT` (R289). -/
/-- `HBD_STAT.STATE`, [2:0], RO, reset 0. -/
def HBD_STAT_STATE : Fld := { off := 0x50014, lo := 0, w := 3, sgn := false, dflt := 0 }
/-- `HBD_STAT.ROOT`, [3:3], RO, reset 0. -/
def HBD_STAT_ROOT : Fld := { off := 0x50014, lo := 3, w := 1, sgn := false, dflt := 0 }
/-- `HBD_STAT.SYNC_OK`, [4:4], RO, reset 0. -/
def HBD_STAT_SYNC_OK : Fld := { off := 0x50014, lo := 4, w := 1, sgn := false, dflt := 0 }
/-- `HBD_STAT.ROOT_POS`, [7:5], RO, reset 0. -/
def HBD_STAT_ROOT_POS : Fld := { off := 0x50014, lo := 5, w := 3, sgn := false, dflt := 0 }
/-- `HBD_STAT.REACH`, [15:8], RO, reset 0. -/
def HBD_STAT_REACH : Fld := { off := 0x50014, lo := 8, w := 8, sgn := false, dflt := 0 }
/-- `HBD_STAT.GSIG_OK`, [16:16], RO, reset 0. -/
def HBD_STAT_GSIG_OK : Fld := { off := 0x50014, lo := 16, w := 1, sgn := false, dflt := 0 }
/-- `HBD_STAT.TSTEP`, [17:17], W1C, reset 0. -/
def HBD_STAT_TSTEP : Fld := { off := 0x50014, lo := 17, w := 1, sgn := false, dflt := 0, w1c := true }
/-- `HBD_STAT.LATE_SEEN`, [18:18], W1C, reset 0. -/
def HBD_STAT_LATE_SEEN : Fld := { off := 0x50014, lo := 18, w := 1, sgn := false, dflt := 0, w1c := true }

/-! `HBD_LNK` (R289). -/
/-- `HBD_LNK.LSTATE`, [2:0], RO, reset 0. -/
def HBD_LNK_LSTATE : Fld := { off := 0x50018, lo := 0, w := 3, sgn := false, dflt := 0 }
/-- `HBD_LNK.NB_POS`, [6:4], RO, reset 0. -/
def HBD_LNK_NB_POS : Fld := { off := 0x50018, lo := 4, w := 3, sgn := false, dflt := 0 }
/-- `HBD_LNK.DLY`, [31:16], RO, reset 0. -/
def HBD_LNK_DLY : Fld := { off := 0x50018, lo := 16, w := 16, sgn := false, dflt := 0 }

/-! `HBD_CNT` (R289). -/
/-- `HBD_CNT.CRC`, [7:0], RC, reset 0. -/
def HBD_CNT_CRC : Fld := { off := 0x50020, lo := 0, w := 8, sgn := false, dflt := 0, rc := true }
/-- `HBD_CNT.LATE`, [15:8], RC, reset 0. -/
def HBD_CNT_LATE : Fld := { off := 0x50020, lo := 8, w := 8, sgn := false, dflt := 0, rc := true }
/-- `HBD_CNT.SEQ`, [23:16], RC, reset 0. -/
def HBD_CNT_SEQ : Fld := { off := 0x50020, lo := 16, w := 8, sgn := false, dflt := 0, rc := true }
/-- `HBD_CNT.DOWNS`, [31:24], RC, reset 0. -/
def HBD_CNT_DOWNS : Fld := { off := 0x50020, lo := 24, w := 8, sgn := false, dflt := 0, rc := true }

/-! `HBD_OFS` (R289). -/
/-- `HBD_OFS.OFS`, [63:0], RO, reset 0. -/
def HBD_OFS_OFS : Fld := { off := 0x50028, lo := 0, w := 64, sgn := true, dflt := 0 }

/-! `HBD_TERR` (R289). -/
/-- `HBD_TERR.TERR`, [31:0], RO, reset 0. -/
def HBD_TERR_TERR : Fld := { off := 0x50030, lo := 0, w := 32, sgn := true, dflt := 0 }

/-! `HBD_TRIM` (R289). -/
/-- `HBD_TRIM.TRIM`, [31:0], RO, reset 0. -/
def HBD_TRIM_TRIM : Fld := { off := 0x50034, lo := 0, w := 32, sgn := true, dflt := 0 }

/-! `HBD_CYCLE` (R289). -/
/-- `HBD_CYCLE.CYCLE`, [31:0], RO, reset 0. -/
def HBD_CYCLE_CYCLE : Fld := { off := 0x50038, lo := 0, w := 32, sgn := false, dflt := 0 }

/-! `HBD_DLIM` (R289). -/
/-- `HBD_DLIM.D`, [15:0], RO, reset —. -/
def HBD_DLIM_D : Fld := { off := 0x5003C, lo := 0, w := 16, sgn := false, dflt := 0 }

/-! `HBD_GSIG` (R289). -/
/-- `HBD_GSIG.OWN`, [15:0], RO, reset —. -/
def HBD_GSIG_OWN : Fld := { off := 0x50040, lo := 0, w := 16, sgn := false, dflt := 0 }
/-- `HBD_GSIG.ROOT_SIG`, [31:16], RO, reset —. -/
def HBD_GSIG_ROOT_SIG : Fld := { off := 0x50040, lo := 16, w := 16, sgn := false, dflt := 0 }

/-! `HBD_ALLOC` (R289). -/
/-- `HBD_ALLOC.ALLOC`, [31:0], RO, reset 0. -/
def HBD_ALLOC_ALLOC : Fld := { off := 0x50200, lo := 0, w := 32, sgn := true, dflt := 0 }

/-! `HBD_ALLOC1` (R289). -/
/-- `HBD_ALLOC1.FRESH`, [0:0], RO, reset 0. -/
def HBD_ALLOC1_FRESH : Fld := { off := 0x50204, lo := 0, w := 1, sgn := false, dflt := 0 }
/-- `HBD_ALLOC1.HOLD`, [1:1], RO, reset 0. -/
def HBD_ALLOC1_HOLD : Fld := { off := 0x50204, lo := 1, w := 1, sgn := false, dflt := 0 }
/-- `HBD_ALLOC1.FALLBACK`, [2:2], RO, reset 0. -/
def HBD_ALLOC1_FALLBACK : Fld := { off := 0x50204, lo := 2, w := 1, sgn := false, dflt := 0 }
/-- `HBD_ALLOC1.REJ_SEEN`, [3:3], W1C, reset 0. -/
def HBD_ALLOC1_REJ_SEEN : Fld := { off := 0x50204, lo := 3, w := 1, sgn := false, dflt := 0, w1c := true }
/-- `HBD_ALLOC1.GRP`, [10:8], RO, reset 0. -/
def HBD_ALLOC1_GRP : Fld := { off := 0x50204, lo := 8, w := 3, sgn := false, dflt := 0 }
/-- `HBD_ALLOC1.REJ_CNT`, [31:16], RC, reset 0. -/
def HBD_ALLOC1_REJ_CNT : Fld := { off := 0x50204, lo := 16, w := 16, sgn := false, dflt := 0, rc := true }

/-! `HBD_RCH` (R289). -/
/-- `HBD_RCH.POS`, [47:0], RO, reset 0. -/
def HBD_RCH_POS : Fld := { off := 0x50400, lo := 0, w := 48, sgn := true, dflt := 0 }

/-! `HBD_RCH2` (R289). -/
/-- `HBD_RCH2.SPEED`, [31:0], RO, reset 0. -/
def HBD_RCH2_SPEED : Fld := { off := 0x50408, lo := 0, w := 32, sgn := true, dflt := 0 }

/-! `HBD_RCH3` (R289). -/
/-- `HBD_RCH3.TORQUE`, [15:0], RO, reset 0. -/
def HBD_RCH3_TORQUE : Fld := { off := 0x5040C, lo := 0, w := 16, sgn := false, dflt := 0 }
/-- `HBD_RCH3.AGE`, [23:16], RO, reset 255. -/
def HBD_RCH3_AGE : Fld := { off := 0x5040C, lo := 16, w := 8, sgn := false, dflt := 255 }
/-- `HBD_RCH3.MODE`, [26:24], RO, reset 0. -/
def HBD_RCH3_MODE : Fld := { off := 0x5040C, lo := 24, w := 3, sgn := false, dflt := 0 }
/-- `HBD_RCH3.FOLLOW`, [27:27], RO, reset 0. -/
def HBD_RCH3_FOLLOW : Fld := { off := 0x5040C, lo := 27, w := 1, sgn := false, dflt := 0 }
/-- `HBD_RCH3.LIMITED`, [28:28], RO, reset 0. -/
def HBD_RCH3_LIMITED : Fld := { off := 0x5040C, lo := 28, w := 1, sgn := false, dflt := 0 }

/-! `HBD_GDEF` (R289). -/
/-- `HBD_GDEF.MODE`, [1:0], RO, reset CFG (default 0). -/
def HBD_GDEF_MODE : Fld := { off := 0x51000, lo := 0, w := 2, sgn := false, dflt := 0 }
/-- `HBD_GDEF.COUNT`, [12:8], RO, reset CFG (default 0). -/
def HBD_GDEF_COUNT : Fld := { off := 0x51000, lo := 8, w := 5, sgn := false, dflt := 0 }
/-- `HBD_GDEF.ALLOC_POS`, [18:16], RO, reset CFG (default 0). -/
def HBD_GDEF_ALLOC_POS : Fld := { off := 0x51000, lo := 16, w := 3, sgn := false, dflt := 0 }
/-- `HBD_GDEF.LOCAL`, [24:24], RO, reset CFG (default 0). -/
def HBD_GDEF_LOCAL : Fld := { off := 0x51000, lo := 24, w := 1, sgn := false, dflt := 0 }

/-! `HBD_GCMD` (R289). -/
/-- `HBD_GCMD.GCMD`, [31:0], RW, reset 0. -/
def HBD_GCMD_GCMD : Fld := { off := 0x51004, lo := 0, w := 32, sgn := true, dflt := 0 }

/-! `HBD_GSTAT` (R289). -/
/-- `HBD_GSTAT.NAVAIL`, [4:0], RO, reset 0. -/
def HBD_GSTAT_NAVAIL : Fld := { off := 0x51008, lo := 0, w := 5, sgn := false, dflt := 0 }
/-- `HBD_GSTAT.SHORT`, [8:8], W1C, reset 0. -/
def HBD_GSTAT_SHORT : Fld := { off := 0x51008, lo := 8, w := 1, sgn := false, dflt := 0, w1c := true }
/-- `HBD_GSTAT.LEADER_LOST`, [9:9], RO, reset 0. -/
def HBD_GSTAT_LEADER_LOST : Fld := { off := 0x51008, lo := 9, w := 1, sgn := false, dflt := 0 }

/-! `STN_STAT` (R311). -/
/-- `STN_STAT.MODE`, [2:0], RO, reset 0. -/
def STN_STAT_MODE : Fld := { off := 0x0, lo := 0, w := 3, sgn := false, dflt := 0 }
/-- `STN_STAT.SOURCE`, [5:4], RO, reset 0. -/
def STN_STAT_SOURCE : Fld := { off := 0x0, lo := 4, w := 2, sgn := false, dflt := 0 }
/-- `STN_STAT.KIND`, [9:8], RO, reset 0. -/
def STN_STAT_KIND : Fld := { off := 0x0, lo := 8, w := 2, sgn := false, dflt := 0 }
/-- `STN_STAT.STOP`, [13:12], RO, reset 0. -/
def STN_STAT_STOP : Fld := { off := 0x0, lo := 12, w := 2, sgn := false, dflt := 0 }
/-- `STN_STAT.FB_ACTIVE`, [16:16], RO, reset 0. -/
def STN_STAT_FB_ACTIVE : Fld := { off := 0x0, lo := 16, w := 1, sgn := false, dflt := 0 }
/-- `STN_STAT.SLOW_ACT`, [17:17], RO, reset 0. -/
def STN_STAT_SLOW_ACT : Fld := { off := 0x0, lo := 17, w := 1, sgn := false, dflt := 0 }
/-- `STN_STAT.MBRK`, [18:18], RO, reset 0. -/
def STN_STAT_MBRK : Fld := { off := 0x0, lo := 18, w := 1, sgn := false, dflt := 0 }
/-- `STN_STAT.HANDLE`, [23:20], RO, reset 0. -/
def STN_STAT_HANDLE : Fld := { off := 0x0, lo := 20, w := 4, sgn := false, dflt := 0 }

/-! `STN_CMD` (R311). -/
/-- `STN_CMD.CMD`, [31:0], RO, reset 0. -/
def STN_CMD_CMD : Fld := { off := 0x4, lo := 0, w := 32, sgn := true, dflt := 0 }

/-! `STN_WMAX` (R311). -/
/-- `STN_WMAX.W_MAX`, [15:0], WK, reset CFG (default 8192). -/
def STN_WMAX_W_MAX : Fld := { off := 0x8, lo := 0, w := 16, sgn := false, dflt := 8192 }
/-- `STN_WMAX.SLOW`, [23:16], RO, reset 255. -/
def STN_WMAX_SLOW : Fld := { off := 0x8, lo := 16, w := 8, sgn := false, dflt := 255 }

/-! `STN_RAMP` (R311). -/
/-- `STN_RAMP.DEC_R`, [15:0], RW, reset CFG (default 50). -/
def STN_RAMP_DEC_R : Fld := { off := 0xC, lo := 0, w := 16, sgn := false, dflt := 50 }
/-- `STN_RAMP.DEC_Q`, [31:16], RW, reset CFG (default 500). -/
def STN_RAMP_DEC_Q : Fld := { off := 0xC, lo := 16, w := 16, sgn := false, dflt := 500 }

/-! `STN_STOPCFG` (R311). -/
/-- `STN_STOPCFG.TQ_DEC`, [15:0], RW, reset CFG (default 100). -/
def STN_STOPCFG_TQ_DEC : Fld := { off := 0x10, lo := 0, w := 16, sgn := false, dflt := 100 }
/-- `STN_STOPCFG.T_STOP_MAX`, [23:16], RW, reset CFG (default 120). -/
def STN_STOPCFG_T_STOP_MAX : Fld := { off := 0x10, lo := 16, w := 8, sgn := false, dflt := 120 }
/-- `STN_STOPCFG.T_DWELL`, [31:24], RW, reset CFG (default 50). -/
def STN_STOPCFG_T_DWELL : Fld := { off := 0x10, lo := 24, w := 8, sgn := false, dflt := 50 }

/-! `STN_BRAKE` (R311). -/
/-- `STN_BRAKE.T_BRK`, [7:0], RW, reset CFG (default 20). -/
def STN_BRAKE_T_BRK : Fld := { off := 0x14, lo := 0, w := 8, sgn := false, dflt := 20 }
/-- `STN_BRAKE.T_UNLOAD`, [14:8], RW, reset CFG (default 10). -/
def STN_BRAKE_T_UNLOAD : Fld := { off := 0x14, lo := 8, w := 7, sgn := false, dflt := 10 }
/-- `STN_BRAKE.BRK_OFF`, [15:15], RW, reset CFG (default 1). -/
def STN_BRAKE_BRK_OFF : Fld := { off := 0x14, lo := 15, w := 1, sgn := false, dflt := 1 }
/-- `STN_BRAKE.W_STOP`, [31:16], RW, reset CFG (default 5). -/
def STN_BRAKE_W_STOP : Fld := { off := 0x14, lo := 16, w := 16, sgn := false, dflt := 5 }

/-! `STN_FALLBACK` (R311). -/
/-- `STN_FALLBACK.FB_ACT`, [1:0], RW, reset CFG (default 1). -/
def STN_FALLBACK_FB_ACT : Fld := { off := 0x18, lo := 0, w := 2, sgn := false, dflt := 1 }
/-- `STN_FALLBACK.FB_KIND`, [2:2], RW, reset CFG (default 0). -/
def STN_FALLBACK_FB_KIND : Fld := { off := 0x18, lo := 2, w := 1, sgn := false, dflt := 0 }
/-- `STN_FALLBACK.ISO_RATE`, [31:16], RW, reset CFG (default 20). -/
def STN_FALLBACK_ISO_RATE : Fld := { off := 0x18, lo := 16, w := 16, sgn := false, dflt := 20 }

/-! `STN_CNT` (R311). -/
/-- `STN_CNT.STOPS`, [15:0], RC, reset 0. -/
def STN_CNT_STOPS : Fld := { off := 0x1C, lo := 0, w := 16, sgn := false, dflt := 0, rc := true }
/-- `STN_CNT.FBS`, [31:16], RC, reset 0. -/
def STN_CNT_FBS : Fld := { off := 0x1C, lo := 16, w := 16, sgn := false, dflt := 0, rc := true }

/-! `SVC_STAT` (R311). -/
/-- `SVC_STAT.SERVICE`, [2:0], RO, reset 0. -/
def SVC_STAT_SERVICE : Fld := { off := 0x10100, lo := 0, w := 3, sgn := false, dflt := 0 }
/-- `SVC_STAT.STATE`, [5:4], RO, reset 0. -/
def SVC_STAT_STATE : Fld := { off := 0x10100, lo := 4, w := 2, sgn := false, dflt := 0 }
/-- `SVC_STAT.SUB`, [11:8], RO, reset 0. -/
def SVC_STAT_SUB : Fld := { off := 0x10100, lo := 8, w := 4, sgn := false, dflt := 0 }
/-- `SVC_STAT.STNS`, [19:16], RO, reset 0. -/
def SVC_STAT_STNS : Fld := { off := 0x10100, lo := 16, w := 4, sgn := false, dflt := 0 }
/-- `SVC_STAT.AXES`, [27:24], RO, reset 0. -/
def SVC_STAT_AXES : Fld := { off := 0x10100, lo := 24, w := 4, sgn := false, dflt := 0 }

/-! `SVC_OUT` (R311). -/
/-- `SVC_OUT.OUT`, [31:0], RO, reset 0. -/
def SVC_OUT_OUT : Fld := { off := 0x10104, lo := 0, w := 32, sgn := true, dflt := 0 }

/-! `SVC_MEAS` (R311). -/
/-- `SVC_MEAS.MEAS`, [31:0], RO, reset 0. -/
def SVC_MEAS_MEAS : Fld := { off := 0x10108, lo := 0, w := 32, sgn := true, dflt := 0 }

/-! `SVC_CNT` (R311). -/
/-- `SVC_CNT.BAD`, [15:0], RC, reset 0. -/
def SVC_CNT_BAD : Fld := { off := 0x1010C, lo := 0, w := 16, sgn := false, dflt := 0, rc := true }
/-- `SVC_CNT.LIMITS`, [31:16], RC, reset 0. -/
def SVC_CNT_LIMITS : Fld := { off := 0x1010C, lo := 16, w := 16, sgn := false, dflt := 0, rc := true }

/-! `AXS_CTRL` (R335). -/
/-- `AXS_CTRL.CLASS`, [1:0], RW, reset CFG (default 0). -/
def AXS_CTRL_CLASS : Fld := { off := 0x0, lo := 0, w := 2, sgn := false, dflt := 0 }
/-- `AXS_CTRL.GUARDED`, [2:2], WK, reset CFG (default 0). -/
def AXS_CTRL_GUARDED : Fld := { off := 0x0, lo := 2, w := 1, sgn := false, dflt := 0 }
/-- `AXS_CTRL.STBY`, [3:3], RW, reset CFG (default 0). -/
def AXS_CTRL_STBY : Fld := { off := 0x0, lo := 3, w := 1, sgn := false, dflt := 0 }
/-- `AXS_CTRL.DIR_INV`, [4:4], RW, reset CFG (default 0). -/
def AXS_CTRL_DIR_INV : Fld := { off := 0x0, lo := 4, w := 1, sgn := false, dflt := 0 }
/-- `AXS_CTRL.PCLK`, [5:5], RW, reset CFG (default 0). -/
def AXS_CTRL_PCLK : Fld := { off := 0x0, lo := 5, w := 1, sgn := false, dflt := 0 }

/-! `AXS_PULSE` (R335). -/
/-- `AXS_PULSE.PW`, [11:0], RW, reset CFG (default 80). -/
def AXS_PULSE_PW : Fld := { off := 0x4, lo := 0, w := 12, sgn := false, dflt := 80 }
/-- `AXS_PULSE.DIR_SU`, [27:16], RW, reset CFG (default 80). -/
def AXS_PULSE_DIR_SU : Fld := { off := 0x4, lo := 16, w := 12, sgn := false, dflt := 80 }

/-! `AXS_CHOP` (R335). -/
/-- `AXS_CHOP.T_OFF`, [8:0], RW, reset CFG (default 100). -/
def AXS_CHOP_T_OFF : Fld := { off := 0x8, lo := 0, w := 9, sgn := false, dflt := 100 }
/-- `AXS_CHOP.FD`, [20:16], RW, reset CFG (default 4). -/
def AXS_CHOP_FD : Fld := { off := 0x8, lo := 16, w := 5, sgn := false, dflt := 4 }
/-- `AXS_CHOP.T_BLANK`, [29:24], RW, reset CFG (default 10). -/
def AXS_CHOP_T_BLANK : Fld := { off := 0x8, lo := 24, w := 6, sgn := false, dflt := 10 }

/-! `AXS_ISCALE` (R335). -/
/-- `AXS_ISCALE.I_RUN`, [10:0], WK, reset CFG (default 500). -/
def AXS_ISCALE_I_RUN : Fld := { off := 0xC, lo := 0, w := 11, sgn := false, dflt := 500 }
/-- `AXS_ISCALE.I_HOLD`, [26:16], RW, reset CFG (default 250). -/
def AXS_ISCALE_I_HOLD : Fld := { off := 0xC, lo := 16, w := 11, sgn := false, dflt := 250 }

/-! `AXS_OC` (R335). -/
/-- `AXS_OC.OC_MV`, [10:0], WK, reset CFG (default 1500). -/
def AXS_OC_OC_MV : Fld := { off := 0x10, lo := 0, w := 11, sgn := false, dflt := 1500 }

/-! `AXS_HOLD` (R335). -/
/-- `AXS_HOLD.T_HOLD`, [15:0], RW, reset CFG (default 1000). -/
def AXS_HOLD_T_HOLD : Fld := { off := 0x14, lo := 0, w := 16, sgn := false, dflt := 1000 }
/-- `AXS_HOLD.T_ENER`, [23:16], RW, reset CFG (default 10). -/
def AXS_HOLD_T_ENER : Fld := { off := 0x14, lo := 16, w := 8, sgn := false, dflt := 10 }

/-! `AXS_FACC` (R335). -/
/-- `AXS_FACC.FACC`, [31:0], RW, reset CFG (default 100000). -/
def AXS_FACC_FACC : Fld := { off := 0x18, lo := 0, w := 32, sgn := false, dflt := 100000 }

/-! `AXS_GDEC` (R335). -/
/-- `AXS_GDEC.GDEC`, [31:0], RW, reset CFG (default 100000). -/
def AXS_GDEC_GDEC : Fld := { off := 0x1C, lo := 0, w := 32, sgn := false, dflt := 100000 }

/-! `AXS_IP` (R335). -/
/-- `AXS_IP.IP_TO`, [15:0], RW, reset CFG (default 10000). -/
def AXS_IP_IP_TO : Fld := { off := 0x20, lo := 0, w := 16, sgn := false, dflt := 10000 }
/-- `AXS_IP.STEP_FLT`, [23:16], RW, reset CFG (default 1). -/
def AXS_IP_STEP_FLT : Fld := { off := 0x20, lo := 16, w := 8, sgn := false, dflt := 1 }

/-! `AXS_STAT` (R335). -/
/-- `AXS_STAT.STATE`, [2:0], RO, reset 1. -/
def AXS_STAT_STATE : Fld := { off := 0x24, lo := 0, w := 3, sgn := false, dflt := 0 }
/-- `AXS_STAT.COIL`, [5:4], RO, reset 0. -/
def AXS_STAT_COIL : Fld := { off := 0x24, lo := 4, w := 2, sgn := false, dflt := 0 }
/-- `AXS_STAT.POS_LOST`, [6:6], W1C, reset 0. -/
def AXS_STAT_POS_LOST : Fld := { off := 0x24, lo := 6, w := 1, sgn := false, dflt := 0, w1c := true }
/-- `AXS_STAT.OVERSHOOT`, [7:7], W1C, reset 0. -/
def AXS_STAT_OVERSHOOT : Fld := { off := 0x24, lo := 7, w := 1, sgn := false, dflt := 0, w1c := true }
/-- `AXS_STAT.TURNING`, [8:8], RO, reset 0. -/
def AXS_STAT_TURNING : Fld := { off := 0x24, lo := 8, w := 1, sgn := false, dflt := 0 }
/-- `AXS_STAT.BACKLOG_SEEN`, [9:9], W1C, reset 0. -/
def AXS_STAT_BACKLOG_SEEN : Fld := { off := 0x24, lo := 9, w := 1, sgn := false, dflt := 0, w1c := true }
/-- `AXS_STAT.CAUSE`, [21:16], RO, reset 0. -/
def AXS_STAT_CAUSE : Fld := { off := 0x24, lo := 16, w := 6, sgn := false, dflt := 0 }

/-! `AXS_POS` (R335). -/
/-- `AXS_POS.POS`, [47:0], RW, reset 0. -/
def AXS_POS_POS : Fld := { off := 0x28, lo := 0, w := 48, sgn := true, dflt := 0 }

/-! `AXS_TARGET` (R335). -/
/-- `AXS_TARGET.TARGET`, [47:0], RO, reset 0. -/
def AXS_TARGET_TARGET : Fld := { off := 0x30, lo := 0, w := 48, sgn := true, dflt := 0 }

/-! `AXS_VEL` (R335). -/
/-- `AXS_VEL.VEL`, [31:0], RO, reset 0. -/
def AXS_VEL_VEL : Fld := { off := 0x38, lo := 0, w := 32, sgn := true, dflt := 0 }

/-! `AXS_IN` (R335). -/
/-- `AXS_IN.IN`, [47:0], RO, reset 0. -/
def AXS_IN_IN : Fld := { off := 0x3C, lo := 0, w := 48, sgn := true, dflt := 0 }

/-! `AXS_LAG` (R335). -/
/-- `AXS_LAG.LAG`, [15:0], RO, reset 0. -/
def AXS_LAG_LAG : Fld := { off := 0x44, lo := 0, w := 16, sgn := true, dflt := 0 }
/-- `AXS_LAG.TBL_ADDR`, [25:16], RO, reset 0. -/
def AXS_LAG_TBL_ADDR : Fld := { off := 0x44, lo := 16, w := 10, sgn := false, dflt := 0 }

/-! `AXS_CNT` (R335). -/
/-- `AXS_CNT.NOREACH`, [15:0], RC, reset 0. -/
def AXS_CNT_NOREACH : Fld := { off := 0x48, lo := 0, w := 16, sgn := false, dflt := 0, rc := true }
/-- `AXS_CNT.OVR_CNT`, [31:16], RC, reset 0. -/
def AXS_CNT_OVR_CNT : Fld := { off := 0x48, lo := 16, w := 16, sgn := false, dflt := 0, rc := true }

/-! `CAN_CTRL` (R354). -/
/-- `CAN_CTRL.EN`, [0:0], RW, reset CFG (default 0). -/
def CAN_CTRL_EN : Fld := { off := 0x0, lo := 0, w := 1, sgn := false, dflt := 0 }
/-- `CAN_CTRL.FD_EN`, [1:1], RW, reset CFG (default 0). -/
def CAN_CTRL_FD_EN : Fld := { off := 0x0, lo := 1, w := 1, sgn := false, dflt := 0 }
/-- `CAN_CTRL.RESTR`, [2:2], RW, reset CFG (default 0). -/
def CAN_CTRL_RESTR : Fld := { off := 0x0, lo := 2, w := 1, sgn := false, dflt := 0 }
/-- `CAN_CTRL.MON`, [3:3], RW, reset CFG (default 0). -/
def CAN_CTRL_MON : Fld := { off := 0x0, lo := 3, w := 1, sgn := false, dflt := 0 }
/-- `CAN_CTRL.LBK`, [4:4], RW, reset CFG (default 0). -/
def CAN_CTRL_LBK : Fld := { off := 0x0, lo := 4, w := 1, sgn := false, dflt := 0 }
/-- `CAN_CTRL.TUN_EN`, [5:5], RW, reset CFG (default 0). -/
def CAN_CTRL_TUN_EN : Fld := { off := 0x0, lo := 5, w := 1, sgn := false, dflt := 0 }
/-- `CAN_CTRL.DAR`, [6:6], RW, reset CFG (default 0). -/
def CAN_CTRL_DAR : Fld := { off := 0x0, lo := 6, w := 1, sgn := false, dflt := 0 }
/-- `CAN_CTRL.TM_EN`, [7:7], RW, reset CFG (default 0). -/
def CAN_CTRL_TM_EN : Fld := { off := 0x0, lo := 7, w := 1, sgn := false, dflt := 0 }

/-! `CAN_NBT` (R354). -/
/-- `CAN_NBT.BRP`, [4:0], RW, reset CFG (default 0). -/
def CAN_NBT_BRP : Fld := { off := 0x4, lo := 0, w := 5, sgn := false, dflt := 0 }
/-- `CAN_NBT.TSEG1`, [15:8], RW, reset CFG (default 0). -/
def CAN_NBT_TSEG1 : Fld := { off := 0x4, lo := 8, w := 8, sgn := false, dflt := 0 }
/-- `CAN_NBT.TSEG2`, [22:16], RW, reset CFG (default 0). -/
def CAN_NBT_TSEG2 : Fld := { off := 0x4, lo := 16, w := 7, sgn := false, dflt := 0 }
/-- `CAN_NBT.SJW`, [30:24], RW, reset CFG (default 0). -/
def CAN_NBT_SJW : Fld := { off := 0x4, lo := 24, w := 7, sgn := false, dflt := 0 }

/-! `CAN_DBT` (R354). -/
/-- `CAN_DBT.DBRP`, [4:0], RW, reset CFG (default 0). -/
def CAN_DBT_DBRP : Fld := { off := 0x8, lo := 0, w := 5, sgn := false, dflt := 0 }
/-- `CAN_DBT.DTSEG1`, [12:8], RW, reset CFG (default 0). -/
def CAN_DBT_DTSEG1 : Fld := { off := 0x8, lo := 8, w := 5, sgn := false, dflt := 0 }
/-- `CAN_DBT.DTSEG2`, [19:16], RW, reset CFG (default 0). -/
def CAN_DBT_DTSEG2 : Fld := { off := 0x8, lo := 16, w := 4, sgn := false, dflt := 0 }
/-- `CAN_DBT.DSJW`, [27:24], RW, reset CFG (default 0). -/
def CAN_DBT_DSJW : Fld := { off := 0x8, lo := 24, w := 4, sgn := false, dflt := 0 }
/-- `CAN_DBT.TDC_EN`, [31:31], RW, reset CFG (default 0). -/
def CAN_DBT_TDC_EN : Fld := { off := 0x8, lo := 31, w := 1, sgn := false, dflt := 0 }

/-! `CAN_TDC` (R354). -/
/-- `CAN_TDC.TDCO`, [6:0], RW, reset CFG (default 0). -/
def CAN_TDC_TDCO : Fld := { off := 0xC, lo := 0, w := 7, sgn := false, dflt := 0 }
/-- `CAN_TDC.TDCF`, [14:8], RW, reset CFG (default 0). -/
def CAN_TDC_TDCF : Fld := { off := 0xC, lo := 8, w := 7, sgn := false, dflt := 0 }

/-! `CAN_PART` (R354). -/
/-- `CAN_PART.RX_SVC`, [5:0], RW, reset CFG (default 0). -/
def CAN_PART_RX_SVC : Fld := { off := 0x10, lo := 0, w := 6, sgn := false, dflt := 0 }
/-- `CAN_PART.TX_RSV`, [12:8], RW, reset CFG (default 4). -/
def CAN_PART_TX_RSV : Fld := { off := 0x10, lo := 8, w := 5, sgn := false, dflt := 4 }
/-- `CAN_PART.MAXDL`, [19:16], RW, reset CFG (default 15). -/
def CAN_PART_MAXDL : Fld := { off := 0x10, lo := 16, w := 4, sgn := false, dflt := 15 }
/-- `CAN_PART.DEF_ACT`, [21:20], RW, reset CFG (default 0). -/
def CAN_PART_DEF_ACT : Fld := { off := 0x10, lo := 20, w := 2, sgn := false, dflt := 0 }

/-! `CAN_TUN_RX` (R354). -/
/-- `CAN_TUN_RX.ID`, [28:0], RW, reset CFG (default 0). -/
def CAN_TUN_RX_ID : Fld := { off := 0x14, lo := 0, w := 29, sgn := false, dflt := 0 }
/-- `CAN_TUN_RX.IDE`, [29:29], RW, reset CFG (default 0). -/
def CAN_TUN_RX_IDE : Fld := { off := 0x14, lo := 29, w := 1, sgn := false, dflt := 0 }

/-! `CAN_TUN_TX` (R354). -/
/-- `CAN_TUN_TX.ID`, [28:0], RW, reset CFG (default 0). -/
def CAN_TUN_TX_ID : Fld := { off := 0x18, lo := 0, w := 29, sgn := false, dflt := 0 }
/-- `CAN_TUN_TX.IDE`, [29:29], RW, reset CFG (default 0). -/
def CAN_TUN_TX_IDE : Fld := { off := 0x18, lo := 29, w := 1, sgn := false, dflt := 0 }
/-- `CAN_TUN_TX.BRS`, [30:30], RW, reset CFG (default 0). -/
def CAN_TUN_TX_BRS : Fld := { off := 0x18, lo := 30, w := 1, sgn := false, dflt := 0 }

/-! `CAN_TXTO` (R354). -/
/-- `CAN_TXTO.TX_TO`, [15:0], RW, reset CFG (default 100). -/
def CAN_TXTO_TX_TO : Fld := { off := 0x1C, lo := 0, w := 16, sgn := false, dflt := 100 }

/-! `CAN_TM_ID` (R354). -/
/-- `CAN_TM_ID.ID`, [28:0], RW, reset CFG (default 0). -/
def CAN_TM_ID_ID : Fld := { off := 0x20, lo := 0, w := 29, sgn := false, dflt := 0 }
/-- `CAN_TM_ID.IDE`, [29:29], RW, reset CFG (default 0). -/
def CAN_TM_ID_IDE : Fld := { off := 0x20, lo := 29, w := 1, sgn := false, dflt := 0 }

/-! `CAN_STAT` (R354). -/
/-- `CAN_STAT.ERRSTATE`, [1:0], RO, reset 0. -/
def CAN_STAT_ERRSTATE : Fld := { off := 0x24, lo := 0, w := 2, sgn := false, dflt := 0 }
/-- `CAN_STAT.RECOVERING`, [2:2], RO, reset 0. -/
def CAN_STAT_RECOVERING : Fld := { off := 0x24, lo := 2, w := 1, sgn := false, dflt := 0 }
/-- `CAN_STAT.CLKOFF`, [3:3], RO, reset 0. -/
def CAN_STAT_CLKOFF : Fld := { off := 0x24, lo := 3, w := 1, sgn := false, dflt := 0 }
/-- `CAN_STAT.ACT`, [4:4], RO, reset 0. -/
def CAN_STAT_ACT : Fld := { off := 0x24, lo := 4, w := 1, sgn := false, dflt := 0 }
/-- `CAN_STAT.BOFF_SEEN`, [5:5], W1C, reset 0. -/
def CAN_STAT_BOFF_SEEN : Fld := { off := 0x24, lo := 5, w := 1, sgn := false, dflt := 0, w1c := true }
/-- `CAN_STAT.DROP_SEEN`, [6:6], W1C, reset 0. -/
def CAN_STAT_DROP_SEEN : Fld := { off := 0x24, lo := 6, w := 1, sgn := false, dflt := 0, w1c := true }
/-- `CAN_STAT.LEC`, [10:8], RO, reset 0. -/
def CAN_STAT_LEC : Fld := { off := 0x24, lo := 8, w := 3, sgn := false, dflt := 0 }
/-- `CAN_STAT.TDCV`, [22:16], RO, reset 0. -/
def CAN_STAT_TDCV : Fld := { off := 0x24, lo := 16, w := 7, sgn := false, dflt := 0 }

/-! `CAN_ERR` (R354). -/
/-- `CAN_ERR.TEC`, [7:0], RO, reset 0. -/
def CAN_ERR_TEC : Fld := { off := 0x28, lo := 0, w := 8, sgn := false, dflt := 0 }
/-- `CAN_ERR.REC`, [14:8], RO, reset 0. -/
def CAN_ERR_REC : Fld := { off := 0x28, lo := 8, w := 7, sgn := false, dflt := 0 }
/-- `CAN_ERR.RP`, [15:15], RO, reset 0. -/
def CAN_ERR_RP : Fld := { off := 0x28, lo := 15, w := 1, sgn := false, dflt := 0 }
/-- `CAN_ERR.BOFF_CNT`, [31:16], RC, reset 0. -/
def CAN_ERR_BOFF_CNT : Fld := { off := 0x28, lo := 16, w := 16, sgn := false, dflt := 0, rc := true }

/-! `CAN_DROP` (R354). -/
/-- `CAN_DROP.DROP_H`, [7:0], RC, reset 0. -/
def CAN_DROP_DROP_H : Fld := { off := 0x2C, lo := 0, w := 8, sgn := false, dflt := 0, rc := true }
/-- `CAN_DROP.DROP_S`, [15:8], RC, reset 0. -/
def CAN_DROP_DROP_S : Fld := { off := 0x2C, lo := 8, w := 8, sgn := false, dflt := 0, rc := true }
/-- `CAN_DROP.DROP_DLC`, [23:16], RC, reset 0. -/
def CAN_DROP_DROP_DLC : Fld := { off := 0x2C, lo := 16, w := 8, sgn := false, dflt := 0, rc := true }
/-- `CAN_DROP.DROP_RTR`, [31:24], RC, reset 0. -/
def CAN_DROP_DROP_RTR : Fld := { off := 0x2C, lo := 24, w := 8, sgn := false, dflt := 0, rc := true }

/-! `CAN_RXH` (R354). -/
/-- `CAN_RXH.OLDEST`, [5:0], RO, reset 0. -/
def CAN_RXH_OLDEST : Fld := { off := 0x30, lo := 0, w := 6, sgn := false, dflt := 0 }
/-- `CAN_RXH.HOST_OWNED`, [14:8], RO, reset 0. -/
def CAN_RXH_HOST_OWNED : Fld := { off := 0x30, lo := 8, w := 7, sgn := false, dflt := 0 }
/-- `CAN_RXH.SVC_OWNED`, [21:16], RO, reset 0. -/
def CAN_RXH_SVC_OWNED : Fld := { off := 0x30, lo := 16, w := 6, sgn := false, dflt := 0 }

/-! `CAN_TXBUSY` (R354). -/
/-- `CAN_TXBUSY.BUSY`, [31:0], RO, reset 0. -/
def CAN_TXBUSY_BUSY : Fld := { off := 0x34, lo := 0, w := 32, sgn := false, dflt := 0 }

/-! `CAN_TM` (R354). -/
/-- `CAN_TM.ROLE`, [1:0], RO, reset 0. -/
def CAN_TM_ROLE : Fld := { off := 0x40, lo := 0, w := 2, sgn := false, dflt := 0 }
/-- `CAN_TM.PRIO`, [6:4], RO, reset 0. -/
def CAN_TM_PRIO : Fld := { off := 0x40, lo := 4, w := 3, sgn := false, dflt := 0 }
/-- `CAN_TM.SENDING`, [8:8], RO, reset 0. -/
def CAN_TM_SENDING : Fld := { off := 0x40, lo := 8, w := 1, sgn := false, dflt := 0 }
/-- `CAN_TM.NT_OK`, [9:9], RO, reset 0. -/
def CAN_TM_NT_OK : Fld := { off := 0x40, lo := 9, w := 1, sgn := false, dflt := 0 }
/-- `CAN_TM.TMDUP_SEEN`, [10:10], W1C, reset 0. -/
def CAN_TM_TMDUP_SEEN : Fld := { off := 0x40, lo := 10, w := 1, sgn := false, dflt := 0, w1c := true }
/-- `CAN_TM.SRC_PRIO`, [14:12], RO, reset 0. -/
def CAN_TM_SRC_PRIO : Fld := { off := 0x40, lo := 12, w := 3, sgn := false, dflt := 0 }

/-! `CAN_TM_PER` (R354). -/
/-- `CAN_TM_PER.PER`, [19:0], RW, reset CFG (default 100000). -/
def CAN_TM_PER_PER : Fld := { off := 0x44, lo := 0, w := 20, sgn := false, dflt := 100000 }

/-! `CAN_NT_OFS` (R354). -/
/-- `CAN_NT_OFS.OFS`, [63:0], RO, reset 0. -/
def CAN_NT_OFS_OFS : Fld := { off := 0x48, lo := 0, w := 64, sgn := true, dflt := 0 }

/-! `CAN_NT_ERR` (R354). -/
/-- `CAN_NT_ERR.NT_ERR`, [31:0], RO, reset 0. -/
def CAN_NT_ERR_NT_ERR : Fld := { off := 0x50, lo := 0, w := 32, sgn := true, dflt := 0 }

/-! `CAN_FLT` (R354). -/
/-- `CAN_FLT.ID`, [28:0], RW, reset CFG (default 0). -/
def CAN_FLT_ID : Fld := { off := 0x100, lo := 0, w := 29, sgn := false, dflt := 0 }
/-- `CAN_FLT.IDE`, [29:29], RW, reset CFG (default 0). -/
def CAN_FLT_IDE : Fld := { off := 0x100, lo := 29, w := 1, sgn := false, dflt := 0 }
/-- `CAN_FLT.ACT`, [31:30], RW, reset CFG (default 0). -/
def CAN_FLT_ACT : Fld := { off := 0x100, lo := 30, w := 2, sgn := false, dflt := 0 }

/-! `CAN_FLT1` (R354). -/
/-- `CAN_FLT1.MASK`, [28:0], RW, reset CFG (default 0). -/
def CAN_FLT1_MASK : Fld := { off := 0x104, lo := 0, w := 29, sgn := false, dflt := 0 }
/-- `CAN_FLT1.IDE_CMP`, [29:29], RW, reset CFG (default 0). -/
def CAN_FLT1_IDE_CMP : Fld := { off := 0x104, lo := 29, w := 1, sgn := false, dflt := 0 }

/-! `MBX_CTRL` (R365). -/
/-- `MBX_CTRL.EMPTY_EN`, [7:0], RW, reset CFG (default 0). -/
def MBX_CTRL_EMPTY_EN : Fld := { off := 0x20000, lo := 0, w := 8, sgn := false, dflt := 0 }

/-! `MBX_STAT` (R365). -/
/-- `MBX_STAT.EPOCH_CHG`, [7:0], RO, reset 0. -/
def MBX_STAT_EPOCH_CHG : Fld := { off := 0x20004, lo := 0, w := 8, sgn := false, dflt := 0 }
/-- `MBX_STAT.LOST_SEEN`, [15:8], W1C, reset 0. -/
def MBX_STAT_LOST_SEEN : Fld := { off := 0x20004, lo := 8, w := 8, sgn := false, dflt := 0, w1c := true }

/-! `MBX_EPOCH` (R365). -/
/-- `MBX_EPOCH.EPOCH`, [15:0], RO, reset —. -/
def MBX_EPOCH_EPOCH : Fld := { off := 0x20008, lo := 0, w := 16, sgn := false, dflt := 0 }

/-! `MBX_DBL` (R365). -/
/-- `MBX_DBL.DBL`, [23:0], W1C, reset 0. -/
def MBX_DBL_DBL : Fld := { off := 0x2000C, lo := 0, w := 24, sgn := false, dflt := 0, w1c := true }
/-- `MBX_DBL.EMPTY`, [31:24], W1C, reset 0. -/
def MBX_DBL_EMPTY : Fld := { off := 0x2000C, lo := 24, w := 8, sgn := false, dflt := 0, w1c := true }

/-! `MBX_DBL_MASK` (R365). -/
/-- `MBX_DBL_MASK.ACCEPT`, [23:0], RW, reset CFG (default 16777215). -/
def MBX_DBL_MASK_ACCEPT : Fld := { off := 0x20010, lo := 0, w := 24, sgn := false, dflt := 16777215 }

/-! `MBX_QOUT` (R365). -/
/-- `MBX_QOUT.OUT_USED`, [9:0], RO, reset 0. -/
def MBX_QOUT_OUT_USED : Fld := { off := 0x20020, lo := 0, w := 10, sgn := false, dflt := 0 }
/-- `MBX_QOUT.CREDIT`, [25:16], RO, reset 0. -/
def MBX_QOUT_CREDIT : Fld := { off := 0x20020, lo := 16, w := 10, sgn := false, dflt := 0 }

/-! `MBX_QIN` (R365). -/
/-- `MBX_QIN.IN_USED`, [9:0], RO, reset 0. -/
def MBX_QIN_IN_USED : Fld := { off := 0x20024, lo := 0, w := 10, sgn := false, dflt := 0 }
/-- `MBX_QIN.LOST`, [23:16], RC, reset 0. -/
def MBX_QIN_LOST : Fld := { off := 0x20024, lo := 16, w := 8, sgn := false, dflt := 0, rc := true }

/-! `MBX_CNT` (R365). -/
/-- `MBX_CNT.DBL_REJ`, [15:0], RC, reset 0. -/
def MBX_CNT_DBL_REJ : Fld := { off := 0x20060, lo := 0, w := 16, sgn := false, dflt := 0, rc := true }

/-! `FLT_SUM` (R385). -/
/-- `FLT_SUM.CHIP`, [0:0], RO, reset 0. -/
def FLT_SUM_CHIP : Fld := { off := 0x20, lo := 0, w := 1, sgn := false, dflt := 0 }
/-- `FLT_SUM.REG`, [3:1], RO, reset 0. -/
def FLT_SUM_REG : Fld := { off := 0x20, lo := 1, w := 3, sgn := false, dflt := 0 }
/-- `FLT_SUM.STN`, [7:4], RO, reset 0. -/
def FLT_SUM_STN : Fld := { off := 0x20, lo := 4, w := 4, sgn := false, dflt := 0 }
/-- `FLT_SUM.AXS`, [11:8], RO, reset 0. -/
def FLT_SUM_AXS : Fld := { off := 0x20, lo := 8, w := 4, sgn := false, dflt := 0 }
/-- `FLT_SUM.BGD`, [13:12], RO, reset 0. -/
def FLT_SUM_BGD : Fld := { off := 0x20, lo := 12, w := 2, sgn := false, dflt := 0 }
/-- `FLT_SUM.CAN`, [19:16], RO, reset 0. -/
def FLT_SUM_CAN : Fld := { off := 0x20, lo := 16, w := 4, sgn := false, dflt := 0 }
/-- `FLT_SUM.OVF`, [20:20], RO, reset 0. -/
def FLT_SUM_OVF : Fld := { off := 0x20, lo := 20, w := 1, sgn := false, dflt := 0 }
/-- `FLT_SUM.LASTING`, [21:21], RO, reset 0. -/
def FLT_SUM_LASTING : Fld := { off := 0x20, lo := 21, w := 1, sgn := false, dflt := 0 }

/-! `FLT_CFG` (R385). -/
/-- `FLT_CFG.STEAM_MAX`, [3:0], WK, reset CFG (default 3). -/
def FLT_CFG_STEAM_MAX : Fld := { off := 0x24, lo := 0, w := 4, sgn := false, dflt := 3 }
/-- `FLT_CFG.STEAM_WIN`, [15:8], WK, reset CFG (default 60). -/
def FLT_CFG_STEAM_WIN : Fld := { off := 0x24, lo := 8, w := 8, sgn := false, dflt := 60 }
/-- `FLT_CFG.REG_MAX`, [19:16], WK, reset CFG (default 3). -/
def FLT_CFG_REG_MAX : Fld := { off := 0x24, lo := 16, w := 4, sgn := false, dflt := 3 }

/-! `FLT_CNT` (R385). -/
/-- `FLT_CNT.CORR`, [15:0], RC, reset 0. -/
def FLT_CNT_CORR : Fld := { off := 0x28, lo := 0, w := 16, sgn := false, dflt := 0, rc := true }
/-- `FLT_CNT.TRANS`, [23:16], RC, reset 0. -/
def FLT_CNT_TRANS : Fld := { off := 0x28, lo := 16, w := 8, sgn := false, dflt := 0, rc := true }
/-- `FLT_CNT.LAST`, [31:24], RC, reset 0. -/
def FLT_CNT_LAST : Fld := { off := 0x28, lo := 24, w := 8, sgn := false, dflt := 0, rc := true }

/-! `FLT_CHIP` (R385). -/
/-- `FLT_CHIP.CODE`, [15:0], RO, reset 0. -/
def FLT_CHIP_CODE : Fld := { off := 0x2C, lo := 0, w := 16, sgn := false, dflt := 0 }

/-! `FLT_SH_OOS` (R385). -/
/-- `FLT_SH_OOS.CFG`, [0:0], RO, reset 0. -/
def FLT_SH_OOS_CFG : Fld := { off := 0x30, lo := 0, w := 1, sgn := false, dflt := 0 }
/-- `FLT_SH_OOS.REC`, [1:1], RO, reset 0. -/
def FLT_SH_OOS_REC : Fld := { off := 0x30, lo := 1, w := 1, sgn := false, dflt := 0 }
/-- `FLT_SH_OOS.LNK_W`, [2:2], RO, reset 0. -/
def FLT_SH_OOS_LNK_W : Fld := { off := 0x30, lo := 2, w := 1, sgn := false, dflt := 0 }
/-- `FLT_SH_OOS.LNK_E`, [3:3], RO, reset 0. -/
def FLT_SH_OOS_LNK_E : Fld := { off := 0x30, lo := 3, w := 1, sgn := false, dflt := 0 }
/-- `FLT_SH_OOS.MBX`, [4:4], RO, reset 0. -/
def FLT_SH_OOS_MBX : Fld := { off := 0x30, lo := 4, w := 1, sgn := false, dflt := 0 }
/-- `FLT_SH_OOS.SPI`, [5:5], RO, reset 0. -/
def FLT_SH_OOS_SPI : Fld := { off := 0x30, lo := 5, w := 1, sgn := false, dflt := 0 }
/-- `FLT_SH_OOS.UART`, [6:6], RO, reset 0. -/
def FLT_SH_OOS_UART : Fld := { off := 0x30, lo := 6, w := 1, sgn := false, dflt := 0 }
/-- `FLT_SH_OOS.STEAM`, [15:8], RO, reset 0. -/
def FLT_SH_OOS_STEAM : Fld := { off := 0x30, lo := 8, w := 8, sgn := false, dflt := 0 }
/-- `FLT_SH_OOS.ABMBX`, [7:7], RO, reset 0. -/
def FLT_SH_OOS_ABMBX : Fld := { off := 0x30, lo := 7, w := 1, sgn := false, dflt := 0 }

/-! `SUP_MST` (R385). -/
/-- `SUP_MST.ROLE`, [1:0], RO, reset 0. -/
def SUP_MST_ROLE : Fld := { off := 0x0, lo := 0, w := 2, sgn := false, dflt := 0 }
/-- `SUP_MST.PEER_UP`, [2:2], RO, reset 0. -/
def SUP_MST_PEER_UP : Fld := { off := 0x0, lo := 2, w := 1, sgn := false, dflt := 0 }
/-- `SUP_MST.TAKEN_SEEN`, [3:3], W1C, reset 0. -/
def SUP_MST_TAKEN_SEEN : Fld := { off := 0x0, lo := 3, w := 1, sgn := false, dflt := 0, w1c := true }
/-- `SUP_MST.LOST_SEEN`, [4:4], W1C, reset 0. -/
def SUP_MST_LOST_SEEN : Fld := { off := 0x0, lo := 4, w := 1, sgn := false, dflt := 0, w1c := true }

/-! `SUP_HB` (R385). -/
/-- `SUP_HB.HB_RX`, [15:0], RO, reset 0. -/
def SUP_HB_HB_RX : Fld := { off := 0x4, lo := 0, w := 16, sgn := false, dflt := 0 }
/-- `SUP_HB.HB_MISS`, [23:16], RC, reset 0. -/
def SUP_HB_HB_MISS : Fld := { off := 0x4, lo := 16, w := 8, sgn := false, dflt := 0, rc := true }

/-! `SUP_OOS` (R385). -/
/-- `SUP_OOS.STN`, [1:0], RO, reset 0. -/
def SUP_OOS_STN : Fld := { off := 0x8, lo := 0, w := 2, sgn := false, dflt := 0 }
/-- `SUP_OOS.AXS`, [3:2], RO, reset 0. -/
def SUP_OOS_AXS : Fld := { off := 0x8, lo := 2, w := 2, sgn := false, dflt := 0 }
/-- `SUP_OOS.BGD`, [4:4], RO, reset 0. -/
def SUP_OOS_BGD : Fld := { off := 0x8, lo := 4, w := 1, sgn := false, dflt := 0 }
/-- `SUP_OOS.CAN`, [6:5], RO, reset 0. -/
def SUP_OOS_CAN : Fld := { off := 0x8, lo := 5, w := 2, sgn := false, dflt := 0 }
/-- `SUP_OOS.LEN`, [7:7], RO, reset 0. -/
def SUP_OOS_LEN : Fld := { off := 0x8, lo := 7, w := 1, sgn := false, dflt := 0 }
/-- `SUP_OOS.ASC`, [8:8], RO, reset 0. -/
def SUP_OOS_ASC : Fld := { off := 0x8, lo := 8, w := 1, sgn := false, dflt := 0 }
/-- `SUP_OOS.SPT`, [9:9], RO, reset 0. -/
def SUP_OOS_SPT : Fld := { off := 0x8, lo := 9, w := 1, sgn := false, dflt := 0 }
/-- `SUP_OOS.THM`, [10:10], RO, reset 0. -/
def SUP_OOS_THM : Fld := { off := 0x8, lo := 10, w := 1, sgn := false, dflt := 0 }

/-! `SUP_STEAM` (R385). -/
/-- `SUP_STEAM.STN`, [1:0], RO, reset 0. -/
def SUP_STEAM_STN : Fld := { off := 0xC, lo := 0, w := 2, sgn := false, dflt := 0 }
/-- `SUP_STEAM.AXS`, [3:2], RO, reset 0. -/
def SUP_STEAM_AXS : Fld := { off := 0xC, lo := 2, w := 2, sgn := false, dflt := 0 }
/-- `SUP_STEAM.BGD`, [4:4], RO, reset 0. -/
def SUP_STEAM_BGD : Fld := { off := 0xC, lo := 4, w := 1, sgn := false, dflt := 0 }
/-- `SUP_STEAM.CAN`, [6:5], RO, reset 0. -/
def SUP_STEAM_CAN : Fld := { off := 0xC, lo := 5, w := 2, sgn := false, dflt := 0 }
/-- `SUP_STEAM.LEN`, [7:7], RO, reset 0. -/
def SUP_STEAM_LEN : Fld := { off := 0xC, lo := 7, w := 1, sgn := false, dflt := 0 }
/-- `SUP_STEAM.ASC`, [8:8], RO, reset 0. -/
def SUP_STEAM_ASC : Fld := { off := 0xC, lo := 8, w := 1, sgn := false, dflt := 0 }
/-- `SUP_STEAM.SPT`, [9:9], RO, reset 0. -/
def SUP_STEAM_SPT : Fld := { off := 0xC, lo := 9, w := 1, sgn := false, dflt := 0 }
/-- `SUP_STEAM.THM`, [10:10], RO, reset 0. -/
def SUP_STEAM_THM : Fld := { off := 0xC, lo := 10, w := 1, sgn := false, dflt := 0 }

/-! `REC_STAT` (R401). -/
/-- `REC_STAT.FELT_USED`, [9:0], RO, reset —. -/
def REC_STAT_FELT_USED : Fld := { off := 0x30000, lo := 0, w := 10, sgn := false, dflt := 0 }
/-- `REC_STAT.FELT_FULL`, [10:10], RO, reset —. -/
def REC_STAT_FELT_FULL : Fld := { off := 0x30000, lo := 10, w := 1, sgn := false, dflt := 0 }
/-- `REC_STAT.FLUSHING`, [11:11], RO, reset 0. -/
def REC_STAT_FLUSHING : Fld := { off := 0x30000, lo := 11, w := 1, sgn := false, dflt := 0 }
/-- `REC_STAT.FIFO_LVL`, [21:16], RO, reset 0. -/
def REC_STAT_FIFO_LVL : Fld := { off := 0x30000, lo := 16, w := 6, sgn := false, dflt := 0 }
/-- `REC_STAT.STG_LVL`, [30:24], RO, reset 0. -/
def REC_STAT_STG_LVL : Fld := { off := 0x30000, lo := 24, w := 7, sgn := false, dflt := 0 }

/-! `REC_NEXT` (R401). -/
/-- `REC_NEXT.NEXT_C`, [31:0], RO, reset —. -/
def REC_NEXT_NEXT_C : Fld := { off := 0x30004, lo := 0, w := 32, sgn := false, dflt := 0 }

/-! `REC_CNT` (R401). -/
/-- `REC_CNT.LOST`, [15:0], RC, reset 0. -/
def REC_CNT_LOST : Fld := { off := 0x30008, lo := 0, w := 16, sgn := false, dflt := 0, rc := true }
/-- `REC_CNT.REDIR`, [31:16], RC, reset 0. -/
def REC_CNT_REDIR : Fld := { off := 0x30008, lo := 16, w := 16, sgn := false, dflt := 0, rc := true }

/-! `REC_SOFT` (R401). -/
/-- `REC_SOFT.SOFT`, [15:0], RW, reset 0. -/
def REC_SOFT_SOFT : Fld := { off := 0x3000C, lo := 0, w := 16, sgn := false, dflt := 0 }

/-! `REC_TCFG` (R401). -/
/-- `REC_TCFG.EN`, [0:0], RO, reset CFG (default 0). -/
def REC_TCFG_EN : Fld := { off := 0x30100, lo := 0, w := 1, sgn := false, dflt := 0 }
/-- `REC_TCFG.FELT`, [1:1], RO, reset CFG (default 0). -/
def REC_TCFG_FELT : Fld := { off := 0x30100, lo := 1, w := 1, sgn := false, dflt := 0 }
/-- `REC_TCFG.N`, [12:8], RO, reset CFG (default 0). -/
def REC_TCFG_N : Fld := { off := 0x30100, lo := 8, w := 5, sgn := false, dflt := 0 }
/-- `REC_TCFG.FIXED`, [16:16], RO, reset —. -/
def REC_TCFG_FIXED : Fld := { off := 0x30100, lo := 16, w := 1, sgn := false, dflt := 0 }

/-! `TST_SEL_A` (R431). -/
/-- `TST_SEL_A.TMA0`, [7:0], RO, reset 0. -/
def TST_SEL_A_TMA0 : Fld := { off := 0xF0000, lo := 0, w := 8, sgn := false, dflt := 0 }
/-- `TST_SEL_A.TMA1`, [15:8], RO, reset 0. -/
def TST_SEL_A_TMA1 : Fld := { off := 0xF0000, lo := 8, w := 8, sgn := false, dflt := 0 }
/-- `TST_SEL_A.TMA2`, [23:16], RO, reset 0. -/
def TST_SEL_A_TMA2 : Fld := { off := 0xF0000, lo := 16, w := 8, sgn := false, dflt := 0 }
/-- `TST_SEL_A.TMA3`, [31:24], RO, reset 0. -/
def TST_SEL_A_TMA3 : Fld := { off := 0xF0000, lo := 24, w := 8, sgn := false, dflt := 0 }

/-! `TST_SEL_D0` (R431). -/
/-- `TST_SEL_D0.TMD0`, [7:0], RO, reset 0. -/
def TST_SEL_D0_TMD0 : Fld := { off := 0xF0004, lo := 0, w := 8, sgn := false, dflt := 0 }
/-- `TST_SEL_D0.TMD1`, [15:8], RO, reset 0. -/
def TST_SEL_D0_TMD1 : Fld := { off := 0xF0004, lo := 8, w := 8, sgn := false, dflt := 0 }
/-- `TST_SEL_D0.TMD2`, [23:16], RO, reset 0. -/
def TST_SEL_D0_TMD2 : Fld := { off := 0xF0004, lo := 16, w := 8, sgn := false, dflt := 0 }
/-- `TST_SEL_D0.TMD3`, [31:24], RO, reset 0. -/
def TST_SEL_D0_TMD3 : Fld := { off := 0xF0004, lo := 24, w := 8, sgn := false, dflt := 0 }

/-! `TST_SEL_D1` (R431). -/
/-- `TST_SEL_D1.TMD4`, [7:0], RO, reset 0. -/
def TST_SEL_D1_TMD4 : Fld := { off := 0xF0008, lo := 0, w := 8, sgn := false, dflt := 0 }
/-- `TST_SEL_D1.TMD5`, [15:8], RO, reset 0. -/
def TST_SEL_D1_TMD5 : Fld := { off := 0xF0008, lo := 8, w := 8, sgn := false, dflt := 0 }
/-- `TST_SEL_D1.TMD6`, [23:16], RO, reset 0. -/
def TST_SEL_D1_TMD6 : Fld := { off := 0xF0008, lo := 16, w := 8, sgn := false, dflt := 0 }
/-- `TST_SEL_D1.TMD7`, [31:24], RO, reset 0. -/
def TST_SEL_D1_TMD7 : Fld := { off := 0xF0008, lo := 24, w := 8, sgn := false, dflt := 0 }

/-! `TST_STAT` (R431). -/
/-- `TST_STAT.ACTIVE`, [0:0], RO, reset 0. -/
def TST_STAT_ACTIVE : Fld := { off := 0xF000C, lo := 0, w := 1, sgn := false, dflt := 0 }

/-! `LEN_C00` (R263). -/
/-- `LEN_C00.C`, [31:0], RW, reset CFG (default 0). -/
def LEN_C00_C : Fld := { off := 0x11010, lo := 0, w := 32, sgn := true, dflt := 0 }

/-! `LEN_C01` (R263). -/
/-- `LEN_C01.C`, [31:0], RW, reset CFG (default 0). -/
def LEN_C01_C : Fld := { off := 0x11014, lo := 0, w := 32, sgn := true, dflt := 0 }

/-! `LEN_C02` (R263). -/
/-- `LEN_C02.C`, [31:0], RW, reset CFG (default 0). -/
def LEN_C02_C : Fld := { off := 0x11018, lo := 0, w := 32, sgn := true, dflt := 0 }

/-! `LEN_C03` (R263). -/
/-- `LEN_C03.C`, [31:0], RW, reset CFG (default 0). -/
def LEN_C03_C : Fld := { off := 0x1101C, lo := 0, w := 32, sgn := true, dflt := 0 }

/-! `LEN_C10` (R263). -/
/-- `LEN_C10.C`, [31:0], RW, reset CFG (default 0). -/
def LEN_C10_C : Fld := { off := 0x11020, lo := 0, w := 32, sgn := true, dflt := 0 }

/-! `LEN_C11` (R263). -/
/-- `LEN_C11.C`, [31:0], RW, reset CFG (default 0). -/
def LEN_C11_C : Fld := { off := 0x11024, lo := 0, w := 32, sgn := true, dflt := 0 }

/-! `LEN_C12` (R263). -/
/-- `LEN_C12.C`, [31:0], RW, reset CFG (default 0). -/
def LEN_C12_C : Fld := { off := 0x11028, lo := 0, w := 32, sgn := true, dflt := 0 }

/-! `LEN_C13` (R263). -/
/-- `LEN_C13.C`, [31:0], RW, reset CFG (default 0). -/
def LEN_C13_C : Fld := { off := 0x1102C, lo := 0, w := 32, sgn := true, dflt := 0 }

/-! `CHIP_EPOCH` (R20). -/
/-- `CHIP_EPOCH.EPOCH`, [31:0], RO, reset 0. -/
def CHIP_EPOCH_EPOCH : Fld := { off := 0x8, lo := 0, w := 32, sgn := false, dflt := 0 }

/-! `SVC_PARAM` (R311). -/
/-- `SVC_PARAM.VAL`, [31:0], RO, reset 0. -/
def SVC_PARAM_VAL : Fld := { off := 0x11000, lo := 0, w := 32, sgn := true, dflt := 0 }

/-! `HBD_GMEM` (R289). -/
/-- `HBD_GMEM.POS`, [2:0], RO, reset CFG (default 0). -/
def HBD_GMEM_POS : Fld := { off := 0x51040, lo := 0, w := 3, sgn := false, dflt := 0 }
/-- `HBD_GMEM.STN`, [9:8], RO, reset CFG (default 0). -/
def HBD_GMEM_STN : Fld := { off := 0x51040, lo := 8, w := 2, sgn := false, dflt := 0 }

/-! `HBD_GMEM1` (R289). -/
/-- `HBD_GMEM1.COEF`, [15:0], RO, reset CFG (default 0). -/
def HBD_GMEM1_COEF : Fld := { off := 0x51044, lo := 0, w := 16, sgn := false, dflt := 0 }

/-! `REC_TADDR` (R401). -/
/-- `REC_TADDR.ADDR`, [31:0], RO, reset CFG (default 0). -/
def REC_TADDR_ADDR : Fld := { off := 0x30104, lo := 0, w := 32, sgn := false, dflt := 0 }

end Sys2Proof.Machine.F
end

