-- ==== Sys2Proof/Machine/Registers.lean ====
section
/-!
DEFINITION. The register map: one row per register of the tables of spec/ (Tables AR-5 to TS-2), with the fields a read
assembles and a write checks. `words` is 2 for a 48- or 64-bit quantity (R9); `count` and `stride` say how often the register
stands in its unit. Access types are those of Table SC-2; a range is the stated range of a writable field.
-/
namespace Sys2Proof.Machine.R

/-- `CHIP_ID` (R20). -/
def CHIP_ID : RegD := { area := .abs, off := 0x0, words := 1, count := 1, stride := 0x0, flds := [
  ⟨F.CHIP_ID_PART, .ro, none, false⟩,
  ⟨F.CHIP_ID_GRADE, .ro, none, false⟩,
  ⟨F.CHIP_ID_STEP_LETTER, .ro, none, false⟩,
  ⟨F.CHIP_ID_STEP_NUM, .ro, none, false⟩,
  ⟨F.CHIP_ID_HALF_B, .ro, none, false⟩,
  ⟨F.CHIP_ID_G_LAW, .ro, none, false⟩] }
/-- `CHIP_STATUS` (R20). -/
def CHIP_STATUS : RegD := { area := .abs, off := 0x4, words := 1, count := 1, stride := 0x0, flds := [
  ⟨F.CHIP_STATUS_SH_RUN, .ro, none, false⟩,
  ⟨F.CHIP_STATUS_HA_RUN, .ro, none, false⟩,
  ⟨F.CHIP_STATUS_HB_RUN, .ro, none, false⟩,
  ⟨F.CHIP_STATUS_MASTER, .ro, none, false⟩,
  ⟨F.CHIP_STATUS_HA_ISOL, .ro, none, false⟩,
  ⟨F.CHIP_STATUS_HB_ISOL, .ro, none, false⟩,
  ⟨F.CHIP_STATUS_CFG_VALID, .ro, none, false⟩,
  ⟨F.CHIP_STATUS_READY, .ro, none, false⟩,
  ⟨F.CHIP_STATUS_FAULT_SUM, .ro, none, false⟩,
  ⟨F.CHIP_STATUS_CLK_FB, .ro, none, false⟩,
  ⟨F.CHIP_STATUS_TB_SRC, .ro, none, false⟩,
  ⟨F.CHIP_STATUS_TB_RING, .ro, none, false⟩] }
/-- `CHIP_PINS` (R20). -/
def CHIP_PINS : RegD := { area := .abs, off := 0x18, words := 1, count := 1, stride := 0x0, flds := [
  ⟨F.CHIP_PINS_ID_STRAP, .ro, none, false⟩,
  ⟨F.CHIP_PINS_STRAP_UNST, .ro, none, false⟩,
  ⟨F.CHIP_PINS_PRES_LOW, .ro, none, false⟩,
  ⟨F.CHIP_PINS_PRES_VALID, .ro, none, false⟩,
  ⟨F.CHIP_PINS_WAKE_LOW, .ro, none, false⟩,
  ⟨F.CHIP_PINS_FAULT_PIN_LOW, .ro, none, false⟩,
  ⟨F.CHIP_PINS_FUSE_ALT, .ro, none, false⟩] }
/-- `CHIP_PWR_CTRL` (R61). -/
def CHIP_PWR_CTRL : RegD := { area := .abs, off := 0x60000, words := 1, count := 1, stride := 0x0, flds := [
  ⟨F.CHIP_PWR_CTRL_VGD_SET, .wk, (some (0, 10)), true⟩,
  ⟨F.CHIP_PWR_CTRL_PFW_LEVEL, .rw, (some (0, 61)), true⟩,
  ⟨F.CHIP_PWR_CTRL_PFW_STOP, .rw, none, true⟩,
  ⟨F.CHIP_PWR_CTRL_BB_SSC, .rw, none, true⟩] }
/-- `CHIP_PWR_STAT` (R61). -/
def CHIP_PWR_STAT : RegD := { area := .abs, off := 0x60004, words := 1, count := 1, stride := 0x0, flds := [
  ⟨F.CHIP_PWR_STAT_VIN_OV, .ro, none, false⟩,
  ⟨F.CHIP_PWR_STAT_VIN_OV_SEEN, .w1c, none, false⟩,
  ⟨F.CHIP_PWR_STAT_PFW, .ro, none, false⟩,
  ⟨F.CHIP_PWR_STAT_PFW_SEEN, .w1c, none, false⟩,
  ⟨F.CHIP_PWR_STAT_VGD_OK, .ro, none, false⟩,
  ⟨F.CHIP_PWR_STAT_VGD_UV_SEEN, .w1c, none, false⟩,
  ⟨F.CHIP_PWR_STAT_BB_ILIM_SEEN, .w1c, none, false⟩,
  ⟨F.CHIP_PWR_STAT_VIO_18, .ro, none, false⟩,
  ⟨F.CHIP_PWR_STAT_FLUSH_DONE, .ro, none, false⟩] }
/-- `CHIP_SUPPLY_MEAS` (R61). -/
def CHIP_SUPPLY_MEAS : RegD := { area := .abs, off := 0x60008, words := 1, count := 1, stride := 0x0, flds := [
  ⟨F.CHIP_SUPPLY_MEAS_VIN_MV, .ro, none, false⟩,
  ⟨F.CHIP_SUPPLY_MEAS_VGD_MV, .ro, none, false⟩] }
/-- `CHIP_RST_CAUSE` (R61). -/
def CHIP_RST_CAUSE : RegD := { area := .abs, off := 0x6000C, words := 1, count := 1, stride := 0x0, flds := [
  ⟨F.CHIP_RST_CAUSE_POR, .ro, none, false⟩,
  ⟨F.CHIP_RST_CAUSE_RESET_PIN, .ro, none, false⟩,
  ⟨F.CHIP_RST_CAUSE_BROWNOUT, .ro, none, false⟩,
  ⟨F.CHIP_RST_CAUSE_WAKE, .ro, none, false⟩,
  ⟨F.CHIP_RST_CAUSE_WAKE_PIN, .ro, none, false⟩,
  ⟨F.CHIP_RST_CAUSE_WAKE_C0_EDGE, .ro, none, false⟩,
  ⟨F.CHIP_RST_CAUSE_WAKE_C1_EDGE, .ro, none, false⟩,
  ⟨F.CHIP_RST_CAUSE_WAKE_C0_FRAME, .ro, none, false⟩,
  ⟨F.CHIP_RST_CAUSE_WAKE_C1_FRAME, .ro, none, false⟩,
  ⟨F.CHIP_RST_CAUSE_WAKE_C0_FEC, .ro, none, false⟩,
  ⟨F.CHIP_RST_CAUSE_WAKE_C1_FEC, .ro, none, false⟩,
  ⟨F.CHIP_RST_CAUSE_SLEEP_ABORT, .ro, none, false⟩,
  ⟨F.CHIP_RST_CAUSE_ARBITER, .ro, none, false⟩] }
/-- `CHIP_CLK_CTRL` (R61). -/
def CHIP_CLK_CTRL : RegD := { area := .abs, off := 0x60010, words := 1, count := 1, stride := 0x0, flds := [
  ⟨F.CHIP_CLK_CTRL_FB_RETURN, .rw, none, true⟩] }
/-- `CHIP_CLK_STAT` (R61). -/
def CHIP_CLK_STAT : RegD := { area := .abs, off := 0x60014, words := 1, count := 1, stride := 0x0, flds := [
  ⟨F.CHIP_CLK_STAT_XTAL_OK, .ro, none, false⟩,
  ⟨F.CHIP_CLK_STAT_XTAL_LOST, .w1c, none, false⟩,
  ⟨F.CHIP_CLK_STAT_PLL_LOCK, .ro, none, false⟩,
  ⟨F.CHIP_CLK_STAT_HOLDOVER, .ro, none, false⟩,
  ⟨F.CHIP_CLK_STAT_XTAL_LOSS_CNT, .ro, none, false⟩] }
/-- `MIL_PORT_CFG` (R87). -/
def MIL_PORT_CFG : RegD := { area := .abs, off := 0x10000, words := 1, count := 1, stride := 0x0, flds := [
  ⟨F.MIL_PORT_CFG_SPI_EN, .rw, none, true⟩,
  ⟨F.MIL_PORT_CFG_UART_EN, .rw, none, true⟩,
  ⟨F.MIL_PORT_CFG_RS485, .rw, none, true⟩,
  ⟨F.MIL_PORT_CFG_BAUD_DIV, .rw, none, true⟩] }
/-- `MIL_HOST_WD` (R87). -/
def MIL_HOST_WD : RegD := { area := .abs, off := 0x10004, words := 1, count := 1, stride := 0x0, flds := [
  ⟨F.MIL_HOST_WD_TIMEOUT_MS, .rw, none, true⟩,
  ⟨F.MIL_HOST_WD_SOURCE, .rw, none, true⟩] }
/-- `MIL_STAT` (R87). -/
def MIL_STAT : RegD := { area := .abs, off := 0x10008, words := 1, count := 1, stride := 0x0, flds := [
  ⟨F.MIL_STAT_HOST_LOST, .ro, none, false⟩,
  ⟨F.MIL_STAT_HOST_LOST_SEEN, .w1c, none, false⟩,
  ⟨F.MIL_STAT_EVT_LOST_SEEN, .w1c, none, false⟩,
  ⟨F.MIL_STAT_TAGS_IN_USE, .ro, none, false⟩] }
/-- `MIL_TAG_BUSY_LO` (R87). -/
def MIL_TAG_BUSY_LO : RegD := { area := .abs, off := 0x1000C, words := 1, count := 1, stride := 0x0, flds := [
  ⟨F.MIL_TAG_BUSY_LO_BUSY, .ro, none, false⟩] }
/-- `MIL_TAG_BUSY_HI` (R87). -/
def MIL_TAG_BUSY_HI : RegD := { area := .abs, off := 0x10010, words := 1, count := 1, stride := 0x0, flds := [
  ⟨F.MIL_TAG_BUSY_HI_BUSY, .ro, none, false⟩] }
/-- `MIL_ERR_CNT` (R87). -/
def MIL_ERR_CNT : RegD := { area := .abs, off := 0x10014, words := 1, count := 1, stride := 0x0, flds := [
  ⟨F.MIL_ERR_CNT_CRC, .rc, none, false⟩,
  ⟨F.MIL_ERR_CNT_LEN, .rc, none, false⟩,
  ⟨F.MIL_ERR_CNT_RUNT, .rc, none, false⟩,
  ⟨F.MIL_ERR_CNT_EVT_LOST, .rc, none, false⟩] }
/-- `MIL_TUN_STAT` (R87). -/
def MIL_TUN_STAT : RegD := { area := .abs, off := 0x10018, words := 1, count := 1, stride := 0x0, flds := [
  ⟨F.MIL_TUN_STAT_TUN_DISC, .rc, none, false⟩,
  ⟨F.MIL_TUN_STAT_FWD_TO, .rc, none, false⟩] }
/-- `MIL_EVT_CFG` (R87). -/
def MIL_EVT_CFG : RegD := { area := .abs, off := 0x1001C, words := 1, count := 1, stride := 0x0, flds := [
  ⟨F.MIL_EVT_CFG_TYPE_EN, .rw, none, true⟩,
  ⟨F.MIL_EVT_CFG_ROUTE, .rw, none, true⟩] }
/-- `MIL_FWD_CTRL` (R87). -/
def MIL_FWD_CTRL : RegD := { area := .abs, off := 0x10020, words := 1, count := 1, stride := 0x0, flds := [
  ⟨F.MIL_FWD_CTRL_FWD_TIMEOUT, .rw, none, true⟩] }
/-- `MIL_REJ_CNT` (R87). -/
def MIL_REJ_CNT : RegD := { area := .abs, off := 0x10024, words := 1, count := 1, stride := 0x0, flds := [
  ⟨F.MIL_REJ_CNT_REJ_LOST, .rc, none, false⟩] }
/-- `CFG_STAT` (R105). -/
def CFG_STAT : RegD := { area := .abs, off := 0x40000, words := 1, count := 1, stride := 0x0, flds := [
  ⟨F.CFG_STAT_BUSY, .ro, none, false⟩,
  ⟨F.CFG_STAT_SEALED, .ro, none, false⟩,
  ⟨F.CFG_STAT_SLOT, .ro, none, false⟩,
  ⟨F.CFG_STAT_SLOT0_OK, .ro, none, false⟩,
  ⟨F.CFG_STAT_SLOT1_OK, .ro, none, false⟩,
  ⟨F.CFG_STAT_DEFAULT, .ro, none, false⟩,
  ⟨F.CFG_STAT_DIRTY, .ro, none, false⟩,
  ⟨F.CFG_STAT_KEY_NEEDED, .ro, none, false⟩,
  ⟨F.CFG_STAT_SKIPPED, .ro, none, false⟩,
  ⟨F.CFG_STAT_SEAL_REJECT, .ro, none, false⟩,
  ⟨F.CFG_STAT_WORN, .ro, none, false⟩,
  ⟨F.CFG_STAT_LOAD_REJ, .ro, none, false⟩] }
/-- `CFG_SEQ` (R105). -/
def CFG_SEQ : RegD := { area := .abs, off := 0x40004, words := 1, count := 1, stride := 0x0, flds := [
  ⟨F.CFG_SEQ_SEQ, .ro, none, false⟩] }
/-- `CFG_SEAL_SEQ` (R105). -/
def CFG_SEAL_SEQ : RegD := { area := .abs, off := 0x40008, words := 1, count := 1, stride := 0x0, flds := [
  ⟨F.CFG_SEAL_SEQ_SEAL_SEQ, .ro, none, false⟩] }
/-- `CFG_LAST_ERR` (R105). -/
def CFG_LAST_ERR : RegD := { area := .abs, off := 0x4000C, words := 1, count := 1, stride := 0x0, flds := [
  ⟨F.CFG_LAST_ERR_STATUS, .ro, none, false⟩,
  ⟨F.CFG_LAST_ERR_DETAIL, .ro, none, false⟩] }
/-- `PF_CTRL` (R130). -/
def PF_CTRL : RegD := { area := .stn, off := 0x5000, words := 1, count := 1, stride := 0x0, flds := [
  ⟨F.PF_CTRL_MODE, .rw, none, true⟩,
  ⟨F.PF_CTRL_SRC, .rw, none, true⟩,
  ⟨F.PF_CTRL_DIR_INV, .rw, none, true⟩,
  ⟨F.PF_CTRL_HYST, .rw, none, true⟩,
  ⟨F.PF_CTRL_FLT_N, .rw, (some (1, 255)), true⟩] }
/-- `PF_LINES` (R130). -/
def PF_LINES : RegD := { area := .stn, off := 0x5004, words := 1, count := 1, stride := 0x0, flds := [
  ⟨F.PF_LINES_LINES_M1, .wk, none, true⟩] }
/-- `PF_EXC` (R130). -/
def PF_EXC : RegD := { area := .stn, off := 0x5008, words := 1, count := 1, stride := 0x0, flds := [
  ⟨F.PF_EXC_EXC_DIV, .rw, (some (10, 100)), true⟩,
  ⟨F.PF_EXC_EXC_AMP, .rw, (some (0, 8)), true⟩] }
/-- `PF_RES` (R130). -/
def PF_RES : RegD := { area := .stn, off := 0x500C, words := 1, count := 1, stride := 0x0, flds := [
  ⟨F.PF_RES_RES_PHASE, .rw, none, true⟩,
  ⟨F.PF_RES_TRK_BW, .rw, (some (1, 100)), true⟩] }
/-- `PF_AMP_CHK` (R130). -/
def PF_AMP_CHK : RegD := { area := .stn, off := 0x5010, words := 1, count := 1, stride := 0x0, flds := [
  ⟨F.PF_AMP_CHK_RAD_LO, .rw, none, true⟩,
  ⟨F.PF_AMP_CHK_RAD_HI, .rw, none, true⟩,
  ⟨F.PF_AMP_CHK_RAD_N, .rw, (some (1, 255)), true⟩] }
/-- `PF_SPD_CFG` (R130). -/
def PF_SPD_CFG : RegD := { area := .stn, off := 0x5014, words := 1, count := 1, stride := 0x0, flds := [
  ⟨F.PF_SPD_CFG_ZERO_TO, .rw, none, true⟩] }
/-- `PF_CAL_SIN` (R130). -/
def PF_CAL_SIN : RegD := { area := .stn, off := 0x5018, words := 1, count := 1, stride := 0x0, flds := [
  ⟨F.PF_CAL_SIN_OFS, .rw, none, true⟩,
  ⟨F.PF_CAL_SIN_GAIN, .rw, none, true⟩] }
/-- `PF_CAL_COS` (R130). -/
def PF_CAL_COS : RegD := { area := .stn, off := 0x501C, words := 1, count := 1, stride := 0x0, flds := [
  ⟨F.PF_CAL_COS_OFS, .rw, none, true⟩,
  ⟨F.PF_CAL_COS_GAIN, .rw, none, true⟩] }
/-- `PF_QDBL` (R130). -/
def PF_QDBL : RegD := { area := .stn, off := 0x5024, words := 1, count := 1, stride := 0x0, flds := [
  ⟨F.PF_QDBL_QDBL, .rc, none, false⟩] }
/-- `PF_POS` (R130). -/
def PF_POS : RegD := { area := .stn, off := 0x5028, words := 2, count := 1, stride := 0x0, flds := [
  ⟨F.PF_POS_POS, .rw, none, false⟩] }
/-- `PF_LIM_LO` (R130). -/
def PF_LIM_LO : RegD := { area := .stn, off := 0x5030, words := 2, count := 1, stride := 0x0, flds := [
  ⟨F.PF_LIM_LO_LIM_LO, .wk, none, true⟩] }
/-- `PF_LIM_HI` (R130). -/
def PF_LIM_HI : RegD := { area := .stn, off := 0x5038, words := 2, count := 1, stride := 0x0, flds := [
  ⟨F.PF_LIM_HI_LIM_HI, .wk, none, true⟩] }
/-- `PF_SPEED` (R130). -/
def PF_SPEED : RegD := { area := .stn, off := 0x5040, words := 1, count := 1, stride := 0x0, flds := [
  ⟨F.PF_SPEED_SPEED, .ro, none, false⟩] }
/-- `PF_ANGLE` (R130). -/
def PF_ANGLE : RegD := { area := .stn, off := 0x5044, words := 1, count := 1, stride := 0x0, flds := [
  ⟨F.PF_ANGLE_THETA_M, .ro, none, false⟩] }
/-- `PF_FINE` (R130). -/
def PF_FINE : RegD := { area := .stn, off := 0x5048, words := 1, count := 1, stride := 0x0, flds := [
  ⟨F.PF_FINE_FINE, .ro, none, false⟩,
  ⟨F.PF_FINE_CQ, .ro, none, false⟩,
  ⟨F.PF_FINE_REV_PER, .ro, none, false⟩] }
/-- `PF_RADIUS` (R130). -/
def PF_RADIUS : RegD := { area := .stn, off := 0x504C, words := 1, count := 1, stride := 0x0, flds := [
  ⟨F.PF_RADIUS_RAD_NOW, .ro, none, false⟩] }
/-- `PF_SIZ` (R130). -/
def PF_SIZ : RegD := { area := .stn, off := 0x5050, words := 1, count := 1, stride := 0x0, flds := [
  ⟨F.PF_SIZ_DRIVE, .rw, none, true⟩] }
/-- `PF_STAT` (R130). -/
def PF_STAT : RegD := { area := .stn, off := 0x5020, words := 1, count := 1, stride := 0x0, flds := [
  ⟨F.PF_STAT_VALID, .ro, none, false⟩,
  ⟨F.PF_STAT_COARSE_ONLY, .ro, none, false⟩,
  ⟨F.PF_STAT_DIR, .ro, none, false⟩,
  ⟨F.PF_STAT_LIM_LO, .w1c, none, false⟩,
  ⟨F.PF_STAT_LIM_HI, .w1c, none, false⟩,
  ⟨F.PF_STAT_POS_SUSPECT, .w1c, none, false⟩,
  ⟨F.PF_STAT_CAUSE, .ro, none, false⟩] }
/-- `PS_CTRL` (R130). -/
def PS_CTRL : RegD := { area := .stn0, off := 0x5800, words := 1, count := 1, stride := 0x0, flds := [
  ⟨F.PS_CTRL_PROTO, .rw, (some (0, 2)), true⟩,
  ⟨F.PS_CTRL_GRAY, .rw, none, true⟩,
  ⟨F.PS_CTRL_CLK_DIV, .rw, (some (2, 250)), true⟩,
  ⟨F.PS_CTRL_SLO_FLT_N, .rw, (some (1, 7)), true⟩,
  ⟨F.PS_CTRL_ERR_MAX, .rw, (some (1, 255)), true⟩] }
/-- `PS_FMT` (R130). -/
def PS_FMT : RegD := { area := .stn0, off := 0x5804, words := 1, count := 1, stride := 0x0, flds := [
  ⟨F.PS_FMT_ST_BITS, .wk, (some (1, 32)), true⟩,
  ⟨F.PS_FMT_MT_BITS, .wk, (some (0, 24)), true⟩,
  ⟨F.PS_FMT_TRAIL, .rw, none, true⟩,
  ⟨F.PS_FMT_TOUT, .rw, none, true⟩,
  ⟨F.PS_FMT_JUMP, .rw, none, true⟩] }
/-- `PS_STAT` (R130). -/
def PS_STAT : RegD := { area := .stn0, off := 0x5808, words := 1, count := 1, stride := 0x0, flds := [
  ⟨F.PS_STAT_ERR, .rc, none, false⟩,
  ⟨F.PS_STAT_SKIP, .rc, none, false⟩,
  ⟨F.PS_STAT_LINE_DLY, .ro, none, false⟩,
  ⟨F.PS_STAT_WARN, .w1c, none, false⟩] }
/-- `PS_RAW` (R130). -/
def PS_RAW : RegD := { area := .stn0, off := 0x580C, words := 2, count := 1, stride := 0x0, flds := [
  ⟨F.PS_RAW_RAW, .ro, none, false⟩] }
/-- `RP_CTRL` (R130). -/
def RP_CTRL : RegD := { area := .stn0, off := 0x5900, words := 1, count := 1, stride := 0x0, flds := [
  ⟨F.RP_CTRL_EN, .rw, none, true⟩,
  ⟨F.RP_CTRL_SRC, .rw, (some (0, 2)), true⟩,
  ⟨F.RP_CTRL_RP_INV, .rw, none, true⟩,
  ⟨F.RP_CTRL_FLT_MODE, .rw, none, true⟩,
  ⟨F.RP_CTRL_RP_LINES, .rw, none, true⟩] }
/-- `RP_STAT` (R130). -/
def RP_STAT : RegD := { area := .stn0, off := 0x5904, words := 1, count := 1, stride := 0x0, flds := [
  ⟨F.RP_STAT_OVR, .w1c, none, false⟩,
  ⟨F.RP_STAT_LOST, .w1c, none, false⟩,
  ⟨F.RP_STAT_SRC_FLT, .ro, none, false⟩,
  ⟨F.RP_STAT_ZPOS, .rw, none, true⟩] }
/-- `ASC_TB_SEL` (R144). -/
def ASC_TB_SEL : RegD := { area := .half, off := 0xA0000, words := 1, count := 4, stride := 0x4, flds := [
  ⟨F.ASC_TB_SEL_SRC, .rw, (some (0, 4)), true⟩,
  ⟨F.ASC_TB_SEL_STN, .rw, none, true⟩,
  ⟨F.ASC_TB_SEL_RCH, .rw, none, true⟩] }
/-- `ASC_STAT` (R144). -/
def ASC_STAT : RegD := { area := .half, off := 0xA0010, words := 1, count := 1, stride := 0x0, flds := [
  ⟨F.ASC_STAT_TB_HOLD, .ro, none, false⟩,
  ⟨F.ASC_STAT_OVR_SEEN, .w1c, none, false⟩] }
/-- `ASC_CNT` (R144). -/
def ASC_CNT : RegD := { area := .half, off := 0xA0014, words := 1, count := 1, stride := 0x0, flds := [
  ⟨F.ASC_CNT_MERGED, .rc, none, false⟩,
  ⟨F.ASC_CNT_LATE_CNT, .rc, none, false⟩] }
/-- `ASC_TBV` (R144). -/
def ASC_TBV : RegD := { area := .half, off := 0xA0020, words := 2, count := 4, stride := 0x8, flds := [
  ⟨F.ASC_TBV_TBV, .ro, none, false⟩] }
/-- `ASC_CMP` (R144). -/
def ASC_CMP : RegD := { area := .half, off := 0xA0100, words := 2, count := 32, stride := 0x20, flds := [
  ⟨F.ASC_CMP_CMP, .ro, none, false⟩] }
/-- `ASC_PER` (R144). -/
def ASC_PER : RegD := { area := .half, off := 0xA0108, words := 1, count := 32, stride := 0x20, flds := [
  ⟨F.ASC_PER_PER, .rw, none, false⟩] }
/-- `ASC_HYST` (R144). -/
def ASC_HYST : RegD := { area := .half, off := 0xA010C, words := 1, count := 32, stride := 0x20, flds := [
  ⟨F.ASC_HYST_HYST, .rw, none, false⟩] }
/-- `ASC_ACT` (R144). -/
def ASC_ACT : RegD := { area := .half, off := 0xA0110, words := 1, count := 32, stride := 0x20, flds := [
  ⟨F.ASC_ACT_ACTION, .ro, none, false⟩,
  ⟨F.ASC_ACT_DIR, .ro, none, false⟩,
  ⟨F.ASC_ACT_REPEAT, .ro, none, false⟩,
  ⟨F.ASC_ACT_ARG, .ro, none, false⟩] }
/-- `ASC_SST` (R144). -/
def ASC_SST : RegD := { area := .half, off := 0xA0114, words := 1, count := 32, stride := 0x20, flds := [
  ⟨F.ASC_SST_ARMED, .ro, none, false⟩,
  ⟨F.ASC_SST_FIRED, .w1c, none, false⟩,
  ⟨F.ASC_SST_LATE, .w1c, none, false⟩,
  ⟨F.ASC_SST_OVERRUN, .w1c, none, false⟩,
  ⟨F.ASC_SST_NOEFF, .w1c, none, false⟩,
  ⟨F.ASC_SST_JUMP, .w1c, none, false⟩,
  ⟨F.ASC_SST_FIRINGS, .rc, none, false⟩] }
/-- `ASC_FIRE` (R144). -/
def ASC_FIRE : RegD := { area := .half, off := 0xA0118, words := 2, count := 32, stride := 0x20, flds := [
  ⟨F.ASC_FIRE_FIRE_TICK, .ro, none, false⟩] }
/-- `COM_CTRL` (R174). -/
def COM_CTRL : RegD := { area := .stn, off := 0x1000, words := 1, count := 1, stride := 0x0, flds := [
  ⟨F.COM_CTRL_LAW, .rw, (some (0, 1)), true⟩,
  ⟨F.COM_CTRL_ASRC, .rw, (some (0, 2)), true⟩,
  ⟨F.COM_CTRL_OVM, .rw, none, true⟩,
  ⟨F.COM_CTRL_PRED, .rw, none, true⟩,
  ⟨F.COM_CTRL_ALIGN_EN, .rw, none, true⟩,
  ⟨F.COM_CTRL_LR_EN, .rw, none, true⟩] }
/-- `COM_MOTOR` (R174). -/
def COM_MOTOR : RegD := { area := .stn, off := 0x1004, words := 1, count := 1, stride := 0x0, flds := [
  ⟨F.COM_MOTOR_PP, .wk, (some (1, 64)), true⟩,
  ⟨F.COM_MOTOR_FMAX, .wk, (some (1, 3000)), true⟩] }
/-- `COM_OFS` (R174). -/
def COM_OFS : RegD := { area := .stn, off := 0x1008, words := 1, count := 1, stride := 0x0, flds := [
  ⟨F.COM_OFS_OFS, .rw, none, true⟩] }
/-- `COM_VBASE` (R174). -/
def COM_VBASE : RegD := { area := .stn, off := 0x100C, words := 1, count := 1, stride := 0x0, flds := [
  ⟨F.COM_VBASE_VBASE, .wk, (some (1, 65535)), true⟩,
  ⟨F.COM_VBASE_VDC_MIN, .rw, (some (1, 32767)), true⟩] }
/-- `COM_FW` (R174). -/
def COM_FW : RegD := { area := .stn, off := 0x1010, words := 1, count := 1, stride := 0x0, flds := [
  ⟨F.COM_FW_FW_IMIN, .rw, (some (0, 32767)), true⟩] }
/-- `COM_SOFT` (R174). -/
def COM_SOFT : RegD := { area := .stn, off := 0x1014, words := 1, count := 1, stride := 0x0, flds := [
  ⟨F.COM_SOFT_T_SOFT, .rw, (some (0, 1000)), true⟩] }
/-- `COM_LR` (R174). -/
def COM_LR : RegD := { area := .stn, off := 0x1018, words := 1, count := 1, stride := 0x0, flds := [
  ⟨F.COM_LR_LR_I, .rw, (some (1, 32767)), true⟩,
  ⟨F.COM_LR_LR_T, .rw, (some (1, 65535)), true⟩] }
/-- `COM_ALIGN` (R174). -/
def COM_ALIGN : RegD := { area := .stn, off := 0x101C, words := 1, count := 1, stride := 0x0, flds := [
  ⟨F.COM_ALIGN_I_ALIGN, .rw, (some (1, 32767)), true⟩,
  ⟨F.COM_ALIGN_T_ALIGN, .rw, (some (10, 5000)), true⟩] }
/-- `COM_OL` (R174). -/
def COM_OL : RegD := { area := .stn, off := 0x1020, words := 1, count := 1, stride := 0x0, flds := [
  ⟨F.COM_OL_I_OL, .rw, none, true⟩,
  ⟨F.COM_OL_F_OL, .rw, none, true⟩] }
/-- `COM_STAT` (R174). -/
def COM_STAT : RegD := { area := .stn, off := 0x1024, words := 1, count := 1, stride := 0x0, flds := [
  ⟨F.COM_STAT_OFS_VALID, .ro, none, false⟩,
  ⟨F.COM_STAT_SECTOR, .ro, none, false⟩,
  ⟨F.COM_STAT_VSAT, .ro, none, false⟩,
  ⟨F.COM_STAT_MINON, .ro, none, false⟩,
  ⟨F.COM_STAT_ALIGNING, .ro, none, false⟩,
  ⟨F.COM_STAT_SOFTING, .ro, none, false⟩,
  ⟨F.COM_STAT_LAW_NOW, .ro, none, false⟩,
  ⟨F.COM_STAT_ASRC_NOW, .ro, none, false⟩,
  ⟨F.COM_STAT_CAUSE, .ro, none, false⟩] }
/-- `COM_ANGLE` (R174). -/
def COM_ANGLE : RegD := { area := .stn, off := 0x1028, words := 1, count := 1, stride := 0x0, flds := [
  ⟨F.COM_ANGLE_THETA_E, .ro, none, false⟩] }
/-- `COM_IDQ` (R174). -/
def COM_IDQ : RegD := { area := .stn, off := 0x102C, words := 1, count := 1, stride := 0x0, flds := [
  ⟨F.COM_IDQ_ID, .ro, none, false⟩,
  ⟨F.COM_IDQ_IQ, .ro, none, false⟩] }
/-- `COM_IREF` (R174). -/
def COM_IREF : RegD := { area := .stn, off := 0x1030, words := 1, count := 1, stride := 0x0, flds := [
  ⟨F.COM_IREF_ID_REF, .ro, none, false⟩,
  ⟨F.COM_IREF_IQ_REF, .ro, none, false⟩] }
/-- `COM_VDQ` (R174). -/
def COM_VDQ : RegD := { area := .stn, off := 0x1034, words := 1, count := 1, stride := 0x0, flds := [
  ⟨F.COM_VDQ_VD, .ro, none, false⟩,
  ⟨F.COM_VDQ_VQ, .ro, none, false⟩] }
/-- `COM_ADV` (R174). -/
def COM_ADV : RegD := { area := .stn, off := 0x1038, words := 1, count := 1, stride := 0x0, flds := [
  ⟨F.COM_ADV_ADV, .ro, none, false⟩] }
/-- `PWM_CTRL` (R174). -/
def PWM_CTRL : RegD := { area := .stn, off := 0x2000, words := 1, count := 1, stride := 0x0, flds := [
  ⟨F.PWM_CTRL_UPD2, .rw, none, true⟩,
  ⟨F.PWM_CTRL_DTC_EN, .rw, none, true⟩,
  ⟨F.PWM_CTRL_OVR_MAX, .rw, (some (1, 255)), true⟩] }
/-- `PWM_HPER` (R174). -/
def PWM_HPER : RegD := { area := .stn, off := 0x2004, words := 1, count := 1, stride := 0x0, flds := [
  ⟨F.PWM_HPER_HPER, .rw, (some (2000, 100000)), true⟩] }
/-- `PWM_PHASE` (R174). -/
def PWM_PHASE : RegD := { area := .stn, off := 0x2008, words := 1, count := 1, stride := 0x0, flds := [
  ⟨F.PWM_PHASE_PHASE, .rw, none, true⟩] }
/-- `PWM_DT` (R174). -/
def PWM_DT : RegD := { area := .stn, off := 0x200C, words := 1, count := 1, stride := 0x0, flds := [
  ⟨F.PWM_DT_DT, .rw, (some (4, 4000)), true⟩] }
/-- `PWM_DTC` (R174). -/
def PWM_DTC : RegD := { area := .stn, off := 0x2010, words := 1, count := 1, stride := 0x0, flds := [
  ⟨F.PWM_DTC_EXTRA, .rw, none, true⟩,
  ⟨F.PWM_DTC_I0, .rw, (some (1, 32767)), true⟩] }
/-- `PWM_MINP` (R174). -/
def PWM_MINP : RegD := { area := .stn, off := 0x2014, words := 1, count := 1, stride := 0x0, flds := [
  ⟨F.PWM_MINP_MINP, .rw, none, true⟩] }
/-- `PWM_CMP` (R174). -/
def PWM_CMP : RegD := { area := .stn, off := 0x2018, words := 1, count := 3, stride := 0x4, flds := [
  ⟨F.PWM_CMP_CMP, .ro, none, false⟩,
  ⟨F.PWM_CMP_EN, .ro, none, false⟩] }
/-- `PWM_STAT` (R174). -/
def PWM_STAT : RegD := { area := .stn, off := 0x2024, words := 1, count := 1, stride := 0x0, flds := [
  ⟨F.PWM_STAT_SYNCED, .ro, none, false⟩,
  ⟨F.PWM_STAT_OVR_SEEN, .w1c, none, false⟩,
  ⟨F.PWM_STAT_REPHASE, .ro, none, false⟩,
  ⟨F.PWM_STAT_OVR_CNT, .rc, none, false⟩] }
/-- `PWM_PER_NOW` (R174). -/
def PWM_PER_NOW : RegD := { area := .stn, off := 0x2028, words := 1, count := 1, stride := 0x0, flds := [
  ⟨F.PWM_PER_NOW_PER, .ro, none, false⟩] }
/-- `CS_CTRL` (R174). -/
def CS_CTRL : RegD := { area := .stn, off := 0x4000, words := 1, count := 1, stride := 0x0, flds := [
  ⟨F.CS_CTRL_MODE, .rw, none, true⟩,
  ⟨F.CS_CTRL_POL, .rw, none, true⟩,
  ⟨F.CS_CTRL_PGA, .rw, (some (0, 4)), true⟩,
  ⟨F.CS_CTRL_MLS, .rw, none, true⟩,
  ⟨F.CS_CTRL_SUM_N, .rw, (some (1, 255)), true⟩,
  ⟨F.CS_CTRL_SUM_LIM, .rw, (some (1, 32767)), true⟩] }
/-- `CS_SAMP` (R174). -/
def CS_SAMP : RegD := { area := .stn, off := 0x4004, words := 1, count := 1, stride := 0x0, flds := [
  ⟨F.CS_SAMP_OFS, .rw, (some (0, 99999)), true⟩,
  ⟨F.CS_SAMP_TSET, .rw, (some (0, 1000)), true⟩,
  ⟨F.CS_SAMP_REF, .rw, none, true⟩] }
/-- `CS_SD` (R174). -/
def CS_SD : RegD := { area := .stn, off := 0x4008, words := 1, count := 1, stride := 0x0, flds := [
  ⟨F.CS_SD_SDCK_DIV, .rw, (some (16, 80)), true⟩,
  ⟨F.CS_SD_OSR, .rw, (some (16, 256)), true⟩,
  ⟨F.CS_SD_SKEW, .rw, none, true⟩] }
/-- `CS_CAL` (R174). -/
def CS_CAL : RegD := { area := .stn, off := 0x400C, words := 1, count := 3, stride := 0x4, flds := [
  ⟨F.CS_CAL_OFS, .rw, none, true⟩,
  ⟨F.CS_CAL_GAIN, .rw, none, true⟩] }
/-- `CS_I_UV` (R174). -/
def CS_I_UV : RegD := { area := .stn, off := 0x4018, words := 1, count := 1, stride := 0x0, flds := [
  ⟨F.CS_I_UV_IU, .ro, none, false⟩,
  ⟨F.CS_I_UV_IV, .ro, none, false⟩] }
/-- `CS_I_W` (R174). -/
def CS_I_W : RegD := { area := .stn, off := 0x401C, words := 1, count := 1, stride := 0x0, flds := [
  ⟨F.CS_I_W_IW, .ro, none, false⟩,
  ⟨F.CS_I_W_MEAS, .ro, none, false⟩,
  ⟨F.CS_I_W_RECON, .ro, none, false⟩,
  ⟨F.CS_I_W_VALID, .ro, none, false⟩] }
/-- `CS_STAT` (R174). -/
def CS_STAT : RegD := { area := .stn, off := 0x4020, words := 1, count := 1, stride := 0x0, flds := [
  ⟨F.CS_STAT_SAT_SEEN, .w1c, none, false⟩,
  ⟨F.CS_STAT_SKIP_SEEN, .w1c, none, false⟩,
  ⟨F.CS_STAT_SUM_SEEN, .w1c, none, false⟩,
  ⟨F.CS_STAT_SKIP_CNT, .rc, none, false⟩] }
/-- `GC_CTRL` (R200). -/
def GC_CTRL : RegD := { area := .stn, off := 0x3000, words := 1, count := 1, stride := 0x0, flds := [
  ⟨F.GC_CTRL_DMODE, .wk, (some (0, 1)), true⟩,
  ⟨F.GC_CTRL_PSRC, .rw, none, true⟩] }
/-- `GC_DRV` (R200). -/
def GC_DRV : RegD := { area := .stn, off := 0x3004, words := 1, count := 1, stride := 0x0, flds := [
  ⟨F.GC_DRV_ISRC, .rw, none, true⟩,
  ⟨F.GC_DRV_ISNK, .rw, none, true⟩] }
/-- `GC_SOFT` (R200). -/
def GC_SOFT : RegD := { area := .stn, off := 0x3008, words := 1, count := 1, stride := 0x0, flds := [
  ⟨F.GC_SOFT_MID, .rw, (some (0, 8)), true⟩,
  ⟨F.GC_SOFT_T_MID, .rw, (some (4, 200)), true⟩,
  ⟨F.GC_SOFT_ISNK_SOFT, .rw, none, true⟩] }
/-- `GC_BS` (R200). -/
def GC_BS : RegD := { area := .stn, off := 0x300C, words := 1, count := 1, stride := 0x0, flds := [
  ⟨F.GC_BS_BSUV_SET, .wk, (some (0, 8)), true⟩,
  ⟨F.GC_BS_T_REFR, .rw, (some (5, 50)), true⟩,
  ⟨F.GC_BS_CHG_MAX, .rw, (some (1, 255)), true⟩] }
/-- `GC_VDS` (R200). -/
def GC_VDS : RegD := { area := .stn, off := 0x3010, words := 1, count := 1, stride := 0x0, flds := [
  ⟨F.GC_VDS_VDS_TH, .wk, (some (1, 40)), true⟩,
  ⟨F.GC_VDS_VDS_ABS, .wk, none, true⟩,
  ⟨F.GC_VDS_BLANK, .rw, (some (40, 2000)), true⟩,
  ⟨F.GC_VDS_VDS_FLT, .rw, none, true⟩] }
/-- `GC_OC` (R200). -/
def GC_OC : RegD := { area := .stn, off := 0x3014, words := 1, count := 1, stride := 0x0, flds := [
  ⟨F.GC_OC_OC_SOFT, .wk, (some (2, 100)), true⟩,
  ⟨F.GC_OC_OC_N, .rw, (some (1, 15)), true⟩,
  ⟨F.GC_OC_OC_SOFT_PU, .wk, (some (1, 16383)), true⟩] }
/-- `GC_DIAG` (R200). -/
def GC_DIAG : RegD := { area := .stn, off := 0x3018, words := 1, count := 1, stride := 0x0, flds := [
  ⟨F.GC_DIAG_ARM_ITEMS, .rw, none, true⟩,
  ⟨F.GC_DIAG_T_SETTLE, .rw, (some (1, 10)), true⟩] }
/-- `GC_LINK` (R200). -/
def GC_LINK : RegD := { area := .stn, off := 0x301C, words := 1, count := 1, stride := 0x0, flds := [
  ⟨F.GC_LINK_LFLT_FLT, .rw, (some (1, 255)), true⟩,
  ⟨F.GC_LINK_LRDY_REQ, .rw, none, true⟩] }
/-- `GC_STAT` (R200). -/
def GC_STAT : RegD := { area := .stn, off := 0x3020, words := 1, count := 1, stride := 0x0, flds := [
  ⟨F.GC_STAT_BS_OK, .ro, none, false⟩,
  ⟨F.GC_STAT_BSUV_SEEN, .w1c, none, false⟩,
  ⟨F.GC_STAT_VDS_SEEN, .w1c, none, false⟩,
  ⟨F.GC_STAT_OC_SEEN, .w1c, none, false⟩,
  ⟨F.GC_STAT_HARD_SEEN, .w1c, none, false⟩,
  ⟨F.GC_STAT_LRDY, .ro, none, false⟩,
  ⟨F.GC_STAT_LFLT, .ro, none, false⟩,
  ⟨F.GC_STAT_TURNOFF, .ro, none, false⟩,
  ⟨F.GC_STAT_OFF_CONF, .ro, none, false⟩] }
/-- `GC_FAULT` (R200). -/
def GC_FAULT : RegD := { area := .stn, off := 0x3024, words := 1, count := 1, stride := 0x0, flds := [
  ⟨F.GC_FAULT_CAUSE, .ro, none, false⟩,
  ⟨F.GC_FAULT_LEGS, .ro, none, false⟩,
  ⟨F.GC_FAULT_SIDE, .ro, none, false⟩,
  ⟨F.GC_FAULT_LEGS2, .ro, none, false⟩] }
/-- `GC_BSV` (R200). -/
def GC_BSV : RegD := { area := .stn, off := 0x3028, words := 1, count := 1, stride := 0x0, flds := [
  ⟨F.GC_BSV_BSV_U, .ro, none, false⟩,
  ⟨F.GC_BSV_BSV_V, .ro, none, false⟩,
  ⟨F.GC_BSV_BSV_W, .ro, none, false⟩] }
/-- `GC_CNT` (R200). -/
def GC_CNT : RegD := { area := .stn, off := 0x302C, words := 1, count := 1, stride := 0x0, flds := [
  ⟨F.GC_CNT_REFR_CNT, .rc, none, false⟩,
  ⟨F.GC_CNT_OC_PER, .rc, none, false⟩] }
/-- `SUP_STO_CFG` (R200). -/
def SUP_STO_CFG : RegD := { area := .half, off := 0x800, words := 1, count := 1, stride := 0x0, flds := [
  ⟨F.SUP_STO_CFG_FILT, .wk, none, true⟩,
  ⟨F.SUP_STO_CFG_DISC_T, .wk, (some (1, 255)), true⟩,
  ⟨F.SUP_STO_CFG_STO_BRK, .wk, none, true⟩] }
/-- `SUP_STO_STAT` (R200). -/
def SUP_STO_STAT : RegD := { area := .half, off := 0x804, words := 1, count := 1, stride := 0x0, flds := [
  ⟨F.SUP_STO_STAT_CH1, .ro, none, false⟩,
  ⟨F.SUP_STO_STAT_CH2, .ro, none, false⟩,
  ⟨F.SUP_STO_STAT_ACTIVE, .ro, none, false⟩,
  ⟨F.SUP_STO_STAT_SEEN, .w1c, none, false⟩,
  ⟨F.SUP_STO_STAT_DISC, .ro, none, false⟩,
  ⟨F.SUP_STO_STAT_OFF_CONF, .ro, none, false⟩,
  ⟨F.SUP_STO_STAT_EVENTS, .rc, none, false⟩] }
/-- `BGD_CTRL` (R217). -/
def BGD_CTRL : RegD := { area := .half, off := 0x60000, words := 1, count := 1, stride := 0x0, flds := [
  ⟨F.BGD_CTRL_CH_EN, .rw, none, true⟩,
  ⟨F.BGD_CTRL_PRE_EN, .rw, none, true⟩,
  ⟨F.BGD_CTRL_GROUP_TRIP, .wk, none, true⟩,
  ⟨F.BGD_CTRL_CLASS, .wk, none, true⟩] }
/-- `BGD_SCALE` (R217). -/
def BGD_SCALE : RegD := { area := .half, off := 0x60004, words := 1, count := 1, stride := 0x0, flds := [
  ⟨F.BGD_SCALE_VSCALE, .wk, (some (1, 65535)), true⟩] }
/-- `BGD_VCHOP` (R217). -/
def BGD_VCHOP : RegD := { area := .half, off := 0x60008, words := 1, count := 1, stride := 0x0, flds := [
  ⟨F.BGD_VCHOP_V_CHOP, .wk, none, true⟩,
  ⟨F.BGD_VCHOP_CHOP_HYST, .rw, none, true⟩] }
/-- `BGD_VBRIM` (R217). -/
def BGD_VBRIM : RegD := { area := .half, off := 0x6000C, words := 1, count := 1, stride := 0x0, flds := [
  ⟨F.BGD_VBRIM_V_BRIM, .wk, none, true⟩,
  ⟨F.BGD_VBRIM_V_BAND, .wk, none, true⟩] }
/-- `BGD_VTRIP` (R217). -/
def BGD_VTRIP : RegD := { area := .half, off := 0x60010, words := 1, count := 1, stride := 0x0, flds := [
  ⟨F.BGD_VTRIP_V_TRIP, .wk, none, true⟩,
  ⟨F.BGD_VTRIP_V_UV, .wk, none, true⟩] }
/-- `BGD_PRE` (R217). -/
def BGD_PRE : RegD := { area := .half, off := 0x60014, words := 1, count := 1, stride := 0x0, flds := [
  ⟨F.BGD_PRE_V_PRE, .wk, none, true⟩,
  ⟨F.BGD_PRE_T_PRE_MAX, .rw, (some (1, 255)), true⟩] }
/-- `BGD_CHOP` (R217). -/
def BGD_CHOP : RegD := { area := .half, off := 0x60018, words := 1, count := 1, stride := 0x0, flds := [
  ⟨F.BGD_CHOP_T_CHMIN, .rw, (some (1, 255)), true⟩,
  ⟨F.BGD_CHOP_I_PRES, .rw, (some (1, 200)), true⟩,
  ⟨F.BGD_CHOP_CH_OC, .wk, (some (2, 200)), true⟩] }
/-- `BGD_REGEN` (R217). -/
def BGD_REGEN : RegD := { area := .half, off := 0x6001C, words := 1, count := 1, stride := 0x0, flds := [
  ⟨F.BGD_REGEN_I_REGEN, .wk, (some (0, 32767)), true⟩] }
/-- `BGD_ILIM` (R217). -/
def BGD_ILIM : RegD := { area := .half, off := 0x60020, words := 1, count := 1, stride := 0x0, flds := [
  ⟨F.BGD_ILIM_ILIM0, .wk, (some (1, 32767)), true⟩,
  ⟨F.BGD_ILIM_ILIM1, .wk, (some (1, 32767)), true⟩] }
/-- `BGD_ZVB` (R217). -/
def BGD_ZVB : RegD := { area := .half, off := 0x60024, words := 1, count := 1, stride := 0x0, flds := [
  ⟨F.BGD_ZVB_ZVB_I, .rw, (some (1, 32767)), true⟩,
  ⟨F.BGD_ZVB_T_ZVB, .rw, (some (1, 255)), true⟩,
  ⟨F.BGD_ZVB_ZVB_WMIN, .rw, none, true⟩] }
/-- `BGD_STAT` (R217). -/
def BGD_STAT : RegD := { area := .half, off := 0x60028, words := 1, count := 1, stride := 0x0, flds := [
  ⟨F.BGD_STAT_PRE_DONE, .ro, none, false⟩,
  ⟨F.BGD_STAT_CHOP_ON, .ro, none, false⟩,
  ⟨F.BGD_STAT_CHFAULT, .ro, none, false⟩,
  ⟨F.BGD_STAT_REGEN_LIM, .ro, none, false⟩,
  ⟨F.BGD_STAT_ZVB, .ro, none, false⟩,
  ⟨F.BGD_STAT_TRIP_SEEN, .w1c, none, false⟩,
  ⟨F.BGD_STAT_CHF_SEEN, .w1c, none, false⟩,
  ⟨F.BGD_STAT_CAUSE, .ro, none, false⟩] }
/-- `BGD_MEAS` (R217). -/
def BGD_MEAS : RegD := { area := .half, off := 0x6002C, words := 1, count := 1, stride := 0x0, flds := [
  ⟨F.BGD_MEAS_VDC, .ro, none, false⟩,
  ⟨F.BGD_MEAS_ICH, .ro, none, false⟩] }
/-- `BGD_CNT` (R217). -/
def BGD_CNT : RegD := { area := .half, off := 0x60030, words := 1, count := 1, stride := 0x0, flds := [
  ⟨F.BGD_CNT_CHOP_CNT, .rc, none, false⟩,
  ⟨F.BGD_CNT_LIM_UPD, .rc, none, false⟩] }
/-- `THM_CTRL` (R218). -/
def THM_CTRL : RegD := { area := .half, off := 0x90000, words := 1, count := 1, stride := 0x0, flds := [
  ⟨F.THM_CTRL_T_START, .wk, (some (1000, 1550)), true⟩] }
/-- `THM_STAT` (R218). -/
def THM_STAT : RegD := { area := .half, off := 0x90004, words := 1, count := 1, stride := 0x0, flds := [
  ⟨F.THM_STAT_BROKEN, .ro, none, false⟩,
  ⟨F.THM_STAT_BORROW, .ro, none, false⟩,
  ⟨F.THM_STAT_NOSENSE, .ro, none, false⟩,
  ⟨F.THM_STAT_THROTTLE, .ro, none, false⟩,
  ⟨F.THM_STAT_T_REG, .ro, none, false⟩] }
/-- `THM_T01` (R218). -/
def THM_T01 : RegD := { area := .half, off := 0x90008, words := 1, count := 1, stride := 0x0, flds := [
  ⟨F.THM_T01_T0, .ro, none, false⟩,
  ⟨F.THM_T01_T1, .ro, none, false⟩] }
/-- `THM_T23` (R218). -/
def THM_T23 : RegD := { area := .half, off := 0x9000C, words := 1, count := 1, stride := 0x0, flds := [
  ⟨F.THM_T23_T2, .ro, none, false⟩,
  ⟨F.THM_T23_T3, .ro, none, false⟩] }
/-- `THM_K` (R218). -/
def THM_K : RegD := { area := .half, off := 0x90010, words := 1, count := 1, stride := 0x0, flds := [
  ⟨F.THM_K_K0, .ro, none, false⟩,
  ⟨F.THM_K_K1, .ro, none, false⟩] }
/-- `THM_SH_T` (R218). -/
def THM_SH_T : RegD := { area := .abs, off := 0x60100, words := 1, count := 1, stride := 0x0, flds := [
  ⟨F.THM_SH_T_T0, .ro, none, false⟩,
  ⟨F.THM_SH_T_T1, .ro, none, false⟩] }
/-- `THM_SH_STAT` (R218). -/
def THM_SH_STAT : RegD := { area := .abs, off := 0x60104, words := 1, count := 1, stride := 0x0, flds := [
  ⟨F.THM_SH_STAT_BROKEN, .ro, none, false⟩,
  ⟨F.THM_SH_STAT_BORROW, .ro, none, false⟩,
  ⟨F.THM_SH_STAT_NOSENSE, .ro, none, false⟩,
  ⟨F.THM_SH_STAT_EXT_BROKEN, .ro, none, false⟩] }
/-- `THM_EXT_CFG` (R218). -/
def THM_EXT_CFG : RegD := { area := .abs, off := 0x60110, words := 1, count := 4, stride := 0x4, flds := [
  ⟨F.THM_EXT_CFG_TYPE, .rw, none, true⟩,
  ⟨F.THM_EXT_CFG_STN, .rw, none, true⟩,
  ⟨F.THM_EXT_CFG_T_X_START, .wk, none, true⟩,
  ⟨F.THM_EXT_CFG_T_X_ZERO, .wk, none, true⟩] }
/-- `THM_EXT_T` (R218). -/
def THM_EXT_T : RegD := { area := .abs, off := 0x60120, words := 1, count := 2, stride := 0x4, flds := [
  ⟨F.THM_EXT_T_TXA, .ro, none, false⟩,
  ⟨F.THM_EXT_T_TXB, .ro, none, false⟩] }
/-- `OBS_CTRL` (R238). -/
def OBS_CTRL : RegD := { area := .stn, off := 0x6000, words := 1, count := 1, stride := 0x0, flds := [
  ⟨F.OBS_CTRL_OBS_EN, .rw, none, true⟩,
  ⟨F.OBS_CTRL_LIMP_EN, .rw, none, true⟩,
  ⟨F.OBS_CTRL_LIMP_LAW, .rw, none, true⟩,
  ⟨F.OBS_CTRL_START_LAW, .rw, none, true⟩,
  ⟨F.OBS_CTRL_REV_ACT, .rw, (some (0, 2)), true⟩,
  ⟨F.OBS_CTRL_ARM_GUARD, .rw, none, true⟩,
  ⟨F.OBS_CTRL_CATCH_EN, .rw, none, true⟩,
  ⟨F.OBS_CTRL_EMF_SH, .rw, (some (0, 6)), true⟩] }
/-- `OBS_MOTOR` (R238). -/
def OBS_MOTOR : RegD := { area := .stn, off := 0x6004, words := 1, count := 1, stride := 0x0, flds := [
  ⟨F.OBS_MOTOR_RS, .wk, none, true⟩,
  ⟨F.OBS_MOTOR_LS, .wk, none, true⟩] }
/-- `OBS_PLL` (R238). -/
def OBS_PLL : RegD := { area := .stn, off := 0x6008, words := 1, count := 1, stride := 0x0, flds := [
  ⟨F.OBS_PLL_BW, .rw, (some (20, 2000)), true⟩,
  ⟨F.OBS_PLL_CATCH_BW, .rw, (some (20, 2000)), true⟩] }
/-- `OBS_RES` (R238). -/
def OBS_RES : RegD := { area := .stn, off := 0x600C, words := 1, count := 1, stride := 0x0, flds := [
  ⟨F.OBS_RES_RES_TH, .rw, (some (1, 8191)), true⟩,
  ⟨F.OBS_RES_RES_N, .rw, (some (1, 255)), true⟩,
  ⟨F.OBS_RES_LOCK_N, .rw, (some (1, 255)), true⟩] }
/-- `OBS_EMF` (R238). -/
def OBS_EMF : RegD := { area := .stn, off := 0x6010, words := 1, count := 1, stride := 0x0, flds := [
  ⟨F.OBS_EMF_EMF_MIN, .rw, (some (1, 32767)), true⟩] }
/-- `OBS_START` (R238). -/
def OBS_START : RegD := { area := .stn, off := 0x6014, words := 1, count := 1, stride := 0x0, flds := [
  ⟨F.OBS_START_F_HAND, .rw, (some (1, 30000)), true⟩,
  ⟨F.OBS_START_RAMP_ACC, .rw, (some (1, 65535)), true⟩] }
/-- `OBS_LIMP` (R238). -/
def OBS_LIMP : RegD := { area := .stn, off := 0x6018, words := 1, count := 1, stride := 0x0, flds := [
  ⟨F.OBS_LIMP_T_HAND_MAX, .rw, (some (1, 255)), true⟩,
  ⟨F.OBS_LIMP_LIMP_SLOW, .rw, none, true⟩,
  ⟨F.OBS_LIMP_CATCH_MAX, .rw, (some (1, 15)), true⟩,
  ⟨F.OBS_LIMP_T_RAMPIN, .rw, (some (1, 255)), true⟩] }
/-- `OBS_ROT` (R238). -/
def OBS_ROT : RegD := { area := .stn, off := 0x601C, words := 1, count := 1, stride := 0x0, flds := [
  ⟨F.OBS_ROT_W_ROT, .rw, (some (1, 65535)), true⟩,
  ⟨F.OBS_ROT_T_REVWAIT, .rw, (some (1, 255)), true⟩] }
/-- `OBS_VPH` (R238). -/
def OBS_VPH : RegD := { area := .stn, off := 0x6020, words := 1, count := 1, stride := 0x0, flds := [
  ⟨F.OBS_VPH_VPH_SCALE, .wk, (some (1, 65535)), true⟩] }
/-- `OBS_STAT` (R238). -/
def OBS_STAT : RegD := { area := .stn, off := 0x6024, words := 1, count := 1, stride := 0x0, flds := [
  ⟨F.OBS_STAT_LOCKED, .ro, none, false⟩,
  ⟨F.OBS_STAT_LIMP, .ro, none, false⟩,
  ⟨F.OBS_STAT_CATCHING, .ro, none, false⟩,
  ⟨F.OBS_STAT_BW_LIM, .ro, none, false⟩,
  ⟨F.OBS_STAT_STARTING, .ro, none, false⟩,
  ⟨F.OBS_STAT_REV_SEEN, .w1c, none, false⟩,
  ⟨F.OBS_STAT_LOSS_SEEN, .w1c, none, false⟩,
  ⟨F.OBS_STAT_CAUSE, .ro, none, false⟩] }
/-- `OBS_ANGLE` (R238). -/
def OBS_ANGLE : RegD := { area := .stn, off := 0x6028, words := 1, count := 1, stride := 0x0, flds := [
  ⟨F.OBS_ANGLE_THETA_H, .ro, none, false⟩] }
/-- `OBS_SPEED` (R238). -/
def OBS_SPEED : RegD := { area := .stn, off := 0x602C, words := 1, count := 1, stride := 0x0, flds := [
  ⟨F.OBS_SPEED_WE, .ro, none, false⟩] }
/-- `OBS_EMFV` (R238). -/
def OBS_EMFV : RegD := { area := .stn, off := 0x6030, words := 1, count := 1, stride := 0x0, flds := [
  ⟨F.OBS_EMFV_MAG, .ro, none, false⟩,
  ⟨F.OBS_EMFV_RES, .ro, none, false⟩] }
/-- `OBS_CNT` (R238). -/
def OBS_CNT : RegD := { area := .stn, off := 0x6034, words := 1, count := 1, stride := 0x0, flds := [
  ⟨F.OBS_CNT_LOSS_CNT, .rc, none, false⟩,
  ⟨F.OBS_CNT_CATCH_OK, .rc, none, false⟩] }
/-- `LEN_STAT` (R263). -/
def LEN_STAT : RegD := { area := .half, off := 0x10000, words := 1, count := 1, stride := 0x0, flds := [
  ⟨F.LEN_STAT_IN_SERVICE, .ro, none, false⟩,
  ⟨F.LEN_STAT_STEAMING, .ro, none, false⟩] }
/-- `LEN_LOAD` (R263). -/
def LEN_LOAD : RegD := { area := .half, off := 0x10004, words := 1, count := 1, stride := 0x0, flds := [
  ⟨F.LEN_LOAD_LOAD, .ro, none, false⟩] }
/-- `LEN_BANK` (R263). -/
def LEN_BANK : RegD := { area := .half, off := 0x10008, words := 1, count := 1, stride := 0x0, flds := [
  ⟨F.LEN_BANK_BANK, .ro, none, true⟩,
  ⟨F.LEN_BANK_BUMPLESS, .rw, none, true⟩] }
/-- `LEN_SWAP` (R263). -/
def LEN_SWAP : RegD := { area := .half, off := 0x1000C, words := 1, count := 1, stride := 0x0, flds := [
  ⟨F.LEN_SWAP_PENDING, .ro, none, false⟩] }
/-- `LEN_SNK` (R263). -/
def LEN_SNK : RegD := { area := .half, off := 0x10020, words := 1, count := 2, stride := 0x10, flds := [
  ⟨F.LEN_SNK_VD_SLOT, .rw, none, true⟩,
  ⟨F.LEN_SNK_VQ_SLOT, .rw, none, true⟩,
  ⟨F.LEN_SNK_FF_SLOT, .rw, none, true⟩] }
/-- `LEN_CHAIN` (R263). -/
def LEN_CHAIN : RegD := { area := .half, off := 0x10024, words := 1, count := 2, stride := 0x10, flds := [
  ⟨F.LEN_CHAIN_K0, .rw, none, true⟩,
  ⟨F.LEN_CHAIN_K1, .rw, none, true⟩,
  ⟨F.LEN_CHAIN_K2, .rw, none, true⟩,
  ⟨F.LEN_CHAIN_SP_SLOT, .rw, none, true⟩] }
/-- `LEN_WBASE` (R263). -/
def LEN_WBASE : RegD := { area := .half, off := 0x10028, words := 1, count := 2, stride := 0x10, flds := [
  ⟨F.LEN_WBASE_WBASE, .rw, (some (1, 65535)), true⟩] }
/-- `LEN_PBASE` (R263). -/
def LEN_PBASE : RegD := { area := .half, off := 0x1002C, words := 1, count := 2, stride := 0x10, flds := [
  ⟨F.LEN_PBASE_PBASE, .rw, (some (1, 4294967295)), true⟩] }
/-- `LEN_PARAM` (R263). -/
def LEN_PARAM : RegD := { area := .half, off := 0x10100, words := 1, count := 16, stride := 0x4, flds := [
  ⟨F.LEN_PARAM_PARAM, .rw, none, false⟩] }
/-- `LEN_CFG` (R263). -/
def LEN_CFG : RegD := { area := .half, off := 0x11000, words := 1, count := 48, stride := 0x80, flds := [
  ⟨F.LEN_CFG_TYPE, .rw, (some (0, 6)), true⟩,
  ⟨F.LEN_CFG_TRIG, .rw, none, true⟩,
  ⟨F.LEN_CFG_OWNER, .rw, none, true⟩,
  ⟨F.LEN_CFG_RUNGATE, .rw, none, true⟩,
  ⟨F.LEN_CFG_SEL_HOLD, .rw, none, true⟩,
  ⟨F.LEN_CFG_GROUP, .rw, none, true⟩,
  ⟨F.LEN_CFG_TOPT, .rw, none, true⟩,
  ⟨F.LEN_CFG_TPARAM, .rw, none, true⟩] }
/-- `LEN_IN` (R263). -/
def LEN_IN : RegD := { area := .half, off := 0x11004, words := 1, count := 48, stride := 0x80, flds := [
  ⟨F.LEN_IN_IN_A, .rw, none, true⟩,
  ⟨F.LEN_IN_IN_B, .rw, none, true⟩,
  ⟨F.LEN_IN_IN_C, .rw, none, true⟩,
  ⟨F.LEN_IN_IN_D, .rw, none, true⟩] }
/-- `LEN_LO` (R263). -/
def LEN_LO : RegD := { area := .half, off := 0x11008, words := 1, count := 48, stride := 0x80, flds := [
  ⟨F.LEN_LO_LO, .rw, none, true⟩] }
/-- `LEN_HI` (R263). -/
def LEN_HI : RegD := { area := .half, off := 0x1100C, words := 1, count := 48, stride := 0x80, flds := [
  ⟨F.LEN_HI_HI, .rw, none, true⟩] }
/-- `LEN_ACC` (R263). -/
def LEN_ACC : RegD := { area := .half, off := 0x11030, words := 2, count := 48, stride := 0x80, flds := [
  ⟨F.LEN_ACC_ACC, .rw, none, false⟩] }
/-- `LEN_OUT` (R263). -/
def LEN_OUT : RegD := { area := .half, off := 0x11038, words := 1, count := 48, stride := 0x80, flds := [
  ⟨F.LEN_OUT_OUT, .ro, none, false⟩] }
/-- `LEN_WRAPS` (R263). -/
def LEN_WRAPS : RegD := { area := .half, off := 0x1103C, words := 1, count := 48, stride := 0x80, flds := [
  ⟨F.LEN_WRAPS_WRAPS, .ro, none, false⟩] }
/-- `LEN_SST` (R263). -/
def LEN_SST : RegD := { area := .half, off := 0x11040, words := 1, count := 48, stride := 0x80, flds := [
  ⟨F.LEN_SST_BANK_USED, .ro, none, false⟩,
  ⟨F.LEN_SST_HELD, .ro, none, false⟩,
  ⟨F.LEN_SST_SELLOSE, .ro, none, false⟩,
  ⟨F.LEN_SST_WRAP_SEEN, .w1c, none, false⟩,
  ⟨F.LEN_SST_AT_LIMIT, .ro, none, false⟩,
  ⟨F.LEN_SST_PRESET_SEEN, .w1c, none, false⟩,
  ⟨F.LEN_SST_ERR, .ro, none, false⟩,
  ⟨F.LEN_SST_MISS, .rc, none, false⟩] }
/-- `SPT_CTRL` (R263). -/
def SPT_CTRL : RegD := { area := .half, off := 0xB0000, words := 1, count := 1, stride := 0x0, flds := [
  ⟨F.SPT_CTRL_AMODE, .rw, none, true⟩,
  ⟨F.SPT_CTRL_PMODE, .rw, none, true⟩,
  ⟨F.SPT_CTRL_DUTY_BIP, .rw, none, true⟩,
  ⟨F.SPT_CTRL_PIN_FLT, .rw, (some (1, 255)), true⟩,
  ⟨F.SPT_CTRL_LOS_T, .rw, none, true⟩] }
/-- `SPT_FFS` (R263). -/
def SPT_FFS : RegD := { area := .half, off := 0xB0004, words := 1, count := 1, stride := 0x0, flds := [
  ⟨F.SPT_FFS_F_FS, .rw, (some (1, 1000000)), true⟩,
  ⟨F.SPT_FFS_PULSE_TO, .rw, (some (1, 255)), true⟩] }
/-- `SPT_AIN` (R263). -/
def SPT_AIN : RegD := { area := .half, off := 0xB0008, words := 1, count := 1, stride := 0x0, flds := [
  ⟨F.SPT_AIN_CODE, .ro, none, false⟩] }
/-- `SPT_XA` (R263). -/
def SPT_XA : RegD := { area := .half, off := 0xB000C, words := 1, count := 1, stride := 0x0, flds := [
  ⟨F.SPT_XA_XA, .ro, none, false⟩] }
/-- `SPT_XP` (R263). -/
def SPT_XP : RegD := { area := .half, off := 0xB0010, words := 1, count := 1, stride := 0x0, flds := [
  ⟨F.SPT_XP_XP, .ro, none, false⟩] }
/-- `SPT_STAT` (R263). -/
def SPT_STAT : RegD := { area := .half, off := 0xB0014, words := 1, count := 1, stride := 0x0, flds := [
  ⟨F.SPT_STAT_LOS_A, .ro, none, false⟩,
  ⟨F.SPT_STAT_LOS_P, .ro, none, false⟩,
  ⟨F.SPT_STAT_LOS_SEEN, .w1c, none, false⟩,
  ⟨F.SPT_STAT_LOS_CNT, .rc, none, false⟩] }
/-- `SPT_CNT` (R263). -/
def SPT_CNT : RegD := { area := .half, off := 0xB0018, words := 2, count := 1, stride := 0x0, flds := [
  ⟨F.SPT_CNT_CNT, .ro, none, false⟩] }
/-- `HBD_CTRL` (R289). -/
def HBD_CTRL : RegD := { area := .abs, off := 0x50000, words := 1, count := 1, stride := 0x0, flds := [
  ⟨F.HBD_CTRL_EN, .rw, none, true⟩,
  ⟨F.HBD_CTRL_TOPO, .wk, none, true⟩] }
/-- `HBD_RING` (R289). -/
def HBD_RING : RegD := { area := .abs, off := 0x50004, words := 1, count := 1, stride := 0x0, flds := [
  ⟨F.HBD_RING_RING_NO, .wk, (some (1, 65535)), true⟩,
  ⟨F.HBD_RING_POS, .wk, none, true⟩,
  ⟨F.HBD_RING_NCHIP_M1, .wk, none, true⟩,
  ⟨F.HBD_RING_LMAX, .wk, (some (4, 128)), true⟩] }
/-- `HBD_CYC` (R289). -/
def HBD_CYC : RegD := { area := .abs, off := 0x50008, words := 1, count := 1, stride := 0x0, flds := [
  ⟨F.HBD_CYC_T_SC, .wk, (some (50, 1000)), true⟩,
  ⟨F.HBD_CYC_LATE_MAX, .rw, (some (1, 255)), true⟩] }
/-- `HBD_PUB` (R289). -/
def HBD_PUB : RegD := { area := .abs, off := 0x5000C, words := 1, count := 1, stride := 0x0, flds := [
  ⟨F.HBD_PUB_PUB, .rw, none, true⟩,
  ⟨F.HBD_PUB_MBX_WIN, .rw, (some (0, 8)), true⟩] }
/-- `HBD_LOSS` (R289). -/
def HBD_LOSS : RegD := { area := .abs, off := 0x50010, words := 1, count := 1, stride := 0x0, flds := [
  ⟨F.HBD_LOSS_T_HOLD, .rw, none, true⟩] }
/-- `HBD_STAT` (R289). -/
def HBD_STAT : RegD := { area := .abs, off := 0x50014, words := 1, count := 1, stride := 0x0, flds := [
  ⟨F.HBD_STAT_STATE, .ro, none, false⟩,
  ⟨F.HBD_STAT_ROOT, .ro, none, false⟩,
  ⟨F.HBD_STAT_SYNC_OK, .ro, none, false⟩,
  ⟨F.HBD_STAT_ROOT_POS, .ro, none, false⟩,
  ⟨F.HBD_STAT_REACH, .ro, none, false⟩,
  ⟨F.HBD_STAT_GSIG_OK, .ro, none, false⟩,
  ⟨F.HBD_STAT_TSTEP, .w1c, none, false⟩,
  ⟨F.HBD_STAT_LATE_SEEN, .w1c, none, false⟩] }
/-- `HBD_LNK` (R289). -/
def HBD_LNK : RegD := { area := .abs, off := 0x50018, words := 1, count := 2, stride := 0x4, flds := [
  ⟨F.HBD_LNK_LSTATE, .ro, none, false⟩,
  ⟨F.HBD_LNK_NB_POS, .ro, none, false⟩,
  ⟨F.HBD_LNK_DLY, .ro, none, false⟩] }
/-- `HBD_CNT` (R289). -/
def HBD_CNT : RegD := { area := .abs, off := 0x50020, words := 1, count := 2, stride := 0x4, flds := [
  ⟨F.HBD_CNT_CRC, .rc, none, false⟩,
  ⟨F.HBD_CNT_LATE, .rc, none, false⟩,
  ⟨F.HBD_CNT_SEQ, .rc, none, false⟩,
  ⟨F.HBD_CNT_DOWNS, .rc, none, false⟩] }
/-- `HBD_OFS` (R289). -/
def HBD_OFS : RegD := { area := .abs, off := 0x50028, words := 2, count := 1, stride := 0x0, flds := [
  ⟨F.HBD_OFS_OFS, .ro, none, false⟩] }
/-- `HBD_TERR` (R289). -/
def HBD_TERR : RegD := { area := .abs, off := 0x50030, words := 1, count := 1, stride := 0x0, flds := [
  ⟨F.HBD_TERR_TERR, .ro, none, false⟩] }
/-- `HBD_TRIM` (R289). -/
def HBD_TRIM : RegD := { area := .abs, off := 0x50034, words := 1, count := 1, stride := 0x0, flds := [
  ⟨F.HBD_TRIM_TRIM, .ro, none, false⟩] }
/-- `HBD_CYCLE` (R289). -/
def HBD_CYCLE : RegD := { area := .abs, off := 0x50038, words := 1, count := 1, stride := 0x0, flds := [
  ⟨F.HBD_CYCLE_CYCLE, .ro, none, false⟩] }
/-- `HBD_DLIM` (R289). -/
def HBD_DLIM : RegD := { area := .abs, off := 0x5003C, words := 1, count := 1, stride := 0x0, flds := [
  ⟨F.HBD_DLIM_D, .ro, none, false⟩] }
/-- `HBD_GSIG` (R289). -/
def HBD_GSIG : RegD := { area := .abs, off := 0x50040, words := 1, count := 1, stride := 0x0, flds := [
  ⟨F.HBD_GSIG_OWN, .ro, none, false⟩,
  ⟨F.HBD_GSIG_ROOT_SIG, .ro, none, false⟩] }
/-- `HBD_ALLOC` (R289). -/
def HBD_ALLOC : RegD := { area := .abs, off := 0x50200, words := 1, count := 4, stride := 0x8, flds := [
  ⟨F.HBD_ALLOC_ALLOC, .ro, none, false⟩] }
/-- `HBD_ALLOC1` (R289). -/
def HBD_ALLOC1 : RegD := { area := .abs, off := 0x50204, words := 1, count := 4, stride := 0x8, flds := [
  ⟨F.HBD_ALLOC1_FRESH, .ro, none, false⟩,
  ⟨F.HBD_ALLOC1_HOLD, .ro, none, false⟩,
  ⟨F.HBD_ALLOC1_FALLBACK, .ro, none, false⟩,
  ⟨F.HBD_ALLOC1_REJ_SEEN, .w1c, none, false⟩,
  ⟨F.HBD_ALLOC1_GRP, .ro, none, false⟩,
  ⟨F.HBD_ALLOC1_REJ_CNT, .rc, none, false⟩] }
/-- `HBD_RCH` (R289). -/
def HBD_RCH : RegD := { area := .abs, off := 0x50400, words := 2, count := 32, stride := 0x10, flds := [
  ⟨F.HBD_RCH_POS, .ro, none, false⟩] }
/-- `HBD_RCH2` (R289). -/
def HBD_RCH2 : RegD := { area := .abs, off := 0x50408, words := 1, count := 32, stride := 0x10, flds := [
  ⟨F.HBD_RCH2_SPEED, .ro, none, false⟩] }
/-- `HBD_RCH3` (R289). -/
def HBD_RCH3 : RegD := { area := .abs, off := 0x5040C, words := 1, count := 32, stride := 0x10, flds := [
  ⟨F.HBD_RCH3_TORQUE, .ro, none, false⟩,
  ⟨F.HBD_RCH3_AGE, .ro, none, false⟩,
  ⟨F.HBD_RCH3_MODE, .ro, none, false⟩,
  ⟨F.HBD_RCH3_FOLLOW, .ro, none, false⟩,
  ⟨F.HBD_RCH3_LIMITED, .ro, none, false⟩] }
/-- `HBD_GDEF` (R289). -/
def HBD_GDEF : RegD := { area := .abs, off := 0x51000, words := 1, count := 8, stride := 0x100, flds := [
  ⟨F.HBD_GDEF_MODE, .ro, none, true⟩,
  ⟨F.HBD_GDEF_COUNT, .ro, none, true⟩,
  ⟨F.HBD_GDEF_ALLOC_POS, .ro, none, true⟩,
  ⟨F.HBD_GDEF_LOCAL, .ro, none, true⟩] }
/-- `HBD_GCMD` (R289). -/
def HBD_GCMD : RegD := { area := .abs, off := 0x51004, words := 1, count := 8, stride := 0x100, flds := [
  ⟨F.HBD_GCMD_GCMD, .rw, none, false⟩] }
/-- `HBD_GSTAT` (R289). -/
def HBD_GSTAT : RegD := { area := .abs, off := 0x51008, words := 1, count := 8, stride := 0x100, flds := [
  ⟨F.HBD_GSTAT_NAVAIL, .ro, none, false⟩,
  ⟨F.HBD_GSTAT_SHORT, .w1c, none, false⟩,
  ⟨F.HBD_GSTAT_LEADER_LOST, .ro, none, false⟩] }
/-- `STN_STAT` (R311). -/
def STN_STAT : RegD := { area := .stn, off := 0x0, words := 1, count := 1, stride := 0x0, flds := [
  ⟨F.STN_STAT_MODE, .ro, none, false⟩,
  ⟨F.STN_STAT_SOURCE, .ro, none, false⟩,
  ⟨F.STN_STAT_KIND, .ro, none, false⟩,
  ⟨F.STN_STAT_STOP, .ro, none, false⟩,
  ⟨F.STN_STAT_FB_ACTIVE, .ro, none, false⟩,
  ⟨F.STN_STAT_SLOW_ACT, .ro, none, false⟩,
  ⟨F.STN_STAT_MBRK, .ro, none, false⟩,
  ⟨F.STN_STAT_HANDLE, .ro, none, false⟩] }
/-- `STN_CMD` (R311). -/
def STN_CMD : RegD := { area := .stn, off := 0x4, words := 1, count := 1, stride := 0x0, flds := [
  ⟨F.STN_CMD_CMD, .ro, none, false⟩] }
/-- `STN_WMAX` (R311). -/
def STN_WMAX : RegD := { area := .stn, off := 0x8, words := 1, count := 1, stride := 0x0, flds := [
  ⟨F.STN_WMAX_W_MAX, .wk, (some (1, 32767)), true⟩,
  ⟨F.STN_WMAX_SLOW, .ro, none, false⟩] }
/-- `STN_RAMP` (R311). -/
def STN_RAMP : RegD := { area := .stn, off := 0xC, words := 1, count := 1, stride := 0x0, flds := [
  ⟨F.STN_RAMP_DEC_R, .rw, (some (1, 65535)), true⟩,
  ⟨F.STN_RAMP_DEC_Q, .rw, (some (1, 65535)), true⟩] }
/-- `STN_STOPCFG` (R311). -/
def STN_STOPCFG : RegD := { area := .stn, off := 0x10, words := 1, count := 1, stride := 0x0, flds := [
  ⟨F.STN_STOPCFG_TQ_DEC, .rw, (some (1, 65535)), true⟩,
  ⟨F.STN_STOPCFG_T_STOP_MAX, .rw, (some (1, 240)), true⟩,
  ⟨F.STN_STOPCFG_T_DWELL, .rw, (some (1, 255)), true⟩] }
/-- `STN_BRAKE` (R311). -/
def STN_BRAKE : RegD := { area := .stn, off := 0x14, words := 1, count := 1, stride := 0x0, flds := [
  ⟨F.STN_BRAKE_T_BRK, .rw, none, true⟩,
  ⟨F.STN_BRAKE_T_UNLOAD, .rw, (some (1, 127)), true⟩,
  ⟨F.STN_BRAKE_BRK_OFF, .rw, none, true⟩,
  ⟨F.STN_BRAKE_W_STOP, .rw, (some (1, 65535)), true⟩] }
/-- `STN_FALLBACK` (R311). -/
def STN_FALLBACK : RegD := { area := .stn, off := 0x18, words := 1, count := 1, stride := 0x0, flds := [
  ⟨F.STN_FALLBACK_FB_ACT, .rw, (some (0, 2)), true⟩,
  ⟨F.STN_FALLBACK_FB_KIND, .rw, none, true⟩,
  ⟨F.STN_FALLBACK_ISO_RATE, .rw, (some (1, 65535)), true⟩] }
/-- `STN_CNT` (R311). -/
def STN_CNT : RegD := { area := .stn, off := 0x1C, words := 1, count := 1, stride := 0x0, flds := [
  ⟨F.STN_CNT_STOPS, .rc, none, false⟩,
  ⟨F.STN_CNT_FBS, .rc, none, false⟩] }
/-- `SVC_STAT` (R311). -/
def SVC_STAT : RegD := { area := .abs, off := 0x10100, words := 1, count := 16, stride := 0x10, flds := [
  ⟨F.SVC_STAT_SERVICE, .ro, none, false⟩,
  ⟨F.SVC_STAT_STATE, .ro, none, false⟩,
  ⟨F.SVC_STAT_SUB, .ro, none, false⟩,
  ⟨F.SVC_STAT_STNS, .ro, none, false⟩,
  ⟨F.SVC_STAT_AXES, .ro, none, false⟩] }
/-- `SVC_OUT` (R311). -/
def SVC_OUT : RegD := { area := .abs, off := 0x10104, words := 1, count := 16, stride := 0x10, flds := [
  ⟨F.SVC_OUT_OUT, .ro, none, false⟩] }
/-- `SVC_MEAS` (R311). -/
def SVC_MEAS : RegD := { area := .abs, off := 0x10108, words := 1, count := 16, stride := 0x10, flds := [
  ⟨F.SVC_MEAS_MEAS, .ro, none, false⟩] }
/-- `SVC_CNT` (R311). -/
def SVC_CNT : RegD := { area := .abs, off := 0x1010C, words := 1, count := 16, stride := 0x10, flds := [
  ⟨F.SVC_CNT_BAD, .rc, none, false⟩,
  ⟨F.SVC_CNT_LIMITS, .rc, none, false⟩] }
/-- `AXS_CTRL` (R335). -/
def AXS_CTRL : RegD := { area := .axs, off := 0x0, words := 1, count := 1, stride := 0x0, flds := [
  ⟨F.AXS_CTRL_CLASS, .rw, (some (0, 2)), true⟩,
  ⟨F.AXS_CTRL_GUARDED, .wk, none, true⟩,
  ⟨F.AXS_CTRL_STBY, .rw, none, true⟩,
  ⟨F.AXS_CTRL_DIR_INV, .rw, none, true⟩,
  ⟨F.AXS_CTRL_PCLK, .rw, none, true⟩] }
/-- `AXS_PULSE` (R335). -/
def AXS_PULSE : RegD := { area := .axs, off := 0x4, words := 1, count := 1, stride := 0x0, flds := [
  ⟨F.AXS_PULSE_PW, .rw, (some (40, 4000)), true⟩,
  ⟨F.AXS_PULSE_DIR_SU, .rw, (some (40, 4000)), true⟩] }
/-- `AXS_CHOP` (R335). -/
def AXS_CHOP : RegD := { area := .axs, off := 0x8, words := 1, count := 1, stride := 0x0, flds := [
  ⟨F.AXS_CHOP_T_OFF, .rw, (some (5, 400)), true⟩,
  ⟨F.AXS_CHOP_FD, .rw, (some (0, 16)), true⟩,
  ⟨F.AXS_CHOP_T_BLANK, .rw, (some (1, 50)), true⟩] }
/-- `AXS_ISCALE` (R335). -/
def AXS_ISCALE : RegD := { area := .axs, off := 0xC, words := 1, count := 1, stride := 0x0, flds := [
  ⟨F.AXS_ISCALE_I_RUN, .wk, (some (1, 2000)), true⟩,
  ⟨F.AXS_ISCALE_I_HOLD, .rw, none, true⟩] }
/-- `AXS_OC` (R335). -/
def AXS_OC : RegD := { area := .axs, off := 0x10, words := 1, count := 1, stride := 0x0, flds := [
  ⟨F.AXS_OC_OC_MV, .wk, (some (100, 2000)), true⟩] }
/-- `AXS_HOLD` (R335). -/
def AXS_HOLD : RegD := { area := .axs, off := 0x14, words := 1, count := 1, stride := 0x0, flds := [
  ⟨F.AXS_HOLD_T_HOLD, .rw, none, true⟩,
  ⟨F.AXS_HOLD_T_ENER, .rw, none, true⟩] }
/-- `AXS_FACC` (R335). -/
def AXS_FACC : RegD := { area := .axs, off := 0x18, words := 1, count := 1, stride := 0x0, flds := [
  ⟨F.AXS_FACC_FACC, .rw, (some (0, 4000000000)), true⟩] }
/-- `AXS_GDEC` (R335). -/
def AXS_GDEC : RegD := { area := .axs, off := 0x1C, words := 1, count := 1, stride := 0x0, flds := [
  ⟨F.AXS_GDEC_GDEC, .rw, (some (1, 4000000000)), true⟩] }
/-- `AXS_IP` (R335). -/
def AXS_IP : RegD := { area := .axs, off := 0x20, words := 1, count := 1, stride := 0x0, flds := [
  ⟨F.AXS_IP_IP_TO, .rw, (some (1, 65535)), true⟩,
  ⟨F.AXS_IP_STEP_FLT, .rw, (some (1, 255)), true⟩] }
/-- `AXS_STAT` (R335). -/
def AXS_STAT : RegD := { area := .axs, off := 0x24, words := 1, count := 1, stride := 0x0, flds := [
  ⟨F.AXS_STAT_STATE, .ro, none, false⟩,
  ⟨F.AXS_STAT_COIL, .ro, none, false⟩,
  ⟨F.AXS_STAT_POS_LOST, .w1c, none, false⟩,
  ⟨F.AXS_STAT_OVERSHOOT, .w1c, none, false⟩,
  ⟨F.AXS_STAT_TURNING, .ro, none, false⟩,
  ⟨F.AXS_STAT_BACKLOG_SEEN, .w1c, none, false⟩,
  ⟨F.AXS_STAT_CAUSE, .ro, none, false⟩] }
/-- `AXS_POS` (R335). -/
def AXS_POS : RegD := { area := .axs, off := 0x28, words := 2, count := 1, stride := 0x0, flds := [
  ⟨F.AXS_POS_POS, .rw, none, false⟩] }
/-- `AXS_TARGET` (R335). -/
def AXS_TARGET : RegD := { area := .axs, off := 0x30, words := 2, count := 1, stride := 0x0, flds := [
  ⟨F.AXS_TARGET_TARGET, .ro, none, false⟩] }
/-- `AXS_VEL` (R335). -/
def AXS_VEL : RegD := { area := .axs, off := 0x38, words := 1, count := 1, stride := 0x0, flds := [
  ⟨F.AXS_VEL_VEL, .ro, none, false⟩] }
/-- `AXS_IN` (R335). -/
def AXS_IN : RegD := { area := .axs, off := 0x3C, words := 2, count := 1, stride := 0x0, flds := [
  ⟨F.AXS_IN_IN, .ro, none, false⟩] }
/-- `AXS_LAG` (R335). -/
def AXS_LAG : RegD := { area := .axs, off := 0x44, words := 1, count := 1, stride := 0x0, flds := [
  ⟨F.AXS_LAG_LAG, .ro, none, false⟩,
  ⟨F.AXS_LAG_TBL_ADDR, .ro, none, false⟩] }
/-- `AXS_CNT` (R335). -/
def AXS_CNT : RegD := { area := .axs, off := 0x48, words := 1, count := 1, stride := 0x0, flds := [
  ⟨F.AXS_CNT_NOREACH, .rc, none, false⟩,
  ⟨F.AXS_CNT_OVR_CNT, .rc, none, false⟩] }
/-- `CAN_CTRL` (R354). -/
def CAN_CTRL : RegD := { area := .can, off := 0x0, words := 1, count := 1, stride := 0x0, flds := [
  ⟨F.CAN_CTRL_EN, .rw, none, true⟩,
  ⟨F.CAN_CTRL_FD_EN, .rw, none, true⟩,
  ⟨F.CAN_CTRL_RESTR, .rw, none, true⟩,
  ⟨F.CAN_CTRL_MON, .rw, none, true⟩,
  ⟨F.CAN_CTRL_LBK, .rw, none, true⟩,
  ⟨F.CAN_CTRL_TUN_EN, .rw, none, true⟩,
  ⟨F.CAN_CTRL_DAR, .rw, none, true⟩,
  ⟨F.CAN_CTRL_TM_EN, .rw, none, true⟩] }
/-- `CAN_NBT` (R354). -/
def CAN_NBT : RegD := { area := .can, off := 0x4, words := 1, count := 1, stride := 0x0, flds := [
  ⟨F.CAN_NBT_BRP, .rw, none, true⟩,
  ⟨F.CAN_NBT_TSEG1, .rw, none, true⟩,
  ⟨F.CAN_NBT_TSEG2, .rw, none, true⟩,
  ⟨F.CAN_NBT_SJW, .rw, none, true⟩] }
/-- `CAN_DBT` (R354). -/
def CAN_DBT : RegD := { area := .can, off := 0x8, words := 1, count := 1, stride := 0x0, flds := [
  ⟨F.CAN_DBT_DBRP, .rw, none, true⟩,
  ⟨F.CAN_DBT_DTSEG1, .rw, none, true⟩,
  ⟨F.CAN_DBT_DTSEG2, .rw, none, true⟩,
  ⟨F.CAN_DBT_DSJW, .rw, none, true⟩,
  ⟨F.CAN_DBT_TDC_EN, .rw, none, true⟩] }
/-- `CAN_TDC` (R354). -/
def CAN_TDC : RegD := { area := .can, off := 0xC, words := 1, count := 1, stride := 0x0, flds := [
  ⟨F.CAN_TDC_TDCO, .rw, none, true⟩,
  ⟨F.CAN_TDC_TDCF, .rw, none, true⟩] }
/-- `CAN_PART` (R354). -/
def CAN_PART : RegD := { area := .can, off := 0x10, words := 1, count := 1, stride := 0x0, flds := [
  ⟨F.CAN_PART_RX_SVC, .rw, (some (0, 48)), true⟩,
  ⟨F.CAN_PART_TX_RSV, .rw, (some (1, 16)), true⟩,
  ⟨F.CAN_PART_MAXDL, .rw, none, true⟩,
  ⟨F.CAN_PART_DEF_ACT, .rw, none, true⟩] }
/-- `CAN_TUN_RX` (R354). -/
def CAN_TUN_RX : RegD := { area := .can, off := 0x14, words := 1, count := 1, stride := 0x0, flds := [
  ⟨F.CAN_TUN_RX_ID, .rw, none, true⟩,
  ⟨F.CAN_TUN_RX_IDE, .rw, none, true⟩] }
/-- `CAN_TUN_TX` (R354). -/
def CAN_TUN_TX : RegD := { area := .can, off := 0x18, words := 1, count := 1, stride := 0x0, flds := [
  ⟨F.CAN_TUN_TX_ID, .rw, none, true⟩,
  ⟨F.CAN_TUN_TX_IDE, .rw, none, true⟩,
  ⟨F.CAN_TUN_TX_BRS, .rw, none, true⟩] }
/-- `CAN_TXTO` (R354). -/
def CAN_TXTO : RegD := { area := .can, off := 0x1C, words := 1, count := 1, stride := 0x0, flds := [
  ⟨F.CAN_TXTO_TX_TO, .rw, (some (1, 65535)), true⟩] }
/-- `CAN_TM_ID` (R354). -/
def CAN_TM_ID : RegD := { area := .can, off := 0x20, words := 1, count := 1, stride := 0x0, flds := [
  ⟨F.CAN_TM_ID_ID, .rw, none, true⟩,
  ⟨F.CAN_TM_ID_IDE, .rw, none, true⟩] }
/-- `CAN_STAT` (R354). -/
def CAN_STAT : RegD := { area := .can, off := 0x24, words := 1, count := 1, stride := 0x0, flds := [
  ⟨F.CAN_STAT_ERRSTATE, .ro, none, false⟩,
  ⟨F.CAN_STAT_RECOVERING, .ro, none, false⟩,
  ⟨F.CAN_STAT_CLKOFF, .ro, none, false⟩,
  ⟨F.CAN_STAT_ACT, .ro, none, false⟩,
  ⟨F.CAN_STAT_BOFF_SEEN, .w1c, none, false⟩,
  ⟨F.CAN_STAT_DROP_SEEN, .w1c, none, false⟩,
  ⟨F.CAN_STAT_LEC, .ro, none, false⟩,
  ⟨F.CAN_STAT_TDCV, .ro, none, false⟩] }
/-- `CAN_ERR` (R354). -/
def CAN_ERR : RegD := { area := .can, off := 0x28, words := 1, count := 1, stride := 0x0, flds := [
  ⟨F.CAN_ERR_TEC, .ro, none, false⟩,
  ⟨F.CAN_ERR_REC, .ro, none, false⟩,
  ⟨F.CAN_ERR_RP, .ro, none, false⟩,
  ⟨F.CAN_ERR_BOFF_CNT, .rc, none, false⟩] }
/-- `CAN_DROP` (R354). -/
def CAN_DROP : RegD := { area := .can, off := 0x2C, words := 1, count := 1, stride := 0x0, flds := [
  ⟨F.CAN_DROP_DROP_H, .rc, none, false⟩,
  ⟨F.CAN_DROP_DROP_S, .rc, none, false⟩,
  ⟨F.CAN_DROP_DROP_DLC, .rc, none, false⟩,
  ⟨F.CAN_DROP_DROP_RTR, .rc, none, false⟩] }
/-- `CAN_RXH` (R354). -/
def CAN_RXH : RegD := { area := .can, off := 0x30, words := 1, count := 1, stride := 0x0, flds := [
  ⟨F.CAN_RXH_OLDEST, .ro, none, false⟩,
  ⟨F.CAN_RXH_HOST_OWNED, .ro, none, false⟩,
  ⟨F.CAN_RXH_SVC_OWNED, .ro, none, false⟩] }
/-- `CAN_TXBUSY` (R354). -/
def CAN_TXBUSY : RegD := { area := .can, off := 0x34, words := 1, count := 1, stride := 0x0, flds := [
  ⟨F.CAN_TXBUSY_BUSY, .ro, none, false⟩] }
/-- `CAN_TM` (R354). -/
def CAN_TM : RegD := { area := .can, off := 0x40, words := 1, count := 1, stride := 0x0, flds := [
  ⟨F.CAN_TM_ROLE, .ro, none, false⟩,
  ⟨F.CAN_TM_PRIO, .ro, none, false⟩,
  ⟨F.CAN_TM_SENDING, .ro, none, false⟩,
  ⟨F.CAN_TM_NT_OK, .ro, none, false⟩,
  ⟨F.CAN_TM_TMDUP_SEEN, .w1c, none, false⟩,
  ⟨F.CAN_TM_SRC_PRIO, .ro, none, false⟩] }
/-- `CAN_TM_PER` (R354). -/
def CAN_TM_PER : RegD := { area := .can, off := 0x44, words := 1, count := 1, stride := 0x0, flds := [
  ⟨F.CAN_TM_PER_PER, .rw, (some (1000, 1000000)), true⟩] }
/-- `CAN_NT_OFS` (R354). -/
def CAN_NT_OFS : RegD := { area := .can, off := 0x48, words := 2, count := 1, stride := 0x0, flds := [
  ⟨F.CAN_NT_OFS_OFS, .ro, none, false⟩] }
/-- `CAN_NT_ERR` (R354). -/
def CAN_NT_ERR : RegD := { area := .can, off := 0x50, words := 1, count := 1, stride := 0x0, flds := [
  ⟨F.CAN_NT_ERR_NT_ERR, .ro, none, false⟩] }
/-- `CAN_FLT` (R354). -/
def CAN_FLT : RegD := { area := .can, off := 0x100, words := 1, count := 32, stride := 0x8, flds := [
  ⟨F.CAN_FLT_ID, .rw, none, true⟩,
  ⟨F.CAN_FLT_IDE, .rw, none, true⟩,
  ⟨F.CAN_FLT_ACT, .rw, none, true⟩] }
/-- `CAN_FLT1` (R354). -/
def CAN_FLT1 : RegD := { area := .can, off := 0x104, words := 1, count := 32, stride := 0x8, flds := [
  ⟨F.CAN_FLT1_MASK, .rw, none, true⟩,
  ⟨F.CAN_FLT1_IDE_CMP, .rw, none, true⟩] }
/-- `MBX_CTRL` (R365). -/
def MBX_CTRL : RegD := { area := .abs, off := 0x20000, words := 1, count := 1, stride := 0x0, flds := [
  ⟨F.MBX_CTRL_EMPTY_EN, .rw, none, true⟩] }
/-- `MBX_STAT` (R365). -/
def MBX_STAT : RegD := { area := .abs, off := 0x20004, words := 1, count := 1, stride := 0x0, flds := [
  ⟨F.MBX_STAT_EPOCH_CHG, .ro, none, false⟩,
  ⟨F.MBX_STAT_LOST_SEEN, .w1c, none, false⟩] }
/-- `MBX_EPOCH` (R365). -/
def MBX_EPOCH : RegD := { area := .abs, off := 0x20008, words := 1, count := 1, stride := 0x0, flds := [
  ⟨F.MBX_EPOCH_EPOCH, .ro, none, false⟩] }
/-- `MBX_DBL` (R365). -/
def MBX_DBL : RegD := { area := .abs, off := 0x2000C, words := 1, count := 1, stride := 0x0, flds := [
  ⟨F.MBX_DBL_DBL, .w1c, none, false⟩,
  ⟨F.MBX_DBL_EMPTY, .w1c, none, false⟩] }
/-- `MBX_DBL_MASK` (R365). -/
def MBX_DBL_MASK : RegD := { area := .abs, off := 0x20010, words := 1, count := 1, stride := 0x0, flds := [
  ⟨F.MBX_DBL_MASK_ACCEPT, .rw, none, true⟩] }
/-- `MBX_QOUT` (R365). -/
def MBX_QOUT : RegD := { area := .abs, off := 0x20020, words := 1, count := 8, stride := 0x8, flds := [
  ⟨F.MBX_QOUT_OUT_USED, .ro, none, false⟩,
  ⟨F.MBX_QOUT_CREDIT, .ro, none, false⟩] }
/-- `MBX_QIN` (R365). -/
def MBX_QIN : RegD := { area := .abs, off := 0x20024, words := 1, count := 8, stride := 0x8, flds := [
  ⟨F.MBX_QIN_IN_USED, .ro, none, false⟩,
  ⟨F.MBX_QIN_LOST, .rc, none, false⟩] }
/-- `MBX_CNT` (R365). -/
def MBX_CNT : RegD := { area := .abs, off := 0x20060, words := 1, count := 1, stride := 0x0, flds := [
  ⟨F.MBX_CNT_DBL_REJ, .rc, none, false⟩] }
/-- `FLT_SUM` (R385). -/
def FLT_SUM : RegD := { area := .abs, off := 0x20, words := 1, count := 1, stride := 0x0, flds := [
  ⟨F.FLT_SUM_CHIP, .ro, none, false⟩,
  ⟨F.FLT_SUM_REG, .ro, none, false⟩,
  ⟨F.FLT_SUM_STN, .ro, none, false⟩,
  ⟨F.FLT_SUM_AXS, .ro, none, false⟩,
  ⟨F.FLT_SUM_BGD, .ro, none, false⟩,
  ⟨F.FLT_SUM_CAN, .ro, none, false⟩,
  ⟨F.FLT_SUM_OVF, .ro, none, false⟩,
  ⟨F.FLT_SUM_LASTING, .ro, none, false⟩] }
/-- `FLT_CFG` (R385). -/
def FLT_CFG : RegD := { area := .abs, off := 0x24, words := 1, count := 1, stride := 0x0, flds := [
  ⟨F.FLT_CFG_STEAM_MAX, .wk, (some (1, 15)), true⟩,
  ⟨F.FLT_CFG_STEAM_WIN, .wk, (some (1, 255)), true⟩,
  ⟨F.FLT_CFG_REG_MAX, .wk, (some (1, 15)), true⟩] }
/-- `FLT_CNT` (R385). -/
def FLT_CNT : RegD := { area := .abs, off := 0x28, words := 1, count := 1, stride := 0x0, flds := [
  ⟨F.FLT_CNT_CORR, .rc, none, false⟩,
  ⟨F.FLT_CNT_TRANS, .rc, none, false⟩,
  ⟨F.FLT_CNT_LAST, .rc, none, false⟩] }
/-- `FLT_CHIP` (R385). -/
def FLT_CHIP : RegD := { area := .abs, off := 0x2C, words := 1, count := 1, stride := 0x0, flds := [
  ⟨F.FLT_CHIP_CODE, .ro, none, false⟩] }
/-- `FLT_SH_OOS` (R385). -/
def FLT_SH_OOS : RegD := { area := .abs, off := 0x30, words := 1, count := 1, stride := 0x0, flds := [
  ⟨F.FLT_SH_OOS_CFG, .ro, none, false⟩,
  ⟨F.FLT_SH_OOS_REC, .ro, none, false⟩,
  ⟨F.FLT_SH_OOS_LNK_W, .ro, none, false⟩,
  ⟨F.FLT_SH_OOS_LNK_E, .ro, none, false⟩,
  ⟨F.FLT_SH_OOS_MBX, .ro, none, false⟩,
  ⟨F.FLT_SH_OOS_SPI, .ro, none, false⟩,
  ⟨F.FLT_SH_OOS_UART, .ro, none, false⟩,
  ⟨F.FLT_SH_OOS_STEAM, .ro, none, false⟩,
  ⟨F.FLT_SH_OOS_ABMBX, .ro, none, false⟩] }
/-- `SUP_MST` (R385). -/
def SUP_MST : RegD := { area := .half, off := 0x0, words := 1, count := 1, stride := 0x0, flds := [
  ⟨F.SUP_MST_ROLE, .ro, none, false⟩,
  ⟨F.SUP_MST_PEER_UP, .ro, none, false⟩,
  ⟨F.SUP_MST_TAKEN_SEEN, .w1c, none, false⟩,
  ⟨F.SUP_MST_LOST_SEEN, .w1c, none, false⟩] }
/-- `SUP_HB` (R385). -/
def SUP_HB : RegD := { area := .half, off := 0x4, words := 1, count := 1, stride := 0x0, flds := [
  ⟨F.SUP_HB_HB_RX, .ro, none, false⟩,
  ⟨F.SUP_HB_HB_MISS, .rc, none, false⟩] }
/-- `SUP_OOS` (R385). -/
def SUP_OOS : RegD := { area := .half, off := 0x8, words := 1, count := 1, stride := 0x0, flds := [
  ⟨F.SUP_OOS_STN, .ro, none, false⟩,
  ⟨F.SUP_OOS_AXS, .ro, none, false⟩,
  ⟨F.SUP_OOS_BGD, .ro, none, false⟩,
  ⟨F.SUP_OOS_CAN, .ro, none, false⟩,
  ⟨F.SUP_OOS_LEN, .ro, none, false⟩,
  ⟨F.SUP_OOS_ASC, .ro, none, false⟩,
  ⟨F.SUP_OOS_SPT, .ro, none, false⟩,
  ⟨F.SUP_OOS_THM, .ro, none, false⟩] }
/-- `SUP_STEAM` (R385). -/
def SUP_STEAM : RegD := { area := .half, off := 0xC, words := 1, count := 1, stride := 0x0, flds := [
  ⟨F.SUP_STEAM_STN, .ro, none, false⟩,
  ⟨F.SUP_STEAM_AXS, .ro, none, false⟩,
  ⟨F.SUP_STEAM_BGD, .ro, none, false⟩,
  ⟨F.SUP_STEAM_CAN, .ro, none, false⟩,
  ⟨F.SUP_STEAM_LEN, .ro, none, false⟩,
  ⟨F.SUP_STEAM_ASC, .ro, none, false⟩,
  ⟨F.SUP_STEAM_SPT, .ro, none, false⟩,
  ⟨F.SUP_STEAM_THM, .ro, none, false⟩] }
/-- `REC_STAT` (R401). -/
def REC_STAT : RegD := { area := .abs, off := 0x30000, words := 1, count := 1, stride := 0x0, flds := [
  ⟨F.REC_STAT_FELT_USED, .ro, none, false⟩,
  ⟨F.REC_STAT_FELT_FULL, .ro, none, false⟩,
  ⟨F.REC_STAT_FLUSHING, .ro, none, false⟩,
  ⟨F.REC_STAT_FIFO_LVL, .ro, none, false⟩,
  ⟨F.REC_STAT_STG_LVL, .ro, none, false⟩] }
/-- `REC_NEXT` (R401). -/
def REC_NEXT : RegD := { area := .abs, off := 0x30004, words := 1, count := 1, stride := 0x0, flds := [
  ⟨F.REC_NEXT_NEXT_C, .ro, none, false⟩] }
/-- `REC_CNT` (R401). -/
def REC_CNT : RegD := { area := .abs, off := 0x30008, words := 1, count := 1, stride := 0x0, flds := [
  ⟨F.REC_CNT_LOST, .rc, none, false⟩,
  ⟨F.REC_CNT_REDIR, .rc, none, false⟩] }
/-- `REC_SOFT` (R401). -/
def REC_SOFT : RegD := { area := .abs, off := 0x3000C, words := 1, count := 1, stride := 0x0, flds := [
  ⟨F.REC_SOFT_SOFT, .rw, none, false⟩] }
/-- `REC_TCFG` (R401). -/
def REC_TCFG : RegD := { area := .abs, off := 0x30100, words := 1, count := 16, stride := 0x80, flds := [
  ⟨F.REC_TCFG_EN, .ro, none, true⟩,
  ⟨F.REC_TCFG_FELT, .ro, none, true⟩,
  ⟨F.REC_TCFG_N, .ro, none, true⟩,
  ⟨F.REC_TCFG_FIXED, .ro, none, false⟩] }
/-- `TST_SEL_A` (R431). -/
def TST_SEL_A : RegD := { area := .abs, off := 0xF0000, words := 1, count := 1, stride := 0x0, flds := [
  ⟨F.TST_SEL_A_TMA0, .ro, none, false⟩,
  ⟨F.TST_SEL_A_TMA1, .ro, none, false⟩,
  ⟨F.TST_SEL_A_TMA2, .ro, none, false⟩,
  ⟨F.TST_SEL_A_TMA3, .ro, none, false⟩] }
/-- `TST_SEL_D0` (R431). -/
def TST_SEL_D0 : RegD := { area := .abs, off := 0xF0004, words := 1, count := 1, stride := 0x0, flds := [
  ⟨F.TST_SEL_D0_TMD0, .ro, none, false⟩,
  ⟨F.TST_SEL_D0_TMD1, .ro, none, false⟩,
  ⟨F.TST_SEL_D0_TMD2, .ro, none, false⟩,
  ⟨F.TST_SEL_D0_TMD3, .ro, none, false⟩] }
/-- `TST_SEL_D1` (R431). -/
def TST_SEL_D1 : RegD := { area := .abs, off := 0xF0008, words := 1, count := 1, stride := 0x0, flds := [
  ⟨F.TST_SEL_D1_TMD4, .ro, none, false⟩,
  ⟨F.TST_SEL_D1_TMD5, .ro, none, false⟩,
  ⟨F.TST_SEL_D1_TMD6, .ro, none, false⟩,
  ⟨F.TST_SEL_D1_TMD7, .ro, none, false⟩] }
/-- `TST_STAT` (R431). -/
def TST_STAT : RegD := { area := .abs, off := 0xF000C, words := 1, count := 1, stride := 0x0, flds := [
  ⟨F.TST_STAT_ACTIVE, .ro, none, false⟩] }
/-- `LEN_C00` (R263). -/
def LEN_C00 : RegD := { area := .half, off := 0x11010, words := 1, count := 48, stride := 0x80, flds := [
  ⟨F.LEN_C00_C, .rw, none, true⟩] }
/-- `LEN_C01` (R263). -/
def LEN_C01 : RegD := { area := .half, off := 0x11014, words := 1, count := 48, stride := 0x80, flds := [
  ⟨F.LEN_C01_C, .rw, none, true⟩] }
/-- `LEN_C02` (R263). -/
def LEN_C02 : RegD := { area := .half, off := 0x11018, words := 1, count := 48, stride := 0x80, flds := [
  ⟨F.LEN_C02_C, .rw, none, true⟩] }
/-- `LEN_C03` (R263). -/
def LEN_C03 : RegD := { area := .half, off := 0x1101C, words := 1, count := 48, stride := 0x80, flds := [
  ⟨F.LEN_C03_C, .rw, none, true⟩] }
/-- `LEN_C10` (R263). -/
def LEN_C10 : RegD := { area := .half, off := 0x11020, words := 1, count := 48, stride := 0x80, flds := [
  ⟨F.LEN_C10_C, .rw, none, true⟩] }
/-- `LEN_C11` (R263). -/
def LEN_C11 : RegD := { area := .half, off := 0x11024, words := 1, count := 48, stride := 0x80, flds := [
  ⟨F.LEN_C11_C, .rw, none, true⟩] }
/-- `LEN_C12` (R263). -/
def LEN_C12 : RegD := { area := .half, off := 0x11028, words := 1, count := 48, stride := 0x80, flds := [
  ⟨F.LEN_C12_C, .rw, none, true⟩] }
/-- `LEN_C13` (R263). -/
def LEN_C13 : RegD := { area := .half, off := 0x1102C, words := 1, count := 48, stride := 0x80, flds := [
  ⟨F.LEN_C13_C, .rw, none, true⟩] }
/-- `CHIP_EPOCH` (R20). -/
def CHIP_EPOCH : RegD := { area := .abs, off := 0x8, words := 1, count := 1, stride := 0x0, flds := [
  ⟨F.CHIP_EPOCH_EPOCH, .ro, none, false⟩] }

/-- Every register of its area. -/
def chipRegs : List RegD :=
  [CHIP_ID, CHIP_STATUS, CHIP_PINS, CHIP_PWR_CTRL, CHIP_PWR_STAT, CHIP_SUPPLY_MEAS, CHIP_RST_CAUSE, CHIP_CLK_CTRL, CHIP_CLK_STAT, MIL_PORT_CFG,
   MIL_HOST_WD, MIL_STAT, MIL_TAG_BUSY_LO, MIL_TAG_BUSY_HI, MIL_ERR_CNT, MIL_TUN_STAT, MIL_EVT_CFG, MIL_FWD_CTRL, MIL_REJ_CNT, CFG_STAT, CFG_SEQ,
   CFG_SEAL_SEQ, CFG_LAST_ERR, THM_SH_T, THM_SH_STAT, THM_EXT_CFG, THM_EXT_T, HBD_CTRL, HBD_RING, HBD_CYC, HBD_PUB, HBD_LOSS, HBD_STAT, HBD_LNK,
   HBD_CNT, HBD_OFS, HBD_TERR, HBD_TRIM, HBD_CYCLE, HBD_DLIM] ++
  [HBD_GSIG, HBD_ALLOC, HBD_ALLOC1, HBD_RCH, HBD_RCH2, HBD_RCH3, HBD_GDEF, HBD_GCMD, HBD_GSTAT, SVC_STAT, SVC_OUT, SVC_MEAS, SVC_CNT, MBX_CTRL,
   MBX_STAT, MBX_EPOCH, MBX_DBL, MBX_DBL_MASK, MBX_QOUT, MBX_QIN, MBX_CNT, FLT_SUM, FLT_CFG, FLT_CNT, FLT_CHIP, FLT_SH_OOS, REC_STAT, REC_NEXT,
   REC_CNT, REC_SOFT, REC_TCFG, TST_SEL_A, TST_SEL_D0, TST_SEL_D1, TST_STAT, CHIP_EPOCH]

/-- Every register of its area. -/
def halfRegs : List RegD :=
  [ASC_TB_SEL, ASC_STAT, ASC_CNT, ASC_TBV, ASC_CMP, ASC_PER, ASC_HYST, ASC_ACT, ASC_SST, ASC_FIRE, SUP_STO_CFG, SUP_STO_STAT, BGD_CTRL, BGD_SCALE,
   BGD_VCHOP, BGD_VBRIM, BGD_VTRIP, BGD_PRE, BGD_CHOP, BGD_REGEN, BGD_ILIM, BGD_ZVB, BGD_STAT, BGD_MEAS, BGD_CNT, THM_CTRL, THM_STAT, THM_T01,
   THM_T23, THM_K, LEN_STAT, LEN_LOAD, LEN_BANK, LEN_SWAP, LEN_SNK, LEN_CHAIN, LEN_WBASE, LEN_PBASE, LEN_PARAM, LEN_CFG] ++
  [LEN_IN, LEN_LO, LEN_HI, LEN_ACC, LEN_OUT, LEN_WRAPS, LEN_SST, SPT_CTRL, SPT_FFS, SPT_AIN, SPT_XA, SPT_XP, SPT_STAT, SPT_CNT, SUP_MST, SUP_HB,
   SUP_OOS, SUP_STEAM, LEN_C00, LEN_C01, LEN_C02, LEN_C03, LEN_C10, LEN_C11, LEN_C12, LEN_C13]

/-- Every register of its area. -/
def stnRegs : List RegD :=
  [PF_CTRL, PF_LINES, PF_EXC, PF_RES, PF_AMP_CHK, PF_SPD_CFG, PF_CAL_SIN, PF_CAL_COS, PF_QDBL, PF_POS, PF_LIM_LO, PF_LIM_HI, PF_SPEED, PF_ANGLE,
   PF_FINE, PF_RADIUS, PF_SIZ, PF_STAT, COM_CTRL, COM_MOTOR, COM_OFS, COM_VBASE, COM_FW, COM_SOFT, COM_LR, COM_ALIGN, COM_OL, COM_STAT, COM_ANGLE,
   COM_IDQ, COM_IREF, COM_VDQ, COM_ADV, PWM_CTRL, PWM_HPER, PWM_PHASE, PWM_DT, PWM_DTC, PWM_MINP, PWM_CMP] ++
  [PWM_STAT, PWM_PER_NOW, CS_CTRL, CS_SAMP, CS_SD, CS_CAL, CS_I_UV, CS_I_W, CS_STAT, GC_CTRL, GC_DRV, GC_SOFT, GC_BS, GC_VDS, GC_OC, GC_DIAG,
   GC_LINK, GC_STAT, GC_FAULT, GC_BSV, GC_CNT, OBS_CTRL, OBS_MOTOR, OBS_PLL, OBS_RES, OBS_EMF, OBS_START, OBS_LIMP, OBS_ROT, OBS_VPH, OBS_STAT,
   OBS_ANGLE, OBS_SPEED, OBS_EMFV, OBS_CNT, STN_STAT, STN_CMD, STN_WMAX, STN_RAMP, STN_STOPCFG] ++
  [STN_BRAKE, STN_FALLBACK, STN_CNT]

/-- Every register of its area. -/
def serialRegs : List RegD :=
  [PS_CTRL, PS_FMT, PS_STAT, PS_RAW, RP_CTRL, RP_STAT]

/-- Every register of its area. -/
def axisRegs : List RegD :=
  [AXS_CTRL, AXS_PULSE, AXS_CHOP, AXS_ISCALE, AXS_OC, AXS_HOLD, AXS_FACC, AXS_GDEC, AXS_IP, AXS_STAT, AXS_POS, AXS_TARGET, AXS_VEL, AXS_IN, AXS_LAG,
   AXS_CNT]

/-- Every register of its area. -/
def canRegs : List RegD :=
  [CAN_CTRL, CAN_NBT, CAN_DBT, CAN_TDC, CAN_PART, CAN_TUN_RX, CAN_TUN_TX, CAN_TXTO, CAN_TM_ID, CAN_STAT, CAN_ERR, CAN_DROP, CAN_RXH, CAN_TXBUSY,
   CAN_TM, CAN_TM_PER, CAN_NT_OFS, CAN_NT_ERR, CAN_FLT, CAN_FLT1]

end Sys2Proof.Machine.R
end

