-- ==== Sys2Proof/Machine/Hidden.lean ====
section
/-!
DEFINITION. Numbers a block keeps that no register shows: sequence states, reference ticks, latches, sampled levels and captured
inputs. They stand in the same map as the register fields, at offsets of their unit that the register map does not use, so that
a restart of the region clears them with its registers. No command reads or writes these offsets (R6 answers them as unused).
-/
namespace Sys2Proof.Machine.H


/-! Shared region (base 0). -/

/-- VGD is below VGD_UV (R43). -/
def vgdLow : Fld := { off := 0x1F000, lo := 0, w := 1, sgn := false, dflt := 0 }

/-- Regions whose reference is lost (R46, R47). -/
def refBad : Fld := { off := 0x1F0E0, lo := 0, w := 3, sgn := false, dflt := 0 }

/-- Tick at which SH's PLL leaves holdover (R46); the halves follow at 8-byte steps. -/
def holdEnd : Fld := { off := 0x1F0E8, lo := 0, w := 65, sgn := false, dflt := 0 }

/-- Place of HA. -/
def holdEnd1 : Fld := { off := 0x1F0F0, lo := 0, w := 65, sgn := false, dflt := 0 }

/-- Place of HB. -/
def holdEnd2 : Fld := { off := 0x1F0F8, lo := 0, w := 65, sgn := false, dflt := 0 }

/-- `VGD_SET` as SH went out of service (R44). -/
def vgdSet : Fld := { off := 0x1F100, lo := 0, w := 4, sgn := false, dflt := 4 }

/-- Tick of the last refresh of the host watchdog, or of its arming (R81). -/
def wdStart : Fld := { off := 0x1F008, lo := 0, w := 64, sgn := false, dflt := 0 }

/-- SH sensors that read 165.0 C or more at the latest conversion (R216). -/
def hotSh : Fld := { off := 0x1F010, lo := 0, w := 2, sgn := false, dflt := 0 }

/-- Factor of external input 0 (R215); inputs 1 to 3 follow at 8-byte steps. -/
def xK : Fld := { off := 0x1F018, lo := 0, w := 16, sgn := false, dflt := 32768 }

/-- Place of input 1. -/
def xK1 : Fld := { off := 0x1F020, lo := 0, w := 16, sgn := false, dflt := 32768 }

/-- Place of input 2. -/
def xK2 : Fld := { off := 0x1F028, lo := 0, w := 16, sgn := false, dflt := 32768 }

/-- Place of input 3. -/
def xK3 : Fld := { off := 0x1F030, lo := 0, w := 16, sgn := false, dflt := 32768 }

/-- Latest code of external input 0 (R215); inputs 1 to 3 follow at 8-byte steps. -/
def xCode : Fld := { off := 0x1F038, lo := 0, w := 12, sgn := false, dflt := 0 }

/-- Place of input 1. -/
def xCode1 : Fld := { off := 0x1F040, lo := 0, w := 12, sgn := false, dflt := 0 }

/-- Place of input 2. -/
def xCode2 : Fld := { off := 0x1F048, lo := 0, w := 12, sgn := false, dflt := 0 }

/-- Place of input 3. -/
def xCode3 : Fld := { off := 0x1F050, lo := 0, w := 12, sgn := false, dflt := 0 }

/-- The share cycle in progress (R269). -/
def hbM : Fld := { off := 0x1F058, lo := 0, w := 32, sgn := false, dflt := 0 }

/-- The cycle in progress has been taken into use (R276). -/
def hbUsed : Fld := { off := 0x1F060, lo := 0, w := 1, sgn := false, dflt := 0 }

/-- Ring time has been joined to the root (R277). -/
def hbJoin : Fld := { off := 0x1F068, lo := 0, w := 1, sgn := false, dflt := 0 }

/-- Consecutive cycles with |e| at most 10 ns (R277). -/
def hbGood : Fld := { off := 0x1F070, lo := 0, w := 8, sgn := false, dflt := 0 }

/-- Consecutive cycles with |e| above 20 ns (R277). -/
def hbBad : Fld := { off := 0x1F078, lo := 0, w := 8, sgn := false, dflt := 0 }

/-- 1 + the root that takes effect at the next t_c (R278); 0 none. -/
def hbNext : Fld := { off := 0x1F080, lo := 0, w := 4, sgn := false, dflt := 0 }

/-- A link has been UP since EN was set (R279). -/
def hbWasUp : Fld := { off := 0x1F088, lo := 0, w := 1, sgn := false, dflt := 0 }

/-- Consecutive cycles with a late frame counted on the west link (R267). -/
def lateRunW : Fld := { off := 0x1F090, lo := 0, w := 8, sgn := false, dflt := 0 }

/-- Consecutive cycles with a late frame counted on the east link (R267). -/
def lateRunE : Fld := { off := 0x1F098, lo := 0, w := 8, sgn := false, dflt := 0 }

/-- A late frame was counted on the west link in this cycle. -/
def lateNowW : Fld := { off := 0x1F0A0, lo := 0, w := 1, sgn := false, dflt := 0 }

/-- A late frame was counted on the east link in this cycle. -/
def lateNowE : Fld := { off := 0x1F0A8, lo := 0, w := 1, sgn := false, dflt := 0 }

/-- Next position for the round of credits (R359). -/
def credNext : Fld := { off := 0x1F0B0, lo := 0, w := 3, sgn := false, dflt := 0 }

/-- RESET_REGION of SH waits until its OK has been sent (Table PK-6). -/
def shRst : Fld := { off := 0x1F0B8, lo := 0, w := 1, sgn := false, dflt := 0 }

/-- Cause that holds the west link (Table LS-1). -/
def hbHeldW : Fld := { off := 0x1F0C0, lo := 0, w := 8, sgn := false, dflt := 0 }

/-- Cause that holds the east link. -/
def hbHeldE : Fld := { off := 0x1F0C8, lo := 0, w := 8, sgn := false, dflt := 0 }

/-- 1 + the tag of a write that cleared SPI_EN over SPI and whose reply has not been sent (Table PK-15). -/
def enHoldSpi : Fld := { off := 0x1F0D0, lo := 0, w := 7, sgn := false, dflt := 0 }

/-- 1 + the tag of a write that cleared UART_EN over UART and whose reply has not been sent. -/
def enHoldUart : Fld := { off := 0x1F0D8, lo := 0, w := 7, sgn := false, dflt := 0 }

/-- The chip has been alone (R280): 1 a ring is to be joined anew, 2 with `SYNC_OK` lost, after 1 ms or before any join (R277) -/
def hbLone : Fld := { off := 0x1F108, lo := 0, w := 2, sgn := false, dflt := 0 }

/-- A chip alone has heard a frame of a chip that follows a root: what it faces is a segment of two or more (R280) -/
def hbSeg : Fld := { off := 0x1F110, lo := 0, w := 1, sgn := false, dflt := 0 }

/-! Station (base `stnB n`). -/

/-- Enables of the legs U, V, W in force (R162, R176). -/
def enab : Fld := { off := 0xF000, lo := 0, w := 3, sgn := false, dflt := 0 }

/-- Two-step turn-off: 0 none, 1 mid hold, 2 discharge (Table GD-7). -/
def toPhase : Fld := { off := 0xF008, lo := 0, w := 2, sgn := false, dflt := 0 }

/-- t_S: tick of the entry to STOPPING (R292, R293). -/
def stopT : Fld := { off := 0xF010, lo := 0, w := 64, sgn := false, dflt := 0 }

/-- wr: the speed reference of a running stop, pu32 (R293). -/
def stopWr : Fld := { off := 0xF018, lo := 0, w := 48, sgn := true, dflt := 0 }

/-- Hold-brake end sequence: 0 decelerating, 1 brake applied, 2 unloading, 3 holding after BRKSLIP (Table SV-2, R294). -/
def stopSeq : Fld := { off := 0xF020, lo := 0, w := 3, sgn := false, dflt := 0 }

/-- I* at t_Z, pu16 (R294). -/
def istarZ : Fld := { off := 0xF028, lo := 0, w := 32, sgn := true, dflt := 0 }

/-- t_Z: tick at which the dwell ended (Table SV-2). -/
def tZ : Fld := { off := 0xF030, lo := 0, w := 64, sgn := false, dflt := 0 }

/-- Items of a running STN_ARM or STN_DIAG (R187, R188). -/
def armItems : Fld := { off := 0xF038, lo := 0, w := 6, sgn := false, dflt := 0 }

/-- Consecutive failed refresh periods of leg U (R183). -/
def bsFail : Fld := { off := 0xF040, lo := 0, w := 2, sgn := false, dflt := 0 }

/-- Consecutive periods with a soft overcurrent trip (R190). -/
def ocRun : Fld := { off := 0xF048, lo := 0, w := 4, sgn := false, dflt := 0 }

/-- The host set-point in force: pu32, or s48 position (Table PK-8). -/
def hostCmd : Fld := { off := 0xF050, lo := 0, w := 48, sgn := true, dflt := 0 }

/-- Tick of the entry to RUN after rotation check and alignment (R291). -/
def runT : Fld := { off := 0xF058, lo := 0, w := 64, sgn := false, dflt := 0 }

/-- T_BRK after brake release is running (R291). -/
def brkWait : Fld := { off := 0xF060, lo := 0, w := 1, sgn := false, dflt := 0 }

/-- Items of a running STN_SIZING (R128). -/
def sizItems : Fld := { off := 0xF068, lo := 0, w := 3, sgn := false, dflt := 0 }

/-- The mode DIAG was entered from. -/
def prevMode : Fld := { off := 0xF070, lo := 0, w := 3, sgn := false, dflt := 0 }

/-- I* before the clamp of R203 (R243). -/
def istar : Fld := { off := 0xF078, lo := 0, w := 16, sgn := true, dflt := 0 }

/-- ISTAR_OUT: I* after the clamp of R203. -/
def istarOut : Fld := { off := 0xF080, lo := 0, w := 16, sgn := true, dflt := 0 }

/-- `clamped` of the latest update (R203, R204). -/
def clamped : Fld := { off := 0xF088, lo := 0, w := 1, sgn := false, dflt := 0 }

/-- CMDPOS (R242). -/
def cmdPos : Fld := { off := 0xF090, lo := 0, w := 48, sgn := true, dflt := 0 }

/-- The speed clamp in force, pu32 (R290). -/
def limNow : Fld := { off := 0xF098, lo := 0, w := 32, sgn := false, dflt := 2147483647 }

/-- ARG of the latest SLOW firing (R290). -/
def slowArg : Fld := { off := 0xF0A0, lo := 0, w := 8, sgn := false, dflt := 255 }

/-- I* is set to 0 by the speed limit of R290: the chain slot is held. -/
def wHold : Fld := { off := 0xF0A8, lo := 0, w := 1, sgn := false, dflt := 0 }

/-- θ_ol of the open-loop generator (R170). -/
def thetaOl : Fld := { off := 0xF0B0, lo := 0, w := 32, sgn := false, dflt := 0 }

/-- f_r of the sensorless start, 0.1 Hz electrical (R227). -/
def fr : Fld := { off := 0xF0B8, lo := 0, w := 32, sgn := true, dflt := 0 }

/-- Fraction of f_r carried to the next update (R227), in 1/(4*10^8) of 0.1 Hz. -/
def frFrac : Fld := { off := 0xF0C0, lo := 0, w := 48, sgn := true, dflt := 0 }

/-- Tick at which the running step of Table SL-3 or FC-3 began. -/
def startT : Fld := { off := 0xF0C8, lo := 0, w := 64, sgn := false, dflt := 0 }

/-- id_ref of the sequences of R171 and R227. -/
def idRef : Fld := { off := 0xF0D0, lo := 0, w := 16, sgn := true, dflt := 0 }

/-- Wanted direction of the start: -1, 0, 1 (R225). -/
def wantDir : Fld := { off := 0xF0D8, lo := 0, w := 2, sgn := true, dflt := 0 }

/-- Tick of the latest handover (R228). -/
def handT : Fld := { off := 0xF0E0, lo := 0, w := 64, sgn := false, dflt := 0 }

/-- id0 of R228. -/
def handId0 : Fld := { off := 0xF0E8, lo := 0, w := 16, sgn := true, dflt := 0 }

/-- The 20 ms of R228 are running. -/
def handOn : Fld := { off := 0xF0F0, lo := 0, w := 1, sgn := false, dflt := 0 }

/-- Consecutive updates below the handback speed (R229). -/
def backCnt : Fld := { off := 0xF0F8, lo := 0, w := 5, sgn := false, dflt := 0 }

/-- Step of Table FC-3 running: 0 none, 1 first hold, 2 second hold. -/
def alStep : Fld := { off := 0xF100, lo := 0, w := 2, sgn := false, dflt := 0 }

/-- θm1 of Table FC-3. -/
def alTh1 : Fld := { off := 0xF108, lo := 0, w := 32, sgn := false, dflt := 0 }

/-- θe at the start of the last quarter of Step 3 of Table FC-3. -/
def alTh2 : Fld := { off := 0xF110, lo := 0, w := 32, sgn := false, dflt := 0 }

/-- Consecutive updates above FMAX (R146). -/
def ovfCnt : Fld := { off := 0xF118, lo := 0, w := 5, sgn := false, dflt := 0 }

/-- Consecutive overruns (R161). -/
def ovrRun : Fld := { off := 0xF120, lo := 0, w := 8, sgn := false, dflt := 0 }

/-- Consecutive invalid samples (R165). -/
def badRun : Fld := { off := 0xF128, lo := 0, w := 5, sgn := false, dflt := 0 }

/-- Consecutive samples above SUM_LIM (R168). -/
def sumRun : Fld := { off := 0xF130, lo := 0, w := 8, sgn := false, dflt := 0 }

/-- kr of the previous update (R169). -/
def lrKr : Fld := { off := 0xF138, lo := 0, w := 3, sgn := false, dflt := 0 }

/-- t_lr (R169), ticks. -/
def lrT : Fld := { off := 0xF140, lo := 0, w := 48, sgn := false, dflt := 0 }

/-- v_a of the previous update, after the limit (R150, R221). -/
def vA : Fld := { off := 0xF148, lo := 0, w := 16, sgn := true, dflt := 0 }

/-- v_b of the previous update, after the limit (R150, R221). -/
def vB : Fld := { off := 0xF150, lo := 0, w := 16, sgn := true, dflt := 0 }

/-- Six-step sector in force (R152). -/
def ssK : Fld := { off := 0xF158, lo := 0, w := 3, sgn := false, dflt := 0 }

/-- Outgoing phase of the commutation ramp (R153). -/
def ssOut : Fld := { off := 0xF160, lo := 0, w := 2, sgn := false, dflt := 0 }

/-- Incoming phase of the commutation ramp (R153). -/
def ssIn : Fld := { off := 0xF168, lo := 0, w := 2, sgn := false, dflt := 0 }

/-- Ticks since the sector changed (R153). -/
def ssElapsed : Fld := { off := 0xF170, lo := 0, w := 48, sgn := false, dflt := 0 }

/-- Ramp time t_s of the running ramp, ticks (R153). -/
def ssTs : Fld := { off := 0xF178, lo := 0, w := 48, sgn := false, dflt := 0 }

/-- Duration of the previous sector, ticks (R153). -/
def ssSector : Fld := { off := 0xF180, lo := 0, w := 48, sgn := false, dflt := 0 }

/-- Deviation of U from h/2 at the start of the ramp (R153). -/
def ssDevU : Fld := { off := 0xF188, lo := 0, w := 24, sgn := true, dflt := 0 }

/-- Deviation of V from h/2 at the start of the ramp (R153). -/
def ssDevV : Fld := { off := 0xF190, lo := 0, w := 24, sgn := true, dflt := 0 }

/-- Deviation of W from h/2 at the start of the ramp (R153). -/
def ssDevW : Fld := { off := 0xF198, lo := 0, w := 24, sgn := true, dflt := 0 }

/-- Six-step is running with a sector in force. -/
def ssInit : Fld := { off := 0xF1A0, lo := 0, w := 1, sgn := false, dflt := 0 }

/-- ef_a (R221). -/
def efA : Fld := { off := 0xF1A8, lo := 0, w := 16, sgn := true, dflt := 0 }

/-- ef_b (R221). -/
def efB : Fld := { off := 0xF1B0, lo := 0, w := 16, sgn := true, dflt := 0 }

/-- ia_p (R221). -/
def iaP : Fld := { off := 0xF1B8, lo := 0, w := 32, sgn := true, dflt := 0 }

/-- ib_p (R221). -/
def ibP : Fld := { off := 0xF1C0, lo := 0, w := 32, sgn := true, dflt := 0 }

/-- Consecutive good evaluations (R223). -/
def lockRun : Fld := { off := 0xF1C8, lo := 0, w := 8, sgn := false, dflt := 0 }

/-- Consecutive evaluations below EMF_MIN (R223). -/
def weakRun : Fld := { off := 0xF1D0, lo := 0, w := 8, sgn := false, dflt := 0 }

/-- LOCKED has cleared: the next usable EMF restarts the observer (R223). -/
def obsRestart : Fld := { off := 0xF1D8, lo := 0, w := 1, sgn := false, dflt := 1 }

/-- Consecutive updates with res above RES_TH (R233). -/
def resRun : Fld := { off := 0xF1E0, lo := 0, w := 8, sgn := false, dflt := 0 }

/-- The mode in force before CATCH (Table SL-4). -/
def catchMode : Fld := { off := 0xF1E8, lo := 0, w := 3, sgn := false, dflt := 0 }

/-- t_C (Table SL-4). -/
def catchT : Fld := { off := 0xF1F0, lo := 0, w := 64, sgn := false, dflt := 0 }

/-- Step 3b of Table SL-4 has been met. -/
def catchStop : Fld := { off := 0xF1F8, lo := 0, w := 1, sgn := false, dflt := 0 }

/-- Stop type + 1 waiting for the end of CATCH (R236). -/
def catchPend : Fld := { off := 0xF200, lo := 0, w := 3, sgn := false, dflt := 0 }

/-- A host-loss fallback waits for the end of CATCH (R236). -/
def fbPend : Fld := { off := 0xF208, lo := 0, w := 1, sgn := false, dflt := 0 }

/-- Tick at which the ramp-in of Table SL-4 began. -/
def rampT : Fld := { off := 0xF210, lo := 0, w := 64, sgn := false, dflt := 0 }

/-- The ramp-in of Table SL-4 runs. -/
def rampOn : Fld := { off := 0xF218, lo := 0, w := 1, sgn := false, dflt := 0 }

/-- Tick since which the observer has run in open form (R225). -/
def openT : Fld := { off := 0xF220, lo := 0, w := 64, sgn := false, dflt := 0 }

/-- The wait of REV_ACT 2 runs (Table SL-2). -/
def revWait : Fld := { off := 0xF228, lo := 0, w := 1, sgn := false, dflt := 0 }

/-- The rotation check of R225 is owed. -/
def rotChk : Fld := { off := 0xF230, lo := 0, w := 1, sgn := false, dflt := 0 }

/-- Zero-vector braking runs (R207). -/
def zvb : Fld := { off := 0xF238, lo := 0, w := 1, sgn := false, dflt := 0 }

/-- Updates that zero-vector braking still runs with enables 0 (R207). -/
def zvbOff : Fld := { off := 0xF240, lo := 0, w := 2, sgn := false, dflt := 0 }

/-- The chopper fault code of the braking (R207). -/
def zvbCode : Fld := { off := 0xF248, lo := 0, w := 16, sgn := false, dflt := 0 }

/-- Zero-vector braking starts at the next update boundary (R207). -/
def zvbPend : Fld := { off := 0xF250, lo := 0, w := 1, sgn := false, dflt := 0 }

/-- k_ext of the station (R215). -/
def kExt : Fld := { off := 0xF258, lo := 0, w := 16, sgn := false, dflt := 32768 }

/-- Load-shedding factor (R309). -/
def kShed : Fld := { off := 0xF260, lo := 0, w := 16, sgn := false, dflt := 32768 }

/-- Measured flags of the latest peak sample, reused at valleys (R163). -/
def samp : Fld := { off := 0xF268, lo := 0, w := 3, sgn := false, dflt := 0 }

/-- The running stop has no K1 chain slot: I* ramps to 0 at TQ_DEC (R292). -/
def stopRamp : Fld := { off := 0xF270, lo := 0, w := 1, sgn := false, dflt := 0 }

/-- Ramp stop on the observer after a sensor fault (Table SL-5). -/
def rampDown : Fld := { off := 0xF278, lo := 0, w := 1, sgn := false, dflt := 0 }

/-- Tick at which Step 3 of Table SV-2 began. -/
def unlT : Fld := { off := 0xF280, lo := 0, w := 64, sgn := false, dflt := 0 }

/-- Phase error of the carrier still to be removed, ticks (R157). -/
def phErr : Fld := { off := 0xF290, lo := 0, w := 32, sgn := true, dflt := 0 }

/-- Period T of the latest PWM_SYNC firing (R158), ticks. -/
def syncP : Fld := { off := 0xF298, lo := 0, w := 32, sgn := false, dflt := 0 }

/-- Tick of the latest PWM_SYNC firing (R158). -/
def syncT : Fld := { off := 0xF2A0, lo := 0, w := 64, sgn := false, dflt := 0 }

/-- A PWM_SYNC firing waits for the first valley (R158). -/
def syncPend : Fld := { off := 0xF2A8, lo := 0, w := 1, sgn := false, dflt := 0 }

/-- Pulse level of leg U. -/
def lvlU : Fld := { off := 0xF2B0, lo := 0, w := 1, sgn := false, dflt := 0 }

/-- Pulse level of leg V. -/
def lvlV : Fld := { off := 0xF2B8, lo := 0, w := 1, sgn := false, dflt := 0 }

/-- Pulse level of leg W. -/
def lvlW : Fld := { off := 0xF2C0, lo := 0, w := 1, sgn := false, dflt := 0 }

/-- Switches of leg U: 0 both off, 1 high on, 2 low on (Table GD-3). -/
def swU : Fld := { off := 0xF2C8, lo := 0, w := 2, sgn := false, dflt := 0 }

/-- Switches of leg V. -/
def swV : Fld := { off := 0xF2D0, lo := 0, w := 2, sgn := false, dflt := 0 }

/-- Switches of leg W. -/
def swW : Fld := { off := 0xF2D8, lo := 0, w := 2, sgn := false, dflt := 0 }

/-- Levels of S<n>_ENx with PSRC = 1 (R177). -/
def extEn : Fld := { off := 0xF2E0, lo := 0, w := 3, sgn := false, dflt := 0 }

/-- Allocation in force, pu32 (R286). -/
def alloc : Fld := { off := 0xF2E8, lo := 0, w := 32, sgn := true, dflt := 0 }

/-- c: the quadrant counter (R111). -/
def pfC : Fld := { off := 0xF2F0, lo := 0, w := 36, sgn := false, dflt := 0 }

/-- b of the latest fine sample (R111). -/
def pfB : Fld := { off := 0xF2F8, lo := 0, w := 36, sgn := false, dflt := 0 }

/-- dbl_pending (R111). -/
def pfDbl : Fld := { off := 0xF300, lo := 0, w := 1, sgn := false, dflt := 0 }

/-- a_prev (R111). -/
def pfAPrev : Fld := { off := 0xF308, lo := 0, w := 14, sgn := false, dflt := 0 }

/-- p_raw_prev (R111). -/
def pfRawPrev : Fld := { off := 0xF310, lo := 0, w := 48, sgn := true, dflt := 0 }

/-- n: coarse edges since the latest speed update (R119). -/
def pfEdgeN : Fld := { off := 0xF318, lo := 0, w := 32, sgn := false, dflt := 0 }

/-- t_first (R119). -/
def pfFirst : Fld := { off := 0xF320, lo := 0, w := 64, sgn := false, dflt := 0 }

/-- t_last (R119). -/
def pfLast : Fld := { off := 0xF328, lo := 0, w := 64, sgn := false, dflt := 0 }

/-- e_last: direction of the latest edge (R119). -/
def pfELast : Fld := { off := 0xF330, lo := 0, w := 2, sgn := true, dflt := 0 }

/-- Consecutive samples with the radius outside its window (R114). -/
def pfRadN : Fld := { off := 0xF338, lo := 0, w := 8, sgn := false, dflt := 0 }

/-- A position fault freezes the cell until FAULT_CLEAR of its cause (R121). -/
def pfFlt : Fld := { off := 0xF340, lo := 0, w := 1, sgn := false, dflt := 0 }

/-- The cell acquires position (R115). -/
def pfAcq : Fld := { off := 0xF348, lo := 0, w := 1, sgn := false, dflt := 0 }

/-- The acquisition follows a fault or a change of source (R115, R107). -/
def pfAgain : Fld := { off := 0xF350, lo := 0, w := 1, sgn := false, dflt := 0 }

/-- Filtered level of line A (R111). -/
def pfA : Fld := { off := 0xF358, lo := 0, w := 1, sgn := false, dflt := 0 }

/-- Filtered level of line B (R111). -/
def pfLB : Fld := { off := 0xF360, lo := 0, w := 1, sgn := false, dflt := 0 }

/-- Items of the running STN_SIZING that a position fault has failed (R121). -/
def sizFail : Fld := { off := 0xF368, lo := 0, w := 3, sgn := false, dflt := 0 }

/-- Law in force at the previous update (R145). -/
def lawPrev : Fld := { off := 0xF370, lo := 0, w := 2, sgn := false, dflt := 0 }

/-- Six-step roles of the running ramp: P phase (R152). -/
def roleK : Fld := { off := 0xF378, lo := 0, w := 3, sgn := false, dflt := 0 }

/-- Six-step roles of the running ramp: N phase (R152). -/
def roleN : Fld := { off := 0xF380, lo := 0, w := 2, sgn := false, dflt := 0 }

/-- I* of a stop ramp without a K1 chain slot, pu32 (R292). -/
def stopIr : Fld := { off := 0xF388, lo := 0, w := 48, sgn := true, dflt := 0 }

/-- Consecutive failed refresh periods of leg V (R183). -/
def bsFailV : Fld := { off := 0xF390, lo := 0, w := 2, sgn := false, dflt := 0 }

/-- Consecutive failed refresh periods of leg W (R183). -/
def bsFailW : Fld := { off := 0xF398, lo := 0, w := 2, sgn := false, dflt := 0 }

/-- The arming sequence of Table GD-6 is running (R188). -/
def arming : Fld := { off := 0xF3A0, lo := 0, w := 1, sgn := false, dflt := 0 }

/-- Tick of the latest change of the pulse level of leg U (R176). -/
def edgeU : Fld := { off := 0xF400, lo := 0, w := 64, sgn := false, dflt := 0 }

/-- Place of leg V. -/
def edgeV : Fld := { off := 0xF408, lo := 0, w := 64, sgn := false, dflt := 0 }

/-- Place of leg W. -/
def edgeW : Fld := { off := 0xF410, lo := 0, w := 64, sgn := false, dflt := 0 }

/-- Tick of the latest record of Table GD-9, plus one (R195). -/
def gcT : Fld := { off := 0xF418, lo := 0, w := 65, sgn := false, dflt := 0 }

/-- Tick of the bootstrap voltage held in `GC_BSV` of leg U, plus one (R182). -/
def bsT : Fld := { off := 0xF420, lo := 0, w := 65, sgn := false, dflt := 0 }

/-- Place of leg V. -/
def bsTV : Fld := { off := 0xF428, lo := 0, w := 65, sgn := false, dflt := 0 }

/-- Place of leg W. -/
def bsTW : Fld := { off := 0xF430, lo := 0, w := 65, sgn := false, dflt := 0 }

/-- Tick of the latest failed refresh period of leg U, plus one (R183). -/
def bsFT : Fld := { off := 0xF438, lo := 0, w := 65, sgn := false, dflt := 0 }

/-- Place of leg V. -/
def bsFTV : Fld := { off := 0xF440, lo := 0, w := 65, sgn := false, dflt := 0 }

/-- Place of leg W. -/
def bsFTW : Fld := { off := 0xF448, lo := 0, w := 65, sgn := false, dflt := 0 }

/-- The running sizing item, as its bit of STN_SIZING; 0 when the last has ended (R128). -/
def szNow : Fld := { off := 0xF450, lo := 0, w := 3, sgn := false, dflt := 0 }

/-- Offset samples taken (R172). -/
def szN : Fld := { off := 0xF458, lo := 0, w := 13, sgn := false, dflt := 0 }

/-- Sum of the offset samples of channel U (R172). -/
def szSumU : Fld := { off := 0xF460, lo := 0, w := 29, sgn := true, dflt := 0 }

/-- Channel V. -/
def szSumV : Fld := { off := 0xF468, lo := 0, w := 29, sgn := true, dflt := 0 }

/-- Channel W. -/
def szSumW : Fld := { off := 0xF470, lo := 0, w := 29, sgn := true, dflt := 0 }

/-- Lowest offset sample of channel U (R172). -/
def szLoU : Fld := { off := 0xF478, lo := 0, w := 17, sgn := true, dflt := 0 }

/-- Channel V. -/
def szLoV : Fld := { off := 0xF480, lo := 0, w := 17, sgn := true, dflt := 0 }

/-- Channel W. -/
def szLoW : Fld := { off := 0xF488, lo := 0, w := 17, sgn := true, dflt := 0 }

/-- Highest offset sample of channel U (R172). -/
def szHiU : Fld := { off := 0xF490, lo := 0, w := 17, sgn := true, dflt := 0 }

/-- Channel V. -/
def szHiV : Fld := { off := 0xF498, lo := 0, w := 17, sgn := true, dflt := 0 }

/-- Channel W. -/
def szHiW : Fld := { off := 0xF4A0, lo := 0, w := 17, sgn := true, dflt := 0 }

/-- Lowest raw sine sample of the amplitude item (R128). -/
def szS0 : Fld := { off := 0xF4A8, lo := 0, w := 17, sgn := true, dflt := 0 }

/-- Highest raw sine sample. -/
def szS1 : Fld := { off := 0xF4B0, lo := 0, w := 17, sgn := true, dflt := 0 }

/-- Lowest raw cosine sample. -/
def szC0 : Fld := { off := 0xF4B8, lo := 0, w := 17, sgn := true, dflt := 0 }

/-- Highest raw cosine sample. -/
def szC1 : Fld := { off := 0xF4C0, lo := 0, w := 17, sgn := true, dflt := 0 }

/-- The amplitude item has taken a sample. -/
def szHave : Fld := { off := 0xF4C8, lo := 0, w := 1, sgn := false, dflt := 0 }

/-- Fine angle of its latest sample. -/
def szPrev : Fld := { off := 0xF4D0, lo := 0, w := 14, sgn := false, dflt := 0 }

/-- Fine angle turned through in the amplitude item (R128). -/
def szTurn : Fld := { off := 0xF4D8, lo := 0, w := 32, sgn := true, dflt := 0 }

/-- Tick of the valley at which the carrier period in force began (R156). -/
def carV : Fld := { off := 0xF4E0, lo := 0, w := 65, sgn := true, dflt := 0 }

/-- A position fault has cleared `VALID` and `VALID` has not returned (R121, R127, R142). -/
def pfFrz : Fld := { off := 0xF4E8, lo := 0, w := 1, sgn := false, dflt := 0 }

/-- A valid serial frame waits for the next fine sample time (R122). -/
def psNew : Fld := { off := 0xF4F0, lo := 0, w := 1, sgn := false, dflt := 0 }

/-- Tick at which the running sizing item began. -/
def szT : Fld := { off := 0xF4F8, lo := 0, w := 64, sgn := false, dflt := 0 }

/-- Tick of the latest refresh or charge pulse, plus one (R219). -/
def pulseT : Fld := { off := 0xF500, lo := 0, w := 65, sgn := false, dflt := 0 }

/-- Code of a position fault whose reaction waits for the update boundary, 0 none (R231). -/
def posPend : Fld := { off := 0xF508, lo := 0, w := 16, sgn := false, dflt := 0 }

/-- Limp mode begins with the end of CATCH (R231). -/
def limpPend : Fld := { off := 0xF510, lo := 0, w := 1, sgn := false, dflt := 0 }

/-- Current-loop updates since entry to RUN (R244). -/
def runCnt : Fld := { off := 0xF518, lo := 0, w := 64, sgn := false, dflt := 0 }

/-- Bus voltage at the latest sampling instant, 0.1 V (R201, R240). -/
def vdcT0 : Fld := { off := 0xF520, lo := 0, w := 16, sgn := false, dflt := 0 }

/-- The current sense is out of service by PLAUS (R168). -/
def csOut : Fld := { off := 0xF528, lo := 0, w := 1, sgn := false, dflt := 0 }

/-- I* as the services last received it from the station (R16, R300). -/
def mbIstar : Fld := { off := 0xF530, lo := 0, w := 16, sgn := true, dflt := 0 }

/-- Speed as the services last received it, pu32 (R300). -/
def mbSpeed : Fld := { off := 0xF538, lo := 0, w := 32, sgn := true, dflt := 0 }

/-- Set-point port output as the services last received it, pu32 (R300). -/
def mbSp : Fld := { off := 0xF540, lo := 0, w := 32, sgn := true, dflt := 0 }

/-- Position count as the services last received it (R300). -/
def mbPos : Fld := { off := 0xF548, lo := 0, w := 48, sgn := true, dflt := 0 }

/-- Bus voltage of its half as the services last received it, 0.1 V (R309). -/
def mbVdc : Fld := { off := 0xF550, lo := 0, w := 16, sgn := false, dflt := 0 }

/-- The station was in RUN when the services last heard from it (R308). -/
def mbRun : Fld := { off := 0xF558, lo := 0, w := 1, sgn := false, dflt := 0 }

/-- Legs whose bootstrap has fallen below its threshold and has not recovered (R183). -/
def bsLow : Fld := { off := 0xF560, lo := 0, w := 3, sgn := false, dflt := 0 }

/-- Charge pulses of leg U in the running bootstrap charge (R188). -/
def chgN : Fld := { off := 0xF568, lo := 0, w := 8, sgn := false, dflt := 0 }

/-- Charge pulses of leg V. -/
def chgNV : Fld := { off := 0xF570, lo := 0, w := 8, sgn := false, dflt := 0 }

/-- Charge pulses of leg W. -/
def chgNW : Fld := { off := 0xF578, lo := 0, w := 8, sgn := false, dflt := 0 }

/-- Tick of the first pulse of the bootstrap charge, plus one; 0 before it (R188). -/
def bsChgT : Fld := { off := 0xF580, lo := 0, w := 65, sgn := false, dflt := 0 }

/-- i_a of the latest transform (R148, R221). -/
def ia : Fld := { off := 0xF588, lo := 0, w := 32, sgn := true, dflt := 0 }

/-- i_b of the latest transform. -/
def ib : Fld := { off := 0xF590, lo := 0, w := 32, sgn := true, dflt := 0 }

/-- Level of the sine comparator, before its filter (R110). -/
def pfRA : Fld := { off := 0xF598, lo := 0, w := 1, sgn := false, dflt := 0 }

/-- Level of the cosine comparator, before its filter. -/
def pfRB : Fld := { off := 0xF5A0, lo := 0, w := 1, sgn := false, dflt := 0 }

/-- Tick since which the sine comparator has held its level (R110). -/
def pfTA : Fld := { off := 0xF5A8, lo := 0, w := 64, sgn := false, dflt := 0 }

/-- Tick since which the cosine comparator has held its level. -/
def pfTB : Fld := { off := 0xF5B0, lo := 0, w := 64, sgn := false, dflt := 0 }

/-- Quadrant of the tracking loop at its latest update, plus one; 0 before any (R119). -/
def pfTq : Fld := { off := 0xF5B8, lo := 0, w := 3, sgn := false, dflt := 0 }

/-- Largest corrected sample of the resolver phase item (R128). -/
def szPk : Fld := { off := 0xF5C0, lo := 0, w := 32, sgn := false, dflt := 0 }

/-- A raw sample of the amplitude item has reached an end of its range (R128). -/
def szSat : Fld := { off := 0xF5C8, lo := 0, w := 1, sgn := false, dflt := 0 }

/-- Tick of the serial frame that the position took last (R122, R327). -/
def psUseT : Fld := { off := 0xF5D0, lo := 0, w := 64, sgn := false, dflt := 0 }

/-- Tick of the end of Step 2 of Table GD-6, plus one; 0: not known before the first charge pulse (R188). -/
def bsChg0 : Fld := { off := 0xF5D8, lo := 0, w := 65, sgn := false, dflt := 0 }

/-- I* at the start of Step 3 of Table SV-2 (R293). -/
def unlI : Fld := { off := 0xF5E0, lo := 0, w := 32, sgn := true, dflt := 0 }

/-- Latest sample of the sine winding or track, its sign turned at a negative carrier peak (R109). -/
def fnS : Fld := { off := 0xF5E8, lo := 0, w := 17, sgn := true, dflt := 0 }

/-- Latest sample of the cosine winding or track, its sign turned at a negative carrier peak (R109). -/
def fnC : Fld := { off := 0xF5F0, lo := 0, w := 17, sgn := true, dflt := 0 }

/-- Angle of the resolver's tracking loop (R109). -/
def trkTh : Fld := { off := 0xF5F8, lo := 0, w := 32, sgn := false, dflt := 0 }

/-- Speed of the resolver's tracking loop, its second integrator (R109). -/
def trkW : Fld := { off := 0xF600, lo := 0, w := 64, sgn := true, dflt := 0 }

/-- Sine winding against the excitation in phase, the sum of the phase item (R128). -/
def szSI : Fld := { off := 0xF608, lo := 0, w := 64, sgn := true, dflt := 0 }

/-- Sine winding against the excitation a quarter period on, the sum of the phase item (R128). -/
def szSQ : Fld := { off := 0xF610, lo := 0, w := 64, sgn := true, dflt := 0 }

/-- Cosine winding against the excitation in phase, the sum of the phase item (R128). -/
def szCI : Fld := { off := 0xF618, lo := 0, w := 64, sgn := true, dflt := 0 }

/-- Cosine winding against the excitation a quarter period on, the sum of the phase item (R128). -/
def szCQ : Fld := { off := 0xF620, lo := 0, w := 64, sgn := true, dflt := 0 }

/-! Half (base `halfB h`). -/

/-- Latest DC-link sample, 0.1 V (R201). -/
def vdc1 : Fld := { off := 0xC0000, lo := 0, w := 16, sgn := false, dflt := 0 }

/-- The sample before it. -/
def vdc2 : Fld := { off := 0xC0008, lo := 0, w := 16, sgn := false, dflt := 0 }

/-- The sample two before. -/
def vdc3 : Fld := { off := 0xC0010, lo := 0, w := 16, sgn := false, dflt := 0 }

/-- The sample three before. -/
def vdc4 : Fld := { off := 0xC0018, lo := 0, w := 16, sgn := false, dflt := 0 }

/-- Samples taken so far, up to 4 (R201). -/
def vdcN : Fld := { off := 0xC0020, lo := 0, w := 3, sgn := false, dflt := 0 }

/-- vdc_f, 0.1 V (R201). -/
def vdcf : Fld := { off := 0xC0028, lo := 0, w := 16, sgn := false, dflt := 0 }

/-- Tick of the latest counted edge on SP<k>_PIN (R257). -/
def lastEdge : Fld := { off := 0xC0030, lo := 0, w := 64, sgn := false, dflt := 0 }

/-- Tick of the rising edge before it. -/
def prevEdge : Fld := { off := 0xC0038, lo := 0, w := 64, sgn := false, dflt := 0 }

/-- High time of the latest complete period, ticks (R257). -/
def highT : Fld := { off := 0xC0040, lo := 0, w := 48, sgn := false, dflt := 0 }

/-- Latest complete period, ticks (R257). -/
def perT : Fld := { off := 0xC0048, lo := 0, w := 48, sgn := false, dflt := 0 }

/-- Consecutive conversions below the loss level (R259). -/
def losBad : Fld := { off := 0xC0050, lo := 0, w := 16, sgn := false, dflt := 0 }

/-- Consecutive conversions at or above the return level (R259). -/
def losGood : Fld := { off := 0xC0058, lo := 0, w := 16, sgn := false, dflt := 0 }

/-- Conversions of the set-point port (R244). -/
def portCnt : Fld := { off := 0xC0060, lo := 0, w := 16, sgn := false, dflt := 0 }

/-- Both filtered STO channels have been low together since DISC latched (R197). -/
def stoBoth : Fld := { off := 0xC0068, lo := 0, w := 1, sgn := false, dflt := 0 }

/-- Tick of the latest rising edge of BG<k>_CHG (R205). -/
def chgT : Fld := { off := 0xC0070, lo := 0, w := 64, sgn := false, dflt := 0 }

/-- Precharge has stopped on a fault and waits for its FAULT_CLEAR (R210). -/
def preStop : Fld := { off := 0xC0078, lo := 0, w := 1, sgn := false, dflt := 0 }

/-- Sensors that read 165.0 C or more at the latest conversion (R216). -/
def hot : Fld := { off := 0xC0080, lo := 0, w := 4, sgn := false, dflt := 0 }

/-- High time of the period under way, ticks (R257). -/
def curHigh : Fld := { off := 0xC0088, lo := 0, w := 48, sgn := false, dflt := 0 }

/-- Sequence number of the latest heartbeat sent (R379). -/
def hbSeq : Fld := { off := 0xC0090, lo := 0, w := 16, sgn := false, dflt := 0 }

/-- Tick of the latest heartbeat received, plus one (R80). -/
def hbRx : Fld := { off := 0xC0F00, lo := 0, w := 65, sgn := false, dflt := 0 }

/-- Consecutive missed heartbeats of the other half (R379). -/
def hbRun : Fld := { off := 0xC0098, lo := 0, w := 2, sgn := false, dflt := 0 }

/-- The other half took the token from this one, which has not held it since (R382). -/
def tkLost : Fld := { off := 0xC0F08, lo := 0, w := 1, sgn := false, dflt := 0 }

/-! Loop slot (base `halfB h + 0x80 * slot`). -/

/-- An update request waits (R244, R245). -/
def slReq : Fld := { off := 0xD0000, lo := 0, w := 1, sgn := false, dflt := 0 }

/-- Trigger count toward TPARAM (R244). -/
def slCnt : Fld := { off := 0xD0008, lo := 0, w := 16, sgn := false, dflt := 0 }

/-- Tick of the latest served update (R244). -/
def slTick : Fld := { off := 0xD0010, lo := 0, w := 64, sgn := false, dflt := 0 }

/-- A preset waits for the next update (R255). -/
def slPre : Fld := { off := 0xD0018, lo := 0, w := 1, sgn := false, dflt := 0 }

/-- The preset value, pu32. -/
def slPreV : Fld := { off := 0xD0020, lo := 0, w := 48, sgn := true, dflt := 0 }

/-- F slot: rr (R252). -/
def slRR : Fld := { off := 0xD0028, lo := 0, w := 32, sgn := true, dflt := 0 }

/-- O slot: tl (R253). -/
def slTl : Fld := { off := 0xD0030, lo := 0, w := 32, sgn := true, dflt := 0 }

/-- O slot: wh (R253). -/
def slWh : Fld := { off := 0xD0038, lo := 0, w := 32, sgn := true, dflt := 0 }

/-- S slot: index of the present winner (R251). -/
def slWin : Fld := { off := 0xD0040, lo := 0, w := 2, sgn := false, dflt := 0 }

/-- Bumpless swaps since the latest update of a G slot, bank 0 to 1 counted up and 1 to 0 down (R256). -/
def slBump : Fld := { off := 0xD0048, lo := 0, w := 8, sgn := true, dflt := 0 }

/-- P slot in frequency mode: f, Hz (R257). -/
def slF : Fld := { off := 0xD0050, lo := 0, w := 48, sgn := true, dflt := 0 }

/-- P slot: pulse edges seen at its latest update (R257). -/
def slEdges : Fld := { off := 0xD0058, lo := 0, w := 32, sgn := false, dflt := 0 }

/-- P slot: tick of the last edge of its previous update (R257). -/
def slLast : Fld := { off := 0xD0060, lo := 0, w := 64, sgn := false, dflt := 0 }

/-- Trigger time of the request that waits (R245). -/
def slReqT : Fld := { off := 0xD0068, lo := 0, w := 64, sgn := false, dflt := 0 }

/-- Tick up to which chip-time triggers have been served or dropped (R244, R245). -/
def slTrigT : Fld := { off := 0xD0070, lo := 0, w := 64, sgn := false, dflt := 0 }

/-- Selectors in whose latest update the slot supplied a losing candidate, by slot number (R251). -/
def slLose : Fld := { off := 0xD0078, lo := 0, w := 48, sgn := false, dflt := 0 }

/-! Scheduler slot (base `halfB h + 0x100 * slot`). -/

/-- Grid sector in force (R135). -/
def ascSector : Fld := { off := 0xE0000, lo := 0, w := 64, sgn := true, dflt := 0 }

/-- Grid spacing in force (R144: a change applies at the next advance). -/
def ascPer : Fld := { off := 0xE0008, lo := 0, w := 31, sgn := false, dflt := 0 }

/-- Hysteresis read at arming (R144). -/
def ascHyst : Fld := { off := 0xE0010, lo := 0, w := 31, sgn := false, dflt := 0 }

/-- Armed, not yet evaluated (R135, R136). -/
def ascNew : Fld := { off := 0xE0018, lo := 0, w := 1, sgn := false, dflt := 0 }

/-- The count has jumped since the latest evaluation (R142). -/
def ascJump : Fld := { off := 0xE0020, lo := 0, w := 1, sgn := false, dflt := 0 }

/-- An EVT_ARM waits for the next tick (R135, R138). -/
def ascPend : Fld := { off := 0xE0028, lo := 0, w := 1, sgn := false, dflt := 0 }

/-- Its compare value. -/
def ascVal : Fld := { off := 0xE0030, lo := 0, w := 48, sgn := true, dflt := 0 }

/-- Its action. -/
def ascAct : Fld := { off := 0xE0038, lo := 0, w := 3, sgn := false, dflt := 0 }

/-- Its argument. -/
def ascArg : Fld := { off := 0xE0040, lo := 0, w := 8, sgn := false, dflt := 0 }

/-- Its direction. -/
def ascDir : Fld := { off := 0xE0048, lo := 0, w := 2, sgn := false, dflt := 0 }

/-- Its repeat bit. -/
def ascRep : Fld := { off := 0xE0050, lo := 0, w := 1, sgn := false, dflt := 0 }

/-- The slot has fired since its latest arming (R85). -/
def ascDone : Fld := { off := 0xE0058, lo := 0, w := 1, sgn := false, dflt := 0 }

/-- The timebase at the slot's latest evaluation (R141). -/
def ascXp : Fld := { off := 0xE0060, lo := 0, w := 48, sgn := true, dflt := 0 }

/-! Axis (base `axsB n`). -/

/-- Sign of the AXIS_FOLLOW ratio is inverted (R329). -/
def axInv : Fld := { off := 0xF000, lo := 0, w := 1, sgn := false, dflt := 0 }

/-- A FOLLOW_INV firing waits for the next interpolation step (R139). -/
def axTurn : Fld := { off := 0xF008, lo := 0, w := 1, sgn := false, dflt := 0 }

/-- r: the reference position, 40 fraction bits (R313). -/
def axR : Fld := { off := 0xF010, lo := 0, w := 96, sgn := true, dflt := 0 }

/-- v, counts per us, 40 fraction bits (R321). -/
def axV : Fld := { off := 0xF020, lo := 0, w := 64, sgn := true, dflt := 0 }

/-- vm (R321). -/
def axVm : Fld := { off := 0xF028, lo := 0, w := 64, sgn := false, dflt := 0 }

/-- ta (R321). -/
def axTa : Fld := { off := 0xF030, lo := 0, w := 64, sgn := false, dflt := 0 }

/-- td (R321). -/
def axTd : Fld := { off := 0xF038, lo := 0, w := 64, sgn := false, dflt := 0 }

/-- The axis energises from standby (R318). -/
def axEner : Fld := { off := 0xF040, lo := 0, w := 1, sgn := false, dflt := 0 }

/-- The target lies more than one count behind the motion (R322). -/
def axOvs : Fld := { off := 0xF048, lo := 0, w := 1, sgn := false, dflt := 0 }

/-- State after the guarded stop: 1 IDLE, 7 FAULT (Table AX-6). -/
def axStopSt : Fld := { off := 0xF050, lo := 0, w := 3, sgn := false, dflt := 0 }

/-- Members of the group (R326). -/
def axGrp : Fld := { off := 0xF058, lo := 0, w := 4, sgn := false, dflt := 0 }

/-- Delta of the member (R326). -/
def axD : Fld := { off := 0xF060, lo := 0, w := 52, sgn := true, dflt := 0 }

/-- L of the group (R326). -/
def axL : Fld := { off := 0xF068, lo := 0, w := 52, sgn := false, dflt := 0 }

/-- Count at the start of the profile or group: p_s, s_i (R325, R326). -/
def axS0 : Fld := { off := 0xF070, lo := 0, w := 48, sgn := true, dflt := 0 }

/-- The path parameter of the group, 40 fraction bits (R326). -/
def axLr : Fld := { off := 0xF078, lo := 0, w := 96, sgn := true, dflt := 0 }

/-- Its rate (R326). -/
def axLv : Fld := { off := 0xF088, lo := 0, w := 64, sgn := true, dflt := 0 }

/-- 1 + the axis whose shaping table plays; 0 none (R324, R326). -/
def axTab : Fld := { off := 0xF090, lo := 0, w := 3, sgn := false, dflt := 0 }

/-- Tick at which the profile or group starts (R325, R326). -/
def axT0 : Fld := { off := 0xF098, lo := 0, w := 64, sgn := false, dflt := 0 }

/-- x_s (R325). -/
def axXs : Fld := { off := 0xF0A0, lo := 0, w := 48, sgn := true, dflt := 0 }

/-- Progress of the profile (R325). -/
def axTau : Fld := { off := 0xF0A8, lo := 0, w := 64, sgn := false, dflt := 0 }

/-- The member has arrived (R326). -/
def axArr : Fld := { off := 0xF0B0, lo := 0, w := 1, sgn := false, dflt := 0 }

/-- Source of FOLLOW: 0 step input, 1 station count (R327). -/
def axSrc : Fld := { off := 0xF0B8, lo := 0, w := 1, sgn := false, dflt := 0 }

/-- Its station. -/
def axStn : Fld := { off := 0xF0C0, lo := 0, w := 2, sgn := false, dflt := 0 }

/-- Numerator (R327). -/
def axNum : Fld := { off := 0xF0C8, lo := 0, w := 32, sgn := true, dflt := 0 }

/-- Denominator (R327). -/
def axDen : Fld := { off := 0xF0D0, lo := 0, w := 32, sgn := false, dflt := 0 }

/-- r_0, 40 fraction bits (R327). -/
def axR0 : Fld := { off := 0xF0D8, lo := 0, w := 96, sgn := true, dflt := 0 }

/-- q_0, 40 fraction bits (R327). -/
def axQ0 : Fld := { off := 0xF0E8, lo := 0, w := 96, sgn := true, dflt := 0 }

/-- q: the interpolated source position, 40 fraction bits (R328). -/
def axQ : Fld := { off := 0xF0F8, lo := 0, w := 96, sgn := true, dflt := 0 }

/-- The origin of following is not yet taken (R327). -/
def axOrg : Fld := { off := 0xF108, lo := 0, w := 1, sgn := false, dflt := 0 }

/-- Rate at which q moves toward the source, 40 fraction bits per us (R328). -/
def axRate : Fld := { off := 0xF110, lo := 0, w := 64, sgn := false, dflt := 0 }

/-- Tick of the latest STEP input edge, or of the latest frame of a serial source (R328). -/
def axEdgeT : Fld := { off := 0xF118, lo := 0, w := 64, sgn := false, dflt := 0 }

/-- Direction of the latest STEP input edge; 0 none (R328). -/
def axEdgeD : Fld := { off := 0xF120, lo := 0, w := 2, sgn := true, dflt := 0 }

/-- X<n>_EN (R314, R318). -/
def axEn : Fld := { off := 0xF128, lo := 0, w := 1, sgn := false, dflt := 0 }

/-- X<n>_DIR (R314). -/
def axDirL : Fld := { off := 0xF130, lo := 0, w := 1, sgn := false, dflt := 0 }

/-- Tick of the latest change of X<n>_DIR (R314). -/
def axDirT : Fld := { off := 0xF138, lo := 0, w := 64, sgn := false, dflt := 0 }

/-- Tick of the latest emitted step (R313). -/
def axLast : Fld := { off := 0xF140, lo := 0, w := 64, sgn := false, dflt := 0 }

/-- Direction of the running chopper cycle of coil A (R316). -/
def axSgA : Fld := { off := 0xF148, lo := 0, w := 2, sgn := true, dflt := 0 }

/-- V_th of the running chopper cycle of coil A, mV (R316). -/
def axVthA : Fld := { off := 0xF150, lo := 0, w := 11, sgn := false, dflt := 0 }

/-- Direction of the running chopper cycle of coil B (R316). -/
def axSgB : Fld := { off := 0xF158, lo := 0, w := 2, sgn := true, dflt := 0 }

/-- V_th of the running chopper cycle of coil B, mV (R316). -/
def axVthB : Fld := { off := 0xF160, lo := 0, w := 11, sgn := false, dflt := 0 }

/-- `ASC_TB_SEL.SRC` of the axis user before auto-spool (R306). -/
def spSrc : Fld := { off := 0xF168, lo := 0, w := 2, sgn := false, dflt := 0 }

/-- `ASC_TB_SEL.STN` of the axis user before auto-spool (R306). -/
def spStn : Fld := { off := 0xF170, lo := 0, w := 1, sgn := false, dflt := 0 }

/-- Drum of an auto-spool that has ended with SH while its level-wind goes on, plus 1 (R306). -/
def spDrum : Fld := { off := 0xF178, lo := 0, w := 3, sgn := false, dflt := 0 }

/-- Interpolated position of the coarse step input, 40 fraction bits (R328). -/
def axQi : Fld := { off := 0xF180, lo := 0, w := 96, sgn := true, dflt := 0 }

/-- Tick of the serial frame that the followed position was last spread from (R327). -/
def axPsT : Fld := { off := 0xF188, lo := 0, w := 64, sgn := false, dflt := 0 }

/-- Rate at which the position of a serial source moves, 40 fraction bits per µs (R327). -/
def axSrate : Fld := { off := 0xF190, lo := 0, w := 64, sgn := false, dflt := 0 }

/-- The group has started (R326). -/
def axGo : Fld := { off := 0xF198, lo := 0, w := 1, sgn := false, dflt := 0 }

/-- A guarded stop out of FOLLOW, at `GDEC` (R330). -/
def axGd : Fld := { off := 0xF1A0, lo := 0, w := 1, sgn := false, dflt := 0 }

/-- Start of the chopper cycle of coil A (R316). -/
def axC0A : Fld := { off := 0xF1A8, lo := 0, w := 64, sgn := false, dflt := 0 }

/-- Start of the chopper cycle of coil B (R316). -/
def axC0B : Fld := { off := 0xF1B0, lo := 0, w := 64, sgn := false, dflt := 0 }

/-- The cycle of coil A has ended without a crossing (R316). -/
def axNrA : Fld := { off := 0xF1B8, lo := 0, w := 1, sgn := false, dflt := 0 }

/-- The cycle of coil B has ended without a crossing (R316). -/
def axNrB : Fld := { off := 0xF1C0, lo := 0, w := 1, sgn := false, dflt := 0 }

/-- A group's shaping table runs on the scheduler timebase (R326, R325). -/
def axPck : Fld := { off := 0xF1C8, lo := 0, w := 1, sgn := false, dflt := 0 }

/-! CAN controller (base `canB c`). -/

/-- Fill pointer of the host partition (R341). -/
def cnFillH : Fld := { off := 0xF000, lo := 0, w := 7, sgn := false, dflt := 0 }

/-- Fill pointer of the service partition (R341). -/
def cnFillS : Fld := { off := 0xF008, lo := 0, w := 7, sgn := false, dflt := 0 }

/-- A CAN_RX notice has been queued within the last 1 ms (R342). -/
def cnNote : Fld := { off := 0xF010, lo := 0, w := 1, sgn := false, dflt := 0 }

/-- Tick of the latest CAN_RX notice. -/
def cnNoteT : Fld := { off := 0xF018, lo := 0, w := 64, sgn := false, dflt := 0 }

/-- A deferred CAN_RX notice waits (R342). -/
def cnDefer : Fld := { off := 0xF020, lo := 0, w := 1, sgn := false, dflt := 0 }

/-- The integrated transceiver is in normal mode (R339). -/
def cnXcv : Fld := { off := 0xF028, lo := 0, w := 1, sgn := false, dflt := 0 }

/-- The transceiver has released the bus after a dominant TXD of 1.5 ms (R336). -/
def cnRel : Fld := { off := 0xF030, lo := 0, w := 1, sgn := false, dflt := 0 }

/-- Sequence number of the next reference message (Table CN-2). -/
def tmSeq : Fld := { off := 0xF038, lo := 0, w := 8, sgn := false, dflt := 0 }

/-- Network time at the start of frame of the latest reference message sent (R349). -/
def tmSof : Fld := { off := 0xF040, lo := 0, w := 64, sgn := true, dflt := 0 }

/-- It is valid. -/
def tmSofOk : Fld := { off := 0xF048, lo := 0, w := 1, sgn := false, dflt := 0 }

/-- The controller was the active sender when it left the bus (R345). -/
def tmWas : Fld := { off := 0xF050, lo := 0, w := 1, sgn := false, dflt := 0 }

/-- TMDUP: no sending until the next TIME_MASTER (R350). -/
def tmDup : Fld := { off := 0xF058, lo := 0, w := 1, sgn := false, dflt := 0 }

/-- A reference message of the sender in use has been stamped (R351). -/
def tmHave : Fld := { off := 0xF060, lo := 0, w := 1, sgn := false, dflt := 0 }

/-- Its sequence number. -/
def tmRxSeq : Fld := { off := 0xF068, lo := 0, w := 8, sgn := false, dflt := 0 }

/-- Its stamp. -/
def tmRxT : Fld := { off := 0xF070, lo := 0, w := 64, sgn := false, dflt := 0 }

/-- The latest offset e (R351). -/
def tmPrevE : Fld := { off := 0xF078, lo := 0, w := 64, sgn := true, dflt := 0 }

/-- It is valid. -/
def tmPrevOk : Fld := { off := 0xF080, lo := 0, w := 1, sgn := false, dflt := 0 }

/-- Tick of the start of frame of the latest reference message sent (R349). -/
def tmSendT : Fld := { off := 0xF088, lo := 0, w := 64, sgn := false, dflt := 0 }

/-- `EN` was written 0 with a frame under way (R339): 1 while the controller still finishes it, 2 when it has left and may yet finish the reception -/
def cnFin : Fld := { off := 0xF090, lo := 0, w := 2, sgn := false, dflt := 0 }

/-- Tick of the latest `EN` = 0 -/
def cnOffT : Fld := { off := 0xF098, lo := 0, w := 64, sgn := false, dflt := 0 }

/-! Serial port and repeater of a half (base `serB h`). -/

/-- A serial frame is running (R122). -/
def psRun : Fld := { off := 0xFC00, lo := 0, w := 1, sgn := false, dflt := 0 }

/-- A valid frame has been received since the port was set up (R124). -/
def psHave : Fld := { off := 0xFC08, lo := 0, w := 1, sgn := false, dflt := 0 }

/-- Value of the latest valid frame (R124). -/
def psPrev : Fld := { off := 0xFC10, lo := 0, w := 64, sgn := false, dflt := 0 }

/-- Tick of the latest valid frame (R120). -/
def psPrevT : Fld := { off := 0xFC18, lo := 0, w := 64, sgn := false, dflt := 0 }

/-- Consecutive discarded frames (R125). -/
def psBad : Fld := { off := 0xFC20, lo := 0, w := 8, sgn := false, dflt := 0 }

/-- Angle of the latest valid frame, u32 (R118). -/
def psTheta : Fld := { off := 0xFC28, lo := 0, w := 32, sgn := false, dflt := 0 }

/-- Quadrature edges emitted, forward less backward (R126). -/
def rpPos : Fld := { off := 0xFC30, lo := 0, w := 96, sgn := true, dflt := 0 }

/-- Angle of the repeater's source, unwrapped, 2^32 a revolution (R126). -/
def rpAng : Fld := { off := 0xFC50, lo := 0, w := 96, sgn := true, dflt := 0 }

/-- Difference of the latest valid frame from the one before it (R124). -/
def psD : Fld := { off := 0xFC58, lo := 0, w := 64, sgn := true, dflt := 0 }

/-- The latest valid frame was the first (R120, R124). -/
def psFirst : Fld := { off := 0xFC60, lo := 0, w := 1, sgn := false, dflt := 0 }

/-- Tick of the valid frame before the latest (R120). -/
def psPt : Fld := { off := 0xFC68, lo := 0, w := 64, sgn := false, dflt := 0 }

/-- Tick of the end of the latest serial frame, plus one; 0 before any (R123). -/
def psEndT : Fld := { off := 0xFC70, lo := 0, w := 65, sgn := false, dflt := 0 }

/-! Ring position (base `0x100 * p`). -/

/-! Service handle (base `0x200 * handle`). -/

/-- Stations to be taken over at the next tick (R301). -/
def svTake : Fld := { off := 0x14000, lo := 0, w := 4, sgn := false, dflt := 0 }

/-- Stations whose stop the service waits for (R302). -/
def svWait : Fld := { off := 0x14008, lo := 0, w := 4, sgn := false, dflt := 0 }

/-- Stations at the start of the service. -/
def svOrig : Fld := { off := 0x14010, lo := 0, w := 4, sgn := false, dflt := 0 }

/-- Auto-spool: the drum station. -/
def svDrum : Fld := { off := 0x14028, lo := 0, w := 2, sgn := false, dflt := 0 }

/-- Auto-spool: the axis. -/
def svAxis : Fld := { off := 0x14030, lo := 0, w := 2, sgn := false, dflt := 0 }

/-- Auto-spool: axis count at start. -/
def svX0 : Fld := { off := 0x14038, lo := 0, w := 48, sgn := true, dflt := 0 }

/-- Auto-spool: checker count at start. -/
def svChk0 : Fld := { off := 0x14040, lo := 0, w := 48, sgn := true, dflt := 0 }

/-- Auto-spool: consecutive ticks with |dev| above CHK_TOL. -/
def svDev : Fld := { off := 0x14048, lo := 0, w := 2, sgn := false, dflt := 0 }

/-- The ramped command: vr, v or cr, pu32 (R304, R305, R308). -/
def svVr : Fld := { off := 0x14050, lo := 0, w := 48, sgn := true, dflt := 0 }

/-- Payout: slack, until T has risen (R305). -/
def svSlack : Fld := { off := 0x14058, lo := 0, w := 1, sgn := false, dflt := 0 }

/-- Heave: pos0, drum counts (R307). -/
def svPos0 : Fld := { off := 0x14060, lo := 0, w := 48, sgn := true, dflt := 0 }

/-- Heave: fade factor g with 16 more fraction bits (R307). -/
def svG : Fld := { off := 0x14068, lo := 0, w := 48, sgn := false, dflt := 0 }

/-- Heave: h of the newest frame, mm. -/
def svH : Fld := { off := 0x14070, lo := 0, w := 32, sgn := true, dflt := 0 }

/-- Heave: hv of the newest frame, mm/s. -/
def svHv : Fld := { off := 0x14078, lo := 0, w := 32, sgn := true, dflt := 0 }

/-- Tick of the newest matching frame. -/
def svRx : Fld := { off := 0x14080, lo := 0, w := 64, sgn := false, dflt := 0 }

/-- A matching frame has arrived. -/
def svHave : Fld := { off := 0x14088, lo := 0, w := 1, sgn := false, dflt := 0 }

/-- Heave: HEAVELOSS holds; thruster: PMSLOSS holds (R307, R308). -/
def svLost : Fld := { off := 0x14090, lo := 0, w := 1, sgn := false, dflt := 0 }

/-- Thruster: P_LIM of the newest frame, pu32. -/
def svPlim : Fld := { off := 0x14098, lo := 0, w := 48, sgn := true, dflt := 0 }

/-- Thruster: co, pu32, of station 0 (R308); stations 1 to 3 follow at 8-byte steps. -/
def svCo : Fld := { off := 0x140A0, lo := 0, w := 48, sgn := true, dflt := 0 }

/-- Thruster: cr, pu32, of station 0 (R308); stations 1 to 3 follow at 8-byte steps. -/
def svCr : Fld := { off := 0x140C0, lo := 0, w := 48, sgn := true, dflt := 0 }

/-- Thruster KIND 1: 1 + the leader; 0 none yet. -/
def svLead : Fld := { off := 0x140E0, lo := 0, w := 3, sgn := false, dflt := 0 }

/-- Shedding: a trigger is active (R309). -/
def svTrig : Fld := { off := 0x140E8, lo := 0, w := 1, sgn := false, dflt := 0 }

/-- Shedding: T_KEEP runs after the trigger. -/
def svKeep : Fld := { off := 0x140F0, lo := 0, w := 1, sgn := false, dflt := 0 }

/-- Shedding: the factor, Q1.15 with 8 more fraction bits (R309). -/
def svFac : Fld := { off := 0x140F8, lo := 0, w := 32, sgn := false, dflt := 83886080 }

/-- Shedding: SVC_STOP waits for the factor to reach 32768 (R309). -/
def svEnd : Fld := { off := 0x14100, lo := 0, w := 1, sgn := false, dflt := 0 }

/-- Stop type of the SVC_STOP that ends the service (R302). -/
def svTy : Fld := { off := 0x14108, lo := 0, w := 2, sgn := false, dflt := 0 }

/-- Station that holds the entry of HEAVELOSS or PMSLOSS (R310). -/
def svLossN : Fld := { off := 0x14110, lo := 0, w := 2, sgn := false, dflt := 0 }

/-- Stations that have left the service while the A↔B mailbox could not say so (R16). -/
def svLeft : Fld := { off := 0x14118, lo := 0, w := 4, sgn := false, dflt := 0 }

/-- Those of them that left on a fault (R302). -/
def svLeftF : Fld := { off := 0x14120, lo := 0, w := 4, sgn := false, dflt := 0 }

end Sys2Proof.Machine.H
end

