-- ==== Sys2Proof/Machine/Operands.lean ====
section
/-!
DEFINITION. The number formats of R4 and the arithmetic the pseudocode blocks use (R11): reduction and saturation to a width,
bit fields, packing of words and bytes, the CRC of R68, square root, and the angle functions.
-/
namespace Sys2Proof.Machine

/-! ### Widths (R4) -/

/-- `x` reduced modulo 2^w into the signed range. -/
def wrapS (w : Nat) (x : Int) : Int :=
  let y := x % 2 ^ w
  if 2 * y < 2 ^ w then y else y - 2 ^ w

/-- `x` reduced modulo 2^w into 0 … 2^w − 1. -/
def wrapU (w : Nat) (x : Int) : Int := x % 2 ^ w

/-- `x` limited to `lo … hi`. -/
def clampI (lo hi x : Int) : Int := max lo (min hi x)

/-- `sat16`, `sat32`: the signed range of `w` bits. -/
def satS (w : Nat) (x : Int) : Int := clampI (-(2 ^ (w - 1))) (2 ^ (w - 1) - 1) x

/-- Unsigned saturation at 2^w − 1. -/
def satU (w : Nat) (x : Int) : Int := clampI 0 (2 ^ w - 1) x

def sat16 (x : Int) : Int := satS 16 x
def sat32 (x : Int) : Int := satS 32 x
def wrap32 (x : Int) : Int := wrapS 32 x
def wrap48 (x : Int) : Int := wrapS 48 x

/-- The sign of `x`: −1, 0 or 1. -/
def sgnI (x : Int) : Int := if x < 0 then -1 else if x = 0 then 0 else 1

/-- 1 or 0. -/
def b2i (b : Bool) : Int := if b then 1 else 0

/-- Bits `lo … lo + w − 1` of a word. -/
def bitsN (x lo w : Nat) : Nat := (x / 2 ^ lo) % 2 ^ w

/-- Bit `i` of a word. -/
def bitN (x i : Nat) : Bool := (x / 2 ^ i) % 2 == 1

/-- The signed reading of the low `w` bits. -/
def sgnN (w x : Nat) : Int := wrapS w x

/-- The 32-bit word of a whole number. -/
def word32 (x : Int) : Nat := (x % 2 ^ 32).toNat

/-- Bit-wise and of a field's value with a mask. -/
def andI (x : Int) (m : Nat) : Int := (x.toNat &&& m : Nat)

/-- Bit-wise or of a field's value with a mask. -/
def orI (x : Int) (m : Nat) : Int := (x.toNat ||| m : Nat)

/-- A field's value with the bits of `m` cleared. -/
def clrI (x : Int) (m : Nat) : Int := ((x.toNat ||| m) - m : Nat)

/-- An s48 quantity from its low and high words (R82). -/
def s48 (lo hi : Nat) : Int := wrapS 48 (lo + 2 ^ 32 * hi)

/-- The two words of an s48 quantity: the high word carries the upper 16 bits, sign-extended (R82). -/
def s48Words (x : Int) : List Nat := [word32 x, word32 (wrapS 48 x / 2 ^ 32)]

/-- The two words of a 64-bit quantity. -/
def u64Words (x : Nat) : List Nat := [x % 2 ^ 32, x / 2 ^ 32 % 2 ^ 32]

/-! ### Bytes and the CRC (R66, R68) -/

/-- The four bytes of a word, least significant first. -/
def wordBytes (w : Nat) : List Nat := [w % 256, w / 256 % 256, w / 65536 % 256, w / 16777216 % 256]

/-- Words of whole groups of four bytes; a rest of fewer bytes is dropped. -/
def bytesWords : List Nat → List Nat
  | a :: b :: c :: d :: r => (a + 256 * b + 65536 * c + 16777216 * d) :: bytesWords r
  | _ => []

/-- One bit of the reflected CRC-32 register. -/
def crcBit (c : Nat) : Nat := if c % 2 = 1 then (c / 2) ^^^ 0xEDB88320 else c / 2

/-- One byte into the CRC-32 register. -/
def crcByte (c b : Nat) : Nat :=
  crcBit (crcBit (crcBit (crcBit (crcBit (crcBit (crcBit (crcBit (c ^^^ b))))))))

/-- CRC-32 of a byte sequence (R68). -/
def crc32 (bs : List Nat) : Nat := (bs.foldl crcByte 0xFFFFFFFF) ^^^ 0xFFFFFFFF

/-- CRC-32 of words sent least significant byte first. -/
def crcWords (ws : List Nat) : Nat := crc32 (ws.flatMap wordBytes)

/-! ### Square root and angles -/

/-- Bit-by-bit square root: `n` result bits, the largest `r` with r² ≤ x. -/
def isqrtGo : Nat → Nat → Nat → Nat
  | 0, _, r => r
  | n + 1, x, r => if (r + 2 ^ n) * (r + 2 ^ n) ≤ x then isqrtGo n x (r + 2 ^ n) else isqrtGo n x r

/-- The integer square root of a number below 2^80. -/
def isqrt (x : Nat) : Nat := isqrtGo 40 x 0

/-- π in units of 2^-60, rounded down. -/
def piFix : Nat := 3622009729038561421

/-- Terms of the sine series from the k-th: `t` is the last term in units of 2^-60, `a2` the square of the angle. -/
def sinSeries : Nat → Int → Int → Int → Int
  | 0, _, _, _ => 0
  | n + 1, k, t, a2 => t + sinSeries n (k + 1) (-((t * a2) / 2 ^ 60) / ((2 * k) * (2 * k + 1))) a2

/-- The sine of r quarter-turn steps of 1/16384, 0 ≤ r ≤ 16384, in units of 2^-60. -/
def sinQuarter (r : Int) : Int :=
  let a := r * piFix / 32768
  sinSeries 12 1 a (a * a / 2 ^ 60)

/-- The sine of a whole number of 1/65536 turns, in units of 2^-60. -/
def sinFix (i : Int) : Int :=
  let i := i % 65536
  if i ≤ 16384 then sinQuarter i
  else if i ≤ 32768 then sinQuarter (32768 - i)
  else if i ≤ 49152 then -sinQuarter (i - 32768)
  else -sinQuarter (65536 - i)

/-- `sin16` (R148): 32767 times the sine, rounded half away from zero. -/
def sin16 (x : Int) : Int :=
  let v := 32767 * sinFix (x % 2 ^ 32 / 65536)
  if v < 0 then -((-v + 2 ^ 59) / 2 ^ 60) else (v + 2 ^ 59) / 2 ^ 60

/-- `cos16` (R148). -/
def cos16 (x : Int) : Int := sin16 (x + 2 ^ 30)

/-- Sine of an angle given in units of 2^-32 turn, by the series, in units of 2^-60; 0 ≤ x ≤ 2^30. -/
def sinQuarter32 (x : Int) : Int :=
  let a := x * piFix / 2 ^ 31
  sinSeries 12 1 a (a * a / 2 ^ 60)

/-- Bisection for the angle of a vector in the first quadrant: the largest `x` of `n` more bits with tan x ≤ b / a. -/
def angleGo : Nat → Int → Int → Int → Int
  | 0, _, _, x => x
  | n + 1, a, b, x =>
    let y := x + 2 ^ n
    if a * sinQuarter32 y ≤ b * sinQuarter32 (2 ^ 30 - y) then angleGo n a b y else angleGo n a b x

/-- The angle of (a, b), u32, rounded down to 2^-32 turn; 0 for the zero vector. -/
def angle32 (a b : Int) : Int :=
  let q (u v : Int) : Int := if v = 0 then 0 else if u = 0 then 2 ^ 30 else angleGo 30 u v 0
  if a = 0 ∧ b = 0 then 0
  else if 0 < a ∧ 0 ≤ b then q a b
  else if a ≤ 0 ∧ 0 < b then 2 ^ 30 + q b (-a)
  else if a < 0 ∧ b ≤ 0 then 2 ^ 31 + q (-a) (-b)
  else 3 * 2 ^ 30 + q (-b) a

/-- The smallest index 0 … 16384 whose sin16 reaches `v`, by bisection. -/
def sinIndexGo : Nat → Int → Int → Int
  | 0, _, i => i
  | n + 1, v, i => if sin16 ((i + 2 ^ n - 1) * 65536) < v then sinIndexGo n v (i + 2 ^ n) else sinIndexGo n v i

/-- The smallest index of the first quadrant whose sin16 is at least `v`, for 0 ≤ v ≤ 32767. -/
def sinIndex (v : Int) : Int := if sin16 0 ≥ v then 0 else sinIndexGo 14 v 1

/-- `asin16` (R229): the angle of smallest magnitude in −2^30 … 2^30 whose sin16 is nearest `x`; ties go toward 0. -/
def asin16 (x : Int) : Int :=
  let near (v : Int) : Int :=
    let i := sinIndex v
    let up := sin16 (i * 65536)
    if up = v ∨ i = 0 then i
    else
      let dn := sin16 ((i - 1) * 65536)
      if v - dn ≤ up - v then sinIndex dn else i
  if 0 ≤ x then near x * 65536
  else
    let i := near (-x)
    if i = 0 then 0 else -((i - 1) * 65536 + 1)

/-- `x / y` truncated toward zero, as `/` in the blocks of chapters 8 and 15, and in those of chapter 12, where no rule states the rounding (R246,
R257; DESIGN CHOICE, log entry 105); 0 for a divisor of 0. -/
def tdiv (x y : Int) : Int := Int.tdiv x y

/-- `>>`: arithmetic right shift that rounds toward minus infinity. -/
def asr (x : Int) (n : Nat) : Int := x / 2 ^ n

/-- The nearest whole number to p / q, ties rounded up. -/
def roundUp (p q : Int) : Int := (2 * p + q) / (2 * q)

end Sys2Proof.Machine
end

