-- ==== Sys2Proof/Machine/Ops.lean ====
section
/-!
DEFINITION. The named operations over State that every family shares: reading and writing a register field, unit bases, the fault
lists, the recorder's trigger FIFO, outbound packets and notices, replies and completions.
-/
namespace Sys2Proof.Machine

/-! ### The sparse map -/

/-- The number at a key. -/
def Sparse.get : Sparse → Nat → Int
  | [], _ => 0
  | (k', v) :: r, k => if k' = k then v else Sparse.get r k

/-- The map without a key. -/
def Sparse.erase (m : Sparse) (k : Nat) : Sparse := m.filter fun e => e.1 != k

/-- The map with a non-zero number at a key, in key order. -/
def Sparse.insert : Sparse → Nat → Int → Sparse
  | [], k, v => [(k, v)]
  | (k', v') :: r, k, v =>
    if k < k' then (k, v) :: (k', v') :: r
    else if k = k' then (k, v) :: r
    else (k', v') :: Sparse.insert r k v

/-- The map with a number at a key; 0 removes the entry, so that equal maps are equal lists. -/
def Sparse.set (m : Sparse) (k : Nat) (v : Int) : Sparse := if v = 0 then m.erase k else m.insert k v

/-- The map with every key in `lo ≤ k < hi` at 0. -/
def Sparse.clear (m : Sparse) (lo hi : Nat) : Sparse := m.filter fun e => e.1 < lo || hi ≤ e.1

/-- The canonical form: keys rise strictly and no entry is 0. -/
abbrev Sparse.wf (m : Sparse) : Prop := m.Pairwise (fun a b => a.1 < b.1) ∧ ∀ e ∈ m, e.2 ≠ 0

/-! ### Register fields -/

/-- The bit address of a field in the unit at byte address `b`. -/
def Fld.key (f : Fld) (b : Nat) : Nat := 8 * (b + f.off) + f.lo

/-- A value reduced to the field's format. -/
def Fld.wrap (f : Fld) (v : Int) : Int := if f.sgn then wrapS f.w v else wrapU f.w v

/-- The marks of the present tick. -/
def Marks.at (m : Marks) (t : Nat) : Marks := if m.tick = t then m else ⟨t, [], []⟩

/-- Bits of a W1C field that the chip has set at a tick. -/
def Marks.bits (m : Marks) (t k : Nat) : Nat := (((m.at t).set.filter (·.1 == k)).map (·.2)).foldl (· ||| ·) 0

/-- An RC field's value before the events of a tick, and those events, where there are any. -/
def Marks.events (m : Marks) (t k : Nat) : Option (Int × Int) := ((m.at t).cnt.find? (·.1 == k)).map (·.2)

/-- The chip sets bits at a tick. -/
def Marks.addSet (m : Marks) (t k v : Nat) : Marks := { m.at t with set := (k, v) :: (m.at t).set }

/-- An RC field that stood at `old` counts `n` events at a tick. -/
def Marks.addCnt (m : Marks) (t k : Nat) (old n : Int) : Marks :=
  let e := (m.events t k).getD (old, 0)
  { m.at t with cnt := (k, e.1, e.2 + n) :: (m.at t).cnt.filter (·.1 != k) }

namespace State

/-- The value of field `f` of the unit at `b`. -/
def get (s : State) (b : Nat) (f : Fld) : Int := f.dflt + s.regs.get (f.key b)

/-- The value of an unsigned field. -/
def nat (s : State) (b : Nat) (f : Fld) : Nat := (s.get b f).toNat

/-- A field is not 0. -/
def on (s : State) (b : Nat) (f : Fld) : Bool := s.get b f != 0

/-- Set a field, reduced to its format. -/
def put (s : State) (b : Nat) (f : Fld) (v : Int) : State :=
  { s with regs := s.regs.set (f.key b) (f.wrap v - f.dflt),
           marks := if f.w1c && f.w == 1 && v % 2 == 1 then s.marks.addSet s.time (f.key b) 1 else s.marks }

/-- Set several fields of one unit, in order. -/
def puts (s : State) (b : Nat) : List (Fld × Int) → State
  | [] => s
  | (f, v) :: r => (s.put b f v).puts b r

/-- Set a one-bit field. -/
def flag (s : State) (b : Nat) (f : Fld) (v : Bool) : State := s.put b f (b2i v)

/-- Count up by `k`, saturating at the field's largest value. -/
def bumpBy (s : State) (b : Nat) (f : Fld) (k : Int) : State :=
  { s.put b f (min (2 ^ f.w - 1) (s.get b f + k)) with
    marks := if f.rc then s.marks.addCnt s.time (f.key b) (s.get b f) k else s.marks }

/-- Count up by `k` events of earlier ticks. -/
def bumpPast (s : State) (b : Nat) (f : Fld) (k : Int) : State := { s.bumpBy b f k with marks := s.marks }

/-- Count up by one, saturating at the field's largest value. -/
def bump (s : State) (b : Nat) (f : Fld) : State := s.bumpBy b f 1

/-- Set the bits of a mask in a field. -/
def orBits (s : State) (b : Nat) (f : Fld) (m : Nat) : State :=
  { s.put b f (orI (s.get b f) m) with marks := if f.w1c then s.marks.addSet s.time (f.key b) m else s.marks }

/-- Clear the bits of a mask in a field. -/
def clrBits (s : State) (b : Nat) (f : Fld) (m : Nat) : State := { s.put b f (clrI (s.get b f) m) with marks := s.marks }

/-- A write of 1 clears the bits of a W1C field, but for those that the chip has set in the same clock (R7). -/
def clrSeen (s : State) (b : Nat) (f : Fld) (m : Nat) : State := s.clrBits b f (m &&& ((2 ^ f.w - 1) ^^^ s.marks.bits s.time (f.key b) % 2 ^ f.w))

/-- Set one bit of a field to a level. -/
def setBit (s : State) (b : Nat) (f : Fld) (i : Nat) (v : Bool) : State :=
  if v then s.orBits b f (2 ^ i) else s.clrBits b f (2 ^ i)

/-- Do something when a condition holds. -/
def when (s : State) (c : Bool) (g : State → State) : State := if c then g s else s

/-- Do something for each element of a list, in order. -/
def each {α : Type} (s : State) (l : List α) (g : α → State → State) : State := l.foldl (fun s a => g a s) s

/-- A value the specification leaves open, `w` bits wide, and the state that has used it up (DESIGN CHOICE, log entry 2). -/
def fresh (s : State) (w : Nat) : Nat × State := (Config.freeValue s.free % 2 ^ w, { s with free := s.free + 1 })

/-- Put an open value into a field. -/
def putFree (s : State) (b : Nat) (f : Fld) : State := ((s.fresh f.w).2).put b f ((s.fresh f.w).1)

/-- Change the chip-level state. -/
def withChip (s : State) (g : Chip → Chip) : State := { s with chip := g s.chip }

/-- Change Milliner's state. -/
def withMil (s : State) (g : Mil → Mil) : State := { s with mil := g s.mil }

/-- Change the configuration store. -/
def withCfg (s : State) (g : CfgStore → CfgStore) : State := { s with cfg := g s.cfg }

/-- Change the recorder. -/
def withLog (s : State) (g : Recorder → Recorder) : State := { s with log := g s.log }

/-- Change the fault lists. -/
def withFlt (s : State) (g : Faults → Faults) : State := { s with flt := g s.flt }

/-- The later of the present count and an event's own tick: the count never decreases (R22). -/
def advance (s : State) (t : Nat) : State := { s with time := max s.time (t % 2 ^ 64) }

end State

/-! ### Units and their addresses (Tables AR-5, AR-6; R18) -/

/-- Byte address of a half. -/
def halfB (h : Nat) : Nat := 0x1000000 * (h + 1)

/-- Byte address of a station block. -/
def stnB (n : Nat) : Nat := halfB (n / 2) + 0x20000 + 0x10000 * (n % 2)

/-- Byte address of an axis block. -/
def axsB (n : Nat) : Nat := halfB (n / 2) + 0x40000 + 0x10000 * (n % 2)

/-- Byte address of a CAN controller: C0 and C2 stand in Half A, C1 and C3 in Half B. -/
def canB (c : Nat) : Nat := halfB (c % 2) + 0x70000 + 0x10000 * (c / 2)

/-- Byte address of the position area that holds a half's serial port and repeater. -/
def serB (h : Nat) : Nat := stnB (2 * h)

namespace State

/-- Half B is present (R20, R29). -/
def dual (s : State) : Bool := s.on 0 F.CHIP_ID_HALF_B

/-- A half is present. -/
def halfPresent (s : State) (h : Nat) : Bool := h == 0 || (h == 1 && s.dual)

/-- A station or axis is present. -/
def stnPresent (s : State) (n : Nat) : Bool := n < 2 || (n < 4 && s.dual)

/-- A CAN controller is present. -/
def canPresent (s : State) (c : Nat) : Bool := c < 4 && (c % 2 == 0 || s.dual)

/-- The stations present. -/
def stations (s : State) : List Nat := if s.dual then [0, 1, 2, 3] else [0, 1]

/-- The axes present. -/
def axes (s : State) : List Nat := s.stations

/-- The halves present. -/
def halves (s : State) : List Nat := if s.dual then [0, 1] else [0]

/-- The CAN controllers present. -/
def cans (s : State) : List Nat := if s.dual then [0, 1, 2, 3] else [0, 2]

/-- A region's run bit in `CHIP_STATUS` (R21): 0 SH, 1 HA, 2 HB. -/
def regionRun (s : State) (r : Nat) : Bool := s.chip.regions.toList[r]? == some .run

/-- SH runs, so Milliner, the host ports and the recorder's FIFO are there (R15). -/
def shRun (s : State) : Bool := s.regionRun 0

/-- A half runs and its blocks act: not before its configuration is loaded (R50). -/
def halfRun (s : State) (h : Nat) : Bool := s.regionRun (h + 1) && s.chip.phase != .restricted

/-- The chip has power and is out of its chip-wide reset. -/
def alive (s : State) : Bool := s.chip.phase == .restricted || s.chip.phase == .running

/-- A half is ISOLATED (R17, R378). -/
def isolated (s : State) (h : Nat) : Bool := s.get (halfB h) F.SUP_MST_ROLE == 3

/-- The half that holds the token, as `CHIP_STATUS.MASTER`: 0 none, 1 HA, 2 HB. -/
def master (s : State) : Nat := s.nat 0 F.CHIP_STATUS_MASTER

/-- A station's mode code (Table PK-11). -/
def mode (s : State) (n : Nat) : Nat := s.nat (stnB n) F.STN_STAT_MODE

/-- The block is out of service. -/
def oos (s : State) : Block → Bool
  | .cfg => s.on 0 F.FLT_SH_OOS_CFG
  | .recorder => s.on 0 F.FLT_SH_OOS_REC
  | .lnkW => s.on 0 F.FLT_SH_OOS_LNK_W
  | .lnkE => s.on 0 F.FLT_SH_OOS_LNK_E
  | .mbx => s.on 0 F.FLT_SH_OOS_MBX
  | .spi => s.on 0 F.FLT_SH_OOS_SPI
  | .uart => s.on 0 F.FLT_SH_OOS_UART
  | .abmbx => s.on 0 F.FLT_SH_OOS_ABMBX
  | .stn n => bitN (s.nat (halfB (n.val / 2)) F.SUP_OOS_STN) (n.val % 2)
  | .axs n => bitN (s.nat (halfB (n.val / 2)) F.SUP_OOS_AXS) (n.val % 2)
  | .can c => bitN (s.nat (halfB (c.val % 2)) F.SUP_OOS_CAN) (c.val / 2)
  | .bgd h => s.on (halfB h.val) F.SUP_OOS_BGD
  | .len h => s.on (halfB h.val) F.SUP_OOS_LEN
  | .asc h => s.on (halfB h.val) F.SUP_OOS_ASC
  | .spt h => s.on (halfB h.val) F.SUP_OOS_SPT
  | .thm h => s.on (halfB h.val) F.SUP_OOS_THM

end State

end Sys2Proof.Machine
namespace Sys2Proof.Machine

/-! ### Recorder triggers (R386 to R392) -/

/-- Triggers that are always enabled (Table ER-2). -/
def trigFixed : List Nat := [1, 2, 3, 6, 7, 8, 9, 10, 12, 13, 14]

/-- Triggers with fixed content (Table ER-4). -/
def trigContent : List Nat := [9, 12, 13, 14]

/-- The word-0 address of trigger t's settings (Table ER-5). -/
def recT (t : Nat) : Nat := 0x80 * t

namespace State

/-- A trigger's enable in force. -/
def trigOn (s : State) (t : Nat) : Bool := trigFixed.contains t || s.on (recT t) F.REC_TCFG_EN

/-- Whether a trigger's record goes to the felt region: always for a level 4 fault, PROT_CFG and SEAL; never for WK_WRITE;
else the FELT setting (Table ER-2). -/
def trigFelt (s : State) (t code : Nat) : Bool :=
  if t == 12 || t == 13 then true
  else if t == 14 then false
  else if t == 1 && code / 4096 == 4 then true
  else s.on (recT t) F.REC_TCFG_FELT

/-- Felt records in use: written or staged, waiting in the FIFO, and reserved (R103, R396). -/
def feltUsed (s : State) : Nat :=
  s.log.nextFelt + (s.log.fifo.filter fun x => x.felt && s.trigFelt x.trig x.code).length + s.log.reserved

/-- A record being written that a trigger repeats: same trigger, region and code, its NVA write not begun (R391). -/
def repeats (t r code : Nat) (x : Recd) : Bool := x.trig == t && x.region == r && x.code == code

/-- Add one repeat to the matching staged record. -/
def addRepeat (s : State) (t r code : Nat) : State :=
  s.withLog fun l => { l with staging := (l.staging.map fun x =>
    if repeats t r code x then { x with rep := min 0xFFFF (x.rep + 1) } else x) }

/-- Count lost triggers (R392). -/
def loseTrig (s : State) (k : Nat) : State :=
  (s.withLog fun l => { l with pendLost := l.pendLost + k }).bumpBy 0 F.REC_CNT_LOST k

/-- A stamped trigger reaches the FIFO in SH: refused during a flush, a repeat, lost, or entered. A felt-bound trigger that
finds no free felt record is entered for the circulating region (R396), which its capture marks. -/
def fifoEnter (s : State) (t r code : Nat) (rseq : Nat) (data : List Nat) : State :=
  if s.log.flush.isSome then s.loseTrig 1
  else if s.log.staging.any (repeats t r code) then s.addRepeat t r code
  else if 32 ≤ s.log.fifo.length then s.loseTrig 1
  else s.withLog fun l => { l with fifo := (l.fifo ++
    [{ trig := t, region := r, code := code, tick := s.time, rseq := rseq,
       felt := s.trigFelt t code && decide (s.feltUsed < 512), redir := s.trigFelt t code && decide (512 ≤ s.feltUsed),
       data := data }]) }

/-- A region raises a trigger (R386, R392): a disabled trigger moves nothing; RSEQ counts every enabled one; a half that cannot
reach SH counts it itself and delivers the count with its next trigger that does; a trigger of SH itself is not accepted while SH is out
(R15) and is lost. -/
def trigger (s : State) (r t code : Nat) (data : List Nat := []) : State :=
  if !s.trigOn t then s
  else
    let q := s.log.rseq.toList.getD r 0
    let s := s.withLog fun l => { l with rseq := l.rseq.setIfInBounds r ((q + 1) % 256) }
    if r == 0 && s.shRun then s.fifoEnter t r code q data
    else if r == 0 then s.loseTrig 1
    else if s.shRun then
      let k := s.log.halfLost.toList.getD (r - 1) 0
      let s := if k = 0 then s else s.loseTrig k
      (s.withLog fun l => { l with halfLost := l.halfLost.setIfInBounds (r - 1) 0 }).fifoEnter t r code q data
    else s.withLog fun l => { l with halfLost := l.halfLost.setIfInBounds (r - 1) (l.halfLost.toList.getD (r - 1) 0 + 1) }

end State

/-! ### Outbound packets and notices (R78) -/

/-- A packet's two header words, payload and CRC (R66, R68). -/
def Packet.words (p : Packet) : List Nat :=
  let w0 := p.tag * 2 ^ 26 + p.cls * 2 ^ 24 + p.opcode * 2 ^ 16 + (if p.want then 0x8000 else 0) +
    (if p.snap then 0x4000 else 0) + 4 * p.payload.length
  let w1 := p.scope * 2 ^ 28 + p.index * 2 ^ 24 + p.status * 2 ^ 16 + p.detail
  let ws := w0 :: w1 :: p.payload
  ws ++ [crcWords ws]

/-- A packet's bytes in sending order. -/
def Packet.bytes (p : Packet) : List Byte := (p.words.flatMap wordBytes).map (BitVec.ofNat 8)

/-- The outbound port of a transport; the chip's own position has none. -/
def portOf : Transport → Option Nat
  | .spi => some 0
  | .uart => some 1
  | .can c => some (2 + c.val)
  | .ring _ _ => some 6
  | .own _ => none

/-- Capacity of the outbound queues (R78). -/
def QKind.cap : QKind → Nat
  | .reply => 128
  | .reject => 16
  | .notice => 32

/-- The packets of one kind that a port holds. -/
def Port.level (p : Port) (k : QKind) : Nat := (p.out.filter (·.1 == k)).length

/-- An inner packet wrapped for the forwarding chip (R72). A reply whose payload exceeds the 1008 bytes that R72 gives inner commands is wrapped
whole, with a LENGTH above 1020 (DESIGN CHOICE, log entry 96). -/
def wrapOuter (o : OuterHdr) (p : Packet) : Packet :=
  { cls := p.cls, tag := o.tag.toNat, opcode := o.op.toNat, want := o.want, snap := o.snap, scope := 7,
    index := o.index.toNat, status := p.status, detail := 0, payload := p.words }

/-- A reply or completion that ends its command: every one but ACCEPTED (R75). -/
def Packet.final (p : Packet) : Bool := !(p.cls == 1 && p.status == 1)

/-- The forwarded commands to position `ix` in the order of acceptance: those before the first that has no reply yet send what has come for
them (R76). What remains busy, and what goes out. -/
def unblock (ix : Nat) : List Busy → List Busy × List (Transport × Packet)
  | [] => ([], [])
  | b :: r =>
    if b.index ≠ ix ∨ b.fwd = none ∨ b.arg = 1 then
      let u := unblock ix r
      (b :: u.1, u.2)
    else if b.late.isEmpty then (b :: r, [])
    else
      let u := unblock ix r
      (if b.late.any Packet.final then u.1 else { b with arg := 1, late := [] } :: u.1, b.late.map (fun p => (b.tr, p)) ++ u.2)

/-- The reply (class 1) or completion (class 2) of a busy command. -/
def Busy.packet (b : Busy) (cls st detail : Nat) (pay : List Nat) : Packet :=
  { cls := cls, tag := b.tag, opcode := b.op, want := b.want, snap := b.snap, scope := b.scope, index := b.index, status := st,
    detail := detail, payload := pay }

namespace State

/-- A port's outbound side. -/
def port (s : State) (i : Nat) : Port :=
  s.mil.ports.toList.getD i { out := [], rejLost := false, evtLost := false, count := 0 }

/-- Change one port. -/
def withPort (s : State) (i : Nat) (g : Port → Port) : State :=
  s.withMil fun m => { m with ports := m.ports.setIfInBounds i (g (s.port i)) }

/-- The packet about to be sent first on a port carries `DETAIL` [15] when a packet of its kind has been lost (R78). Of a rejection that the hatband
carries inside another packet it is the outer one's (DESIGN CHOICE, log entry 117). -/
def markHead (s : State) (i : Nat) : State :=
  match (s.port i).out with
  | [] => s
  | (k, p) :: r =>
    let lost := match k with | .reject => (s.port i).rejLost | .notice => (s.port i).evtLost | .reply => false
    if lost then s.withPort i fun q =>
      { q with out := (k, { p with detail := p.detail % 0x8000 + 0x8000 }) :: r, rejLost := k != .reject && q.rejLost, evtLost := k != .notice && q.evtLost }
    else s

/-- Free a tag (R74). -/
def freeTag (s : State) (tag : Nat) : State := s.withMil fun m => { m with busy := m.busy.filter (fun b => b.tag != tag) }

/-- Make a command's tag busy (R74); `arg` says what its work acts on. -/
def occupy (s : State) (c : Cmd) (op arg : Nat) : State :=
  s.withMil fun m => { m with busy := (m.busy ++
    [{ tag := c.tag.toNat, op := op, want := c.want, snap := c.snap, scope := c.scope.toNat, index := c.index.toNat,
       tr := c.tr, fwd := none, arg := arg }]) }

/-- Queue a packet of an accepted command; never dropped (R78). -/
def queueReply (s : State) (i : Nat) (p : Packet) : State :=
  s.withPort i fun q => { q with out := q.out ++ [(.reply, p)] }

/-- Queue a rejection, or lose it when 16 wait (R78). -/
def queueReject (s : State) (i : Nat) (p : Packet) : State :=
  if (s.port i).level .reject < 16 then s.withPort i fun q => { q with out := q.out ++ [(.reject, p)] }
  else (s.withPort i fun q => { q with rejLost := true }).bump 0 F.MIL_REJ_CNT_REJ_LOST

/-- Queue a notice on one port, or drop it when 32 wait (R78). -/
def queueNotice (s : State) (i ty : Nat) (body : List Nat) : State :=
  if (s.port i).level .notice < 32 then
    s.withPort i fun q =>
      { q with count := (q.count + 1) % 64, out := (q.out ++ [(.notice,
        { cls := 3, tag := q.count, opcode := ty, want := false, snap := false, scope := 0, index := 0, status := 0,
          detail := 0, payload := body })]) }
  else ((s.withPort i fun q => { q with evtLost := true }).bump 0 F.MIL_ERR_CNT_EVT_LOST).put 0 F.MIL_STAT_EVT_LOST_SEEN 1

/-- An event notice (R78, Table PK-11): on every routed transport, when its type is enabled and Milliner runs. No rule says which CAN port
carries notices routed to the tunnel, or how many queues the tunnels have: every controller with `TUN_EN` set carries them, each from its own
queues (DESIGN CHOICE, log entry 71). -/
def notice (s : State) (ty : Nat) (body : List Nat) : State :=
  if s.chip.regions.toList.getD 0 .down == .run && bitN (s.nat 0 F.MIL_EVT_CFG_TYPE_EN) ty then
    let r := s.nat 0 F.MIL_EVT_CFG_ROUTE
    let b := u64Words s.time ++ body
    let s := if bitN r 0 then s.queueNotice 0 ty b else s
    let s := if bitN r 1 then s.queueNotice 1 ty b else s
    if bitN r 2 then s.each (s.cans.filter fun c => s.on (canB c) F.CAN_CTRL_TUN_EN) fun c s => s.queueNotice (2 + c) ty b
    else s
  else s

/-- A packet has come for the forwarded command `b`, whose tag ends with the inner final reply (R72): the packets that go out now, on their
transports. It waits while the first reply of a command accepted earlier for the same position is outstanding (R76). -/
def fwdTake (s : State) (b : Busy) (p : Packet) : State × List (Transport × Packet) :=
  if b.arg = 1 then (if p.final then s.freeTag b.tag else s, [(b.tr, p)])
  else
    let r := unblock b.index (s.mil.busy.map fun e => if e.tag == b.tag then { e with late := e.late ++ [p] } else e)
    (s.withMil fun m => { m with busy := r.1 }, r.2)

/-- A packet that answers a command goes out on its transport, at most `f` own-position commands out: a command of the chip's own position
has its packet wrapped and sent as an answer to the outer command (R72). -/
def answerAt : Nat → State → Transport → Packet → State
  | 0, s, .own _, _ => s
  | f + 1, s, .own o, p =>
    match s.mil.busy.find? (fun b => b.tag == o.tag.toNat && b.op == o.op.toNat && b.fwd.isSome) with
    | some b =>
      let r := s.fwdTake b (wrapOuter o p)
      r.2.foldl (fun s x => answerAt f s x.1 x.2) r.1
    | none => s
  | _, s, .ring pos o, p => s.queueReply 6 { wrapOuter o p with dest := pos.val }
  | _, s, t, p => s.queueReply ((portOf t).getD 0) p

/-- Send a packet that answers an accepted command on its transport. Outer commands hold tags of their own, so 64 bounds their depth. -/
def answer (s : State) (tr : Transport) (p : Packet) : State := answerAt 64 s tr p

/-- An answer to the forwarded command `b`, an outer packet already (R72). -/
def fwdAnswer (s : State) (b : Busy) (p : Packet) : State :=
  (s.fwdTake b p).2.foldl (fun s x => s.answer x.1 x.2) (s.fwdTake b p).1

/-- The rejection of a command (R73): the received tag, no tag state changed. -/
def refuse (s : State) (c : Cmd) (op st detail : Nat) : State :=
  let p : Packet := { cls := 1, tag := c.tag.toNat, opcode := op, want := c.want, snap := c.snap, scope := c.scope.toNat,
                      index := c.index.toNat, status := st, detail := detail, payload := [] }
  match c.tr with
  | .own _ => s.answer c.tr p
  | .ring pos o => s.queueReject 6 { wrapOuter o p with dest := pos.val }
  | t => s.queueReject ((portOf t).getD 0) p

/-- The reply to an accepted command. -/
def reply (s : State) (c : Cmd) (op st detail : Nat) (pay : List Nat) : State :=
  s.answer c.tr { cls := 1, tag := c.tag.toNat, opcode := op, want := c.want, snap := c.snap, scope := c.scope.toNat,
                  index := c.index.toNat, status := st, detail := detail, payload := pay }

/-- ACCEPTED: the tag becomes busy and the completion is owed (R74, R75). `arg` says what the work acts on. -/
def begin (s : State) (c : Cmd) (op : Nat) (arg : Nat := 0) : State :=
  (s.occupy c op arg).reply c op 1 0 []

/-- The completion of a busy command: queued, and its tag free (R74). -/
def completeB (s : State) (b : Busy) (st detail : Nat) (pay : List Nat) : State :=
  (s.freeTag b.tag).answer b.tr
    { cls := 2, tag := b.tag, opcode := b.op, want := b.want, snap := b.snap, scope := b.scope, index := b.index,
      status := st, detail := detail, payload := pay }

/-- The reply that a command which sends no ACCEPTED has owed since its acceptance: queued, and its tag free. -/
def replyB (s : State) (b : Busy) (st detail : Nat) (pay : List Nat) : State :=
  (s.freeTag b.tag).answer b.tr
    { cls := 1, tag := b.tag, opcode := b.op, want := b.want, snap := b.snap, scope := b.scope, index := b.index,
      status := st, detail := detail, payload := pay }

/-- The busy commands of an opcode and an argument. -/
def owed (s : State) (op arg : Nat) : List Busy :=
  s.mil.busy.filter fun b => b.op == op && b.arg == arg && b.fwd == none && b.late.isEmpty

/-- The packets of a command whose work is done are queued, and its tag is free. -/
def sendLate (s : State) (b : Busy) (ps : List Packet) : State := ps.foldl (fun s p => s.answer b.tr p) (s.freeTag b.tag)

/-- The commands to loop engine `i` that are done are answered as far as none before them is still at work, at most `f` of them (R76). -/
def release : Nat → State → Nat → State
  | 0, s, _ => s
  | f + 1, s, i =>
    match s.mil.busy.find? (fun e => e.scope == 6 && e.index == i && e.fwd == none) with
    | some e => if e.late.isEmpty then s else release f (s.sendLate e e.late) i
    | none => s

/-- The answer of a done command: at once, or, to a loop engine, after the first reply of the commands accepted before it (R76). -/
def orderedAnswer (s : State) (b : Busy) (ps : List Packet) : State :=
  if b.scope ≠ 6 then s.sendLate b ps
  else if (s.mil.busy.takeWhile (·.tag != b.tag)).any fun e => e.scope == 6 && e.index == b.index && e.fwd == none then
    s.withMil fun m => { m with busy := m.busy.map fun e => if e.tag == b.tag then { e with late := ps } else e }
  else release 64 (s.sendLate b ps) b.index

/-- Complete every owed command of an opcode and argument. -/
def completeAll (s : State) (op arg st detail : Nat) (pay : List Nat := []) : State :=
  s.each (s.owed op arg) fun b s => s.completeB b st detail pay

/-- Answer an on-request command (R75): ACCEPTED with a completion to come when one is wanted, else OK. -/
def start (s : State) (c : Cmd) (op arg detail : Nat) (pay : List Nat) : State :=
  if c.want then (s.occupy c op arg).reply c op 1 detail pay
  else s.reply c op 0 detail pay

end State

/-! ### Fault lists (R375 to R377) -/

/-- A fault code (Table FH-5 and others): level, region field, cause. -/
def fcode (level region cause : Nat) : Nat := level * 4096 + region * 256 + cause

/-- Entries a list holds (R375). -/
def FUnit.cap : FUnit → Nat
  | .chip => 16
  | _ => 32

/-- Causes whose chapter marks "No" in the FAULT_N column (Tables RS-9, SV-10, CN-9). -/
def quietCauses : List Nat := [0x90, 0x92, 0xA9, 0xAA, 0xC4]

/-- Causes marked "When steaming fails" (R376): they assert FAULT_N only as lasting entries. -/
def steamCauses : List Nat := [0x91, 0xC2, 0xD6]

namespace State

/-- A unit's entries, in the order of entry. -/
def faultsOf (s : State) (u : FUnit) : List FEntry := s.flt.list.filter (·.unit == u)

/-- The unit's entry of a code. -/
def hasFault (s : State) (u : FUnit) (code : Nat) : Bool := s.flt.list.any fun e => e.unit == u && e.code == code

/-- A code reaches a unit's list (R375): another occurrence of its entry, an entry of its own with its FAULT notice, or, with the list full,
the unit's overflow. -/
def enterList (s : State) (u : FUnit) (code : Nat) : State :=
  if s.hasFault u code then
    s.withFlt fun f => { f with list := (f.list.map fun e =>
      if e.unit == u && e.code == code then { e with occ := min 0xFFFF (e.occ + 1), last := s.time } else e) }
  else if u.cap ≤ (s.faultsOf u).length then
    s.withFlt fun f => { f with ovf := if f.ovf.contains u then f.ovf else f.ovf ++ [u] }
  else
    (s.withFlt fun f => { f with list := (f.list ++
      [{ unit := u, code := code, occ := 1, tick := s.time, last := s.time, lasting := false, out := [] }]) }).notice 1 [code + 0x10000]

/-- A region raises a code into a unit's list: a code without an entry there is recorded too (R375). -/
def raiseBy (s : State) (r : Nat) (u : FUnit) (code : Nat) (data : List Nat := []) : State :=
  if s.hasFault u code then s.enterList u code else (s.enterList u code).trigger r 1 code data

/-- A code raised by the region it names. -/
def raise (s : State) (u : FUnit) (code : Nat) (data : List Nat := []) : State := s.raiseBy (code / 256 % 16) u code data

/-- An entry that ends by itself or by a steaming pass: removed, with its notice of removal. -/
def unraise (s : State) (u : FUnit) (code : Nat) : State :=
  if s.hasFault u code then
    (s.withFlt fun f => { f with list := f.list.filter fun e => !(e.unit == u && e.code == code) }).notice 1 [code]
  else s

/-- From VIN_START, and from each reset, until start-up completes, and after a die shutdown (R35, R216); a chip without supply and a
sleeping chip leave the pin alone (R35, Table PW-8). -/
def starting (s : State) : Bool :=
  match s.chip.phase with
  | .reset | .resetFlush | .starting | .restricted | .shutdown => true
  | .off | .running | .sleepEntry | .asleep => false

/-- The chip can pull FAULT_N low: it has supply and its rails are on (R35, R60). -/
def supplied (s : State) : Bool := !(s.chip.phase == .off || s.chip.phase == .asleep)

/-- FAULT_N is asserted (R376, R35). -/
def faultSum (s : State) : Bool :=
  s.supplied && (s.starting ||
    s.flt.list.any (fun e => e.lasting || !(quietCauses.contains (e.code % 256) || steamCauses.contains (e.code % 256))) ||
    s.chip.regions.toList.any (· == .held) || !s.on 0 F.CHIP_STATUS_CFG_VALID || !s.flt.ovf.isEmpty)

end State

end Sys2Proof.Machine
end

