-- ==== Sys2Proof/Machine/Loop.lean ====
section
/-!
DEFINITION. The loop engine (chapter 12): signals, holds, the seven instance types, presets, admission, and the request bookkeeping of
R244. The set-point port's conversions are here too.
-/
namespace Sys2Proof.Machine

/-- Byte address from which a slot's registers and internal numbers count. -/
def slotB (h n : Nat) : Nat := halfB h + 0x80 * n

/-- Byte address from which a station's sink and chain registers count, station local `l` of half `h`. -/
def snkB (h l : Nat) : Nat := halfB h + 0x10 * l

/-- Default content of word `w` of the image's table area: the microstep tables of R315, else 0. -/
def defTab (w : Nat) : Int :=
  if 0x4400 ≤ w ∧ w < 0x5400 then cos16 ((w % 1024 : Nat) * 2 ^ 22) % 65536 + 65536 * (sin16 ((w % 1024 : Nat) * 2 ^ 22) % 65536)
  else 0

namespace State

/-! ### Station quantities that the engine reads -/

/-- The half of a station. -/
def halfOf (n : Nat) : Nat := n / 2

/-- The station's speed w (R224): the observer's while it is the angle source, the generator's in open loop, else PF_SPEED;
s32 Q14.18 mechanical rev/s. -/
def speedW (s : State) (n : Nat) : Int :=
  let b := stnB n
  let pp := max 1 (s.get b F.COM_MOTOR_PP)
  if s.get b F.COM_STAT_ASRC_NOW == 1 then tdiv (s.get b F.OBS_SPEED_WE) pp
  else s.get b F.PF_SPEED_SPEED

/-- A speed in Q14.18 rev/s as pu32 of the station (Table LE-2, SPEED). -/
def toPu (s : State) (n : Nat) (w : Int) : Int :=
  sat32 (tdiv (w * 640) (max 1 (s.get (snkB (n / 2) (n % 2)) F.LEN_WBASE_WBASE)))

/-- SPEED of Table LE-2. -/
def speedPu (s : State) (n : Nat) : Int := s.toPu n (s.speedW n)

/-- vdc_meas in pu16: the bus voltage at the station's sampling instant (R201). -/
def vdcPu (s : State) (n : Nat) : Int :=
  sat16 (tdiv (s.get (stnB n) H.vdcT0 * 8192) (max 1 (s.get (stnB n) F.COM_VBASE_VBASE)))

/-- Running modes: RUN, STOPPING and ISOLATED. -/
def runLike (s : State) (n : Nat) : Bool := s.mode n == 3 || s.mode n == 4 || s.mode n == 7

/-- A slot's output, pu32. -/
def slotOut (s : State) (h n : Nat) : Int := s.get (slotB h n) F.LEN_OUT_OUT

/-- A coefficient word of a bank of a slot. -/
def coef (s : State) (h n bank word : Nat) : Int :=
  s.get (slotB h n) (match bank, word with
    | 0, 0 => F.LEN_C00_C | 0, 1 => F.LEN_C01_C | 0, 2 => F.LEN_C02_C | 0, _ => F.LEN_C03_C
    | _, 0 => F.LEN_C10_C | _, 1 => F.LEN_C11_C | _, 2 => F.LEN_C12_C | _, _ => F.LEN_C13_C)

/-- A coefficient word read unsigned. -/
def coefU (s : State) (h n bank word : Nat) : Int := s.coef h n bank word % 2 ^ 32

/-- The bank in force of a slot's group. -/
def bankOf (s : State) (h n : Nat) : Nat :=
  if bitN (s.nat (halfB h) F.LEN_BANK_BANK) (s.nat (slotB h n) F.LEN_CFG_GROUP) then 1 else 0

/-- A word of the table area in force (Table CF-4), by byte offset in the image. -/
def tabWord (s : State) (off : Nat) : Nat := (defTab (off / 4) + s.tabs.get (off / 4)).toNat

/-- A microstep entry as a coil has it: a load takes effect at the coil's next chopper cycle (R315). -/
def coilWord (s : State) (off : Nat) (coilB : Bool) : Nat :=
  ((s.axOld.find? fun e => e.1 == off && e.2.1 == coilB).map (·.2.2)).getD (s.tabWord off)

/-- A word of the tables as it reads: of a microstep entry, each coil's value in force. -/
def tabShown (s : State) (off : Nat) : Nat := s.coilWord off false % 65536 + 65536 * (s.coilWord off true / 65536)

/-- Entry `i` of the gain table of a slot's bank: Kp and Ki (R247). -/
def gain (s : State) (h n bank i : Nat) : Int × Int :=
  let w := s.tabWord (0x9000 + 0x4000 * h + 0x2000 * bank + 0x88 * n + 4 * i)
  ((w % 65536 : Nat), (w / 65536 % 65536 : Nat))

/-- A slot number of a sink or chain field, none for 0x3F. -/
def slotNo (v : Int) : Option Nat := if v = 63 then none else some v.toNat

/-- The command before the speed limit in RUN, by SOURCE (R242). -/
def rawCmd (s : State) (n : Nat) : Int :=
  let b := stnB n
  match s.nat b F.STN_STAT_SOURCE with
  | 1 => match slotNo (s.get (snkB (n / 2) (n % 2)) F.LEN_CHAIN_SP_SLOT) with | none => 0 | some m => s.slotOut (n / 2) m
  | 2 => s.get b H.alloc
  | _ => s.get b H.hostCmd

/-- CMD as it stands (R242): in RUN it follows its source within the speed clamp in force, 0 while the brake releases (R291); elsewhere it is
the value last formed. -/
def cmdNow (s : State) (n : Nat) : Int :=
  let b := stnB n
  if s.mode n != 3 then s.get b F.STN_CMD_CMD
  else if s.on b H.brkWait || (s.get b F.STN_STAT_KIND == 2 && s.get b F.STN_STAT_SOURCE != 1) then 0
  else if s.get b F.STN_STAT_KIND == 1 then clampI (-(s.get b H.limNow)) (s.get b H.limNow) (s.rawCmd n)
  else s.rawCmd n

/-- CMDPOS as it stands (R242): the host's position in RUN with KIND 2. -/
def cmdPosNow (s : State) (n : Nat) : Int :=
  let b := stnB n
  if s.mode n == 3 && s.get b F.STN_STAT_KIND == 2 && !s.on b H.brkWait then s.get b H.hostCmd else s.get b H.cmdPos

/-- A signal of Table LE-2 as the engine reads it: pu32, with pu16 widened by 11 bits (R239); POS and CMDPOS as s48. -/
def signal (s : State) (h code : Nat) : Int :=
  if 0x40 ≤ code ∧ code ≤ 0x6F then s.slotOut h (code - 0x40)
  else if 0x30 ≤ code ∧ code ≤ 0x3F then s.get (halfB h + 4 * (code - 0x30)) F.LEN_PARAM_PARAM
  else if 0x10 ≤ code ∧ code < 0x30 then
    let n := 2 * h + (code - 0x10) / 16
    let b := stnB n
    match (code - 0x10) % 16 with
    | 0 => s.get b F.COM_IDQ_ID * 2048
    | 1 => s.get b F.COM_IDQ_IQ * 2048
    | 2 => s.get b F.COM_IREF_ID_REF * 2048
    | 3 => s.get b F.COM_IREF_IQ_REF * 2048
    | 4 => (if s.get b F.COM_STAT_LAW_NOW == 1 then s.get b F.COM_IDQ_IQ else 0) * 2048
    | 5 => s.speedPu n
    | 6 => s.get b F.PF_POS_POS
    | 7 => s.cmdNow n
    | 8 => s.cmdPosNow n
    | 9 => s.get b H.istarOut * 2048
    | 10 => s.vdcPu n * 2048
    | _ => 0
  else 0

/-- Input A to D of a slot. -/
def input (s : State) (h n i : Nat) : Int :=
  let b := slotB h n
  s.signal h (s.nat b (match i with | 0 => F.LEN_IN_IN_A | 1 => F.LEN_IN_IN_B | 2 => F.LEN_IN_IN_C | _ => F.LEN_IN_IN_D))

/-! ### Chain slot (R241, R243, R291, R293) -/

/-- A chain entry by KIND. -/
def chainEntry (s : State) (n kind : Nat) : Option Nat :=
  let b := snkB (n / 2) (n % 2)
  slotNo (s.get b (match kind with | 0 => F.LEN_CHAIN_K0 | 1 => F.LEN_CHAIN_K1 | _ => F.LEN_CHAIN_K2))

/-- The chain slot in force: K1 while a stop of type 0, 1 or 3 or the brake-release delay runs and K1 exists, else the entry of
the station's KIND. -/
def chainOf (s : State) (n : Nat) : Option Nat :=
  let b := stnB n
  let k1 := s.chainEntry n 1
  if (s.mode n == 4 && s.get b F.STN_STAT_STOP != 2 || s.on b H.brkWait) && k1.isSome then k1
  else s.chainEntry n (s.nat b F.STN_STAT_KIND)

/-- The slot of a sink. -/
def vdSlot (s : State) (n : Nat) : Option Nat := slotNo (s.get (snkB (n / 2) (n % 2)) F.LEN_SNK_VD_SLOT)
def vqSlot (s : State) (n : Nat) : Option Nat := slotNo (s.get (snkB (n / 2) (n % 2)) F.LEN_SNK_VQ_SLOT)
def ffSlot (s : State) (n : Nat) : Option Nat := slotNo (s.get (snkB (n / 2) (n % 2)) F.LEN_SNK_FF_SLOT)
def spSlot (s : State) (n : Nat) : Option Nat := slotNo (s.get (snkB (n / 2) (n % 2)) F.LEN_CHAIN_SP_SLOT)

/-- Output of an optional slot, 0 for none. -/
def outOr0 (s : State) (h : Nat) : Option Nat → Int
  | none => 0
  | some m => s.slotOut h m

/-- I* before the clamp (R243). -/
def formIstar (s : State) (n : Nat) : Int :=
  let yc := match s.chainOf n with | none => s.get (stnB n) F.STN_CMD_CMD | some m => s.slotOut (n / 2) m
  sat16 (asr (yc + s.outOr0 (n / 2) (s.ffSlot n)) 11)

/-! ### Holds (R249, R250) -/

/-- The slot that a signal code names. -/
def codeSlot (code : Nat) : Option Nat := if 0x40 ≤ code ∧ code ≤ 0x6F then some (code - 0x40) else none

/-- A hold on slot `m` and the slots it passes on to: a selector's present winner, a filter's input A, at most `k` of them. -/
def holdPath (s : State) (h : Nat) : Nat → Nat → List Nat
  | 0, m => [m]
  | k + 1, m =>
    let b := slotB h m
    let next : Option Nat :=
      if s.get b F.LEN_CFG_TYPE == 4 then
        codeSlot (s.nat b (match s.nat b H.slWin with
          | 0 => F.LEN_IN_IN_A | 1 => F.LEN_IN_IN_B | 2 => F.LEN_IN_IN_C | _ => F.LEN_IN_IN_D))
      else if s.get b F.LEN_CFG_TYPE == 5 then codeSlot (s.nat b F.LEN_IN_IN_A)
      else none
    m :: match next with | none => [] | some m' => s.holdPath h k m'

/-- Slots held through station `n`: its VD and VQ slots by the voltage limit, its chain slot by the I* clamp or R290. -/
def heldBy (s : State) (n : Nat) : List Nat :=
  let b := stnB n
  let h := n / 2
  (if s.on b F.COM_STAT_VSAT then ((s.vdSlot n).toList ++ (s.vqSlot n).toList).flatMap (s.holdPath h 4) else []) ++
  (if s.on b H.clamped || s.on b H.wHold then ((s.chainOf n).toList).flatMap (s.holdPath h 4) else [])

/-- The hold decision of a slot's update (R249). -/
def slotHeld (s : State) (h m : Nat) : Bool :=
  (s.heldBy (2 * h)).contains m || (s.heldBy (2 * h + 1)).contains m ||
  (s.on (slotB h m) F.LEN_SST_SELLOSE && s.on (slotB h m) F.LEN_CFG_SEL_HOLD)

/-! ### The instance types -/

/-- The two references of a G or H slot: the sink slots compare the current references (R241), the others inputs A and B. -/
def slotPair (s : State) (h m : Nat) : Int × Int :=
  let l := if s.vdSlot (2 * h) == some m || s.vqSlot (2 * h) == some m then 2 * h else 2 * h + 1
  let b := stnB l
  if s.vdSlot l == some m then (s.get b F.COM_IREF_ID_REF * 2048, s.get b F.COM_IDQ_ID * 2048)
  else if s.vqSlot l == some m then (s.get b F.COM_IREF_IQ_REF * 2048, s.get b F.COM_IDQ_IQ * 2048)
  else (s.input h m 0, s.input h m 1)

/-- The error of a G or H slot (R246). -/
def slotErr (s : State) (h m : Nat) : Int :=
  let b := slotB h m
  let r := (s.slotPair h m).1
  let y := (s.slotPair h m).2
  if bitN (s.nat b F.LEN_CFG_TOPT) 1 then
    sat32 (tdiv (wrap48 (r - y) * 2 ^ 24) (max 1 (s.get (snkB h (s.nat b F.LEN_CFG_OWNER)) F.LEN_PBASE_PBASE)))
  else sat32 (r - y)

/-- Kp and Ki of a bank at an error (R246). -/
def gains (s : State) (h m bank : Nat) (e : Int) : Int × Int :=
  let ae := min (if e < 0 then -e else e) (2 ^ 31 - 1)
  let pos := min (asr ae ((s.coefU h m bank 0).toNat % 16)) (32 * 65536)
  let n := (pos / 65536).toNat
  let f := pos % 65536
  let g0 := s.gain h m bank n
  if n = 32 then g0
  else
    let g1 := s.gain h m bank (n + 1)
    (g0.1 + asr ((g1.1 - g0.1) * f) 16, g0.2 + asr ((g1.2 - g0.2) * f) 16)

/-- Mark an output: LEN_OUT, and AT_LIMIT when it stands at a limit. -/
def putOut (s : State) (h m : Nat) (y : Int) : State :=
  let b := slotB h m
  (s.put b F.LEN_OUT_OUT y).flag b F.LEN_SST_AT_LIMIT (y == s.get b F.LEN_LO_LO || y == s.get b F.LEN_HI_HI)

/-- A G slot's update (R246, R248, R256). -/
def runG (s : State) (h m : Nat) : State :=
  let b := slotB h m
  let bank := s.bankOf h m
  let lo := s.get b F.LEN_LO_LO
  let hi := s.get b F.LEN_HI_HI
  let e := s.slotErr h m
  let k := s.gains h m bank e
  let p := asr (k.1 * e) 10
  if s.on b H.slPre then
    let v := s.get b H.slPreV
    (((s.put b F.LEN_ACC_ACC (wrap48 ((v - p) * 65536))).puts b [(H.slPre, 0), (F.LEN_SST_PRESET_SEEN, 1), (H.slBump, 0)]).flag b
      F.LEN_SST_HELD (s.slotHeld h m)).putOut h m (clampI lo hi v)
  else
    let dp := asr ((s.gains h m 0 e).1 * e) 10 - asr ((s.gains h m 1 e).1 * e) 10
    let acc0 := s.get b F.LEN_ACC_ACC + s.get b H.slBump * dp * 65536
    let acc := wrap48 acc0
    let held := s.slotHeld h m
    let wrapOut := bitN (s.nat b F.LEN_CFG_TOPT) 0
    let inc0 := if held then 0 else asr ((k.2 * e) * 64) ((s.coefU h m bank 0).toNat / 16 % 16)
    let u := p + asr (acc + inc0) 16
    let own := !wrapOut && ((decide (u > hi) && decide (inc0 > 0)) || (decide (u < lo) && decide (inc0 < 0)))
    let inc := if own then 0 else inc0
    let sum := acc + inc
    let acc' := wrap48 sum
    let dw := asr (acc0 - acc) 48 + asr (sum - acc') 48
    let wrapped := decide (acc0 ≠ acc) || decide (sum ≠ acc')
    let y := if wrapOut then wrap32 (p + asr acc' 16) else clampI lo hi (p + asr acc' 16)
    let s := s.puts b [(F.LEN_ACC_ACC, acc'), (F.LEN_WRAPS_WRAPS, s.get b F.LEN_WRAPS_WRAPS + dw), (H.slBump, 0)]
    let s := s.flag b F.LEN_SST_HELD (held || own)
    let s := if wrapped && !wrapOut then s.put b F.LEN_SST_WRAP_SEEN 1 else s
    s.putOut h m y

/-- An H slot's update (R254, R255). -/
def runH (s : State) (h m : Nat) : State :=
  let b := slotB h m
  let lo := s.get b F.LEN_LO_LO
  let hi := s.get b F.LEN_HI_HI
  if s.on b H.slPre then
    ((s.puts b [(H.slPre, 0), (F.LEN_SST_PRESET_SEEN, 1)]).flag b F.LEN_SST_HELD (s.slotHeld h m)).putOut h m
      (if s.get b H.slPreV ≥ tdiv (lo + hi) 2 then hi else lo)
  else
    let e := s.slotErr h m
    let band := s.coefU h m (s.bankOf h m) 0 % 2 ^ 31
    (s.flag b F.LEN_SST_HELD (s.slotHeld h m)).putOut h m
      (if e > band then hi else if e < -band then lo else s.slotOut h m)

/-- An O slot's update (R253). -/
def runO (s : State) (h m : Nat) : State :=
  let b := slotB h m
  let bank := s.bankOf h m
  let ia := s.input h m 0
  let w := s.input h m 1
  let wh0 := s.get b H.slWh
  let tl0 := s.get b H.slTl
  let e := sat32 (w - wh0)
  let wh := sat32 (wh0 + asr (sat32 (ia - tl0) * s.coefU h m bank 0) 24 + asr (e * s.coefU h m bank 1) 24)
  let tl := sat32 (tl0 - asr (e * s.coefU h m bank 2) 24)
  let y := clampI (s.get b F.LEN_LO_LO) (s.get b F.LEN_HI_HI) (asr (tl * (s.coefU h m bank 3 % 65536)) 15)
  ((s.puts b [(H.slWh, wh), (H.slTl, tl), (H.slPre, 0)]).flag b F.LEN_SST_HELD (s.slotHeld h m)).putOut h m y

/-- The winner of a selector: the lowest candidate along the lead's direction; ties keep the lower index (R251). -/
def selectGo (d : Int) : List Int → Nat → Nat → Int → Nat
  | [], _, w, _ => w
  | c :: r, i, w, best => if d * c < d * best then selectGo d r (i + 1) i c else selectGo d r (i + 1) w best

/-- The latest update of selector `m` says which slots supply its losing candidates: each slot keeps one mark per selector, and `SELLOSE` reads
1 while any stands (R249, R251). -/
def putLosers (s : State) (h m : Nat) (losers : List Nat) : State :=
  s.each (List.range 48) fun k s =>
    let s := s.setBit (slotB h k) H.slLose m (losers.contains k)
    s.flag (slotB h k) F.LEN_SST_SELLOSE (s.on (slotB h k) H.slLose)

/-- An S slot's update (R251): its winner, and SELLOSE of every slot that supplies a candidate. -/
def runS (s : State) (h m : Nat) : State :=
  let b := slotB h m
  let n := s.nat b F.LEN_CFG_TOPT % 4 + 1
  let c := (List.range n).map (s.input h m)
  let d : Int := if c.headD 0 ≥ 0 then 1 else -1
  let w := selectGo d (c.drop 1) 1 0 (c.headD 0)
  let codes := [F.LEN_IN_IN_A, F.LEN_IN_IN_B, F.LEN_IN_IN_C, F.LEN_IN_IN_D].map (s.nat b)
  let s := (s.puts b [(H.slWin, w), (H.slPre, 0)]).flag b F.LEN_SST_HELD (s.slotHeld h m)
  let losers := ((List.range n).filter (· != w)).filterMap fun i => codeSlot (codes.getD i 0)
  (s.putLosers h m losers).putOut h m (c.getD w 0)

/-- An F slot's update (R252, R255). -/
def runF (s : State) (h m : Nat) : State :=
  let b := slotB h m
  let bank := s.bankOf h m
  let mode := s.nat b F.LEN_CFG_TOPT % 4
  if s.on b H.slPre then
    let v := s.get b H.slPreV
    ((s.puts b [(H.slPre, 0), (F.LEN_SST_PRESET_SEEN, 1), (H.slRR, sat32 v)]).flag b F.LEN_SST_HELD (s.slotHeld h m)).putOut h m (sat32 v)
  else
    let x := s.input h m 0
    let rr := s.get b H.slRR
    let dlt := x - rr
    let grow := (decide (rr ≥ 0) && decide (dlt > 0)) || (decide (rr < 0) && decide (dlt < 0))
    let st := (if grow then s.coefU h m bank 1 else s.coefU h m bank 2) % 2 ^ 31
    let rr' := rr + clampI (-st) st dlt
    let v := if mode ≥ 1 then rr' else x
    let y0 := s.slotOut h m
    let y := if mode = 1 then v else y0 + asr ((v - y0) * (s.coefU h m bank 0 % 65536)) 16
    let s := if mode ≥ 1 then s.put b H.slRR rr' else s
    (s.flag b F.LEN_SST_HELD (s.slotHeld h m)).putOut h m (clampI (s.get b F.LEN_LO_LO) (s.get b F.LEN_HI_HI) y)

/-- The pulse path of the set-point port as a P slot reads it, and the slot's frequency state (R257). `now` is the update's
tick. -/
def pulseX (s : State) (h m now : Nat) : Int × State :=
  let b := slotB h m
  let hb := halfB h
  let mode := s.nat hb F.SPT_CTRL_PMODE
  if mode = 2 then
    let cnt := (s.get hb F.SPT_CNT_CNT % 2 ^ 32).toNat
    let n : Int := (cnt + 2 ^ 32 - s.nat b H.slEdges) % 2 ^ 32
    let tl := s.nat hb H.lastEdge
    let dt : Int := (tl : Int) - s.nat b H.slLast
    let f := if n > 0 then tdiv (n * 400000000) (max 1 dt)
             else min (s.get b H.slF) (tdiv 400000000 (max 1 ((now : Int) - tl)))
    (sat32 (tdiv (f * 2 ^ 24) (max 1 (s.get hb F.SPT_FFS_F_FS))),
     s.puts b [(H.slF, f), (H.slEdges, cnt), (H.slLast, if n > 0 then tl else s.nat b H.slLast)])
  else if mode = 3 then
    let t := s.get hb H.perT
    let hi := s.get hb H.highT
    if t = 0 then (0, s)
    else ((if s.on hb F.SPT_CTRL_DUTY_BIP then tdiv ((2 * hi - t) * 2 ^ 24) t else tdiv (hi * 2 ^ 24) t), s)
  else (0, s)

/-- A P slot's update (R258). -/
def runP (s : State) (h m now : Nat) : State :=
  let b := slotB h m
  let hb := halfB h
  let bank := s.bankOf h m
  let pulse := bitN (s.nat b F.LEN_CFG_TOPT) 0
  let act := s.nat b F.LEN_CFG_TOPT / 2 % 4
  let px := s.pulseX h m now
  let x := if pulse then px.1 else s.get hb F.SPT_XA_XA
  let los := if pulse then s.on hb F.SPT_STAT_LOS_P else s.on hb F.SPT_STAT_LOS_A
  let s := if pulse then px.2.put hb F.SPT_XP_XP x else s
  let s := s.put b H.slPre 0
  let y :=
    if los then (if act = 1 then 0 else if act = 2 then s.coef h m bank 3 else s.slotOut h m)
    else
      let dx := x - s.coef h m bank 0
      let db := s.coefU h m bank 2 % 2 ^ 31
      let dx := if -db ≤ dx ∧ dx ≤ db then 0 else if dx > 0 then dx - db else dx + db
      clampI (s.get b F.LEN_LO_LO) (s.get b F.LEN_HI_HI) (asr (dx * s.coef h m bank 1) 16)
  (s.flag b F.LEN_SST_HELD (s.slotHeld h m)).putOut h m y

/-- A slot's update by its type (Table LE-1). -/
def runSlot (s : State) (h m now : Nat) : State :=
  let b := slotB h m
  let s := s.put b F.LEN_SST_BANK_USED (s.bankOf h m)
  match s.nat b F.LEN_CFG_TYPE with
  | 1 => s.runH h m
  | 2 => s.runG h m
  | 3 => s.runO h m
  | 4 => s.runS h m
  | 5 => s.runF h m
  | 6 => s.runP h m now
  | _ => s

/-! ### Reset state, presets, load -/

/-- The reset state of a slot (R255). -/
def resetSlot (s : State) (h m : Nat) : State :=
  let b := slotB h m
  s.puts b [(F.LEN_ACC_ACC, 0), (F.LEN_WRAPS_WRAPS, 0), (H.slRR, 0), (H.slWh, 0), (H.slTl, 0),
    (F.LEN_OUT_OUT, clampI (s.get b F.LEN_LO_LO) (s.get b F.LEN_HI_HI) 0), (F.LEN_SST_SELLOSE, 0), (H.slLose, 0),
    (F.LEN_SST_ERR, 0), (H.slPre, 0), (H.slReq, 0), (H.slCnt, 0), (H.slTrigT, s.time), (H.slBump, 0), (H.slWin, 0)]

/-- A preset of slot `m` to `v` (R255); a selector passes it to its candidates, at most `k` deep, which with the 48 slots of an engine reaches every
one. -/
def preset (s : State) (h : Nat) : Nat → Nat → Int → State
  | 0, _, _ => s
  | k + 1, m, v =>
    let b := slotB h m
    if s.get b F.LEN_CFG_TYPE == 4 then
      let codes := (List.range (s.nat b F.LEN_CFG_TOPT % 4 + 1)).map fun i =>
        s.nat b (match i with | 0 => F.LEN_IN_IN_A | 1 => F.LEN_IN_IN_B | 2 => F.LEN_IN_IN_C | _ => F.LEN_IN_IN_D)
      codes.foldl (fun s c => match codeSlot c with | none => s | some j => s.preset h k j v) s
    else if s.get b F.LEN_CFG_TYPE == 1 || s.get b F.LEN_CFG_TYPE == 2 || s.get b F.LEN_CFG_TYPE == 5 then
      s.puts b [(H.slPre, 1), (H.slPreV, v)]
    else s

/-- A preset of I* to `v`, pu16 (R255): the chain slot in force is preset to v − out[ff], in pu32 and so saturated (R4). -/
def presetIstar (s : State) (n : Nat) (v : Int) : State :=
  match s.chainOf n with
  | none => s
  | some m => s.preset (n / 2) 48 m (sat32 (v * 2048 - s.outOr0 (n / 2) (s.ffSlot n)))

/-- A preset of a sink slot to a pu16 value (R255). -/
def presetSink (s : State) (h : Nat) (m : Option Nat) (v : Int) : State :=
  match m with | none => s | some m => s.preset h 48 m (v * 2048)

/-- Engine cycles of one update (Table LE-5). -/
def slotCost (type topt : Nat) : Nat :=
  match type with
  | 1 => if bitN topt 1 then 32 else 24
  | 2 => if bitN topt 1 then 72 else 60
  | 3 => 48
  | 4 => 12 + 8 * (topt % 4 + 1)
  | 5 => match topt % 4 with | 0 => 16 | 1 => 20 | _ => 28
  | 6 => 40
  | _ => 0

/-- Cycles per second a slot is charged (R261): its cost times the charged rate. -/
def slotLoad (s : State) (h m : Nat) : Rat :=
  let b := slotB h m
  let c := slotCost (s.nat b F.LEN_CFG_TYPE) (s.nat b F.LEN_CFG_TOPT)
  let tp : Nat := max 1 (s.nat b F.LEN_CFG_TPARAM)
  match s.nat b F.LEN_CFG_TRIG with
  | 0 => mkRat (c * 200000) tp
  | 3 => mkRat (c * 100000) tp
  | _ => mkRat (c * 1000000) tp

/-- Committed load of a half, cycles per second (R261). -/
def committed (s : State) (h : Nat) : Rat := ((List.range 48).map (s.slotLoad h)).foldl (· + ·) 0

/-- LEN_LOAD follows the committed load, in units of 1000 cycles per second. -/
def putLoad (s : State) (h : Nat) : State := s.put (halfB h) F.LEN_LOAD_LOAD (s.committed h / 1000).floor

/-! ### Requests (R244, R245) -/

/-- The slot may update: its type is not 0, its state is not in error, the engine is in service, and RUNGATE passes. -/
def slotLive (s : State) (h m : Nat) : Bool :=
  let b := slotB h m
  s.get b F.LEN_CFG_TYPE != 0 && !s.on b F.LEN_SST_ERR && s.on (halfB h) F.LEN_STAT_IN_SERVICE &&
  (!s.on b F.LEN_CFG_RUNGATE || s.runLike (2 * h + s.nat b F.LEN_CFG_OWNER))

/-- A trigger reaches a slot: a request, or a merge with the request that waits (R245). -/
def request (s : State) (h m : Nat) : State :=
  let b := slotB h m
  if !s.slotLive h m then s
  else if s.on b H.slReq then s.bump b F.LEN_SST_MISS
  else s.puts b [(H.slReq, 1), (H.slReqT, s.time)]

/-- Requests that a slot's chip-time trigger has made by tick `t` since it was last served: its instants are the multiples of its spacing
(R244). -/
def chipDue (s : State) (h m t : Nat) : Nat :=
  let b := slotB h m
  let step := 400 * max 1 (s.nat b F.LEN_CFG_TPARAM)
  t / step - s.nat b H.slTrigT / step

/-- The trigger time of the request of slot `m` that the engine can serve at tick `t`, none without one (R244, R245): an external request only
once its smallest spacing has passed. -/
def dueAt (s : State) (h m t : Nat) : Option Nat :=
  let b := slotB h m
  let tp := s.nat b F.LEN_CFG_TPARAM
  let step := 400 * max 1 tp
  if !s.slotLive h m then none
  else if s.nat b F.LEN_CFG_TRIG = 1 && !s.on b H.slReq then (if s.chipDue h m t = 0 then none else some ((s.nat b H.slTrigT / step + 1) * step))
  else if !s.on b H.slReq then none
  else if s.nat b F.LEN_CFG_TRIG = 2 && decide (s.nat b H.slTick ≠ 0 ∧ t < s.nat b H.slTick + 400 * tp) then none
  else some (s.nat b H.slReqT)

/-- A slot's chip-time triggers up to now take effect (R244, R245): the first makes a request unless one waits, each other one merges and is
counted; a slot that may not update has dropped them. -/
def settleSlot (s : State) (h m : Nat) : State :=
  let b := slotB h m
  let k := s.chipDue h m s.time
  let step := 400 * max 1 (s.nat b F.LEN_CFG_TPARAM)
  if s.nat b F.LEN_CFG_TRIG ≠ 1 ∨ k = 0 then s
  else
    let s' := s.put b H.slTrigT s.time
    if !s.slotLive h m then s'
    else if s.on b H.slReq then s'.bumpPast b F.LEN_SST_MISS k
    else (s'.puts b [(H.slReq, 1), (H.slReqT, ((s.nat b H.slTrigT / step + 1) * step : Nat))]).bumpPast b F.LEN_SST_MISS (k - 1)

/-- The chip-time triggers of a half's slots up to now take effect, before what lets its slots update changes. -/
def settleHalf (s : State) (h : Nat) : State :=
  s.each ((List.range 48).filter fun m => s.nat (slotB h m) F.LEN_CFG_TRIG == 1) fun m s => s.settleSlot h m

/-- One more trigger of a divided source; every TPARAM-th makes a request (R244). -/
def countReq (s : State) (h m : Nat) : State :=
  let b := slotB h m
  let c := s.nat b H.slCnt + 1
  if !s.slotLive h m then s
  else if c ≥ s.nat b F.LEN_CFG_TPARAM then (s.put b H.slCnt 0).request h m
  else s.put b H.slCnt c

/-- A sink slot of one of the half's stations; those update inside the current-loop update (R241, R245). -/
def isSink (s : State) (h m : Nat) : Bool :=
  s.vdSlot (2 * h) == some m || s.vqSlot (2 * h) == some m || s.vdSlot (2 * h + 1) == some m || s.vqSlot (2 * h + 1) == some m

/-- Slots of a half with a trigger source and, for source 0, an owner. -/
def slotsOn (s : State) (h trig : Nat) : List Nat :=
  (List.range 48).filter fun m => s.get (slotB h m) F.LEN_CFG_TYPE != 0 && s.nat (slotB h m) F.LEN_CFG_TRIG == trig

end State

end Sys2Proof.Machine
end

