-- ==== Sys2Proof/Machine/Stations.lean ====
section
/-!
DEFINITION. What every station family shares (chapters 9, 14 and parts of 8, 10, 11): mode changes, the mechanical brake, the two-step
turn-off, fault stops with group trip, stops, leaving a service, fallbacks and entry to RUN.
-/
namespace Sys2Proof.Machine

/-! ### Station mode codes (Table PK-11) -/

def mOff : Nat := 0
def mDiag : Nat := 1
def mArmed : Nat := 2
def mRun : Nat := 3
def mStopping : Nat := 4
def mCatch : Nat := 5
def mFault : Nat := 6
def mIsolated : Nat := 7

/-- Completion and status codes (Table PK-4). -/
def stOK : Nat := 0x00
def stAccepted : Nat := 0x01
def stBadOpcode : Nat := 0x10
def stBadLength : Nat := 0x11
def stBadCrc : Nat := 0x12
def stBadTarget : Nat := 0x13
def stBadParam : Nat := 0x14
def stTagBusy : Nat := 0x15
def stNoKey : Nat := 0x20
def stSealed : Nat := 0x21
def stState : Nat := 0x22
def stAborted : Nat := 0x30
def stTimeout : Nat := 0x31
def stFaulted : Nat := 0x32
def stRegionDown : Nat := 0x40

/-- Byte address from which a service handle's registers count (Table SV-12). -/
def svcB (k : Nat) : Nat := 0x10 * k

namespace State

/-- The unit of a station's fault list. -/
def stnU (n : Nat) : FUnit := .stn (Fin.ofNat 4 n)

/-- A level-and-cause code of the region of a station. -/
def stnCode (n level cause : Nat) : Nat := fcode level (n / 2 + 1) cause

/-- SLOW of R290: the lowest of the SLOW argument, LIMP_SLOW in limp mode, and 255; and whether it limits. -/
def putSlow (s : State) (n : Nat) : State :=
  let b := stnB n
  let a := s.get b H.slowArg
  let v := if s.on b F.OBS_STAT_LIMP then min a (s.get b F.OBS_LIMP_LIMP_SLOW) else a
  (s.put b F.STN_WMAX_SLOW v).flag b F.STN_STAT_SLOW_ACT (decide (v < 255))

/-- Byte address from which the registers of scheduler slot `i` of user `u` count (R144). -/
def ascB (h u i : Nat) : Nat := halfB h + 0x100 * u + 0x20 * i

/-- Byte address from which its hidden numbers count. -/
def ascH (h u i : Nat) : Nat := halfB h + 0x100 * (8 * u + i)

/-- The argument by which a pending EVT_ARM completion names its slot; the replacement that waits adds 64. -/
def ascId (h u i : Nat) : Nat := 32 * h + 8 * u + i

/-- A slot disarms and its pending completions end with a status (R85, R143). -/
def ascDisarm (s : State) (h u i st : Nat) : State :=
  ((s.put (ascB h u i) F.ASC_SST_ARMED 0).puts (ascH h u i) [(H.ascPend, 0), (H.ascNew, 0), (H.ascJump, 0)]
    |>.completeAll 0x50 (ascId h u i) st 0).completeAll 0x50 (64 + ascId h u i) st 0

/-- Every slot of a user disarms (R143). -/
def ascDisarmUser (s : State) (h u st : Nat) : State := s.each (List.range 8) fun i s => s.ascDisarm h u i st

/-- The argument of a pending STN_SETPOINT: station, kind and value. -/
def setArg (n kind : Nat) (v : Int) : Nat := n + 4 * kind + 16 * (v % 2 ^ 48).toNat

/-- The pending STN_SETPOINT commands of a station whose argument satisfies `p` complete. -/
def completeSet (s : State) (n st : Nat) (p : Nat → Bool) : State :=
  s.each (s.mil.busy.filter fun b => b.op == 0x22 && b.arg % 4 == n && b.fwd == none && p b.arg) fun b s => s.completeB b st 0 []

/-- A station changes mode: chip-time triggers that came before it count by the old mode (R244); MODE, its notice and record trigger, its command as
it stands (R242); leaving RUN, or ARMED for another mode, ends a pending STN_SETPOINT with ABORTED (R84); leaving RUN and ISOLATED ends a SLOW limit
(R290); entry to FAULT disarms its scheduler slots (R143); entry to OFF or ARMED drops the brake output where BRK_OFF is set, and entry to DIAG drops
a level kept in OFF (R291). -/
def setMode (s : State) (n m : Nat) : State :=
  let b := stnB n
  let old := s.mode n
  if old = m then s
  else
    let s := if s.runLike n == (m == mRun || m == mStopping || m == mIsolated) then s else s.settleHalf (n / 2)
    let s := s.puts b [(F.STN_CMD_CMD, s.cmdNow n), (H.cmdPos, s.cmdPosNow n)]
    let s := (s.put b F.STN_STAT_MODE m).notice 2 [n + 256 * old + 4096 * m]
    let s := s.trigger (n / 2 + 1) 5 (n + 256 * old + 4096 * m)
    let s := if old = mRun ∨ (old = mArmed ∧ m ≠ mRun) then s.completeSet n stAborted fun _ => true else s
    let s := if (old = mRun ∨ old = mIsolated) ∧ m ≠ mRun ∧ m ≠ mIsolated then (s.put b H.slowArg 255).putSlow n else s
    let s := if m = mOff ∨ m = mFault then (s.put b F.OBS_STAT_LIMP 0).putSlow n else s
    let s := if m = mFault then s.ascDisarmUser (n / 2) (n % 2) stFaulted else s
    if m = mDiag ∨ ((m = mOff ∨ m = mArmed) ∧ s.on b F.STN_BRAKE_BRK_OFF) then s.put b F.STN_STAT_MBRK 0 else s

/-- The enables of a station forced to 0, with the compare enables that show them (R193 Step 1). -/
def dropEnables (s : State) (n : Nat) : State :=
  let b := stnB n
  s.puts b [(H.enab, 0), (H.swU, 0), (H.swV, 0), (H.swW, 0)] |>.puts b [(F.PWM_CMP_EN, 0)]
    |>.puts (b + 4) [(F.PWM_CMP_EN, 0)] |>.puts (b + 8) [(F.PWM_CMP_EN, 0)]

/-- Every gate and link enable of a station is low: its gates are below 1.5 V, and in link mode no leg's enable is on (Tables GD-1, GD-11). -/
def gatesLow (s : State) (n : Nat) : Bool :=
  let b := stnB n
  s.on b F.GC_STAT_OFF_CONF && (s.get b F.GC_CTRL_DMODE != 1 || (!s.on b H.swU && !s.on b H.swV && !s.on b H.swW))

/-- A half's OFF_CONF: every gate and link enable of the half is low (R197). -/
def putStoOff (s : State) (h : Nat) : State := s.flag (halfB h) F.SUP_STO_STAT_OFF_CONF (s.gatesLow (2 * h) && s.gatesLow (2 * h + 1))

/-! ### The legs (R176) -/

/-- Enable of phase `i`. -/
def enOf (s : State) (n i : Nat) : Bool := bitN (s.nat (stnB n) H.enab) i

/-- Pulse level of a leg. -/
def lvlF (leg : Nat) : Fld := if leg = 0 then H.lvlU else if leg = 1 then H.lvlV else H.lvlW

/-- Switches of a leg: 0 both off, 1 the high side on, 2 the low side on. -/
def swF (leg : Nat) : Fld := if leg = 0 then H.swU else if leg = 1 then H.swV else H.swW

/-- Tick of a leg's latest pulse edge. -/
def edgeF (leg : Nat) : Fld := if leg = 0 then H.edgeU else if leg = 1 then H.edgeV else H.edgeW

/-- No transistor of the station turns on: VGD is below VGD_UV (R31, R43), or safe torque off is active (R33, R196). -/
def barred (s : State) (n : Nat) : Bool := s.on 0 H.vgdLow || s.on (halfB (n / 2)) F.SUP_STO_STAT_ACTIVE

/-- Table GD-3: a switch is on while its leg is enabled, no turn-off runs, nothing bars the gates, and the pulse has held its level for
`DT`; in link mode only in the modes in which the outputs are alive (R185). With no switch on, and always in link mode, which holds every gate low,
the gates are confirmed off (R200, Table GD-1); a turn-off confirms them at its end. -/
def putSwitch (s : State) (n leg : Nat) : State :=
  let b := stnB n
  let live := s.get b F.GC_CTRL_DMODE == 0 || s.runLike n || s.mode n == mArmed
  let go := s.enOf n leg && !s.on b F.GC_STAT_TURNOFF && !s.barred n && live &&
    decide ((s.time : Int) ≥ s.get b (edgeF leg) + s.get b F.PWM_DT_DT)
  let v : Int := if go then (if s.on b (lvlF leg) then 1 else 2) else 0
  let s := s.put b (swF leg) v
  if s.on b F.GC_STAT_TURNOFF then s
  else (s.flag b F.GC_STAT_OFF_CONF (s.get b F.GC_CTRL_DMODE == 1 || (!s.on b H.swU && !s.on b H.swV && !s.on b H.swW))).putStoOff (n / 2)

/-- With pulses from the pins the enables follow the ENx pins in RUN, and the switches the levels that the pins hold (Table GD-2, R176, R177). -/
def followPins (s : State) (n : Nat) : State :=
  (s.put (stnB n) H.enab (s.get (stnB n) H.extEn)).each [0, 1, 2] fun leg s => s.putSwitch n leg

/-- VGD in units of 0.5 V: 10.0 V + 0.5 V × VGD_SET (R40), or VGD_UV, 8.5 V, while it is below it (R43). -/
def vgdHalfVolts (s : State) : Int := if s.on 0 H.vgdLow then 17 else 20 + s.get 0 F.CHIP_PWR_CTRL_VGD_SET

/-- The mid level in force, in units of 0.5 V: the lower of 6.0 V + 0.5 V × MID and VGD − 1.0 V (R193). -/
def midLevel (s : State) (n : Nat) : Int := min (12 + s.get (stnB n) F.GC_SOFT_MID) (s.vgdHalfVolts - 2)

/-- VGD is above the mid level in force, so Step 2 of Table GD-7 takes place (R193). -/
def midHolds (s : State) (n : Nat) : Bool := decide (s.midLevel n < s.vgdHalfVolts)

/-- The two-step turn-off of a station (R193, R185, R194): in direct mode TURNOFF sets and the conducting gates are held at the mid level for
T_MID, a station without one goes to Step 3 at once; in link mode every output is low at once. A running turn-off is neither restarted nor
shortened. -/
def turnOff (s : State) (n : Nat) : State :=
  let b := stnB n
  let hold := !s.on b F.GC_STAT_OFF_CONF && s.midHolds n
  let running := s.on b F.GC_STAT_TURNOFF
  let link := s.get b F.GC_CTRL_DMODE == 1
  let s := s.dropEnables n
  if link then
    (s.puts b [(F.GC_STAT_OFF_CONF, 1), (H.toPhase, 0), (H.lvlU, 0), (H.lvlV, 0), (H.lvlW, 0)]).putStoOff (n / 2)
  else if running then s
  else s.puts b [(F.GC_STAT_TURNOFF, 1), (H.toPhase, if hold then 1 else 2)]

/-- With pulses from the pins the cell acts as if enable were 0 outside RUN, so every exit from RUN turns the station off (Table GD-2,
R178). -/
def leaveExt (s : State) (n : Nat) : State := if s.get (stnB n) F.GC_CTRL_PSRC == 1 then s.turnOff n else s

/-- The station's sequences end with it: alignment, start, CATCH, braking, ramps. -/
def endSequences (s : State) (n : Nat) : State :=
  (s.setBit (halfB (n / 2)) F.BGD_STAT_ZVB (n % 2) false).puts (stnB n) [(H.arming, 0), (H.armItems, 0), (H.sizItems, 0), (H.sizFail, 0), (H.szNow, 0),
    (F.COM_STAT_ALIGNING, 0), (F.COM_STAT_SOFTING, 0), (F.OBS_STAT_STARTING, 0), (F.OBS_STAT_CATCHING, 0),
    (H.alStep, 0), (H.zvb, 0), (H.zvbPend, 0), (H.zvbOff, 0), (H.rampOn, 0), (H.handOn, 0), (H.revWait, 0), (H.rotChk, 0), (H.brkWait, 0),
    (H.stopSeq, 0), (H.stopRamp, 0), (H.catchPend, 0), (H.fbPend, 0), (H.ssInit, 0), (H.rampDown, 0), (H.posPend, 0), (H.limpPend, 0), (H.clamped, 0), (H.wHold, 0)]

/-! ### Services (R302) -/

/-- The services and a half reach each other: it is the master, or the A↔B mailbox carries their signals (R16, R300). -/
def halfReached (s : State) (h : Nat) : Bool := s.halfRun h && !s.isolated h && (h + 1 == s.master || !s.oos .abmbx)

/-- The service's outputs reach a station, and its signals the services. -/
def svcReaches (s : State) (n : Nat) : Bool := s.halfReached (n / 2)

/-- The stations still in a service. -/
def svcStations (s : State) (k : Nat) : List Nat := (List.range 4).filter (bitN (s.nat (svcB k) F.SVC_STAT_STNS))

/-- A parameter of a service in force (R311). -/
def svcParam (s : State) (k i : Nat) : Int := s.get (0x200 * k + 4 * i) F.SVC_PARAM_VAL

/-- A handle is running a service. -/
def svcLive (s : State) (k : Nat) : Bool := s.get (svcB k) F.SVC_STAT_SERVICE != 0

/-- Parameters that wait for the next tick go with the service they were accepted for (R302). -/
def svcForget (s : State) (k : Nat) : State := { s with svcNew := s.svcNew.filter fun e => e.1 != k }

/-- A handle becomes free: its registers and parameters return to reset. -/
def svcFree (s : State) (k : Nat) : State :=
  let s := s.svcForget k
  { s with regs := (((s.regs.clear (8 * (0x10100 + 0x10 * k)) (8 * (0x10110 + 0x10 * k))).clear (8 * (0x11000 + 0x200 * k))
      (8 * (0x11200 + 0x200 * k))).clear (8 * (0x14000 + 0x200 * k)) (8 * (0x14200 + 0x200 * k))) }

/-- The load-shedding factor of a station: the lowest of the running services 6 that name it (R309). -/
def putShed (s : State) (n : Nat) : State :=
  let k := (List.range 16).foldl (fun (m : Int) k =>
    if s.get (svcB k) F.SVC_STAT_SERVICE == 6 && bitN (s.nat (svcB k) F.SVC_STAT_STNS) n then min m (s.get (0x200 * k) H.svFac / 2560) else m) 32768
  s.put (stnB n) H.kShed k

/-- A service that has no station left, or no token, ends: its completions carry the status and its handle is free. Auto-spool keeps
its handle until the drum is OFF (R306). -/
def svcEnd (s : State) (k st : Nat) : State :=
  let s := (s.completeAll 0x40 k st 0).completeAll 0x42 k st 0
  if s.get (svcB k) F.SVC_STAT_SERVICE == 3 then (s.svcForget k).puts (svcB k) [(F.SVC_STAT_STATE, 3), (F.SVC_STAT_STNS, 0)]
  else s.svcFree k

/-! ### Stops (R292, R293) -/

/-- A station enters STOPPING with a stop of a type: I* preset to its present value, wr taken from SPEED, the ramp without a K1
chain slot noted (R292, R293). -/
def beginStop (s : State) (n ty : Nat) : State :=
  let b := stnB n
  let k1 := (s.chainEntry n 1).isSome
  let s := (s.bump b F.STN_CNT_STOPS).puts b [(F.STN_STAT_STOP, ty), (H.stopT, s.time), (H.stopWr, s.speedPu n), (H.stopSeq, 0),
    (H.stopIr, s.get b H.istar * 2048),
    (H.stopRamp, b2i (!k1 && ty != 2))]
  let s := (s.leaveExt n).setMode n mStopping
  if k1 && ty != 2 then s.presetIstar n (s.get b H.istar) else s

/-- Every stop ends here (R292, R178): turn-off, MBRK low for the quick type, OFF, and the pending STN_STOP completions. -/
def endStop (s : State) (n : Nat) : State :=
  let b := stnB n
  let quick := s.mode n == mStopping && s.get b F.STN_STAT_STOP == 1
  let s := ((s.turnOff n).endSequences n).setMode n mOff
  let s := if quick then s.put b F.STN_STAT_MBRK 0 else s
  s.completeAll 0x23 n stOK 0

/-- A stop of type `ty` replaces the running one (R84). -/
def stopReplaces (s : State) (n ty : Nat) : Bool :=
  let b := stnB n
  let cur := s.get b F.STN_STAT_STOP
  !s.on b H.zvb &&
  (if s.get b H.stopSeq == 3 then ty == 2
   else ((ty == 1 || ty == 2) && (cur == 0 || cur == 3)) || (ty == 2 && cur == 1))

/-- A stop given in STOPPING: it ends a sensorless sequence, and with it the stop, by its own type (R230), replaces the running stop, or changes
nothing. -/
def restop (s : State) (n ty : Nat) : State :=
  let b := stnB n
  if s.get b F.OBS_STAT_STARTING != 0 then
    ((if ty = 1 ∨ ty = 3 then s.put b F.STN_STAT_MBRK 0 else s).put b F.STN_STAT_STOP ty).endStop n
  else if s.stopReplaces n ty then
    let seq := s.on b H.stopSeq
    let k1 := (s.chainEntry n 1).isSome
    let s := s.puts b [(F.STN_STAT_STOP, ty), (H.stopSeq, 0), (H.stopRamp, b2i (!k1 && ty != 2)), (H.stopIr, s.get b H.istar * 2048)]
    if seq && k1 && ty != 2 then s.presetIstar n (s.get b H.istar) else s
  else s

/-- A station that is not in RUN-like modes stops at once; a running one begins the stop, and in STOPPING the
stop may replace the running one (R84, R230, R236, R292). -/
def stopStation (s : State) (n ty : Nat) : State :=
  let b := stnB n
  let m := s.mode n
  if m = mArmed then s.endStop n
  else if m = mRun ∨ m = mIsolated then
    if s.get b F.OBS_STAT_STARTING != 0 then
      let s := if ty = 1 ∨ ty = 3 then s.put b F.STN_STAT_MBRK 0 else s
      (s.bump b F.STN_CNT_STOPS).endStop n
    else s.beginStop n ty
  else if m = mCatch then
    if ty = 2 then (s.bump b F.STN_CNT_STOPS).endStop n else s.put b H.catchPend (ty + 1)
  else if m = mStopping then s.restop n ty
  else s

/-- A station is no longer in a service: the handle's bit, its SOURCE when that handle owned it, and its shedding factor. -/
def svcDrop (s : State) (k n : Nat) : State :=
  let owned := s.get (stnB n) F.STN_STAT_SOURCE == 3 && s.nat (stnB n) F.STN_STAT_HANDLE == k &&
    s.get (svcB k) F.SVC_STAT_SERVICE != 6
  let s := (s.clrBits (svcB k) F.SVC_STAT_STNS (2 ^ n)).clrBits (0x200 * k) H.svTake (2 ^ n)
  (if owned then s.puts (stnB n) [(F.STN_STAT_SOURCE, 0), (F.STN_STAT_HANDLE, 0)] else s).putShed n

/-- A station leaves every service it is in (R302): with ON_FAULT 1 every remaining station makes the stop FSTOP, leaving its other services too, at
most `f` deep, and the service ends (a station that the services do not reach keeps its command, Table FH-3); else the service goes on, degraded,
until no station is left. -/
def svcLeave : Nat → State → Nat → Bool → State
  | 0, s, _, _ => s
  | f + 1, s, n, fault =>
    s.each (List.range 16) fun k s =>
      if !(s.svcLive k && bitN (s.nat (svcB k) F.SVC_STAT_STNS) n) || s.get (svcB k) F.SVC_STAT_STATE == 3 then s
      else
        let s := s.svcDrop k n
        let rest := s.svcStations k
        let st := if fault then stFaulted else stAborted
        if rest.isEmpty then s.svcEnd k st
        else if s.svcParam k 0 = 1 then
          let ty := (s.svcParam k 1).toNat
          let rest := rest.filter fun m => s.svcReaches m
          let s := s.each rest fun m s => s.svcDrop k m
          (s.each rest fun m s => (svcLeave f s m fault).stopStation m ty).svcEnd k st
        else s.put (svcB k) F.SVC_STAT_STATE 2

/-- A running half's signals reach no service: the other half is the master, and the A↔B mailbox is out of service (R16). -/
def svcCut (s : State) (n : Nat) : Bool := s.halfRun (n / 2) && !s.isolated (n / 2) && n / 2 + 1 != s.master && s.oos .abmbx

/-- A station that the services do not hear leaves: it is its own, and each of its services learns of it once the mailbox is back (R16). -/
def svcLeaveMute (s : State) (n : Nat) (fault : Bool) : State :=
  s.each (List.range 16) fun k s =>
    if !(s.svcLive k && bitN (s.nat (svcB k) F.SVC_STAT_STNS) n) || s.get (svcB k) F.SVC_STAT_STATE == 3 then s
    else
      let b := stnB n
      let owned := s.get b F.STN_STAT_SOURCE == 3 && s.nat b F.STN_STAT_HANDLE == k && s.get (svcB k) F.SVC_STAT_SERVICE != 6
      let s := s.orBits (0x200 * k) H.svLeft (2 ^ n)
      let s := if fault then s.orBits (0x200 * k) H.svLeftF (2 ^ n) else s
      if owned then s.puts b [(F.STN_STAT_SOURCE, 0), (F.STN_STAT_HANDLE, 0)] else s

/-- A station leaves its services (R302). -/
def leaveService (s : State) (n : Nat) (fault : Bool) : State := if s.svcCut n then s.svcLeaveMute n fault else svcLeave 5 s n fault

/-- A service hears of the stations that left it while the mailbox was out (R16, R302). -/
def svcHeard (s : State) : State :=
  s.each (List.range 16) fun k s =>
    s.each ((List.range 4).filter fun n => s.svcLive k && bitN (s.nat (0x200 * k) H.svLeft) n && !s.svcCut n) fun n s =>
      let fault := bitN (s.nat (0x200 * k) H.svLeftF) n
      svcLeave 5 ((s.clrBits (0x200 * k) H.svLeft (2 ^ n)).clrBits (0x200 * k) H.svLeftF (2 ^ n)) n fault

/-! ### Faults of a station (R193, R199, R208) -/

/-- The commands whose work a fault of the station ends (Table PK-4, R295, R198, R188): arming, diagnostics, sizing and stops
with FAULTED. -/
def failStationWork (s : State) (n detail : Nat) : State :=
  (((s.completeAll 0x20 n stFaulted detail).completeAll 0x24 n stFaulted 0).completeAll 0x25 n stFaulted 0).completeAll 0x23 n stFaulted 0

/-- `GC_FAULT` follows a station's record: a cause of Table GD-9 with no leg of its own, any other cause with SIDE 0 alone (Table GD-11, R195). -/
def stnCause (s : State) (n code : Nat) : State :=
  let b := stnB n
  let cause := code % 256
  if decide (0x50 ≤ cause) && decide (cause ≤ 0x5A) then
    s.puts b [(F.GC_FAULT_CAUSE, cause % 64), (F.GC_FAULT_LEGS, 0), (F.GC_FAULT_SIDE, 0), (F.GC_FAULT_LEGS2, 0), (H.gcT, (s.time : Int) + 1)]
  else s.put b F.GC_FAULT_SIDE 0

/-- A fault of a station reaches its list, and `GC_FAULT` follows the record. -/
def stnRaise (s : State) (n code : Nat) : State := (s.stnCause n code).raise (stnU n) code

/-- A fault stop of one station: two-step turn-off, MBRK low when the cause calls for it, FAULT, and the entry with its record;
the sequences and the station's commands end, and it leaves its service. A cause that is in the list already has no second entry (`enter`). -/
def faultStop (s : State) (n code : Nat) (brake : Bool) (detail : Nat := 0) (enter : Bool := true) : State :=
  let b := stnB n
  let s := s.leaveService n true
  let s := ((s.turnOff n).endSequences n)
  let s := if brake then s.put b F.STN_STAT_MBRK 0 else s
  let s := if enter then s.stnRaise n code else s
  let s := (s.setMode n mFault).puts b [(F.COM_VDQ_VD, 0), (F.COM_VDQ_VQ, 0)]
  s.failStationWork n detail

/-- The amplitude item of a sizing run drives the shaft (R129). -/
def driving (s : State) (n : Nat) : Bool := s.mode n == mDiag && s.on (stnB n) F.PF_SIZ_DRIVE && s.get (stnB n) H.szNow == 2

/-- A station whose gates a trip turns off sets off the group trip of R208: in ARMED, RUN, STOPPING, CATCH or ISOLATED, or in
DIAG while a sizing item drives the shaft. -/
def tripsGroup (s : State) (n : Nat) : Bool :=
  let m := s.mode n
  m == mArmed || m == mRun || m == mStopping || m == mCatch || m == mIsolated || s.driving n

/-- The other station of the half. -/
def partner (n : Nat) : Nat := if n % 2 = 0 then n + 1 else n - 1

/-- Group trip reaches the other station only in these modes (R208). -/
def groupTarget (s : State) (n : Nat) : Bool :=
  let m := s.mode n
  m == mDiag || m == mArmed || m == mRun || m == mStopping || m == mCatch || m == mIsolated

/-- A fault stop with group trip (R208): the other station of the half stops with the same code. -/
def faultTrip (s : State) (n code : Nat) (brake : Bool := true) (enter : Bool := true) : State :=
  let grp := s.on (halfB (n / 2)) F.BGD_CTRL_GROUP_TRIP && s.tripsGroup n && s.groupTarget (partner n)
  let s := s.faultStop n code brake 0 enter
  if grp then s.faultStop (partner n) code brake else s

/-- A fault stop of every station of a half that is not OFF, with one code (R206, R208, R210, R262). A station already in FAULT takes
the entry only; one that arms in OFF sends charge pulses, so that it takes the fault stop too (R206, R188). -/
def faultHalf (s : State) (h code : Nat) (brake : Bool := true) : State :=
  s.each [2 * h, 2 * h + 1] fun n s =>
    if s.mode n = mOff && !s.on (stnB n) H.arming then s
    else if s.mode n = mFault then
      let s := if brake then s.put (stnB n) F.STN_STAT_MBRK 0 else s
      s.stnRaise n code
    else s.faultStop n code brake

/-! ### Fallbacks (R297 to R299) -/

/-- The fallback of one station in RUN, taken and counted once until host firmware commands the station (R297, R299). -/
def fallback (s : State) (n : Nat) : State :=
  let b := stnB n
  if s.mode n = mCatch then s.put b H.fbPend 1
  else if s.mode n ≠ mRun || s.on b F.STN_STAT_FB_ACTIVE then s
  else
    let s := (s.bump b F.STN_CNT_FBS).put b F.STN_STAT_FB_ACTIVE 1
    match s.nat b F.STN_FALLBACK_FB_ACT with
    | 0 => s
    | 1 => (s.leaveService n false).stopStation n 0
    | _ =>
      let s := s.leaveService n false
      let kind := s.nat b F.STN_FALLBACK_FB_KIND
      if (s.spSlot n).isNone || (s.chainEntry n kind).isNone then s.stopStation n 0
      else
        let i := s.get b H.istar
        (s.puts b [(F.STN_STAT_SOURCE, 1), (F.STN_STAT_KIND, kind)]).presetIstar n i

/-! ### Entry to RUN (R242, R255, R291, R171, R225) -/

/-- Entry of a station to RUN, from whichever mode: its slots with RUNGATE take their reset state, and its current-loop updates count from here
(R244). -/
def resetGated (s : State) (n : Nat) : State :=
  (s.put (stnB n) H.runCnt 0).each (List.range 48) fun m s =>
    let b := slotB (n / 2) m
    if s.get b F.LEN_CFG_TYPE != 0 && s.on b F.LEN_CFG_RUNGATE && s.nat b F.LEN_CFG_OWNER == n % 2 && !s.on b F.LEN_SST_ERR then
      s.resetSlot (n / 2) m
    else s

/-- The brake is released at the first update after rotation check and alignment; a station with a K1 chain slot then runs at
reference 0 for T_BRK (R291). -/
def releaseBrake (s : State) (n : Nat) : State :=
  let b := stnB n
  s.puts b [(F.STN_STAT_MBRK, 1), (H.runT, s.time), (H.brkWait, b2i ((s.chainEntry n 1).isSome && s.get b F.GC_CTRL_PSRC == 0))]

/-- lim_w of R290, pu32. -/
def limW (s : State) (n : Nat) : Int :=
  let b := stnB n
  tdiv (s.get b F.STN_WMAX_W_MAX * 2048 * s.get b F.STN_WMAX_SLOW) 255

/-- Entry to RUN with a source and kind: command zero, or the count held for KIND 2 (R242); the gated slots reset; law and
angle source as configured (R145); the rotation check of R225 owed, except with pulses from the pins (R224), which ignore both fields: SOURCE
and KIND stand (R177). The allocator's record starts anew (R286). -/
def enterRun (s : State) (n source kind : Nat) : State :=
  let b := stnB n
  let ext := s.get b F.GC_CTRL_PSRC == 1
  let source := if ext then s.nat b F.STN_STAT_SOURCE else source
  let kind := if ext then s.nat b F.STN_STAT_KIND else kind
  let s := s.puts b [(F.STN_STAT_SOURCE, source), (F.STN_STAT_KIND, kind), (F.STN_STAT_FB_ACTIVE, 0),
    (H.hostCmd, if kind = 2 then s.get b F.PF_POS_POS else 0),
    (F.STN_CMD_CMD, 0), (H.cmdPos, s.get b F.PF_POS_POS), (H.istar, 0), (H.istarOut, 0), (H.lawPrev, s.get b F.COM_CTRL_LAW), (H.wHold, 0),
    (H.limNow, s.limW n), (F.COM_STAT_LAW_NOW, s.get b F.COM_CTRL_LAW), (F.COM_STAT_ASRC_NOW, s.get b F.COM_CTRL_ASRC),
    (H.lrT, 0), (H.ovrRun, 0), (H.badRun, 0), (H.ovfCnt, 0), (H.resRun, 0), (H.backCnt, 0), (H.alloc, 0)]
  let s := s.puts (8 * n) [(F.HBD_ALLOC1_FRESH, 0), (F.HBD_ALLOC1_HOLD, 0), (F.HBD_ALLOC1_FALLBACK, 0)]
  let s := (s.resetGated n).setMode n mRun
  if ext then (s.followPins n).releaseBrake n
  else s.puts b [(H.rotChk, 1), (F.OBS_STAT_STARTING, 1)]

end State

end Sys2Proof.Machine
end

