-- ==== Sys2Proof/Machine/Blocks.lean ====
section
/-!
DEFINITION. Block handling at the level every family shares (R368, R370): the unit that lists a block's errors, its out-of-service and
steaming bits, and the start of steaming. The cover of each block and the end of steaming are in `Faults.lean`.
-/
namespace Sys2Proof

open Machine

/-- The unit whose list takes a block's entries (R375): stations, axes, bus guards and CAN controllers have their own, the others
use their region's. -/
def Block.unit : Block → Machine.FUnit
  | .stn n => .stn n
  | .axs n => .axs n
  | .bgd h => .bgd h
  | .can c => .can c
  | .len h | .asc h | .spt h | .thm h => .region (Fin.ofNat 3 (h.val + 1))
  | _ => .region 0

/-- The region of a block: 0 SH, 1 HA, 2 HB. -/
def Block.region : Block → Nat
  | .stn n => n.val / 2 + 1
  | .axs n => n.val / 2 + 1
  | .bgd h | .len h | .asc h | .spt h | .thm h => h.val + 1
  | .can c => c.val % 2 + 1
  | _ => 0

/-- Base, out-of-service field, steaming field and bit of a block (Tables FH-8 and FH-9). -/
def Block.bits : Block → Nat × Machine.Fld × Machine.Fld × Nat × Nat
  | .cfg => (0, F.FLT_SH_OOS_CFG, F.FLT_SH_OOS_STEAM, 0, 0)
  | .recorder => (0, F.FLT_SH_OOS_REC, F.FLT_SH_OOS_STEAM, 0, 1)
  | .lnkW => (0, F.FLT_SH_OOS_LNK_W, F.FLT_SH_OOS_STEAM, 0, 2)
  | .lnkE => (0, F.FLT_SH_OOS_LNK_E, F.FLT_SH_OOS_STEAM, 0, 3)
  | .mbx => (0, F.FLT_SH_OOS_MBX, F.FLT_SH_OOS_STEAM, 0, 4)
  | .spi => (0, F.FLT_SH_OOS_SPI, F.FLT_SH_OOS_STEAM, 0, 5)
  | .uart => (0, F.FLT_SH_OOS_UART, F.FLT_SH_OOS_STEAM, 0, 6)
  | .abmbx => (0, F.FLT_SH_OOS_ABMBX, F.FLT_SH_OOS_STEAM, 0, 7)
  | .stn n => (halfB (n.val / 2), F.SUP_OOS_STN, F.SUP_STEAM_STN, n.val % 2, n.val % 2)
  | .axs n => (halfB (n.val / 2), F.SUP_OOS_AXS, F.SUP_STEAM_AXS, n.val % 2, n.val % 2)
  | .bgd h => (halfB h.val, F.SUP_OOS_BGD, F.SUP_STEAM_BGD, 0, 0)
  | .can c => (halfB (c.val % 2), F.SUP_OOS_CAN, F.SUP_STEAM_CAN, c.val / 2, c.val / 2)
  | .len h => (halfB h.val, F.SUP_OOS_LEN, F.SUP_STEAM_LEN, 0, 0)
  | .asc h => (halfB h.val, F.SUP_OOS_ASC, F.SUP_STEAM_ASC, 0, 0)
  | .spt h => (halfB h.val, F.SUP_OOS_SPT, F.SUP_STEAM_SPT, 0, 0)
  | .thm h => (halfB h.val, F.SUP_OOS_THM, F.SUP_STEAM_THM, 0, 0)

/-- The cause and level of a block's own error: its chapter's, or BLKERR where it has none (Table FH-5). -/
def Block.error (b : Block) : Nat :=
  match b with
  | .len _ => fcode 2 b.region 0x81
  | .cfg => fcode 2 0 0xD5
  | .lnkW | .lnkE => fcode 1 0 0x91
  | .axs _ => fcode 1 b.region 0xB3
  | _ => fcode 2 b.region 0xD6

end Sys2Proof

namespace Sys2Proof.Machine

namespace State

/-- A block goes out of service, or comes back. -/
def setOos (s : State) (b : Block) (v : Bool) : State := s.setBit b.bits.1 b.bits.2.1 b.bits.2.2.2.1 v

/-- A block's steaming bit; the loop engine shows it in its own registers too (Table LE-8). -/
def setSteam (s : State) (b : Block) (v : Bool) : State :=
  let s := s.setBit b.bits.1 b.bits.2.2.1 b.bits.2.2.2.2 v
  match b with
  | .len h => s.flag (halfB h.val) F.LEN_STAT_STEAMING v
  | _ => s

/-- A block is steaming. -/
def steaming (s : State) (b : Block) : Bool := bitN (s.nat b.bits.1 b.bits.2.2.1) b.bits.2.2.2.2

/-- Change the entries of a unit with a code. -/
def withEntry (s : State) (u : FUnit) (code : Nat) (g : FEntry → FEntry) : State :=
  s.withFlt fun f => { f with list := f.list.map fun e => if e.unit == u && e.code == code then g e else e }

/-- The transient errors of a block or entry within the last `STEAM_WIN` seconds (R370). -/
def recentTransients (s : State) (b : Steamed) : Nat :=
  (s.flt.trans.filter fun e => e.1 == b && decide (s.time < e.2 + s.nat 0 F.FLT_CFG_STEAM_WIN * 400000000)).length

/-- Step 4b of Table FH-2: the entry lasting, its count and its record. -/
def markLasting (s : State) (b : Steamed) (u : FUnit) (code : Nat) : State :=
  let s := s.withEntry u code fun e => { e with lasting := true, out := if e.out.contains b then e.out else e.out ++ [b] }
  (s.bump 0 F.FLT_CNT_LAST).trigger (code / 256 % 16) 3 code

/-- The entries whose error steamed are lasting, since their steaming has failed (R370). -/
def lastEntries (s : State) (b : Steamed) : State :=
  s.withFlt fun f => { f with list := f.list.map fun e => if e.out.contains b then { e with lasting := true } else e }

/-- The block that covers for a block while it is out (R369): the other link. -/
def partnerOf : Block → Option Block
  | .lnkW => some .lnkE
  | .lnkE => some .lnkW
  | _ => none

/-- A self-test whose first block has been steamed goes on to the next one, or completes: OK, or FAULTED with the first failing block's cause
(R371, Table PK-4). -/
def testNext (s : State) (b : Block) (pass : Bool) (t : SelfTest) : State :=
  if t.todo.head? ≠ some b then s
  else
    let u : SelfTest := { t with todo := t.todo.tail, cause := if t.cause = 0 && !pass then b.error % 256 else t.cause }
    match u.todo.head? with
    | some c => (s.withFlt fun f => { f with tests := f.tests.map fun x => if x == t then u else x }).setSteam c true
    | none =>
      let s := s.withFlt fun f => { f with tests := f.tests.filter (· != t) }
      s.each (s.mil.busy.filter fun x => x.tag == t.tag && x.op == 0xF1) fun x s =>
        s.completeB x (if u.cause = 0 then stOK else stFaulted) 0 [if u.cause = 0 then 1 else 0, u.cause]

/-- Steps 1 and 2 of Table FH-2 after the entry is made: out of service, and steaming. An error of a block that is steaming fails it; a
block with `STEAM_MAX` recent transient errors is lasting at once; the error of a block whose partner is out escalates to the region with
its own cause (R370). A block that is out after Step 4b does not steam again for an error (R368). -/
def blockOut (s : State) (b : Block) (code : Nat) : State :=
  if s.oos b && !s.steaming b then s else
  let s := s.setOos b true
  let s := if (partnerOf b).any s.oos then s.raise (.region (Fin.ofNat 3 b.region)) (fcode 3 b.region (code % 256)) else s
  if s.steaming b || decide (s.nat 0 F.FLT_CFG_STEAM_MAX ≤ s.recentTransients (.block b)) then
    let s := ((s.setSteam b false).lastEntries (.block b)).markLasting (.block b) b.unit code
    s.each s.flt.tests fun t s => s.testNext b false t
  else
    (s.setSteam b true).withEntry b.unit code fun e => { e with out := if e.out.contains (.block b) then e.out else e.out ++ [.block b] }

/-- A block error: its entry, then `blockOut`. -/
def blockFail (s : State) (b : Block) (code : Nat) : State := (s.raise b.unit code).blockOut b code

end State

end Sys2Proof.Machine
end

