-- ==== Sys2Proof/Machine/Sensorless.lean ====
section
/-!
DEFINITION. The back-EMF observer and the sequences on it (chapter 11): its evaluation, lock and loss, the rotation check before start,
the sensorless start, handover and handback, limp mode and CATCH.
-/
namespace Sys2Proof.Machine.State

/-- b_eff × t in Hz × ticks (R222): the bandwidth in force, limited so that b_eff ≤ 4·10^8 / (25 t). -/
def obsBt (s : State) (n t : Nat) : Int :=
  let b := stnB n
  let bw := if s.mode n = mCatch then s.get b F.OBS_PLL_CATCH_BW else s.get b F.OBS_PLL_BW
  min (bw * t) 16000000

/-- The loop gain g1 (R222). -/
def obsG1 (bt : Int) : Int := roundUp (4 * piFix * bt * 2 ^ 32) (2 ^ 60 * 400000000)

/-- The loop gain g2 (R222). -/
def obsG2 (bt : Int) : Int :=
  roundUp ((2 * piFix * bt) * (2 * piFix * bt) * 2 ^ 32) (2 ^ 120 * (400000000 * 400000000))

/-- One evaluation of the observer on an EMF estimate with interval `t` ticks: filter, phase-locked loop, lock (R221, R223). -/
def obsStep (s : State) (n t : Nat) (ea eb : Int) : State :=
  let b := stnB n
  let sh := s.nat b F.OBS_CTRL_EMF_SH
  let fa := s.get b H.efA + asr (ea - s.get b H.efA) sh
  let fb := s.get b H.efB + asr (eb - s.get b H.efB) sh
  let mag : Int := isqrt (fa * fa + fb * fb).toNat
  let weak := decide (mag < s.get b F.OBS_EMF_EMF_MIN)
  let s := s.puts b [(H.efA, fa), (H.efB, fb), (F.OBS_EMFV_MAG, mag)]
  let s := if !weak && s.on b H.obsRestart && !s.on b F.OBS_STAT_LOCKED then
      s.puts b [(F.OBS_ANGLE_THETA_H, angle32 fa fb - 2 ^ 30), (F.OBS_SPEED_WE, 0), (H.obsRestart, 0)] else s
  let th := s.get b F.OBS_ANGLE_THETA_H
  let we := s.get b F.OBS_SPEED_WE
  let eps := asr (-(fa * cos16 th) - fb * sin16 th) 15
  let en0 := tdiv (eps * 8192) (max 1 mag)
  let en := if we < 0 then -en0 else en0
  let err := if weak then 0 else en * 83443
  let res := if weak then 8192 else if en < 0 then -en else en
  let bt := s.obsBt n t
  let bw := if s.mode n = mCatch then s.get b F.OBS_PLL_CATCH_BW else s.get b F.OBS_PLL_BW
  let dth := tdiv (we * t * 2 ^ 14) 400000000
  let s := s.puts b [(F.OBS_ANGLE_THETA_H, th + dth + asr (obsG1 bt * err) 32),
    (F.OBS_SPEED_WE, sat32 (we + tdiv (asr (obsG2 bt * err) 32 * 400000000) (t * 2 ^ 14))),
    (F.OBS_EMFV_RES, res), (F.OBS_STAT_BW_LIM, b2i (decide (bt < bw * t)))]
  let good := !weak && decide (res * 2 ≤ s.get b F.OBS_RES_RES_TH)
  let lockN := s.get b F.OBS_RES_LOCK_N
  let s := if good then s.bump b H.lockRun else s.put b H.lockRun 0
  let s := if weak then s.bump b H.weakRun else s.put b H.weakRun 0
  let s := if s.get b H.lockRun ≥ lockN then s.put b F.OBS_STAT_LOCKED 1 else s
  if s.on b F.OBS_STAT_LOCKED && decide (s.get b H.weakRun ≥ lockN) then
    s.puts b [(F.OBS_STAT_LOCKED, 0), (H.obsRestart, 1), (H.lockRun, 0)]
  else s

/-- Conducting form (R221): the EMF from the previous voltage command and the measured currents. -/
def obsConducting (s : State) (n t : Nat) (ia ib : Int) : State :=
  let b := stnB n
  let rs := s.get b F.OBS_MOTOR_RS
  let ls := s.get b F.OBS_MOTOR_LS
  let ea := sat16 (s.get b H.vA - asr (rs * ia) 14 - tdiv (ls * 40 * (ia - s.get b H.iaP)) t)
  let eb := sat16 (s.get b H.vB - asr (rs * ib) 14 - tdiv (ls * 40 * (ib - s.get b H.ibP)) t)
  ((s.puts b [(H.iaP, ia), (H.ibP, ib)]).put b H.openT 0).obsStep n t ea eb

/-- Open form (R220, R221): three 16-bit codes of the phase-voltage inputs, every 2 µs. -/
def obsOpen (s : State) (n : Nat) (cu cv cw : Nat) : State :=
  let b := stnB n
  let pu (c : Nat) : Int :=
    sat16 (tdiv (asr (c * s.get b F.OBS_VPH_VPH_SCALE) 16 * 8192) (max 1 (s.get b F.COM_VBASE_VBASE)))
  let u := pu cu
  let v := pu cv
  let w := pu cw
  let s := if s.on b H.openT then s else s.put b H.openT s.time
  s.obsStep n 800 (asr ((2 * u - v - w) * 21845) 16) (asr ((v - w) * 18919) 15)

/-- The observer's mechanical speed, Q14.18. -/
def obsMech (s : State) (n : Nat) : Int := tdiv (s.get (stnB n) F.OBS_SPEED_WE) (max 1 (s.get (stnB n) F.COM_MOTOR_PP))

/-- The speed by which R225 judges rotation. -/
def rotSpeed (s : State) (n : Nat) : Int :=
  let b := stnB n
  if s.get b F.COM_CTRL_ASRC == 0 && s.on b F.PF_STAT_VALID then s.get b F.PF_SPEED_SPEED else s.obsMech n

/-- W_ROT in Q14.18 rev/s; the field is in 0.01 rev/s, so the comparison is made in 1/100 of an LSB. -/
def rotating (s : State) (n : Nat) : Bool :=
  let b := stnB n
  let w := s.rotSpeed n
  let fast := decide ((if w < 0 then -w else w) * 100 ≥ s.get b F.OBS_ROT_W_ROT * 2 ^ 18)
  if s.get b F.COM_CTRL_ASRC == 0 && s.on b F.PF_STAT_VALID then fast else s.on b F.OBS_STAT_LOCKED && fast

/-- The present set-point's sign: speed or torque set-point, or target minus count (R225). -/
def setSign (s : State) (n : Nat) : Int :=
  let b := stnB n
  if s.get b F.STN_STAT_KIND == 2 then sgnI (wrap48 (s.cmdPosNow n - s.get b F.PF_POS_POS))
  else if s.get b F.STN_STAT_SOURCE == 1 then sgnI (s.outOr0 (n / 2) (s.spSlot n))
  else if s.get b F.STN_STAT_SOURCE == 0 then sgnI (s.get b H.hostCmd)
  else sgnI (s.cmdNow n)

/-- The latest cause of Table SL-6 and the fault stop with it (R237). -/
def obsFault (s : State) (n level cause : Nat) : State :=
  (s.put (stnB n) F.OBS_STAT_CAUSE (cause % 64)).faultTrip n (stnCode n level cause)

/-- The open-loop generator takes over with an angle and frequency. -/
def startOpen (s : State) (n : Nat) (phase theta fr idref : Int) : State :=
  s.puts (stnB n) [(F.OBS_STAT_STARTING, phase), (F.COM_STAT_ASRC_NOW, 2), (F.COM_STAT_LAW_NOW, s.get (stnB n) F.OBS_CTRL_START_LAW),
    (H.thetaOl, theta), (H.fr, fr), (H.frFrac, 0), (H.idRef, idref), (H.startT, s.time)]

/-- Step 2 of Table SL-3: the generator at angle 0, the current ramp beginning (R227). -/
def startAlign (s : State) (n : Nat) : State :=
  (s.startOpen n 2 0 0 0).releaseBrake n

/-- Normal start: alignment where R171 asks for it, which needs a valid position (Table FC-3, Step 1), else the brake is released and the
station obeys. -/
def startNormal (s : State) (n : Nat) : State :=
  let b := stnB n
  let s := s.puts b [(F.OBS_STAT_STARTING, 0), (H.rotChk, 0), (H.revWait, 0)]
  if s.get b F.COM_CTRL_ASRC == 0 && !s.on b F.COM_STAT_OFS_VALID && s.on b F.COM_CTRL_ALIGN_EN then
    if !s.on b F.PF_STAT_VALID then (s.put b F.COM_STAT_CAUSE 0x41).faultTrip n (stnCode n 1 0x41)
    else s.puts b [(F.COM_STAT_ALIGNING, 1), (H.alStep, 1), (H.thetaOl, 2 ^ 30), (H.idRef, 0), (H.startT, s.time)]
  else s.releaseBrake n

/-- Standstill start by angle source (Table SL-1). -/
def startStill (s : State) (n : Nat) : State :=
  if s.get (stnB n) F.COM_CTRL_ASRC == 1 then (s.puts (stnB n) [(H.rotChk, 0), (H.revWait, 0)]).startAlign n
  else s.startNormal n

/-- Entry to CATCH (R235, R236): the turn-off with the brake unchanged; the CATCH_MAX-th entry within 1 s faults instead. -/
def enterCatch (s : State) (n : Nat) : State :=
  let b := stnB n
  let recent := s.flt.catches.filter fun e => e.1 != n || decide (s.time < e.2 + 400000000)
  let s := s.withFlt fun f => { f with catches := recent ++ [(n, s.time)] }
  if s.get b F.OBS_LIMP_CATCH_MAX ≤ ((recent.filter (·.1 == n)).length + 1 : Nat) then s.obsFault n 2 0x49
  else
    let back := if s.mode n = mArmed then mRun else s.mode n
    let s := s.puts b [(H.catchMode, back), (H.catchT, s.time), (H.catchStop, 0), (F.OBS_STAT_CATCHING, 1), (H.rampOn, 0),
      (F.OBS_STAT_STARTING, 0), (H.rotChk, 0), (H.revWait, 0), (H.openT, 0), (H.clamped, 0), (H.wHold, 0), (H.backCnt, 0)]
    (s.turnOff n).setMode n mCatch

/-- The ROTOR trigger (Table ER-2): 1 reverse, 2 loss, 3 caught. -/
def rotorRecord (s : State) (n k : Nat) : State := s.trigger (n / 2 + 1) 10 (n + 256 * k)

/-- The rotation check of R225 decides the start (Tables SL-1 and SL-2). A REVROT of refusal has no turn-off sequence (R237). -/
def rotationCheck (s : State) (n : Nat) : State :=
  let b := stnB n
  let asrc := s.get b F.COM_CTRL_ASRC
  let dir := s.setSign n
  let rot := s.rotating n
  let found := sgnI (s.rotSpeed n)
  let s := s.put b H.wantDir (if dir = 0 then (if rot then found else 0) else dir)
  if asrc = 2 then
    (if rot && decide (dir ≠ 0 ∧ dir ≠ found) then (s.put b F.OBS_STAT_REV_SEEN 1).rotorRecord n 1 else s).startNormal n
  else if !rot then s.startStill n
  else if dir = 0 ∨ dir = found then
    if asrc = 1 then s.enterCatch n else s.startNormal n
  else
    let s := (s.put b F.OBS_STAT_REV_SEEN 1).rotorRecord n 1
    match s.nat b F.OBS_CTRL_REV_ACT with
    | 0 => if asrc = 1 then s.enterCatch n else s.startNormal n
    | 1 =>
      let s := (s.put b F.OBS_STAT_CAUSE (0x4A % 64)).faultTrip n (stnCode n 2 0x4A)
      (s.puts b [(F.GC_STAT_TURNOFF, 0), (F.GC_STAT_OFF_CONF, 1), (H.toPhase, 0)]).putStoOff (n / 2)
    | _ => s.puts b [(F.OBS_STAT_STARTING, 1), (H.revWait, 1), (H.rotChk, 0), (H.startT, s.time)]

/-- Sensor-fault reaction of a running station (Table SL-5, R231). `code` is the position cause, which the cell has raised; limp mode by way of CATCH
waits for the end of CATCH. A station with pulses from the pins runs no sequence of the observer, so that it makes the fault stop, and one that stops
on the observer leaves its service (R121, R224, R302; DEDUCED, log entry 87). -/
def sensorFault (s : State) (n code : Nat) : State :=
  let b := stnB n
  let limp := s.on b F.OBS_CTRL_LIMP_EN && s.get b F.STN_STAT_KIND != 2
  let locked := s.on b F.OBS_STAT_LOCKED
  let thruster := !bitN (s.nat (halfB (n / 2)) F.BGD_CTRL_CLASS) (n % 2)
  if s.get b F.GC_CTRL_PSRC == 1 then s.faultTrip n code true false
  else if limp && locked then
    (s.puts b [(F.COM_STAT_ASRC_NOW, 1), (F.COM_STAT_LAW_NOW, s.get b F.OBS_CTRL_LIMP_LAW), (F.OBS_STAT_LIMP, 1)]).putSlow n
  else if limp && thruster && s.on b F.OBS_CTRL_CATCH_EN then
    let s := s.enterCatch n
    if s.mode n = mCatch then s.put b H.limpPend 1 else s
  else if !limp && locked then
    let s := s.puts b [(F.COM_STAT_ASRC_NOW, 1), (H.rampDown, 1)]
    let s := s.leaveService n true
    if s.mode n = mStopping then s else s.beginStop n 0
  else s.faultTrip n code true false

/-- The reaction to a position fault takes place at the next update boundary (R231), if the station still runs. -/
def posReact (s : State) (n : Nat) : State :=
  let b := stnB n
  let code := s.nat b H.posPend
  if code = 0 then s
  else
    let s := s.put b H.posPend 0
    if s.runLike n && s.get b F.COM_STAT_ASRC_NOW == 0 then s.sensorFault n code else s

/-- Observer loss (R233, R234): the residual has been above RES_TH for RES_N updates. -/
def obsLossCheck (s : State) (n : Nat) : State :=
  let b := stnB n
  let we := s.get b F.OBS_SPEED_WE
  let above := decide (s.get b F.OBS_EMFV_RES > s.get b F.OBS_RES_RES_TH)
  let s := if above then s.bump b H.resRun else s.put b H.resRun 0
  if s.get b F.COM_STAT_ASRC_NOW == 1 && s.runLike n && decide ((if we < 0 then -we else we) * 10 ≥ s.get b F.OBS_START_F_HAND * 2 ^ 18) &&
      decide (s.get b H.resRun ≥ s.get b F.OBS_RES_RES_N) then
    let s := ((s.puts b [(F.OBS_STAT_LOCKED, 0), (H.obsRestart, 1), (H.lockRun, 0), (F.OBS_STAT_LOSS_SEEN, 1), (H.resRun, 0)]).bump b
      F.OBS_CNT_LOSS_CNT).rotorRecord n 2
    if !bitN (s.nat (halfB (n / 2)) F.BGD_CTRL_CLASS) (n % 2) && s.on b F.OBS_CTRL_CATCH_EN then s.enterCatch n
    else s.obsFault n 1 0x4B
  else s

/-- Handover to the observer (Table SL-3 Step 5, R228). -/
def handover (s : State) (n : Nat) : State :=
  let b := stnB n
  let d := wrap32 (s.get b H.thetaOl - s.get b F.OBS_ANGLE_THETA_H)
  let iq0 := asr (s.get b F.COM_OL_I_OL * sin16 (d % 2 ^ 32)) 15
  let id0 := asr (s.get b F.COM_OL_I_OL * cos16 (d % 2 ^ 32)) 15
  let s := s.puts b [(F.COM_STAT_ASRC_NOW, 1), (F.COM_STAT_LAW_NOW, if s.on b F.OBS_STAT_LIMP then s.get b F.OBS_CTRL_LIMP_LAW else s.get b F.COM_CTRL_LAW),
    (F.OBS_STAT_STARTING, 0), (H.istar, iq0), (H.handId0, id0), (H.handOn, 1), (H.handT, s.time), (H.backCnt, 0)]
  s.presetIstar n iq0

/-- Handback to the open-loop generator (R229); with `I_OL` 0 its angle has no stated value (DESIGN CHOICE, log entry 107). -/
def handback (s : State) (n : Nat) : State :=
  let b := stnB n
  let iol := s.get b F.COM_OL_I_OL
  let a : Int := if iol = 0 then (Config.handAngle (s.get b H.istar) % (2 ^ 31 + 1) : Nat) - 2 ^ 30
    else asin16 (clampI (-32767) 32767 (tdiv (s.get b H.istar * 32767) iol))
  s.startOpen n 5 (s.get b F.OBS_ANGLE_THETA_H + a) (tdiv (s.get b F.OBS_SPEED_WE * 10) (2 ^ 18)) (s.get b F.COM_OL_I_OL)

/-- The electrical speed set-point of KIND 1, in 0.1 Hz (R229): the pu command back to rev/s by WBASE, times PP. -/
def speedTarget (s : State) (n : Nat) : Int :=
  let b := stnB n
  tdiv (s.cmdNow n * s.get (snkB (n / 2) (n % 2)) F.LEN_WBASE_WBASE * s.get b F.COM_MOTOR_PP) (2 ^ 24)

/-- f_r moves toward its target at RAMP_ACC with the fraction carried, and θ_ol advances with it (R227, R229, R170). -/
def rampFr (s : State) (n t : Nat) : State :=
  let b := stnB n
  let hand := s.get b F.OBS_START_F_HAND
  let target :=
    if s.mode n = mStopping then 0
    else if s.get b F.STN_STAT_KIND == 1 then s.speedTarget n
    else hand * (if s.setSign n = 0 then s.get b H.wantDir else s.setSign n)
  let target := if s.get b F.OBS_STAT_STARTING == 4 then s.get b H.fr else target
  let num := s.get b F.OBS_START_RAMP_ACC * t * 10 + s.get b H.frFrac
  let step := num / 400000000
  let fr := s.get b H.fr
  let fr' := clampI (-hand) hand (fr + clampI (-step) step (target - fr))
  s.puts b [(H.fr, fr'), (H.frFrac, if fr' = target then 0 else num % 400000000),
    (H.thetaOl, s.get b H.thetaOl + tdiv (fr' * t * 2 ^ 32) 4000000000)]

/-- The sensorless sequence's part of a current-loop update (R227 to R229): currents of Steps 2 and 3, the ramp, the handover
test, and handback. Step 1 of Table SL-3, the rotation check and its wait, holds `STARTING` at 1 (R225). -/
def startUpdate (s : State) (n t : Nat) : State :=
  let b := stnB n
  let ph := s.get b F.OBS_STAT_STARTING
  let hand := s.get b F.OBS_START_F_HAND
  if s.on b H.rotChk || s.on b H.revWait then s
  else if ph = 2 then
    let el : Int := (s.time : Int) - s.get b H.startT
    let ta := s.get b F.COM_ALIGN_T_ALIGN * 400000
    let i := s.get b F.COM_ALIGN_I_ALIGN
    s.put b H.idRef (min i (tdiv (i * el * 4) (max 1 ta)))
  else if ph = 3 ∨ ph = 5 then
    let s := (s.put b H.idRef (s.get b F.COM_OL_I_OL)).rampFr n t
    let fr := s.get b H.fr
    if (if fr < 0 then -fr else fr) ≥ hand then s.puts b [(F.OBS_STAT_STARTING, 4), (H.startT, s.time)] else s
  else if ph = 4 then
    let s := s.rampFr n t
    let fr := s.get b H.fr
    let dw := s.get b F.OBS_SPEED_WE * 10 - fr * 2 ^ 18
    let afr := if fr < 0 then -fr else fr
    if s.on b F.OBS_STAT_LOCKED && decide ((if dw < 0 then -dw else dw) * 8 ≤ afr * 2 ^ 18) then s.handover n else s
  else if s.get b F.COM_STAT_ASRC_NOW == 1 && s.runLike n then
    let we := s.get b F.OBS_SPEED_WE
    let awe := if we < 0 then -we else we
    let low := decide (awe * 80 < 7 * hand * 2 ^ 18)
    let s := if low then s.bump b H.backCnt else s.put b H.backCnt 0
    let tgt := s.speedTarget n
    let wantLow := s.get b F.STN_STAT_KIND == 1 && decide ((if tgt < 0 then -tgt else tgt) * 8 < 7 * hand)
    if s.get b H.backCnt ≥ 16 ∨ (wantLow ∧ awe * 80 ≤ 7 * hand * 2 ^ 18) then s.handback n else s
  else s

/-- Limp mode that began with CATCH takes effect at its end (Table SL-5). -/
def limpBegin (s : State) (n : Nat) : State :=
  let b := stnB n
  if s.on b H.limpPend then
    (s.puts b [(H.limpPend, 0), (F.OBS_STAT_LIMP, 1), (F.COM_STAT_LAW_NOW, s.get b F.OBS_CTRL_LIMP_LAW)]).putSlow n
  else s

/-- Step 4a of Table SL-4: the gated slots of a station that enters RUN take their reset state, the current loops are preset to the rotor's
voltage, and the mode before CATCH returns with its command. A brake that a stop has applied stays so (R294). -/
def caught (s : State) (n : Nat) : State :=
  let b := stnB n
  let back := s.nat b H.catchMode
  let mag := s.get b F.OBS_EMFV_MAG
  let sg : Int := if s.get b F.OBS_SPEED_WE < 0 then -1 else 1
  let s := s.limpBegin n
  let s := s.puts b [(F.COM_STAT_ASRC_NOW, 1), (F.OBS_STAT_CATCHING, 0), (H.rampOn, 1), (H.rampT, s.time), (H.catchPend, 0),
    (H.fbPend, 0), (H.resRun, 0)]
  let s := if back = mRun ∨ back = mIsolated then s.resetGated n else s
  let s := if s.get b F.COM_STAT_LAW_NOW == 1 then s.presetSink (n / 2) (s.vqSlot n) (sat16 (asr (mag * 28378) 14))
    else (s.presetSink (n / 2) (s.vdSlot n) 0).presetSink (n / 2) (s.vqSlot n) (sg * mag)
  let s := ((s.bump b F.OBS_CNT_CATCH_OK).rotorRecord n 3).setMode n back
  let s := if s.get b F.GC_CTRL_PSRC == 1 && back = mRun then s.followPins n else s
  if s.on b F.STN_STAT_MBRK || back = mStopping then s else s.releaseBrake n

/-- The end of CATCH at an update boundary (Table SL-4 Steps 4a and 4b, R236), once the turn-off that began it has ended. A stop that ends there
leaves MBRK as its type does (Table SV-1). -/
def catchBoundary (s : State) (n : Nat) : State :=
  let b := stnB n
  let pend := s.nat b H.catchPend
  let fb := s.on b H.fbPend
  let back := s.nat b H.catchMode
  if s.mode n ≠ mCatch ∨ !s.on b F.GC_STAT_OFF_CONF ∨ s.on b F.GC_STAT_TURNOFF then s
  else if s.on b F.OBS_STAT_LOCKED then
    let s := s.caught n
    let s := if pend = 0 then s else s.stopStation n (pend - 1)
    if fb then s.fallback n else s
  else if s.on b H.catchStop then
    if pend ≠ 0 || back = mStopping then
      let ty := if pend ≠ 0 then pend - 1 else s.nat b F.STN_STAT_STOP
      let s := if ty = 1 ∨ ty = 3 then s.put b F.STN_STAT_MBRK 0 else s
      (if pend ≠ 0 then s.bump b F.STN_CNT_STOPS else s).endStop n
    else
      let s := (s.limpBegin n).puts b [(F.OBS_STAT_CATCHING, 0), (H.wantDir, s.setSign n), (H.fbPend, 0)]
      let s := (if back = mRun ∨ back = mIsolated then s.resetGated n else s).setMode n back
      let s := if s.get b F.GC_CTRL_PSRC == 1 then (s.followPins n).releaseBrake n else s.startAlign n
      if fb then s.fallback n else s
  else s

end Sys2Proof.Machine.State
end

