-- ==== Sys2Proof/Machine/Position.lean ====
section
/-!
DEFINITION. The position cells, the serial position ports and the repeaters (chapter 6).
-/
namespace Sys2Proof.Machine.State

/-! ### Position cell -/

/-- Signal periods per revolution (R107). -/
def linesOf (s : State) (n : Nat) : Int := s.get (stnB n) F.PF_LINES_LINES_M1 + 1

/-- The source gives an absolute angle within one revolution (R147). -/
def absSource (s : State) (n : Nat) : Bool :=
  let b := stnB n
  s.on b F.PF_CTRL_SRC || (s.get b F.PF_CTRL_MODE == 2 && s.get b F.PF_LINES_LINES_M1 == 0)

/-- The station has a position source (R107). -/
def hasSource (s : State) (n : Nat) : Bool := s.on (stnB n) F.PF_CTRL_SRC || s.on (stnB n) F.PF_CTRL_MODE

/-- The count moves by `d`, within the soft limits; reaching a limit sets its bit (R111, R116). -/
def movePos (s : State) (n : Nat) (d : Int) : State :=
  let b := stnB n
  let lo := s.get b F.PF_LIM_LO_LIM_LO
  let hi := s.get b F.PF_LIM_HI_LIM_HI
  let p := clampI lo hi (s.get b F.PF_POS_POS + d)
  let s := s.put b F.PF_POS_POS p
  let s := if p ≤ lo && decide (d < 0) then s.put b F.PF_STAT_LIM_LO 1 else s
  if p ≥ hi && decide (d > 0) then s.put b F.PF_STAT_LIM_HI 1 else s

/-- The source of a half's repeater has a position fault, until its `VALID` returns: a station on its own input, or the serial port, whose
faults are those of the stations that use it and its own run of discarded frames (R126, R127). -/
def rpFault (s : State) (h : Nat) : Bool :=
  let p := serB h
  let frozen (n : Nat) (ser : Bool) : Bool := s.on (stnB n) H.pfFrz && s.on (stnB n) F.PF_CTRL_SRC == ser
  match s.nat p F.RP_CTRL_SRC with
  | 0 => frozen (2 * h) false
  | 1 => frozen (2 * h + 1) false
  | _ => frozen (2 * h) true || frozen (2 * h + 1) true || decide (s.get p H.psBad ≥ s.get p F.PS_CTRL_ERR_MAX)

/-- `SRC_FLT` follows the repeater's source (R127). -/
def rpFollow (s : State) (h : Nat) : State := s.flag (serB h) F.RP_STAT_SRC_FLT (s.rpFault h)

/-- `VALID` sets, and a repeater on this source resumes (R115, R127). -/
def setValid (s : State) (n : Nat) : State :=
  (s.puts (stnB n) [(F.PF_STAT_VALID, 1), (H.pfAcq, 0), (H.pfFrz, 0)]).rpFollow (n / 2)

/-- θm and the shown fine angle from `b` and the fine angle or quadrant centre `a` (R118): `REV_PER` follows b. -/
def putAngle (s : State) (n : Nat) (bNew a : Int) : State :=
  let b := stnB n
  let l := s.linesOf n
  let dPer := wrapS 34 (bNew / 4 - s.get b H.pfB / 4)
  let rp := (s.get b F.PF_FINE_REV_PER + dPer) % l
  s.puts b [(H.pfB, bNew), (F.PF_FINE_REV_PER, rp), (F.PF_FINE_FINE, a), (F.PF_FINE_CQ, s.get b H.pfC % 4),
    (F.PF_ANGLE_THETA_M, (rp * 2 ^ 14 + a) * 2 ^ 18 / l)]

/-- The quadrant centre that stands for the fine angle without one (R113). -/
def centre (c : Int) : Int := c % 4 * 2 ^ 12 + 2 ^ 11

/-- Quadrant of lines A and B (Table PF-2). -/
def quadrant (a b : Bool) : Int := if a then (if b then 0 else 1) else if b then 3 else 2

/-- Quadrant of a station's lines as they stand, swapped with `DIR_INV` (R111). -/
def lineQuadrant (s : State) (n : Nat) : Int :=
  let b := stnB n
  if s.on b F.PF_CTRL_DIR_INV then quadrant (s.on b H.pfLB) (s.on b H.pfA) else quadrant (s.on b H.pfA) (s.on b H.pfLB)

/-- Acquisition begins (R115): `VALID` clears, and `OFS_VALID` with it where the source is not absolute (R147). After a fault or a change of source
(`again`), `POS_SUSPECT` sets, at once and not with `VALID`, which R115 leaves open (DESIGN CHOICE, log entry 119). Coarse-only operation is one of
modes 1 and 3 (R113). `PF_STAT.CAUSE` keeps the latest cause when its entry has been cleared: the table's "latest fault cause; 0 when none" says no
more (R121; DESIGN CHOICE, log entry 92). Mode 3 has no sample to wait for: the coarse count takes the quadrant of its lines, whose centre gives θm
(R113, R118; DEDUCED, log entry 74). -/
def startAcq (s : State) (n : Nat) (again : Bool) : State :=
  let b := stnB n
  let s := s.puts b [(F.PF_STAT_VALID, 0), (H.pfFlt, 0), (H.pfAcq, b2i (s.hasSource n)), (H.pfAgain, b2i again), (H.pfRadN, 0),
    (H.pfDbl, 0), (H.pfTq, 0)]
  let s := if s.on b F.PF_CTRL_SRC || !(s.get b F.PF_CTRL_MODE == 1 || s.get b F.PF_CTRL_MODE == 3) then s.put b F.PF_STAT_COARSE_ONLY 0 else s
  let s := if again then s.put b F.PF_STAT_POS_SUSPECT 1 else s
  let s := if s.absSource n then (if again then s else s.put b F.COM_STAT_OFS_VALID 1) else s.put b F.COM_STAT_OFS_VALID 0
  if !s.on b F.PF_CTRL_SRC && s.get b F.PF_CTRL_MODE == 3 then
    let c := s.get b H.pfC / 4 * 4 + s.lineQuadrant n
    (((if again then s else s.put b F.PF_POS_POS 0).put b H.pfC c).putAngle n c (centre c)).setValid n
  else s

/-- A position fault with a code (R121, Table AR-3): the cell freezes, and the station block reacts by its mode, a running one at its next update
boundary (Table SL-5). -/
def positionFaultBy (s : State) (n code : Nat) : State :=
  let b := stnB n
  let s := (s.puts b [(F.PF_STAT_VALID, 0), (F.PF_STAT_CAUSE, code % 64), (H.pfFlt, 1), (H.pfFrz, 1), (H.pfAcq, 0)]).rpFollow (n / 2)
  let m := s.mode n
  let s :=
    if (m == mRun || m == mStopping || m == mIsolated) && s.get b F.COM_STAT_ASRC_NOW == 0 then
      s.put b H.posPend code
    else if m == mArmed && s.get b F.COM_CTRL_ASRC == 0 then s.faultStop n code true
    else if m == mDiag then s.put b H.sizFail (orI (s.get b H.sizFail) (andI (s.get b H.szNow) 6).toNat)
    else s
  if s.hasFault (stnU n) code then s else s.stnRaise n code

/-- A position fault of Table PF-4. -/
def positionFault (s : State) (n cause : Nat) : State := s.positionFaultBy n (stnCode n 1 cause)

/-- The count follows `p_raw` (R111). -/
def followRaw (s : State) (n : Nat) (raw : Int) : State :=
  let b := stnB n
  (s.movePos n (wrap48 (raw - s.get b H.pfRawPrev))).put b H.pfRawPrev raw

/-- An accepted edge for the speed estimate, at tick `t` in direction `e` (R119), the edge rate of R113 in modes 1 and 3, and the resolver's
limit of a quarter of the excitation frequency, which its quadrant crossings show (R109; DEDUCED, log entry 75). Over how many edges the rate is
measured no rule says: each interval between two edges of one direction is one measurement (DESIGN CHOICE, log entry 91). -/
def speedEdge (s : State) (n t : Nat) (e : Int) : State :=
  let b := stnB n
  let last := s.get b H.pfLast
  let s := if e = s.get b H.pfELast then s.put b H.pfEdgeN (s.get b H.pfEdgeN + 1)
    else s.puts b [(H.pfEdgeN, 0), (H.pfFirst, t)]
  let s := s.puts b [(F.PF_STAT_DIR, if e < 0 then 1 else 0), (H.pfLast, t)]
  let same := decide (e = s.get b H.pfELast)
  let dt : Int := (t : Int) - last
  let s := s.put b H.pfELast e
  if !same || decide (dt ≤ 0) then s
  else if s.get b F.PF_CTRL_MODE == 2 then
    if decide (dt < 2000 * s.get b F.PF_EXC_EXC_DIV) && !s.on b H.pfFlt then s.positionFault n 0x32 else s
  else if dt < 200 then (if s.on b H.pfFlt then s else s.positionFault n 0x32)
  else if dt < 400 then s.put b F.PF_STAT_COARSE_ONLY 1
  else if dt * 225000 > 100000000 then s.put b F.PF_STAT_COARSE_ONLY 0
  else s

/-- Full interpolation returns once no edge has come for as long as one below 225 kHz would take (R113). -/
def coarseRelease (s : State) (n t : Nat) : State :=
  let b := stnB n
  if s.on b F.PF_STAT_COARSE_ONLY && decide (((t : Int) - s.get b H.pfLast) * 225000 > 100000000) then s.put b F.PF_STAT_COARSE_ONLY 0
  else s

/-- One step of the coarse count to quadrant `qn` (R111, R112), which in modes 1 and 3 is an edge for the speed estimate. During a position fault the
coarse count goes on, and count, θm and speed stand (R121). -/
def coarseStep (s : State) (n t : Nat) (qn : Int) : State :=
  let b := stnB n
  let mode := s.get b F.PF_CTRL_MODE
  let c := s.get b H.pfC
  let dq := (qn - c) % 4
  let noFine := mode == 3 || (mode == 1 && s.on b F.PF_STAT_COARSE_ONLY)
  if dq = 0 then s
  else if dq = 2 then
    let s := s.bump b F.PF_QDBL_QDBL
    if !noFine then s.put b H.pfDbl 1 else if s.on b H.pfFlt then s else s.positionFault n 0x30
  else
    let e : Int := if dq = 1 then 1 else -1
    let s := s.put b H.pfC (c + e)
    let s := if mode = 2 then s else s.speedEdge n t e
    if s.on b H.pfFlt then s
    else
      let c := s.get b H.pfC
      if mode = 3 then
        let s := s.putAngle n c (centre c)
        if s.on b F.PF_STAT_VALID then s.movePos n e else s
      else if mode = 1 && s.on b F.PF_STAT_COARSE_ONLY && s.on b F.PF_STAT_VALID then
        (s.putAngle n c (centre c)).followRaw n (c / 4 * 2 ^ 14 + centre c)
      else s

/-- The filters pass levels of lines A and B at tick `t`; then the coarse part runs (R111). -/
def linesPass (s : State) (n t : Nat) (la lb : Bool) : State :=
  let b := stnB n
  let mode := s.get b F.PF_CTRL_MODE
  let s := (s.advance t).puts b [(H.pfA, b2i la), (H.pfLB, b2i lb)]
  if s.on b F.PF_CTRL_SRC || !(mode == 1 || mode == 3) then s else s.coarseStep n t (s.lineQuadrant n)

/-- A comparator's level, with the tick since which it has held it. -/
def lineLevel (s : State) (n : Nat) (lvl since : Fld) (l : Bool) (t : Nat) : State :=
  if s.get (stnB n) lvl == b2i l then s else s.puts (stnB n) [(lvl, b2i l), (since, t)]

/-- POSITION_COARSE_EDGE: the comparators of station `n`'s input have levels A and B from tick `t` for `hold` filter clocks of 10 ns. Each
line's filter passes a new level once the line has held it for `FLT_N` clocks, and one held for less not at all (R110). -/
def coarseEdge (s : State) (n t : Nat) (la lb : Bool) (hold : Nat) : State :=
  let b := stnB n
  let k := s.nat b F.PF_CTRL_FLT_N
  let s := (s.lineLevel n H.pfRA H.pfTA la t).lineLevel n H.pfRB H.pfTB lb t
  let ta := s.nat b H.pfTA + 4 * k
  let tb := s.nat b H.pfTB + 4 * k
  let a0 := s.on b H.pfA
  let b0 := s.on b H.pfLB
  let ga := a0 != la && decide (ta ≤ t + 4 * hold)
  let gb := b0 != lb && decide (tb ≤ t + 4 * hold)
  if ga && gb then
    if ta = tb then s.linesPass n ta la lb
    else if ta < tb then (s.linesPass n ta la b0).linesPass n tb la lb
    else (s.linesPass n tb a0 lb).linesPass n ta la lb
  else if ga then s.linesPass n ta la b0
  else if gb then s.linesPass n tb a0 lb
  else s.advance t

/-- In mode 2 the edges of the speed estimate are the quadrant crossings of the tracking loop (R119). -/
def trackEdge (s : State) (n t : Nat) (a : Int) : State :=
  let b := stnB n
  let q := a / 2 ^ 12
  let was := s.get b H.pfTq
  let s := s.put b H.pfTq (q + 1)
  if was = 0 then s
  else if (q - (was - 1)) % 4 = 1 then s.speedEdge n t 1
  else if (q - (was - 1)) % 4 = 3 then s.speedEdge n t (-1)
  else s

/-- A corrected channel value (R108). -/
def corr (raw ofs gain : Int) : Int := sat16 (asr ((raw + ofs) * gain) 14)

/-- Fine angle of a corrected pair, u14 (R111). -/
def fineAngle (sn cs : Int) : Int := (angle32 cs sn + 2 ^ 17) / 2 ^ 18 % 2 ^ 14

/-- The first sample that passes R114 sets the count (R115). -/
def acquire (s : State) (n : Nat) (a : Int) : State :=
  let b := stnB n
  let c := s.get b H.pfC / 4 * 4 + a / 2 ^ 12
  let p := s.get b F.PF_POS_POS
  let p' := if s.on b H.pfAgain then p + wrapS 14 (a - p) else a
  let s := s.puts b [(H.pfC, c), (H.pfAPrev, a), (H.pfDbl, 0), (H.pfRawPrev, wrap48 (c / 4 * 2 ^ 14 + a))]
  (((s.putAngle n c a).movePos n (p' - p))).setValid n

/-- The fine part of R111 on a fine angle, with the amplitude check of R114 already passed or suspended. -/
def finePart (s : State) (n : Nat) (a : Int) : State :=
  let b := stnB n
  let s := if s.on b H.pfDbl then
      let da := wrapS 14 (a - s.get b H.pfAPrev)
      s.puts b [(H.pfC, if da ≥ 0 then s.get b H.pfC + 2 else s.get b H.pfC - 2), (H.pfDbl, 0)]
    else s
  let c := s.get b H.pfC
  let d := (a / 2 ^ 12 - c) % 4
  if d = 2 then (s.put b H.pfAPrev a).positionFault n 0x30
  else
    let bb := wrapU 36 (if d = 1 then c + 1 else if d = 3 then c - 1 else c)
    ((s.putAngle n bb a).followRaw n (wrap48 (bb / 4 * 2 ^ 14 + a))).put b H.pfAPrev a

/-! ### Sizing (R128, R129) -/

/-- The sizing item that follows item `now`, as its bit, in the order current offsets, resolver phase, sensor amplitudes; 0 after the last
(R128). -/
def sizAfter (items now : Nat) : Nat :=
  let order := match now with | 0 => [1, 4, 2] | 1 => [4, 2] | 4 => [2] | _ => []
  (order.find? fun i => items / i % 2 == 1).getD 0

/-- The next sizing item begins; the amplitude item turns the shaft where `DRIVE` asks for it, and its end takes the drive off (R128,
R129). -/
def sizNext (s : State) (n : Nat) : State :=
  let b := stnB n
  let s := if s.driving n then s.turnOff n else s
  s.puts b [(H.szNow, sizAfter (s.nat b H.sizItems) (s.nat b H.szNow)), (H.szT, s.time), (H.szHave, 0), (H.szTurn, 0)]

/-- The resolver phase item ends after 64 carrier periods (R128). -/
def sizPhase (s : State) (n : Nat) : State :=
  let b := stnB n
  if s.mode n == mDiag && s.get b H.szNow == 4 && decide ((s.time : Int) ≥ s.get b H.szT + 128000 * s.get b F.PF_EXC_EXC_DIV) then s.sizNext n
  else s

/-- A raw sample of the amplitude item, with its fine angle: the extremes of both channels over eight complete signal periods (R128). -/
def sizAmp (s : State) (n : Nat) (rs rc a : Int) : State :=
  let b := stnB n
  if s.mode n != mDiag || s.get b H.szNow != 2 then s
  else if !s.on b H.szHave then
    s.puts b [(H.szHave, 1), (H.szPrev, a), (H.szTurn, 0), (H.szS0, rs), (H.szS1, rs), (H.szC0, rc), (H.szC1, rc)]
  else
    let turn := s.get b H.szTurn + wrapS 14 (a - s.get b H.szPrev)
    let s := s.puts b [(H.szPrev, a), (H.szTurn, turn), (H.szS0, min rs (s.get b H.szS0)), (H.szS1, max rs (s.get b H.szS1)),
      (H.szC0, min rc (s.get b H.szC0)), (H.szC1, max rc (s.get b H.szC1))]
    if (if turn < 0 then -turn else turn) ≥ 8 * 2 ^ 14 then s.sizNext n else s

/-- A conversion of the windings in the resolver phase item, at carrier phase `ph` (u16, 2^16 a period): the sums of the correlation against the
excitation, and the level, the larger of the corrected magnitudes (R128). -/
def sizCarrier (s : State) (n : Nat) (rs rc ph : Int) : State :=
  let b := stnB n
  let mag (x : Int) : Int := if x < 0 then -x else x
  let c := cos16 (ph * 65536)
  let q := sin16 (ph * 65536)
  let sn := mag (corr rs (s.get b F.PF_CAL_SIN_OFS) (s.get b F.PF_CAL_SIN_GAIN))
  let cs := mag (corr rc (s.get b F.PF_CAL_COS_OFS) (s.get b F.PF_CAL_COS_GAIN))
  if s.mode n == mDiag && s.get b H.szNow == 4 then
    s.puts b [(H.szPk, max (s.get b H.szPk) (max sn cs)), (H.szSI, s.get b H.szSI + rs * c), (H.szSQ, s.get b H.szSQ + rs * q),
      (H.szCI, s.get b H.szCI + rc * c), (H.szCQ, s.get b H.szCQ + rc * q)]
  else s

/-- The phase that the correlation of the larger winding gives (R128). -/
def corrPhase (s : State) (n : Nat) : Nat :=
  let b := stnB n
  let p (f g : Fld) : Int := s.get b f * s.get b f + s.get b g * s.get b g
  if p H.szSI H.szSQ ≥ p H.szCI H.szCQ then Config.resPhase (s.get b H.szSI) (s.get b H.szSQ)
  else Config.resPhase (s.get b H.szCI) (s.get b H.szCQ)

/-- A winding has reached `RAD_LO`, so that the resolver phase item can pass (R128). -/
def sizLevel (s : State) (n : Nat) : Bool :=
  decide (s.get (stnB n) F.PF_AMP_CHK_RAD_LO * 24576 ≤ s.get (stnB n) H.szPk * 100)

/-- A raw code at an end of the range: such a sample is no measurement (R128, R163). -/
def codeSat (raw : Int) : Bool := raw == -32768 || raw == 32767

/-! ### Fine samples -/

/-- A valid frame's value for one station that uses the port (R120, R124, R118). The count change of the speed is the difference of the two
frames' values, at a soft limit too, and its quotient is truncated toward zero (DESIGN CHOICE, log entry 94). -/
def psUse (s : State) (n t v : Nat) (d : Int) (first : Bool) (prevT : Int) : State :=
  let b := stnB n
  let p := serB (n / 2)
  let st := s.nat p F.PS_FMT_ST_BITS
  let mt := s.nat p F.PS_FMT_MT_BITS
  if !s.on b F.PF_CTRL_SRC || s.on b H.pfFlt then s
  else
    let s := s.put b F.PF_ANGLE_THETA_M ((v % 2 ^ st) * 2 ^ (32 - st))
    if s.on b F.PF_STAT_VALID then
      let s := (s.movePos n d).put b F.PF_STAT_DIR (if d < 0 then 1 else 0)
      if first then s
      else s.put b F.PF_SPEED_SPEED (sat32 (tdiv (d * 2 ^ 18 * 400000000) (max 1 (2 ^ st * ((t : Int) - prevT)))))
    else if s.on b H.pfAcq then
      let want : Int := if mt = 0 then (v % 2 ^ st : Nat) else sgnN (mt + st) v
      (s.movePos n (want - s.get b F.PF_POS_POS)).setValid n
    else s

/-- The latest valid frame is used at the first fine sample time after its end (R122). -/
def psTake (s : State) (n : Nat) : State :=
  let p := serB (n / 2)
  if !s.on (stnB n) H.psNew then s
  else (s.puts (stnB n) [(H.psNew, 0), (H.psUseT, s.get p H.psPrevT)]).psUse n (s.nat p H.psPrevT) (s.nat p H.psPrev) (s.get p H.psD) (s.on p H.psFirst) (s.get p H.psPt)

/-- The windings are sampled at carrier phase `ph`: at a carrier peak, positive or negative, delayed by `RES_PHASE` (R109). -/
def atPeak (s : State) (n ph : Nat) (neg : Bool) : Bool :=
  ph % 65536 == (s.nat (stnB n) F.PF_RES_RES_PHASE + if neg then 32768 else 0) % 65536

/-- An update of the resolver's tracking loop with the latest demodulated pair (R109). -/
def trackStep (s : State) (n : Nat) (sn cs : Int) : State :=
  let b := stnB n
  let r := Config.trackLoop (s.nat b F.PF_RES_TRK_BW) (s.nat b H.trkTh) (s.get b H.trkW) sn cs
  s.puts b [(H.trkTh, (r.1 : Int)), (H.trkW, r.2)]

/-- A sample pair of a track or of the windings: a raw code at an end of its range fails the amplitude item, and the sign turns where the pair was
taken at a negative carrier peak (R109, R128). -/
def takePair (s : State) (n : Nat) (rs rc : Int) (turn : Bool) : State :=
  let b := stnB n
  let s := if s.mode n == mDiag && s.get b H.szNow == 2 && (codeSat rs || codeSat rc) then s.put b H.szSat 1 else s
  s.puts b [(H.fnS, if turn then -rs else rs), (H.fnC, if turn then -rc else rc)]

/-- POSITION_FINE_SAMPLE: a conversion pair in mode 1; in mode 2 an update of the tracking loop, with the windings' codes at carrier phase `ph`, which
are a new pair where that is a carrier peak delayed by `RES_PHASE`, a negative one with `neg` (R108 to R114; log entry 75). `PF_RADIUS` follows every
pair, a position fault or not, as the integer part of its root (R114; DESIGN CHOICE, log entry 93). -/
def fineSample (s : State) (n t : Nat) (rs rc : Int) (ph : Nat) (neg : Bool) : State :=
  let s := ((s.advance t).psTake n).sizPhase n
  let b := stnB n
  let mode := s.get b F.PF_CTRL_MODE
  if s.on b F.PF_CTRL_SRC then s
  else if !(mode == 1 || mode == 2) then s.coarseRelease n t
  else
    let pair := mode == 1 || s.atPeak n ph neg
    let s := s.sizCarrier n rs rc ph
    let s := if pair then s.takePair n rs rc (mode == 2 && neg) else s
    let sn := corr (s.get b H.fnS) (s.get b F.PF_CAL_SIN_OFS) (s.get b F.PF_CAL_SIN_GAIN)
    let cs := corr (s.get b H.fnC) (s.get b F.PF_CAL_COS_OFS) (s.get b F.PF_CAL_COS_GAIN)
    let r : Int := isqrt (sn * sn + cs * cs).toNat
    let bad := decide (r * 100 < s.get b F.PF_AMP_CHK_RAD_LO * 24576) || decide (r * 100 > s.get b F.PF_AMP_CHK_RAD_HI * 24576)
    let sizing := s.mode n == mDiag && s.get b H.sizItems != 0
    let s := if !pair then s
      else
        let s := s.put b F.PF_RADIUS_RAD_NOW r
        if bad && !sizing then s.bump b H.pfRadN else s.put b H.pfRadN 0
    let s := if mode = 2 then s.trackStep n sn cs else s
    let a0 := if mode = 2 then s.get b H.trkTh / 2 ^ 18 else fineAngle sn cs
    let a := if s.on b F.PF_CTRL_DIR_INV then (2 ^ 14 - a0) % 2 ^ 14 else a0
    let s := if pair then s.sizAmp n (s.get b H.fnS) (s.get b H.fnC) a else s
    let s := if mode = 2 then s.trackEdge n t a else s
    if s.on b H.pfFlt then s
    else if s.on b F.PF_STAT_VALID then
      if s.get b H.pfRadN ≥ s.get b F.PF_AMP_CHK_RAD_N then s.positionFault n 0x31
      else
        let s := if mode = 2 then
            s.coarseStep n t (if s.on b F.PF_CTRL_DIR_INV then quadrant (decide (cs > 0)) (decide (sn > 0))
              else quadrant (decide (sn > 0)) (decide (cs > 0)))
          else s.coarseRelease n t
        if s.on b H.pfFlt || (mode == 1 && s.on b F.PF_STAT_COARSE_ONLY) then s else s.finePart n a
    else if s.on b H.pfAcq && pair && !(bad && !sizing) then s.acquire n a
    else s

/-- The speed estimate of an analogue source at tick `tu` (R119). -/
def speedUpdate (s : State) (n tu : Nat) : State :=
  let b := stnB n
  if s.on b F.PF_CTRL_SRC || !s.on b F.PF_CTRL_MODE || s.on b H.pfFlt then s
  else
    let l := s.linesOf n
    let k := s.get b H.pfEdgeN
    let e := s.get b H.pfELast
    let last := s.get b H.pfLast
    let spd := s.get b F.PF_SPEED_SPEED
    let el : Int := (tu : Int) - last
    let z := s.get b F.PF_SPD_CFG_ZERO_TO
    if k > 0 then
      s.puts b [(F.PF_SPEED_SPEED, sat32 (e * tdiv (k * 100000000 * 2 ^ 18) (max 1 (l * (last - s.get b H.pfFirst))))),
        (H.pfEdgeN, 0), (H.pfFirst, last)]
    else if z ≠ 0 && decide (el > z * 4000) then s.put b F.PF_SPEED_SPEED 0
    else if e * spd < 0 then s.put b F.PF_SPEED_SPEED 0
    else
      let bound := tdiv (100000000 * 2 ^ 18) (max 1 (l * el))
      if bound < (if spd < 0 then -spd else spd) then s.put b F.PF_SPEED_SPEED (e * bound) else s

/-- POSITION_SPEED_UPDATE: every 10 µs while the current loop is not running (R119). -/
def speedTick (s : State) (n t : Nat) : State := (s.advance t).speedUpdate n t

/-- ACQUISITION_TIMEOUT: no valid sample or frame within 20 ms (R115). -/
def acqTimeout (s : State) (n : Nat) : State :=
  if s.on (stnB n) H.pfAcq && !s.on (stnB n) F.PF_STAT_VALID then s.positionFault n 0x34 else s

/-! ### Serial position ports (R122 to R125) -/

/-- MA has been high for `TOUT` since the latest frame, so that the next may start (R123). -/
def psReady (s : State) (h : Nat) : Bool :=
  let b := serB h
  !s.on b H.psEndT || decide (s.get b H.psEndT + 400 * (s.get b F.PS_FMT_TOUT + 1) ≤ (s.time : Int) + 1)

/-- PS_FRAME_TRIGGER: a frame starts, or is skipped while one runs, its timeout included (R122, R123; DEDUCED, log entry 98). -/
def psTrigger (s : State) (h t : Nat) : State :=
  let s := s.advance t
  let b := serB h
  if !s.on b F.PS_CTRL_PROTO then s
  else if s.on b H.psRun || !s.psReady h then s.bump b F.PS_STAT_SKIP
  else s.put b H.psRun 1

/-- One bit into the 6-bit CRC with polynomial x^6 + x + 1 (R123). -/
def crc6Bit (c : Nat) (x : Bool) : Nat :=
  let fb := bitN c 5 != x
  let c := c * 2 % 64
  if fb then c ^^^ 3 else c

/-- The CRC of the `k` low bits of a number, most significant first. -/
def crc6 (x : Nat) : Nat → Nat → Nat
  | 0, c => c
  | k + 1, c => crc6 x k (crc6Bit c (bitN x k))

/-- Gray code to binary, `k` bits. -/
def grayBin (x : Nat) : Nat → Nat
  | 0 => x
  | k + 1 => x ^^^ (grayBin (x / 2) k)

/-- A discarded frame (R125). -/
def psDiscard (s : State) (h : Nat) : State :=
  let b := serB h
  let s := (s.bump b F.PS_STAT_ERR).bump b H.psBad
  if s.get b H.psBad ≥ s.get b F.PS_CTRL_ERR_MAX then
    (s.each [2 * h, 2 * h + 1] fun n s =>
      if s.on (stnB n) F.PF_CTRL_SRC && !s.on (stnB n) H.pfFlt then s.positionFault n 0x33 else s).rpFollow h
  else s

/-- PS_FRAME_END: a frame's line bits: SLO high at the start, a start bit and its delay at the pin in 10 ns, which the filter of `SLO_FLT_N`
clocks lengthens, the data bits, and for BiSS C nE, nW and the CRC as sent (R122 to R125). Its value waits for the next fine sample time. -/
def psEnd (s : State) (h t : Nat) (sloHigh start : Bool) (dly : Nat) (bits : Nat) (nE nW : Bool) (crc : Nat) : State :=
  let s := s.advance t
  let b := serB h
  let proto := s.get b F.PS_CTRL_PROTO
  let st := s.nat b F.PS_FMT_ST_BITS
  let mt := s.nat b F.PS_FMT_MT_BITS
  let w := st + mt
  if !s.on b H.psRun then s
  else
    let s := s.puts b [(H.psRun, 0), (H.psEndT, (s.time : Int) + 1)]
    let biss := proto == 1
    let dly := dly + s.nat b F.PS_CTRL_SLO_FLT_N
    let start := start && decide (dly ≤ 500)
    let s := if biss && start then s.put b F.PS_STAT_LINE_DLY dly else s
    let raw := bits % 2 ^ w
    let v := if !biss && s.on b F.PS_CTRL_GRAY then grayBin raw (w - 1) else raw
    let sum := crc6Bit (crc6Bit (crc6 raw w 0) nE) nW
    let s := if biss && start && !nW then s.put b F.PS_STAT_WARN 1 else s
    let bad := !sloHigh || (biss && (!start || !nE || crc % 64 != 63 - sum))
    let d := wrapS w ((v : Int) - s.get b H.psPrev)
    let j := s.get b F.PS_FMT_JUMP
    let jump := s.on b H.psHave && decide (j ≠ 0) && decide ((if d < 0 then -d else d) * 1024 > j * 2 ^ st)
    if bad || jump then s.psDiscard h
    else
      let s := s.each [2 * h, 2 * h + 1] fun n s => s.psTake n
      let s := s.puts b [(F.PS_RAW_RAW, raw), (H.psPt, s.get b H.psPrevT), (H.psFirst, b2i (!s.on b H.psHave)), (H.psD, d), (H.psPrev, v),
        (H.psPrevT, t), (H.psHave, 1), (H.psBad, 0), (H.psTheta, (v % 2 ^ st) * 2 ^ (32 - st))]
      (s.each [2 * h, 2 * h + 1] fun n s => s.flag (stnB n) H.psNew (s.on (stnB n) F.PF_CTRL_SRC)).rpFollow h

/-! ### Repeater (R126, R127) -/

/-- θm that the repeater of a half follows. An E input whose station is on the serial port (`PF_CTRL.SRC` 1) has no angle of its own: the repeater
then follows that station's `PF_ANGLE`, the serial angle, which R126 does not say (DESIGN CHOICE, log entry 76). -/
def rpTheta (s : State) (h : Nat) : Int :=
  match s.nat (serB h) F.RP_CTRL_SRC with
  | 0 => s.get (stnB (2 * h)) F.PF_ANGLE_THETA_M
  | 1 => s.get (stnB (2 * h + 1)) F.PF_ANGLE_THETA_M
  | _ => s.get (serB h) H.psTheta

/-- Levels of RP<k>_A and RP<k>_B: those of the quadrant that the emitted edges have reached, swapped by `RP_INV` (R126, Table PF-2). -/
def rpLines (s : State) (h : Nat) : Bool × Bool :=
  let q := s.get (serB h) H.rpPos % 4
  let a := decide (q = 0 ∨ q = 1)
  let b := decide (q = 0 ∨ q = 3)
  if s.on (serB h) F.RP_CTRL_RP_INV then (b, a) else (a, b)

/-- The index output (R126): the quadrant that begins at `ZPOS` holds θm, frozen with a faulty source (R127), and A and B are both high. -/
def rpIndex (s : State) (h : Nat) : Bool :=
  let b := serB h
  let n4 := 4 * (s.get b F.RP_CTRL_RP_LINES + 1)
  let th := if s.on b F.RP_STAT_SRC_FLT then s.get b H.rpAng else s.rpTheta h
  decide ((th - s.get b F.RP_STAT_ZPOS * 65536) % 2 ^ 32 * n4 < 2 ^ 32) && (s.rpLines h).1 && (s.rpLines h).2

/-- REPEATER_EDGE_EMIT: one edge toward the present angle, at the rate limit; a backlog above 1024 edges is lost (R126). The source's angle is
followed over its wraps; a source with a position fault freezes the outputs (R127). -/
def rpEmit (s : State) (h t : Nat) : State :=
  let s := s.advance t
  let b := serB h
  if !s.on b F.RP_CTRL_EN || s.on b F.RP_STAT_SRC_FLT then s
  else
    let n4 := 4 * (s.get b F.RP_CTRL_RP_LINES + 1)
    let ang := s.get b H.rpAng + wrapS 32 (s.rpTheta h - s.get b H.rpAng)
    let want := ang * n4 / 2 ^ 32
    let s := s.put b H.rpAng ang
    let d := want - s.get b H.rpPos
    let ad := if d < 0 then -d else d
    if d = 0 then s
    else
      let lost := decide (1024 < ad)
      let s := if lost then s.put b F.RP_STAT_LOST 1 else if ad > 1 then s.put b F.RP_STAT_OVR 1 else s
      s.put b H.rpPos (if lost then want else s.get b H.rpPos + sgnI d)

/-- A write of `RP_CTRL`: `SRC_FLT` is that of the source chosen, and the emitted edges count in the new line number, the backlog taken the
short way round (R126, R127; DESIGN CHOICE, log entry 76). -/
def rpWritten (s : State) (h : Nat) : State :=
  let s := s.rpFollow h
  let b := serB h
  let n4 := 4 * (s.get b F.RP_CTRL_RP_LINES + 1)
  let th := s.rpTheta h
  let want := th * n4 / 2 ^ 32
  let d0 := (want - s.get b H.rpPos) % n4
  s.puts b [(H.rpAng, th), (H.rpPos, want - (if 2 * d0 > n4 then d0 - n4 else d0))]

/-! ### The end of sizing (R128, R129, R172) -/

/-- The sums and extremes of a channel of the offset item give an offset: a mean within ±4096 LSB and a spread of at most 2048 (R172). -/
def offsetOk (sum lo hi : Int) : Bool := decide (-4096 * 4096 ≤ sum ∧ sum ≤ 4096 * 4096) && decide (hi - lo ≤ 2048)

/-- The extremes of a channel of the amplitude item give a calibration: an amplitude of at least 6144 LSB (R128). A sample at an end of the range
fails the item as the raw code it is. -/
def amplitudeOk (lo hi : Int) : Bool := decide (hi - lo ≥ 2 * 6144)

/-- SIZING_COMPLETE: the items end and their results take effect (R128, R129, R172). Offsets, amplitudes and the windings' level follow from the
samples taken, and so does the resolver's phase, of which R128 says nothing where the shaft did not stand `still`: it is open then (log entry 2). An
item that has not ended by tick `t` fails. The offset of the amplitude item and both quotients of its gain are truncated toward zero (DESIGN CHOICE,
log entry 95); a gain outside its format is an open value (log entry 2). -/
def sizingEnd (s : State) (n t : Nat) (still : Bool) : State :=
  let s := s.advance t
  let b := stnB n
  let items := s.nat b H.sizItems
  if items = 0 ∨ s.mode n ≠ mDiag then s
  else
    let s := s.sizPhase n
    let now := s.nat b H.szNow
    let failed := s.nat b H.sizFail
    let ok0 := bitN items 0 && decide (s.get b H.szN = 4096) && offsetOk (s.get b H.szSumU) (s.get b H.szLoU) (s.get b H.szHiU) &&
      offsetOk (s.get b H.szSumV) (s.get b H.szLoV) (s.get b H.szHiV) && offsetOk (s.get b H.szSumW) (s.get b H.szLoW) (s.get b H.szHiW)
    let s := if ok0 then
        ((s.put b F.CS_CAL_OFS (-(asr (s.get b H.szSumU + 2048) 12))).put (b + 4) F.CS_CAL_OFS (-(asr (s.get b H.szSumV + 2048) 12))).put
          (b + 8) F.CS_CAL_OFS (-(asr (s.get b H.szSumW + 2048) 12))
      else s
    let ok2 := bitN items 2 && s.sizLevel n && !bitN failed 2 && decide (now ≠ 1 ∧ now ≠ 4)
    let s := if !ok2 then s else if still then s.put b F.PF_RES_RES_PHASE (s.corrPhase n : Nat) else s.putFree b F.PF_RES_RES_PHASE
    let s0 := s.get b H.szS0
    let s1 := s.get b H.szS1
    let c0 := s.get b H.szC0
    let c1 := s.get b H.szC1
    let ok1 := bitN items 1 && !bitN failed 1 && now == 0 && !s.on b H.szSat && amplitudeOk s0 s1 && amplitudeOk c0 c1
    let gain (mx mn : Int) : Int := tdiv (24576 * 2 ^ 14) (max 1 (tdiv (mx - mn) 2))
    let s := if ok1 then s.puts b [(F.PF_CAL_SIN_OFS, -(tdiv (s1 + s0) 2)), (F.PF_CAL_SIN_GAIN, gain s1 s0),
        (F.PF_CAL_COS_OFS, -(tdiv (c1 + c0) 2)), (F.PF_CAL_COS_GAIN, gain c1 c0)] else s
    let s := if ok1 && decide (gain s1 s0 > 65535) then s.putFree b F.PF_CAL_SIN_GAIN else s
    let s := if ok1 && decide (gain c1 c0 > 65535) then s.putFree b F.PF_CAL_COS_GAIN else s
    let done := (if ok0 then 1 else 0) + (if ok1 then 2 else 0) + (if ok2 then 4 else 0)
    let bad := items - done
    let s := s.turnOff n
    let s := (s.puts b [(H.sizItems, 0), (H.sizFail, 0), (H.szNow, 0)]).setMode n mOff
    s.completeAll 0x25 n stOK 0 [done, bad]

end Sys2Proof.Machine.State
end

