-- ==== Sys2Proof/Machine/Commutation.lean ====
section
/-!
DEFINITION. Commutation, modulation and current sensing (chapter 8), the station command and the I* clamp (R242, R290, R293, R203), and
the current-loop update that joins them.
-/
namespace Sys2Proof.Machine.State

/-- A fault cause of Table FC-4: shown in `COM_STAT.CAUSE`, then the fault stop (R173). -/
def comFault (s : State) (n level cause : Nat) : State :=
  (s.put (stnB n) F.COM_STAT_CAUSE cause).faultTrip n (stnCode n level cause)

/-! ### Carrier -/

/-- Full carrier period in force, ticks: as loaded, or twice `HPER` before any has been. -/
def period (s : State) (n : Nat) : Nat :=
  let p := s.nat (stnB n) F.PWM_PER_NOW_PER
  if p = 0 then 2 * s.nat (stnB n) F.PWM_HPER_HPER else p

/-- h: the half period in 156.25 ps units (R150). -/
def fineH (s : State) (n : Nat) : Int := 8 * s.period n

/-- t_upd: the update interval in ticks (R161). -/
def tUpd (s : State) (n : Nat) : Nat := if s.on (stnB n) F.PWM_CTRL_UPD2 then s.period n / 2 else s.period n

/-- The carrier's period that begins at valley `v`, and whether it still re-phases (R156, R157): with synchronisation the loaded one; while
re-phasing, and all the time on a fallback oscillator (R46), one that differs from `PWM_HPER` by at most 1/8 towards the rule of R156; else the
configured one. -/
def nextPeriod (s : State) (n : Nat) (v : Int) : Int × Bool :=
  let b := stnB n
  let hp := s.get b F.PWM_HPER_HPER
  if s.on b H.syncP then (s.period n, s.on b F.PWM_STAT_REPHASE)
  else if s.on b F.PWM_STAT_REPHASE || bitN (s.nat 0 F.CHIP_STATUS_CLK_FB) (n / 2 + 1) then
    let e0 := (v - s.get b F.PWM_PHASE_PHASE) % (2 * hp)
    let e := if e0 > hp then e0 - 2 * hp else e0
    (2 * hp - clampI (-(hp / 4)) (hp / 4) e, e != 0)
  else (2 * hp, false)

/-- The carrier at a valley: the period of R157 begins. -/
def valleyAt (s : State) (n : Nat) (v : Int) : State :=
  let q := s.nextPeriod n v
  s.puts (stnB n) [(H.carV, v), (F.PWM_PER_NOW_PER, q.1), (F.PWM_STAT_REPHASE, b2i q.2)]

/-- The valleys up to tick `t`, at most `f` of them. -/
def valleysTo : Nat → State → Nat → Int → State
  | 0, s, _, _ => s
  | f + 1, s, n, t =>
    let v := s.get (stnB n) H.carV + s.period n
    if t < v then s else valleysTo f (s.valleyAt n v) n t

/-- The carrier at tick `t`: re-phasing ends within five periods (R157), then whole periods follow. -/
def carrierTo (s : State) (n : Nat) (t : Int) : State :=
  let s := valleysTo 8 s n t
  let p : Int := max 1 (s.period n)
  let v := s.get (stnB n) H.carV
  s.put (stnB n) H.carV (v + max 0 ((t - v) / p) * p)

/-- The carrier of a station block that has just been loaded: at `PWM_HPER`, by the rule of R156. -/
def startCarrier (s : State) (n : Nat) : State :=
  let b := stnB n
  let p := 2 * s.get b F.PWM_HPER_HPER
  s.puts b [(F.PWM_PER_NOW_PER, p), (H.carV, (s.time : Int) - ((s.time : Int) - s.get b F.PWM_PHASE_PHASE) % p)]

/-- Compare value in force of phase `i`. -/
def cmpOf (s : State) (n i : Nat) : Int := s.get (stnB n + 4 * i) F.PWM_CMP_CMP

/-- The pulse of a leg at tick `t` (R156): high while the carrier, which counts 156.25 ps units from 0 at the valley to h at the peak and
back, is at or below the compare value; never with compare value 0 and always with h. -/
def pulseOf (s : State) (n leg : Nat) (t : Int) : Bool :=
  let c := s.cmpOf n leg
  let x := t - s.get (stnB n) H.carV
  let up := 16 * min x (s.period n - x)
  if c ≤ 0 then false else decide (c ≥ s.fineH n) || decide (up ≤ c)

/-! ### Current sensing (R163 to R168) -/

/-- lim of R164: the largest compare value that leaves a phase measurable. -/
def cmpLim (s : State) (n : Nat) : Int :=
  let b := stnB n
  s.fineH n - 16 * max (s.get b F.PWM_DT_DT + s.get b F.CS_SAMP_TSET - s.get b F.CS_SAMP_OFS) (s.get b F.CS_SAMP_OFS + 10)

/-- The three integrators of the decimator over the bits `hi - 1` down to `hi - k` of a bitstream, oldest first (R167). -/
def sincRun (x : Nat) : Nat → Nat → Nat × Nat × Nat → Nat × Nat × Nat
  | _, 0, i => i
  | hi, k + 1, i =>
    let i1 := i.1 + (if bitN x (hi - 1) then 1 else 0)
    let i2 := i.2.1 + i1
    sincRun x (hi - 1) k (i1, i2, i.2.2 + i2)

/-- The decimator's result at the clock of bit 0 (R167): the third difference of i3 at spacing `osr`, which the integrators' values before
the last 3 · osr bits do not move. -/
def sincOut (x osr : Nat) : Int :=
  let a := sincRun x (3 * osr) osr (0, 0, 0)
  let b := sincRun x (2 * osr) osr a
  let c := sincRun x osr osr b
  ((c.2.2 : Int) - 3 * b.2.2 + 3 * a.2.2) % 2 ^ 32

/-- Raw code of a channel: the ADC code, or the decimator result of the modulator's bits, the bit of the result clock lowest (R163, R167). -/
def rawCode (s : State) (n : Nat) (x : BitVec 768) : Int :=
  let b := stnB n
  if s.on b F.CS_CTRL_MODE then
    let o3 := s.get b F.CS_SD_OSR ^ 3
    sat16 (tdiv ((2 * sincOut x.toNat (s.nat b F.CS_SD_OSR) - o3) * 2 ^ 15) (max 1 o3))
  else sgnN 16 (x.toNat % 65536)

/-- x of R163: the raw code negated in shunt mode, and inverted where `POL` says so. -/
def chanX (s : State) (n i : Nat) (raw : Int) : Int :=
  let b := stnB n
  let x := if s.on b F.CS_CTRL_MODE then raw else -raw
  if bitN (s.nat b F.CS_CTRL_POL) i then -x else x

/-- Per-unit current of a raw code (R163, R166). -/
def phaseCur (s : State) (n i : Nat) (raw : Int) : Int :=
  let b := stnB n
  sat16 (asr ((s.chanX n i raw + s.get (b + 4 * i) F.CS_CAL_OFS) * s.get (b + 4 * i) F.CS_CAL_GAIN) 14)

/-- One sample of the offset item: x of the three channels, or raw in sigma-delta mode, into the sums and extremes; 4096 of them end the item
(R172). -/
def sizCurrent (s : State) (n : Nat) (ru rv rw : Int) : State :=
  let b := stnB n
  if s.mode n != mDiag || s.get b H.szNow != 1 then s
  else
    let x (i : Nat) (r : Int) : Int := if s.on b F.CS_CTRL_MODE then r else s.chanX n i r
    let first := s.get b H.szN == 0
    let lo (f : Fld) (v : Int) : Int := if first then v else min v (s.get b f)
    let hi (f : Fld) (v : Int) : Int := if first then v else max v (s.get b f)
    let sum (f : Fld) (v : Int) : Int := if first then v else s.get b f + v
    let s := s.puts b [(H.szN, s.get b H.szN + 1), (H.szSumU, sum H.szSumU (x 0 ru)), (H.szSumV, sum H.szSumV (x 1 rv)),
      (H.szSumW, sum H.szSumW (x 2 rw)), (H.szLoU, lo H.szLoU (x 0 ru)), (H.szLoV, lo H.szLoV (x 1 rv)), (H.szLoW, lo H.szLoW (x 2 rw)),
      (H.szHiU, hi H.szHiU (x 0 ru)), (H.szHiV, hi H.szHiV (x 1 rv)), (H.szHiW, hi H.szHiW (x 2 rw))]
    if s.get b H.szN ≥ 4096 then s.sizNext n else s

/-- One sample of the three channels: currents, measured flags, reconstruction, validity, and the checks of R165 and R168. PLAUS takes the
current sense alone out of service. -/
def sense (s : State) (n : Nat) (c : CurIn) : State :=
  let b := stnB n
  let sd := s.on b F.CS_CTRL_MODE
  if s.on b H.csOut then s.put b F.CS_I_W_VALID 0
  else if !sd && c.valley then s
  else
    let ru := s.rawCode n c.u
    let rv := s.rawCode n c.v
    let rw := s.rawCode n c.w
    let lim := s.cmpLim n
    let meas (i : Nat) (r : Int) : Bool := !codeSat r && (sd || (s.enOf n i && decide (s.cmpOf n i ≤ lim)))
    let mu := meas 0 ru
    let mv := meas 1 rv
    let mw := meas 2 rw
    let iu := s.phaseCur n 0 ru
    let iv := s.phaseCur n 1 rv
    let iw := s.phaseCur n 2 rw
    let k : Nat := (if mu then 1 else 0) + (if mv then 1 else 0) + (if mw then 1 else 0)
    let recon := k == 2
    let valid := decide (2 ≤ k)
    let iu' := if recon && !mu then sat16 (-(iv + iw)) else iu
    let iv' := if recon && !mv then sat16 (-(iu + iw)) else iv
    let iw' := if recon && !mw then sat16 (-(iu + iv)) else iw
    let bits : Nat := (if mu then 1 else 0) + (if mv then 2 else 0) + (if mw then 4 else 0)
    let s := s.puts b [(F.CS_I_UV_IU, iu'), (F.CS_I_UV_IV, iv'), (F.CS_I_W_IW, iw'), (F.CS_I_W_MEAS, bits),
      (F.CS_I_W_RECON, b2i recon), (F.CS_I_W_VALID, b2i valid)]
    let s := if codeSat ru || codeSat rv || codeSat rw then s.put b F.CS_STAT_SAT_SEEN 1 else s
    let s := s.sizCurrent n ru rv rw
    let s := if valid then s.put b H.badRun 0
      else
        let s := (s.put b F.CS_STAT_SKIP_SEEN 1).bump b F.CS_STAT_SKIP_CNT
        if s.runLike n then s.bump b H.badRun else s.put b H.badRun 0
    let s := if k = 3 then
        let sum := iu + iv + iw
        if (if sum < 0 then -sum else sum) > s.get b F.CS_CTRL_SUM_LIM then (s.put b F.CS_STAT_SUM_SEEN 1).bump b H.sumRun
        else s.put b H.sumRun 0
      else s
    let s := if s.get b H.badRun ≥ 16 then (s.put b H.badRun 0).comFault n 1 0x46 else s
    if s.get b H.sumRun ≥ s.get b F.CS_CTRL_SUM_N then
      let s := ((s.put b H.sumRun 0).comFault n 2 0x44).put b H.csOut 1
      s.blockOut (.stn (Fin.ofNat 4 n)) (stnCode n 2 0x44)
    else s

/-! ### Angle (R146) -/

/-- Frequency of the open-loop generator, 0.1 Hz: f_r of a sensorless sequence, 0 while aligning, else `F_OL` (R170, R171, R227). -/
def olFreq (s : State) (n : Nat) : Int :=
  let b := stnB n
  if s.on b F.COM_STAT_ALIGNING then 0
  else if s.get b F.OBS_STAT_STARTING ≥ 2 then s.get b H.fr
  else s.get b F.COM_OL_F_OL

/-- w of R146: the speed of the angle source in force, Q14.18 mechanical rev/s; alignment is on the generator (R171), and in CATCH the cell tracks
the observer (Table FC-2). -/
def srcSpeed (s : State) (n : Nat) : Int :=
  let b := stnB n
  if s.mode n = mCatch then tdiv (s.get b F.OBS_SPEED_WE) (max 1 (s.get b F.COM_MOTOR_PP))
  else if s.get b F.COM_STAT_ASRC_NOW == 2 || s.on b F.COM_STAT_ALIGNING then tdiv (s.olFreq n * 2 ^ 18) (10 * max 1 (s.get b F.COM_MOTOR_PP))
  else s.speedW n

/-- θe at the sampling instant, with the overspeed check of R146. -/
def formAngle (s : State) (n : Nat) : State :=
  let b := stnB n
  let pp := s.get b F.COM_MOTOR_PP
  let src := s.get b F.COM_STAT_ASRC_NOW
  let th :=
    if s.mode n = mCatch then s.get b F.OBS_ANGLE_THETA_H
    else if s.on b F.COM_STAT_ALIGNING || src == 2 then s.get b H.thetaOl
    else if src == 1 then s.get b F.OBS_ANGLE_THETA_H
    else (s.get b F.PF_ANGLE_THETA_M * pp + s.get b F.COM_OFS_OFS) % 2 ^ 32
  let s := s.put b F.COM_ANGLE_THETA_E th
  let w := s.srcSpeed n
  let fast := decide ((if w < 0 then -w else w) * pp > s.get b F.COM_MOTOR_FMAX * 2 ^ 18)
  if (s.runLike n || s.mode n == mCatch) && fast then
    let s := s.bump b H.ovfCnt
    if s.get b H.ovfCnt ≥ 16 then (s.put b H.ovfCnt 0).comFault n 1 0x42 else s
  else s.put b H.ovfCnt 0

/-- θout: θe advanced by `PRED` half-updates (R146). -/
def thetaOut (s : State) (n : Nat) : Int :=
  let b := stnB n
  s.get b F.COM_ANGLE_THETA_E +
    tdiv (s.srcSpeed n * s.get b F.COM_MOTOR_PP * s.get b F.COM_CTRL_PRED * s.tUpd n * 2 ^ 14) 800000000

/-! ### Phase advance (R154) -/

/-- Breakpoint and advance of entry `i` of a station's table in force. -/
def advEntry (s : State) (n i : Nat) : Int × Int :=
  let a := 0x8000 + 0x100 * n + 8 * i
  ((s.tabWord a : Int), ((s.tabWord (a + 4) % 65536 : Nat) : Int))

/-- The largest index among 0 … k whose breakpoint is at most `x`. -/
def advIndex (s : State) (n : Nat) (x : Int) : Nat → Nat
  | 0 => 0
  | k + 1 => if (s.advEntry n (k + 1)).1 ≤ x then k + 1 else s.advIndex n x k

/-- The advance at a speed. -/
def advance16 (s : State) (n : Nat) (w : Int) : Int :=
  let x := if w < 0 then -w else w
  let e0 := s.advEntry n 0
  let e31 := s.advEntry n 31
  if x ≤ e0.1 then e0.2
  else if x ≥ e31.1 then e31.2
  else
    let k := s.advIndex n x 30
    let p := s.advEntry n k
    let q := s.advEntry n (k + 1)
    p.2 + tdiv ((q.2 - p.2) * (x - p.1)) (q.1 - p.1)

/-! ### Transforms (R148) -/

/-- i_a and i_b. -/
def clarke (u v w : Int) : Int × Int := (asr ((2 * u - v - w) * 21845) 16, asr ((v - w) * 18919) 15)

/-- i_d and i_q at an angle. -/
def park (ia ib th : Int) : Int × Int :=
  (sat16 (asr (ia * cos16 th + ib * sin16 th) 15), sat16 (asr (ib * cos16 th - ia * sin16 th) 15))

/-- The law of this update: alignment and sizing use LAW 0 (R170, R171). -/
def lawOf (s : State) (n : Nat) : Int :=
  if s.on (stnB n) F.COM_STAT_ALIGNING || s.driving n then 0 else s.get (stnB n) F.COM_STAT_LAW_NOW

/-- The six-step sector and the P and N phases of a station (R152, Table FC-1). -/
def sixRoles (s : State) (n : Nat) : Nat × Nat × Nat :=
  let b := stnB n
  let sw : Int := if s.srcSpeed n ≥ 0 then 1 else -1
  let thv := (s.get b F.COM_ANGLE_THETA_E + 2 ^ 30 + sw * (s.get b F.COM_ADV_ADV * 65536)) % 2 ^ 32
  let k := (thv * 6 / 2 ^ 32).toNat
  let p := [0, 1, 1, 2, 2, 0].getD k 0
  let m := [2, 2, 0, 0, 1, 1].getD k 0
  if s.get b H.istarOut < 0 then (k, m, p) else (k, p, m)

/-- Current of phase `i` in the latest sample. -/
def curOf (s : State) (n i : Nat) : Int :=
  let b := stnB n
  if i = 0 then s.get b F.CS_I_UV_IU else if i = 1 then s.get b F.CS_I_UV_IV else s.get b F.CS_I_W_IW

/-- i6 under LAW 1, with the roles that the advance and the sign of I* give (R152). -/
def sixCurrent (s : State) (n : Nat) : State :=
  let r := s.sixRoles n
  s.puts (stnB n) [(F.COM_IDQ_ID, 0), (F.COM_IDQ_IQ, asr (s.curOf n r.2.1 - s.curOf n r.2.2) 1)]

/-- Clarke and Park of a valid sample, or i6 under LAW 1 (R148, R152); the observer's conducting evaluation comes once per update, after an
invalid sample with the currents of the latest valid one (R165, R219). -/
def transform (s : State) (n : Nat) : State :=
  let b := stnB n
  let s :=
    if !s.on b F.CS_I_W_VALID then s
    else
      let ab := clarke (s.curOf n 0) (s.curOf n 1) (s.curOf n 2)
      let s := s.puts b [(H.ia, ab.1), (H.ib, ab.2)]
      if s.lawOf n = 1 then s.sixCurrent n
      else
        let dq := park ab.1 ab.2 (s.get b F.COM_ANGLE_THETA_E)
        s.puts b [(F.COM_IDQ_ID, dq.1), (F.COM_IDQ_IQ, dq.2)]
  if s.on b F.OBS_CTRL_OBS_EN && s.on b H.enab then s.obsConducting n (s.tUpd n) (s.get b H.ia) (s.get b H.ib) else s

/-! ### The station command (R242, R290, R293, R298) -/

/-- `x` moves toward `y` by at most `d`. -/
def toward (x y d : Int) : Int := x + clampI (-d) d (y - x)

/-- A rate in 0.01 pu/s over `dt` ticks, pu32 (R293). -/
def rateStep (rate dt : Int) : Int := tdiv (rate * dt * 2 ^ 24) (100 * 400000000)

/-- The speed clamp in force after `dt` ticks: down at `DEC_R`, up at once (R290). -/
def moveLim (s : State) (n : Nat) (dt : Int) : State :=
  let b := stnB n
  let l := s.limW n
  let cur := s.get b H.limNow
  s.put b H.limNow (if cur > l then max l (cur - rateStep (s.get b F.STN_RAMP_DEC_R) dt) else l)

/-- The command of an update of the chain slot, `dt` ticks after the previous one. -/
def formCmd (s : State) (n : Nat) (dt : Int) : State :=
  let b := stnB n
  let m := s.mode n
  let kind := s.get b F.STN_STAT_KIND
  if m = mStopping then
    if s.on b H.stopRamp || s.get b F.STN_STAT_STOP == 2 || s.on b H.zvb then s
    else if s.get b H.stopSeq ≠ 0 then s.puts b [(H.stopWr, 0), (F.STN_CMD_CMD, 0)]
    else
      let rate := if s.get b F.STN_STAT_STOP == 1 then s.get b F.STN_RAMP_DEC_Q else s.get b F.STN_RAMP_DEC_R
      let wr := if s.on b H.clamped then s.get b H.stopWr else toward (s.get b H.stopWr) 0 (rateStep rate dt)
      s.puts b [(H.stopWr, wr), (F.STN_CMD_CMD, wr)]
  else if m = mRun ∨ m = mIsolated then
    let s := s.moveLim n dt
    let lim := s.get b H.limNow
    let lmt (x : Int) : Int := if kind = 1 then clampI (-lim) lim x else x
    if s.on b H.brkWait then s.put b F.STN_CMD_CMD 0
    else if m = mIsolated then
      if kind = 2 then s
      else s.put b F.STN_CMD_CMD (lmt (toward (s.get b F.STN_CMD_CMD) (s.outOr0 (n / 2) (s.spSlot n))
        (rateStep (s.get b F.STN_FALLBACK_ISO_RATE) dt)))
    else if kind = 2 then s.puts b [(H.cmdPos, s.get b H.hostCmd), (F.STN_CMD_CMD, if s.get b F.STN_STAT_SOURCE == 1 then s.rawCmd n else 0)]
    else s.put b F.STN_CMD_CMD (lmt (s.rawCmd n))
  else s

/-- I* follows the chain, with the speed limit of KIND 0 and 2 (R243, R290). -/
def putIstar (s : State) (n : Nat) : State :=
  let b := stnB n
  let i := s.formIstar n
  let w := s.speedPu n
  let m := s.mode n
  let fast := (m == mRun || m == mIsolated) && s.get b F.STN_STAT_KIND != 1 &&
    decide ((if w < 0 then -w else w) > s.limW n) && decide (i * w > 0)
  s.puts b [(H.istar, if fast then 0 else i), (H.wHold, b2i fast)]

/-- A pending STN_SETPOINT completes when the station's command has its value (Table PK-8, DEDUCED, log entry 10). -/
def setReached (s : State) (n : Nat) : State :=
  let b := stnB n
  let kind := s.nat b F.STN_STAT_KIND
  if s.mode n = mRun && s.get b F.STN_STAT_SOURCE == 0 then
    s.completeSet n stOK fun a => a == setArg n kind (if kind = 2 then s.get b H.cmdPos else s.get b F.STN_CMD_CMD)
  else s

/-- I* of an update in which no chain slot gives it: the ramp of a stop without a K1 slot, the unloading ramp of Table SV-2, a
command without a chain slot. -/
def stepIstar (s : State) (n : Nat) (dt : Int) : State :=
  let b := stnB n
  if s.mode n = mStopping && s.on b H.stopRamp then
    let r := toward (s.get b H.stopIr) 0 (rateStep (s.get b F.STN_STOPCFG_TQ_DEC) dt)
    s.puts b [(H.stopIr, r), (H.istar, tdiv r 2048)]
  else if s.mode n = mStopping && s.get b H.stopSeq == 2 then
    let el : Int := (s.time : Int) - s.get b H.unlT
    let tu := s.get b F.STN_BRAKE_T_UNLOAD * 4000000
    s.put b H.istar (tdiv (s.get b H.unlI * max 0 (tu - el)) (max 1 tu))
  else if (s.chainOf n).isNone then (s.formCmd n dt).putIstar n
  else s

/-! ### The clamp of the brim guard (R203, R204) -/

/-- r: the braking limit of a half for a station's class. -/
def regenLim (s : State) (n : Nat) : Int :=
  let g := halfB (n / 2)
  let vdc := s.get g H.vdcf
  let vb := s.get g F.BGD_VBRIM_V_BRIM
  let band := s.get g F.BGD_VBRIM_V_BAND
  let ir := s.get g F.BGD_REGEN_I_REGEN
  let r := if vdc ≤ vb - band then ir else if vdc ≥ vb then 0 else tdiv (ir * (vb - vdc)) (max 1 band)
  if s.on g F.BGD_STAT_CHFAULT && !bitN (s.nat g F.BGD_CTRL_CLASS) (n % 2) then 0 else r

/-- lim of R203: the throttled current limit, the braking limit against the rotation, and the ramp after a start. -/
def clampLim (s : State) (n : Nat) : Int :=
  let b := stnB n
  let g := halfB (n / 2)
  let i := s.get b H.istar
  let w := s.srcSpeed n
  let k := s.get g (if n % 2 = 0 then F.THM_K_K0 else F.THM_K_K1)
  let lim := asr (s.get g (if n % 2 = 0 then F.BGD_ILIM_ILIM0 else F.BGD_ILIM_ILIM1) * k) 15
  let lim := if (i < 0 ∧ w > 0) ∨ (i > 0 ∧ w < 0) then min lim (s.regenLim n) else lim
  let el : Int := (s.time : Int) - s.get b H.rampT
  let tr := s.get b F.OBS_LIMP_T_RAMPIN * 400000
  if s.on b H.rampOn && decide (el < tr) then tdiv (lim * el) (max 1 tr) else lim

/-- I* after the clamp, with the hold flag and the guard's counters. -/
def clampIstar (s : State) (n : Nat) : State :=
  let b := stnB n
  let g := halfB (n / 2)
  let i := s.get b H.istar
  let lim := s.clampLim n
  let o := clampI (-lim) lim i
  let el : Int := (s.time : Int) - s.get b H.rampT
  let s := if s.on b H.rampOn && decide (el ≥ s.get b F.OBS_LIMP_T_RAMPIN * 400000) then s.put b H.rampOn 0 else s
  let s := s.puts b [(H.istarOut, o), (H.clamped, b2i (o != i))]
  if o != i then s.bump g F.BGD_CNT_LIM_UPD else s

/-! ### References (R149, R170, R171, R227, R228) -/

/-- The current references of the update; in a sensorless start `I_OL` stands for |I*| under LAW 1 (R227). -/
def putRefs (s : State) (n : Nat) : State :=
  let b := stnB n
  let i := s.get b H.istarOut
  let seq := s.on b F.COM_STAT_ALIGNING || s.get b F.OBS_STAT_STARTING ≥ 2
  let ol := s.driving n || s.get b F.COM_STAT_ASRC_NOW == 2
  if s.lawOf n = 1 then
    let m := if s.get b F.OBS_STAT_STARTING ≥ 2 then s.get b F.COM_OL_I_OL else if i < 0 then -i else i
    s.puts b [(F.COM_IREF_ID_REF, 0), (F.COM_IREF_IQ_REF, sat16 m)]
  else if seq then s.puts b [(F.COM_IREF_ID_REF, s.get b H.idRef), (F.COM_IREF_IQ_REF, 0)]
  else if ol then s.puts b [(F.COM_IREF_ID_REF, s.get b F.COM_OL_I_OL), (F.COM_IREF_IQ_REF, 0)]
  else
    let g := s.get b F.COM_ADV_ADV * 65536
    let ifw := max (sat16 (if i < 0 then -i else i)) (s.get b F.COM_FW_FW_IMIN)
    let id := sat16 (asr (-(ifw * sin16 g)) 15)
    let iq := sat16 (asr (i * cos16 g) 15)
    let el : Int := (s.time : Int) - s.get b H.handT
    let s := if s.on b H.handOn && decide (el ≥ 8000000) then s.put b H.handOn 0 else s
    let id := if s.on b H.handOn then s.get b H.handId0 + tdiv ((id - s.get b H.handId0) * el) 8000000 else id
    s.puts b [(F.COM_IREF_ID_REF, id), (F.COM_IREF_IQ_REF, iq)]

/-! ### Current loops (R241) -/

/-- The update of a sink slot inside the current-loop update. -/
def runSink (s : State) (h : Nat) (m : Option Nat) (now : Nat) : State :=
  match m with
  | none => s
  | some m => if s.slotLive h m then (s.runSlot h m now).put (slotB h m) H.slTick now else s

/-- A block switch of the law starts from the last voltage command (R145, R235). -/
def lawSwitch (s : State) (n : Nat) : State :=
  let b := stnB n
  let law := s.lawOf n
  let s' := s.put b H.lawPrev law
  let busy := match s.vqSlot n with | none => true | some m => s.on (slotB (n / 2) m) H.slPre
  if law = s.get b H.lawPrev || busy then s'
  else if law = 1 then
    let va := s.get b H.vA
    let vb := s.get b H.vB
    s'.presetSink (n / 2) (s.vqSlot n) (sat16 (asr ((isqrt (va * va + vb * vb).toNat : Int) * 28378) 14))
  else
    let m := s.get b F.COM_VDQ_VQ
    let sg : Int := if s.get b H.istarOut < 0 then -1 else 1
    (s'.presetSink (n / 2) (s.vdSlot n) 0).presetSink (n / 2) (s.vqSlot n) (sg * asr (m * 9459) 14)

/-- The sink slots of a station: VD then VQ; under LAW 1 the VD slot stands still at 0. Those with `RUNGATE` 0 update at every current-loop update,
whether or not the station conducts (R244). -/
def runSinks (s : State) (n now : Nat) : State :=
  let h := n / 2
  let s := if s.lawOf n = 1 then (match s.vdSlot n with | none => s | some m => s.put (slotB h m) F.LEN_OUT_OUT 0) else s.runSink h (s.vdSlot n) now
  s.runSink h (s.vqSlot n) now

/-- The sink slots, and the voltage command that they give. -/
def runLoops (s : State) (n now : Nat) : State :=
  let b := stnB n
  let h := n / 2
  let s := (s.lawSwitch n).runSinks n now
  if s.lawOf n = 1 then
    let vdc := max (s.vdcPu n) (s.get b F.COM_VBASE_VDC_MIN)
    let y := sat16 (asr (s.outOr0 h (s.vqSlot n)) 11)
    s.puts b [(F.COM_VDQ_VD, 0), (F.COM_VDQ_VQ, clampI 0 vdc y), (F.COM_STAT_VSAT, b2i (decide (y ≥ vdc)))]
  else
    s.puts b [(F.COM_VDQ_VD, sat16 (asr (s.outOr0 h (s.vdSlot n)) 11)), (F.COM_VDQ_VQ, sat16 (asr (s.outOr0 h (s.vqSlot n)) 11))]

/-! ### Modulation -/

/-- Compare values of the three phases, and the enables. -/
abbrev Duties := Int × Int × Int × Nat

/-- Sector of a voltage vector (R151). -/
def sectorOf (a b : Int) : Int := angle32 a b * 6 / 2 ^ 32

/-- R150: space-vector modulation. -/
def svm (s : State) (n : Nat) : Duties × State :=
  let b := stnB n
  let h := s.fineH n
  let th := s.thetaOut n % 2 ^ 32
  let sn := sin16 th
  let cs := cos16 th
  let vd := s.get b F.COM_VDQ_VD
  let vq := s.get b F.COM_VDQ_VQ
  let va := sat16 (asr (vd * cs - vq * sn) 15)
  let vb := sat16 (asr (vd * sn + vq * cs) 15)
  let vdc := max (s.vdcPu n) (s.get b F.COM_VBASE_VDC_MIN)
  let circle := s.get b F.COM_CTRL_OVM == 0
  let vlim := asr (vdc * 9459) 14
  let r : Int := isqrt (va * va + vb * vb).toNat
  let cut := circle && decide (r > vlim)
  let va := if cut then tdiv (va * vlim) r else va
  let vb := if cut then tdiv (vb * vlim) r else vb
  let u := va
  let v := sat16 (asr (vb * 14189 - va * 8192) 14)
  let w := sat16 (asr (-vb * 14189 - va * 8192) 14)
  let mx := max u (max v w)
  let mn := min u (min v w)
  let d := mx - mn
  let hex := !circle && decide (d > vdc)
  let u := if hex then tdiv (u * vdc) d else u
  let v := if hex then tdiv (v * vdc) d else v
  let w := if hex then tdiv (w * vdc) d else w
  let va' := if hex then tdiv (va * vdc) d else va
  let vb' := if hex then tdiv (vb * vdc) d else vb
  let mx := max u (max v w)
  let mn := min u (min v w)
  let vo := -(asr (mx + mn) 1)
  let cmp (x : Int) : Int := clampI 0 h (h / 2 + tdiv ((x + vo) * h) vdc)
  ((cmp u, cmp v, cmp w, 7),
   s.puts b [(F.COM_STAT_VSAT, b2i (cut || hex)), (F.COM_STAT_SECTOR, sectorOf va vb), (H.vA, va'), (H.vB, vb'), (F.COM_STAT_SOFTING, 0),
     (H.ssInit, 0)])

/-- Bits of a set of phases. -/
def phaseBit (i : Nat) : Nat := 2 ^ i

/-- R152 and R153: six-step commutation with softened edges. The deviation that the outgoing phase had is the one of its last full duty. -/
def sixStep (s : State) (n : Nat) : Duties × State :=
  let b := stnB n
  let h := s.fineH n
  let t : Int := s.tUpd n
  let vdc := max (s.vdcPu n) (s.get b F.COM_VBASE_VDC_MIN)
  let m := s.get b F.COM_VDQ_VQ
  let rl := s.sixRoles n
  let k := rl.1
  let p := rl.2.1
  let q := rl.2.2
  let off := 3 - p - q
  let fresh := !s.on b H.ssInit
  let changed := !fresh && decide (s.nat b H.ssK ≠ k)
  let oldOff := 3 - s.nat b H.roleK - s.nat b H.roleN
  let s :=
    if fresh then s.puts b [(H.ssInit, 1), (H.ssK, k), (H.ssElapsed, 0), (H.ssSector, 0), (H.ssTs, 0), (F.COM_STAT_SOFTING, 0)]
    else if changed then
      let sec := s.get b H.ssElapsed + t
      let ts := min (s.get b F.COM_SOFT_T_SOFT * 400) (sec / 2)
      s.puts b [(H.ssK, k), (H.ssSector, sec), (H.ssElapsed, 0), (H.ssTs, ts), (H.ssOut, off), (H.ssIn, oldOff),
        (F.COM_STAT_SOFTING, b2i (decide (ts > 0) && off != oldOff))]
    else s.put b H.ssElapsed (s.get b H.ssElapsed + t)
  let s := s.puts b [(H.roleK, p), (H.roleN, q)]
  let el := s.get b H.ssElapsed
  let ts := s.get b H.ssTs
  let soft := s.on b F.COM_STAT_SOFTING && decide (el < ts)
  let s := s.flag b F.COM_STAT_SOFTING soft
  let d := tdiv (m * h) (2 * vdc)
  let full (i : Nat) : Int := if i = p then d else if i = q then -d else 0
  let devF (i : Nat) : Fld := if i = 0 then H.ssDevU else if i = 1 then H.ssDevV else H.ssDevW
  let dev (i : Nat) : Int := if i = 0 then s.get b H.ssDevU else if i = 1 then s.get b H.ssDevV else s.get b H.ssDevW
  let val (i : Nat) : Int :=
    if soft && i == s.nat b H.ssOut then tdiv (dev i * (ts - el)) (max 1 ts)
    else if soft && i == s.nat b H.ssIn then tdiv (full i * el) (max 1 ts)
    else full i
  let en := 7 - (if soft then 0 else phaseBit off)
  let cmp (i : Nat) : Int := clampI 0 h (h / 2 + val i)
  ((cmp 0, cmp 1, cmp 2, en), s.puts b [(devF p, d), (devF q, -d), (F.COM_STAT_SECTOR, k)])

/-- The `i`-th phase of a set of duties. -/
def dutyOf (d : Duties) (i : Nat) : Int := if i = 0 then d.1 else if i = 1 then d.2.1 else d.2.2.1

/-- Apply a function to the enabled phases. -/
def mapDuty (d : Duties) (g : Nat → Int → Int) : Duties :=
  let f (i : Nat) : Int := if bitN d.2.2.2 i then g i (dutyOf d i) else dutyOf d i
  (f 0, f 1, f 2, d.2.2.2)

/-- Dead-time compensation (R160). -/
def deadTime (s : State) (n : Nat) (d : Duties) : Duties :=
  let b := stnB n
  let e := 16 * s.get b F.PWM_DT_DT + s.get b F.PWM_DTC_EXTRA
  let i0 := s.get b F.PWM_DTC_I0
  if !s.on b F.PWM_CTRL_DTC_EN then d
  else mapDuty d fun i c =>
    let x := s.curOf n i
    clampI 0 (s.fineH n) (c + (if x ≥ i0 then e else if x ≤ -i0 then -e else tdiv (e * x) (max 1 i0)))

/-- The enabled phases in descending order of compare value, ties in the order U, V, W. -/
def sortDuty (d : Duties) : List Nat :=
  ((List.range 3).filter (bitN d.2.2.2)).foldl
    (fun l i => l.takeWhile (fun j => decide (dutyOf d j ≥ dutyOf d i)) ++ [i] ++ l.dropWhile (fun j => decide (dutyOf d j ≥ dutyOf d i))) []

/-- The minimum on-time rule (R164), in shunt mode. -/
def minOnTime (s : State) (n : Nat) (d : Duties) : Duties × Bool :=
  let b := stnB n
  if s.on b F.CS_CTRL_MODE then (d, false)
  else
    let lim := s.cmpLim n
    let mls := s.on b F.CS_CTRL_MLS || s.lawOf n = 1
    let o := sortDuty d
    match o with
    | [] => (d, false)
    | i1 :: rest =>
      let i2 := rest.headD i1
      let need := (if mls then dutyOf d i1 else dutyOf d i2) - lim
      if need ≤ 0 then (d, false)
      else
        let low := dutyOf d (o.getLastD i1)
        let shift := min need low
        let d := mapDuty d fun _ c => c - shift
        (if mls then mapDuty d fun _ c => min c lim else mapDuty d fun i c => if i == i2 then min c lim else c, true)

/-- The minimum pulse (R160). -/
def minPulse (s : State) (n : Nat) (d : Duties) : Duties :=
  let mp := s.get (stnB n) F.PWM_MINP_MINP
  let h := s.fineH n
  mapDuty d fun _ c => if c < mp then 0 else if c > h - mp then h else c

/-- v_a and v_b of the phase voltages that duties apply, of the compare values `asked`, compensated as `comp` and limited to `out`: the
compensation makes up for the dead time, and a phase without enable has none (R160, R221; DEDUCED, log entry 106). -/
def appliedAB (s : State) (n : Nat) (asked comp out : Duties) : Int × Int :=
  let h := s.fineH n
  let vdc := max (s.vdcPu n) (s.get (stnB n) F.COM_VBASE_VDC_MIN)
  let ph (i : Nat) : Int :=
    if bitN asked.2.2.2 i then tdiv ((dutyOf asked i + dutyOf out i - dutyOf comp i - h / 2) * vdc) (max 1 h) else 0
  let ab := clarke (ph 0) (ph 1) (ph 2)
  (sat16 ab.1, sat16 ab.2)

/-- The duties load, or an overrun keeps those in force (R161). -/
def loadDuties (s : State) (n : Nat) (d : Duties) (late : Bool) : State :=
  let b := stnB n
  if late then
    let s := ((s.bump b F.PWM_STAT_OVR_CNT).put b F.PWM_STAT_OVR_SEEN 1).bump b H.ovrRun
    if s.get b H.ovrRun ≥ s.get b F.PWM_CTRL_OVR_MAX then (s.put b H.ovrRun 0).comFault n 1 0x43 else s
  else
    let s := s.puts b [(H.ovrRun, 0), (H.enab, d.2.2.2)]
    s.each [0, 1, 2] fun i s =>
      (s.puts (b + 4 * i) [(F.PWM_CMP_CMP, dutyOf d i), (F.PWM_CMP_EN, b2i (bitN d.2.2.2 i))]).putSwitch n i

/-- Zero-vector braking: all low sides on, or all off for the PWM period after a sample above `ZVB_I`, which is two updates with `UPD2`
(R207); late duties leave those in force (R25). -/
def zeroVector (s : State) (n : Nat) (late : Bool) : State :=
  let b := stnB n
  let zi := s.get (halfB (n / 2)) F.BGD_ZVB_ZVB_I
  let big := (List.range 3).any fun i => decide ((if s.curOf n i < 0 then -s.curOf n i else s.curOf n i) > zi)
  let k : Int := if big then (if s.on b F.PWM_CTRL_UPD2 then 2 else 1) else max 0 (s.get b H.zvbOff - 1)
  s.puts b [(H.zvbOff, k), (H.clamped, 0), (H.wHold, 0), (H.vA, 0), (H.vB, 0)] |>.loadDuties n (0, 0, 0, if k > 0 then 0 else 7) late

/-- Locked-rotor detection (R169). -/
def lockedRotor (s : State) (n : Nat) : State :=
  let b := stnB n
  let kr := s.get b F.COM_ANGLE_THETA_E * 6 / 2 ^ 32
  let i := s.get b H.istarOut
  let ai := if i < 0 then -i else i
  let lri := s.get b F.COM_LR_LR_I
  let act := s.on b F.COM_CTRL_LR_EN && s.runLike n && s.get b F.COM_STAT_ASRC_NOW != 2 && !s.on b F.COM_STAT_ALIGNING &&
    s.get b F.OBS_STAT_STARTING == 0 && !s.on b H.zvb
  if !act then s.put b H.lrKr kr
  else
    let tl := if kr ≠ s.get b H.lrKr then 0
      else if ai ≥ lri then s.get b H.lrT + s.tUpd n
      else if ai < lri / 2 then 0 else s.get b H.lrT
    let s := s.puts b [(H.lrT, tl), (H.lrKr, kr)]
    if tl ≥ s.get b F.COM_LR_LR_T * 400000 then (s.put b H.lrT 0).comFault n 1 0x40 else s

/-- The command path of a station that conducts: I*, clamp, references, loops, modulation, load. The phase voltages of late duties are never
applied, so that under LAW 1 the observer keeps those in force (R161, R221). -/
def conduct (s : State) (n now : Nat) (late : Bool) : State :=
  let b := stnB n
  if s.on b H.zvb then (s.runSinks n now).zeroVector n late
  else
    let s := (s.stepIstar n (s.tUpd n)).clampIstar n
    let s := if s.lawOf n = 1 && s.on b F.CS_I_W_VALID then s.sixCurrent n else s
    let s := (s.putRefs n).runLoops n now
    let r := if s.lawOf n = 1 then s.sixStep n else s.svm n
    let d := r.2.deadTime n r.1
    let mo := r.2.minOnTime n d
    let s' := r.2.flag b F.COM_STAT_MINON mo.2
    let out := s'.minPulse n mo.1
    let ab := s'.appliedAB n r.1 d out
    let s' := if !late && s.lawOf n = 1 then s'.puts b [(H.vA, ab.1), (H.vB, ab.2)] else s'
    s'.loadDuties n out late

/-- The generator's angle with `ASRC` 2 or a driven shaft advances once per update (R170). -/
def advanceOl (s : State) (n : Nat) : State :=
  let b := stnB n
  if s.driving n || (s.get b F.COM_STAT_ASRC_NOW == 2 && s.get b F.OBS_STAT_STARTING ≤ 1 && !s.on b F.COM_STAT_ALIGNING) then
    s.put b H.thetaOl (s.get b H.thetaOl + tdiv (s.get b F.COM_OL_F_OL * s.tUpd n * 2 ^ 32) 4000000000)
  else s

/-- Step 2 of Table FC-3: id_ref rises over T/4. -/
def alignUpdate (s : State) (n : Nat) : State :=
  let b := stnB n
  if !s.on b F.COM_STAT_ALIGNING then s
  else
    let el : Int := (s.time : Int) - s.get b H.startT
    let t := s.get b F.COM_ALIGN_T_ALIGN * 400000
    let i := s.get b F.COM_ALIGN_I_ALIGN
    let s := s.put b H.idRef (if s.get b H.alStep == 1 then min i (tdiv (i * el * 4) (max 1 t)) else i)
    if s.get b H.alStep == 2 && decide (el * 4 ≤ 3 * t) then s.put b H.alTh2 (s.get b F.PF_ANGLE_THETA_M * s.get b F.COM_MOTOR_PP) else s

/-- Zero-vector braking that a chopper fault owes starts at the update boundary, in place of any start sequence (Table BG-2, Step 3); a station
with pulses from the pins turns off (Table GD-2, R178). -/
def zvbStart (s : State) (n : Nat) : State :=
  let b := stnB n
  if s.on b H.zvbPend && (s.mode n = mRun || s.mode n = mStopping || s.mode n = mIsolated) then
    let s := s.puts b [(H.zvbPend, 0), (H.zvb, 1), (H.stopRamp, 0), (H.stopSeq, 0), (H.rotChk, 0), (H.revWait, 0), (F.OBS_STAT_STARTING, 0),
      (F.COM_STAT_ALIGNING, 0), (H.alStep, 0)]
    let s := if s.mode n = mStopping then s else ((if s.mode n = mRun then s.leaveExt n else s).setMode n mStopping)
    s.setBit (halfB (n / 2)) F.BGD_STAT_ZVB (n % 2) true
  else s

/-- What ends or begins at an update boundary: a coast stop, a stop whose I* has reached 0, a slipping brake, the end of CATCH
(R292, R294, R235). -/
def boundary (s : State) (n : Nat) : State :=
  let b := stnB n
  let w := s.srcSpeed n
  let aw := if w < 0 then -w else w
  if s.mode n = mStopping && !s.on b H.zvb then
    if s.get b F.STN_STAT_STOP == 2 then s.endStop n
    else if s.on b H.stopRamp && s.get b H.istar == 0 && s.get b F.STN_STAT_STOP != 3 then s.endStop n
    else if s.get b H.stopSeq == 2 && decide (aw * 100 > 4 * s.get b F.STN_BRAKE_W_STOP * 2 ^ 18) then
      let s := (s.stnRaise n (stnCode n 2 0xA1)).puts b [(H.stopSeq, 3), (H.istar, s.get b H.istarZ)]
      s.presetIstar n (s.get b H.istarZ)
    else s
  else s.catchBoundary n

/-- Law and source in force outside the running modes are those configured (R145, R170). -/
def idleSources (s : State) (n : Nat) : State :=
  let b := stnB n
  if s.runLike n || s.mode n == mCatch then s
  else if s.driving n then s.puts b [(F.COM_STAT_LAW_NOW, 0), (F.COM_STAT_ASRC_NOW, 2)]
  else s.puts b [(F.COM_STAT_LAW_NOW, s.get b F.COM_CTRL_LAW), (F.COM_STAT_ASRC_NOW, s.get b F.COM_CTRL_ASRC)]

/-- The instant is an update of the station (R161). -/
def isUpdate (s : State) (n : Nat) (valley : Bool) : Bool :=
  let b := stnB n
  s.on b F.PWM_CTRL_UPD2 || (if s.on b F.CS_CTRL_MODE then valley != s.on b F.CS_SAMP_REF else !valley)

/-- The station block is loaded and its half runs. -/
def stnLive (s : State) (n : Nat) : Bool := s.stnPresent n && s.halfRun (n / 2)

/-- Re-phasing to the rule of R156 begins with the next valley (R157). -/
def rephase (s : State) (n : Nat) : State := s.put (stnB n) F.PWM_STAT_REPHASE 1

/-- The carrier at a sampling instant, `CS_SAMP.OFS` after a valley or a peak (R163): the instant itself says where the valley lies, half the
period in force before a peak. -/
def rephaseStep (s : State) (n t : Nat) (valley : Bool) : State :=
  let b := stnB n
  let x : Int := (t : Int) - s.get b F.CS_SAMP_OFS
  let s := s.carrierTo n x
  if valley then s.valleyAt n x else s.put b H.carV (x - s.period n / 2)

/-- An update without a command of the cell's own: no overrun counts and the voltage command is 0 (R161, Table FC-2); with pulses from the pins
I* goes on unclamped (R204). -/
def noCommand (s : State) (n now : Nat) : State :=
  let b := stnB n
  let s := (s.runSinks n now).puts b [(H.ovrRun, 0), (F.COM_STAT_VSAT, 0), (F.COM_STAT_MINON, 0), (F.COM_STAT_SOFTING, 0), (F.COM_VDQ_VD, 0), (F.COM_VDQ_VQ, 0),
    (H.clamped, 0), (H.vA, 0), (H.vB, 0)]
  if s.get b F.GC_CTRL_PSRC == 1 && s.runLike n then
    let s := s.stepIstar n (s.tUpd n)
    s.put b H.istarOut (s.get b H.istar)
  else s

/-- The requests of the slots on a station's current loop: of each slot every `TPARAM`-th update since entry to RUN (R244). The sink slots update
inside the current-loop update itself. -/
def runRequests (s : State) (n : Nat) : State :=
  let h := n / 2
  let s := s.put (stnB n) H.runCnt (s.get (stnB n) H.runCnt + 1)
  s.each ((s.slotsOn h 0).filter fun m => s.nat (slotB h m) F.LEN_CFG_OWNER == n % 2 && !s.isSink h m) fun m s =>
    if s.nat (stnB n) H.runCnt % max 1 (s.nat (slotB h m) F.LEN_CFG_TPARAM) = 0 then s.request h m else s

/-- CURRENT_LOOP_UPDATE: one update of station `n` from the sampling instant `t` (R161, Table AR-10). -/
def currentLoop (s : State) (n t : Nat) (c : CurIn) : State :=
  if !s.stnLive n || !s.isUpdate n c.valley then s
  else
    let s := s.advance t
    let b := stnB n
    let s := (s.rephaseStep n t c.valley).put b H.vdcT0 (s.get (halfB (n / 2)) H.vdcf)
    let s := ((((s.idleSources n).sense n c).psTake n).speedUpdate n t).formAngle n
    let s := (s.put b F.COM_ADV_ADV (s.advance16 n (s.srcSpeed n))).transform n
    let s := (s.alignUpdate n).zvbStart n
    let own := s.get b F.GC_CTRL_PSRC == 0
    let s := if own && (s.runLike n || s.mode n == mCatch) then
        let s := s.obsLossCheck n
        if s.on b H.zvb then s else s.startUpdate n (s.tUpd n)
      else s
    let live := s.runLike n && !s.on b H.rotChk && !s.on b H.revWait
    let s := if own && (live || s.driving n) then s.conduct n t c.late else s.noCommand n t
    let s := (((s.lockedRotor n).advanceOl n).posReact n).boundary n
    (s.setReached n).runRequests n

/-! ### Other events of chapter 8 -/

/-- PWM_SYNC_LOAD: the first valley after a PWM_SYNC firing (R158), at tick `t`. -/
def syncLoad (s : State) (n t : Nat) : State :=
  let s := s.advance t
  let b := stnB n
  if !s.on b H.syncPend then s
  else
    let per : Int := s.period n
    let e : Int := (t : Int) - s.get b H.syncT
    let e' := if 2 * e ≤ per then e else e - per
    let tt := s.get b H.syncP
    let p0 := clampI (max 4000 (7 * tt / 8)) (min 200000 (9 * tt / 8)) (tt - e')
    s.puts b [(H.syncPend, 0), (H.carV, t), (F.PWM_PER_NOW_PER, p0 / 2 * 2), (F.PWM_STAT_SYNCED, b2i (decide ((if e' < 0 then -e' else e') ≤ 40))),
      (F.PWM_STAT_REPHASE, 0)]

/-- PWM_SYNC_END: a whole period without a firing, or a firing with NOEFF (R158). -/
def syncEnd (s : State) (n : Nat) : State :=
  (s.puts (stnB n) [(F.PWM_STAT_SYNCED, 0), (H.syncPend, 0), (H.syncP, 0)]).rephase n

/-- SDSTUCK: a bitstream of phase `leg` without a transition (R166). -/
def sdStuck (s : State) (n : Nat) : State :=
  if s.on (stnB n) F.CS_CTRL_MODE then s.comFault n 1 0x45 else s

/-- ALIGN_STEP: the time of the running alignment step has passed (Table FC-3, Steps 3 to 5F). -/
def alignStep (s : State) (n t : Nat) : State :=
  let s := s.advance t
  let b := stnB n
  if !s.on b F.COM_STAT_ALIGNING then s
  else if s.get b H.alStep == 1 then
    s.puts b [(H.alTh1, s.get b F.PF_ANGLE_THETA_M), (H.alStep, 2), (H.thetaOl, 0), (H.startT, s.time)]
  else
    let pp := s.get b F.COM_MOTOR_PP
    let th2 := s.get b F.PF_ANGLE_THETA_M
    let d := wrap32 ((th2 - s.get b H.alTh1) * pp)
    let okMove := decide (d + 2 ^ 30 ≤ 2 ^ 28 ∧ -(2 ^ 28) ≤ d + 2 ^ 30)
    let st := wrap32 (th2 * pp - s.get b H.alTh2)
    let okStill := decide (st ≤ 2 ^ 26 ∧ -(2 ^ 26) ≤ st)
    if okMove && okStill then
      (s.puts b [(F.COM_OFS_OFS, -(th2 * pp)), (F.COM_STAT_OFS_VALID, 1), (F.COM_STAT_ALIGNING, 0), (H.alStep, 0)]).releaseBrake n
    else s.comFault n 1 0x41

end Sys2Proof.Machine.State
end

