-- ==== Sys2Proof/Machine/Scheduler.lean ====
section
/-!
DEFINITION. The angle scheduler (chapter 7): timebases, the crossing rule, actions, jumps, and EVT_ARM and EVT_CANCEL.
-/
namespace Sys2Proof.Machine.State

/-! ### Timebases (R131, R132) -/

/-- The present value of a user's timebase; `t` is the tick. -/
def ascX (s : State) (h u t : Nat) : Int :=
  let b := halfB h + 4 * u
  match s.nat b F.ASC_TB_SEL_SRC with
  | 0 => wrapS 48 t
  | 1 => if u < 2 then s.get (stnB (2 * h + u)) F.PF_POS_POS else s.get (axsB (2 * h + u - 2)) F.AXS_POS_POS
  | 2 => s.get (stnB (2 * h + s.nat b F.ASC_TB_SEL_STN)) F.PF_POS_POS
  | 3 => s.get (16 * s.nat b F.ASC_TB_SEL_RCH) F.HBD_RCH_POS
  | _ => s.get (halfB h) F.SPT_CNT_CNT

/-- A user's timebase is frozen by a position fault or stale (R142). -/
def ascHeld (s : State) (h u : Nat) : Bool :=
  let b := halfB h + 4 * u
  match s.nat b F.ASC_TB_SEL_SRC with
  | 1 => decide (u < 2) && s.on (stnB (2 * h + u)) H.pfFrz
  | 2 => s.on (stnB (2 * h + s.nat b F.ASC_TB_SEL_STN)) H.pfFrz
  | 3 => s.on (16 * s.nat b F.ASC_TB_SEL_RCH) F.HBD_RCH3_AGE
  | _ => false

/-- The latched value of a user's timebase. -/
def ascTbv (s : State) (h u : Nat) : Int := s.get (halfB h + 8 * u) F.ASC_TBV_TBV

/-! ### Actions (R139, R140) -/

/-- Counts of a station's position per revolution (R107, R118, R124). -/
def countsPerRev (s : State) (n : Nat) : Int :=
  let b := stnB n
  if s.on b F.PF_CTRL_SRC then 2 ^ s.nat (serB (n / 2)) F.PS_FMT_ST_BITS
  else if s.get b F.PF_CTRL_MODE == 3 then 4 * s.linesOf n
  else s.linesOf n * 2 ^ 14

/-- The action has no effect: `NOEFF` (R139). -/
def ascNoEff (s : State) (h u i : Nat) : State := s.put (ascB h u i) F.ASC_SST_NOEFF 1

/-- PWM_SYNC: T = PER / |speed in counts per second|, in ticks (Table TB-3, R158). -/
def ascPwmSync (s : State) (h u i t : Nat) : State :=
  let n := 2 * h + u
  let w := s.get (stnB n) F.PF_SPEED_SPEED
  let cps := s.countsPerRev n * (if w < 0 then -w else w)
  let per := tdiv (s.get (ascB h u i) F.ASC_PER_PER * 400000000 * 2 ^ 18) (max 1 cps)
  if cps = 0 ∨ per < 4000 ∨ 200000 < per then (s.ascNoEff h u i).syncEnd n
  else s.puts (stnB n) [(H.syncP, per), (H.syncT, t), (H.syncPend, 1)]

/-- The action of a firing slot. -/
def ascAct (s : State) (h u i t : Nat) : State :=
  let b := ascB h u i
  let arg := s.nat b F.ASC_ACT_ARG
  match s.nat b F.ASC_ACT_ACTION with
  | 1 =>
    if s.get (slotB h arg) F.LEN_CFG_TRIG == 2 && s.slotLive h arg then
      let s := if s.on (slotB h arg) H.slReq then s.bump (halfB h) F.ASC_CNT_MERGED else s
      s.request h arg
    else s.ascNoEff h u i
  | 2 => s.ascPwmSync h u i t
  | 3 =>
    let a := axsB (2 * h + arg % 2)
    if s.get a F.AXS_STAT_STATE == 5 then
      s.puts a [(H.axInv, 1 - s.get a H.axInv), (H.axTurn, 1 - s.get a H.axTurn)]
    else s.ascNoEff h u i
  | 4 =>
    let n := 2 * h + u
    if s.mode n = mRun ∨ s.mode n = mIsolated then (s.put (stnB n) H.slowArg arg).putSlow n else s.ascNoEff h u i
  | 5 => s.trigger (h + 1) 11 (8 * u + i)
  | _ => s

/-! ### The crossing rule (R135 to R137) -/

/-- The sector of `x` for a slot without hysteresis. -/
def gridSector (x v per : Int) : Int := (x - v) / max 1 per

/-- The sector after a move from sector `k` at `xp` to `x`, with hysteresis `hy`: upward it changes where `x` reaches a grid point plus `hy`, downward
where it reaches one minus `hy`, and without a move not at all (R135, R141). -/
def gridMove (xp x v per hy k : Int) : Int :=
  if xp < x then max k (gridSector (x - hy) v per)
  else if x < xp then min k (-(gridSector (-(x + hy)) (-v) per) - 1)
  else k

/-- How far `x` is past the compare value in the slot's direction; chip time compares modulo 2^48. -/
def ascPast (s : State) (h u i : Nat) (x : Int) : Int :=
  let v := s.get (ascB h u i) F.ASC_CMP_CMP
  if s.get (ascB h u i) F.ASC_ACT_DIR == 1 then v - x
  else if s.get (halfB h + 4 * u) F.ASC_TB_SEL_SRC == 0 then wrap48 (x - v)
  else x - v

/-- The slot's flags, firing tick, action and completion. -/
def ascFire (s : State) (h u i t : Nat) (late jump many : Bool) : State :=
  let b := ascB h u i
  let s := (s.puts b [(F.ASC_SST_FIRED, 1), (F.ASC_FIRE_FIRE_TICK, t)]).bump b F.ASC_SST_FIRINGS
  let s := if late then (s.put b F.ASC_SST_LATE 1).bump (halfB h) F.ASC_CNT_LATE_CNT else s
  let s := if jump then s.put b F.ASC_SST_JUMP 1 else s
  let s := if many then (s.put b F.ASC_SST_OVERRUN 1).setBit (halfB h) F.ASC_STAT_OVR_SEEN u true else s
  ((s.put (ascH h u i) H.ascDone 1).ascAct h u i t).completeAll 0x50 (ascId h u i) stOK 0 (u64Words t ++ [if late then 1 else 0])

/-- One armed slot against the latched value: an up or down slot fires where the timebase reaches its value, and at once where it is past it at arming
or after a jump (R135, R136, R141, R142). -/
def ascEval (s : State) (h u i t : Nat) : State :=
  let b := ascB h u i
  let hb := ascH h u i
  let x := s.ascTbv h u
  let isNew := s.on hb H.ascNew
  let jump := s.on hb H.ascJump
  let per := s.get b F.ASC_PER_PER
  let v := s.get b F.ASC_CMP_CMP
  let xp := s.get hb H.ascXp
  let first := isNew || jump
  let s := s.puts hb [(H.ascNew, 0), (H.ascJump, 0), (H.ascXp, x)]
  if s.get b F.ASC_ACT_DIR == 2 then
    if first then
      let s := s.puts hb [(H.ascSector, gridSector x v (s.get hb H.ascPer))]
      if jump then s.put b F.ASC_SST_JUMP 1 else s
    else
      let k := s.get hb H.ascSector
      let k' := gridMove xp x v (s.get hb H.ascPer) (s.get hb H.ascHyst) k
      if k' = k then s
      else
        let s := s.puts hb [(H.ascSector, if per = s.get hb H.ascPer then k' else gridSector x v per), (H.ascPer, per)]
        s.ascFire h u i t false false (decide (k' ≠ k + 1 ∧ k' ≠ k - 1))
  else
    let d := s.ascPast h u i x
    if d < 0 ∨ (first = false ∧ 0 ≤ s.ascPast h u i xp) then s
    else if !s.on b F.ASC_ACT_REPEAT then
      (s.put b F.ASC_SST_ARMED 0).ascFire h u i t first jump false
    else
      let step := per * (d / max 1 per + 1)
      let s := s.put b F.ASC_CMP_CMP (wrap48 (if s.get b F.ASC_ACT_DIR == 1 then v - step else v + step))
      s.ascFire h u i t first jump (decide (0 < per ∧ per ≤ d))

/-- A waiting EVT_ARM takes its slot (R135, R138): the earlier completion ends with ABORTED, and the new one follows the slot. -/
def ascInstall (s : State) (h u i : Nat) : State :=
  let b := ascB h u i
  let hb := ascH h u i
  let s := s.completeAll 0x50 (ascId h u i) stAborted 0
  let s := s.withMil fun m => { m with busy := m.busy.map fun x =>
    if x.op == 0x50 && x.arg == 64 + ascId h u i then { x with arg := ascId h u i } else x }
  let s := s.puts b [(F.ASC_CMP_CMP, s.get hb H.ascVal), (F.ASC_ACT_ACTION, s.get hb H.ascAct), (F.ASC_ACT_ARG, s.get hb H.ascArg),
    (F.ASC_ACT_DIR, s.get hb H.ascDir), (F.ASC_ACT_REPEAT, s.get hb H.ascRep), (F.ASC_SST_ARMED, 1)]
  s.puts hb [(H.ascPend, 0), (H.ascDone, 0), (H.ascNew, 1), (H.ascJump, 0), (H.ascPer, s.get b F.ASC_PER_PER), (H.ascHyst, s.get b F.ASC_HYST_HYST)]

/-- One slot in one tick: the armed event, then a replacement that takes effect in this tick. Where the one fires by R138 and the other with LATE by
R136, the slot fires twice in that tick, which R137 allows no slot (DESIGN CHOICE, log entry 109). -/
def ascSlot (s : State) (h u i t : Nat) : State :=
  let held := s.ascHeld h u
  let s := if s.on (ascB h u i) F.ASC_SST_ARMED && !held then s.ascEval h u i t else s
  if s.on (ascH h u i) H.ascPend then
    let s := s.ascInstall h u i
    if held then s else s.ascEval h u i t
  else s

/-- SCHEDULER_TICK: every timebase is latched, then the armed slots are evaluated in user order and slot order (R132, R140). -/
def schedTick (s : State) (h t : Nat) : State :=
  let s := s.advance t
  if !s.halfRun h || s.oos (.asc (Fin.ofNat 2 h)) then s
  else
    let s := s.each (List.range 4) fun u s =>
      (s.put (halfB h + 8 * u) F.ASC_TBV_TBV (s.ascX h u t)).setBit (halfB h) F.ASC_STAT_TB_HOLD u (s.ascHeld h u)
    s.each (List.range 4) fun u s => s.each (List.range 8) fun i s => s.ascSlot h u i t

/-- A count has been written: the armed slots on it are evaluated anew at the next tick (R142). `user` is its own user; for a
station's count the users with SRC 2 on it follow too. -/
def ascJumped (s : State) (h user : Nat) : State :=
  s.each (List.range 4) fun u s =>
    let b := halfB h + 4 * u
    let src := s.get b F.ASC_TB_SEL_SRC
    if (u == user && src == 1) || (decide (user < 2) && src == 2 && s.nat b F.ASC_TB_SEL_STN == user) then
      s.each (List.range 8) fun i s =>
        if s.on (ascB h u i) F.ASC_SST_ARMED then s.put (ascH h u i) H.ascJump 1 else s
    else s

/-! ### EVT_ARM and EVT_CANCEL (R134, R85) -/

/-- The conditions of R134 on the fields of Table TB-2. -/
def evtArmOk (s : State) (h u : Nat) (slot act arg dir : Nat) (rep : Bool) : Bool :=
  let src := s.nat (halfB h + 4 * u) F.ASC_TB_SEL_SRC
  let per := s.get (ascB h u slot) F.ASC_PER_PER
  decide (slot < 8) && decide (act < 6) && decide (dir < 3) &&
  (match act with
   | 1 => decide (arg < 48) && s.get (slotB h arg) F.LEN_CFG_TRIG == 2 && s.get (slotB h arg) F.LEN_CFG_TYPE != 0
   | 2 => arg == 0 && decide (u < 2) && src == 1 && rep && decide (dir < 2)
   | 3 => decide (arg < 2)
   | 4 => decide (u < 2)
   | _ => arg == 0) &&
  !((dir == 1 || dir == 2) && (src == 0 || src == 4)) &&
  !(rep && per == 0) && !(dir == 2 && !rep) &&
  !(dir == 2 && decide (2 * s.get (ascB h u slot) F.ASC_HYST_HYST ≥ per))

/-- An accepted EVT_ARM waits for the next tick; one that already waits is replaced. -/
def evtArm (s : State) (h u slot : Nat) (v : Int) (act arg dir : Nat) (rep : Bool) : State :=
  (s.completeAll 0x50 (64 + ascId h u slot) stAborted 0).puts (ascH h u slot)
    [(H.ascPend, 1), (H.ascVal, v), (H.ascAct, act), (H.ascArg, arg), (H.ascDir, dir), (H.ascRep, b2i rep)]

/-- The scheduler tick in which a cancel takes effect: the next one (R85, R132). -/
def nextTick (s : State) : Nat := (s.time + 39) / 40 * 40

/-- EVT_CANCEL takes effect in a scheduler tick, whose evaluation of the slot comes first, so that a firing in that tick stands (R85; DEDUCED,
log entry 70). -/
def ascCancelTick (s : State) (h u slot : Nat) : State :=
  if s.oos (.asc (Fin.ofNat 2 h)) then s
  else ((s.put (halfB h + 8 * u) F.ASC_TBV_TBV (s.ascX h u s.nextTick)).setBit (halfB h) F.ASC_STAT_TB_HOLD u (s.ascHeld h u)).ascSlot h u slot
    s.nextTick

/-- What EVT_CANCEL reports: the event had fired since its arming; one that still waits has not (R85). -/
def ascFired (s : State) (h u slot : Nat) : Bool := s.on (ascH h u slot) H.ascDone && !s.on (ascH h u slot) H.ascPend

end Sys2Proof.Machine.State
end

