-- ==== Sys2Proof/Machine/Engine.lean ====
section
/-!
DEFINITION. Events of the loop engine and of the set-point port (chapter 12): slot updates, bank swaps, conversions, edges, loss of
signal, and engine errors.
-/
namespace Sys2Proof.Machine.State

/-- The stations of a half whose chain slot in force is `m`. -/
def chainStns (s : State) (h m : Nat) : List Nat := [2 * h, 2 * h + 1].filter fun n => s.chainOf n == some m

/-- The interval that the pseudocode blocks take for an update of slot `m` at `t` (R244): the nominal spacing of its trigger, or for
an external trigger the time since its last update. -/
def slotDt (s : State) (h m t : Nat) : Int :=
  let b := slotB h m
  let tp := s.get b F.LEN_CFG_TPARAM
  match s.nat b F.LEN_CFG_TRIG with
  | 0 => (s.tUpd (2 * h + s.nat b F.LEN_CFG_OWNER) : Int) * tp
  | 1 => 400 * tp
  | 2 => (t : Int) - s.get b H.slTick
  | _ => 4000 * tp

/-- I* of a station after an update of its chain slot (R243), unless a ramp without the slot gives it. -/
def chainIstar (s : State) (n : Nat) : State :=
  let ramp := s.mode n == mStopping && (s.on (stnB n) H.stopRamp || s.get (stnB n) H.stopSeq == 2)
  if s.runLike n && !ramp then (s.putIstar n).setReached n else s

/-- A slot's update now: the command before it and I* after it of every station whose chain slot it is (R242, R243). -/
def serveSlot (s : State) (h m t : Nat) : State :=
  let dt := s.slotDt h m t
  let l := s.chainStns h m
  let s := (s.put (slotB h m) H.slReq 0).each l fun n s => s.formCmd n dt
  ((s.runSlot h m t).put (slotB h m) H.slTick t).each l fun n s => s.chainIstar n

/-- The request that the engine serves next at tick `t`: the earliest trigger time, and among equals the lowest slot number (R245). -/
def nextDue (s : State) (h t : Nat) : Option (Nat × Nat) :=
  (List.range 48).foldl (fun best m =>
    if s.isSink h m then best
    else match s.dueAt h m t, best with
      | none, _ => best
      | some x, none => some (x, m)
      | some x, some y => if x < y.1 then some (x, m) else best) none

/-- LOOP_SLOT_UPDATE: the engine serves slot `m` at `t`, when its request is the next one in order (R244, R245). The sink slots of a station
update inside its current-loop update. Chip-time triggers up to `t` are served by one update. -/
def slotUpdate (s : State) (h m t : Nat) : State :=
  let s := s.advance t
  if s.halfRun h && (s.nextDue h t).map (·.2) == some m then (s.settleSlot h m).serveSlot h m t else s

/-! ### Bank swaps (R256) -/

/-- Members of a group: slots of the half with a type. -/
def members (s : State) (h g : Nat) : List Nat :=
  (List.range 48).filter fun m => s.get (slotB h m) F.LEN_CFG_TYPE != 0 && s.nat (slotB h m) F.LEN_CFG_GROUP == g

/-- The argument by which a pending BANK_SWAP names its group. -/
def swapId (h g : Nat) : Nat := 16 * h + g

/-- BANK_SWAP_BOUNDARY: the swap boundary of a group with a swap pending (Table LE-4). -/
def swapBoundary (s : State) (h g t : Nat) : State :=
  let s := s.advance t
  let b := halfB h
  if !s.halfRun h || !bitN (s.nat b F.LEN_SWAP_PENDING) g then s
  else
    let s := (s.setBit b F.LEN_BANK_BANK g (!bitN (s.nat b F.LEN_BANK_BANK) g)).setBit b F.LEN_SWAP_PENDING g false
    let dir : Int := if bitN (s.nat b F.LEN_BANK_BANK) g then 1 else -1
    let s := if bitN (s.nat b F.LEN_BANK_BUMPLESS) g then
        s.each (s.members h g) fun m s =>
          if s.get (slotB h m) F.LEN_CFG_TYPE == 2 then s.put (slotB h m) H.slBump (s.get (slotB h m) H.slBump + dir) else s
      else s
    s.each (s.owed 0x28 (swapId h g)) fun x s => s.orderedAnswer x [x.packet 1 stOK 0 (u64Words t)]

/-! ### The set-point port (R257, R259) -/

/-- A loss of the analogue or of the pulse path (R259). -/
def spLos (s : State) (h : Nat) (pulse : Bool) : State :=
  let b := halfB h
  let s := s.puts b [(if pulse then F.SPT_STAT_LOS_P else F.SPT_STAT_LOS_A, 1), (F.SPT_STAT_LOS_SEEN, 1)]
  (s.bump b F.SPT_STAT_LOS_CNT).raise (.region (Fin.ofNat 3 (h + 1))) (fcode 2 (h + 1) 0x88)

/-- Conversions that make `LOS_T`, at least one. -/
def losN (s : State) (h : Nat) : Int := max 1 (100 * s.get (halfB h) F.SPT_CTRL_LOS_T)

/-- The analogue path has been below its loss level for `LOS_T`. -/
def losDue (s : State) (h : Nat) : Bool :=
  s.get (halfB h) F.SPT_CTRL_AMODE == 3 && !s.on (halfB h) F.SPT_STAT_LOS_A && decide (s.get (halfB h) H.losBad ≥ s.losN h)

/-- SETPOINT_CONVERSION: a converted code of the port; the slots on the port's trigger count it (R257, R259, R244). -/
def portConv (s : State) (h t : Nat) (code : Int) : State :=
  let s := s.advance t
  let b := halfB h
  let am := s.get b F.SPT_CTRL_AMODE
  if !s.halfRun h || s.oos (.spt (Fin.ofNat 2 h)) then s
  else
    let s :=
      if am = 0 then s
      else
        let code := sgnN 16 (code % 65536).toNat
        let x := if am = 3 then tdiv ((code - 5120) * 2 ^ 24) 20480 else tdiv (code * 2 ^ 24) 32000
        let s := s.puts b [(F.SPT_AIN_CODE, code), (F.SPT_XA_XA, x)]
        if am = 3 then
          let s := if code < 4608 then s.bump b H.losBad else s.put b H.losBad 0
          let s := if code ≥ 4864 then s.bump b H.losGood else s.put b H.losGood 0
          if s.losDue h then s.spLos h false
          else if s.on b F.SPT_STAT_LOS_A && decide (s.get b H.losGood ≥ s.losN h) then s.put b F.SPT_STAT_LOS_A 0
          else s
        else s
    s.each (s.slotsOn h 3) fun m s => s.countReq h m

/-- SETPOINT_PULSE_EDGE: a filtered edge on SP<k>_PIN; the falling edge ends the high time of a period (R257, R259). -/
def portEdge (s : State) (h t : Nat) (rising : Bool) : State :=
  let s := s.advance t
  let b := halfB h
  if !s.halfRun h || s.oos (.spt (Fin.ofNat 2 h)) || !s.on b F.SPT_CTRL_PMODE then s
  else if rising then
    let last := s.nat b H.lastEdge
    let first := s.get b F.SPT_CNT_CNT == 0
    let s := s.puts b [(F.SPT_CNT_CNT, s.get b F.SPT_CNT_CNT + 1), (H.prevEdge, last), (H.lastEdge, t)]
    let s := if first then s else s.puts b [(H.perT, (t : Int) - last), (H.highT, s.get b H.curHigh)]
    if s.on b F.SPT_STAT_LOS_P && decide (t < last + s.nat b F.SPT_FFS_PULSE_TO * 400000) then s.put b F.SPT_STAT_LOS_P 0 else s
  else s.put b H.curHigh ((t : Int) - s.nat b H.lastEdge)

/-- SPLOS: `PULSE_TO` has passed without an edge in a pulse mode, or `LOS_T` below the analogue loss level (R259). -/
def splos (s : State) (h : Nat) (pulse : Bool) : State :=
  let b := halfB h
  if !s.halfRun h || s.oos (.spt (Fin.ofNat 2 h)) then s
  else if pulse then
    if s.nat b F.SPT_CTRL_PMODE ≥ 2 && !s.on b F.SPT_STAT_LOS_P then s.spLos h true else s
  else if s.losDue h then s.spLos h false
  else s

/-! ### Engine errors (R262) -/

/-- The stations of a half that name slot `m` as a sink or chain entry. -/
def namesSlot (s : State) (n m : Nat) : Bool :=
  s.vdSlot n == some m || s.vqSlot n == some m || s.ffSlot n == some m || s.spSlot n == some m ||
  s.chainEntry n 0 == some m || s.chainEntry n 1 == some m || s.chainEntry n 2 == some m

/-- SLOTERR: the slot takes its safe state, the output held and the integrator frozen (Table AR-3); the stations that use it make a fault stop (R262).
-/
def slotErrEv (s : State) (h m : Nat) : State :=
  if !s.halfRun h then s
  else
    let code := fcode 1 (h + 1) 0x80
    let s := (s.settleSlot h m).put (slotB h m) F.LEN_SST_ERR 1
    let s := s.raise (.region (Fin.ofNat 3 (h + 1))) code
    s.each [2 * h, 2 * h + 1] fun n s =>
      let m' := s.mode n
      if s.namesSlot n m && (m' == mRun || m' == mStopping || m' == mCatch || m' == mIsolated) then s.faultTrip n code else s

/-- LENERR: the engine goes out of service and steams, and the half's stations make fault stops (R262). -/
def lenErr (s : State) (h : Nat) : State :=
  if !s.halfRun h then s
  else
    let code := fcode 2 (h + 1) 0x81
    let s := (s.settleHalf h).put (halfB h) F.LEN_STAT_IN_SERVICE 0
    (s.blockFail (.len (Fin.ofNat 2 h)) code).faultHalf h code

end Sys2Proof.Machine.State
end

