-- ==== Sys2Proof/Machine/Gate.lean ====
section
/-!
DEFINITION. The gate cells: switching, bootstrap, arming and diagnostics, comparators, the two-step turn-off and safe torque off (chapter 9).
-/
namespace Sys2Proof.Machine.State

/-- The comparators raise faults in these modes (R191). -/
def trips (s : State) (n : Nat) : Bool :=
  let m := s.mode n
  m == mDiag || m == mArmed || m == mRun || m == mStopping || m == mCatch || m == mIsolated

/-- The overcurrent comparators raise faults there, and in arming once a charge pulse has shorted the windings (R188; DEDUCED, log entry 73). -/
def tripsOc (s : State) (n : Nat) : Bool := s.trips n || (s.on (stnB n) H.arming && s.on (stnB n) H.bsChgT)

/-- The legs and the side that `GC_FAULT` shows with a cause of Table GD-9 (R195). -/
def gcFault (s : State) (n legs : Nat) (side : Bool) : State :=
  s.puts (stnB n) [(F.GC_FAULT_LEGS, legs % 8), (F.GC_FAULT_SIDE, b2i side)]

/-- A FAULT notice of the present tick with one code as it stands with another (R78). -/
def renameNotice (now old new : Nat) (q : QKind × Packet) : QKind × Packet :=
  if q.1 == .notice && q.2.cls == 3 && q.2.opcode == 1 && q.2.payload == u64Words now ++ [old + 0x10000] then
    (q.1, { q.2 with payload := u64Words now ++ [new + 0x10000] })
  else q

/-- The one record of the faults that a station raises in one clock takes a higher cause: its list entry, its waiting record and its waiting
notices (R195). -/
def recode (s : State) (n old new : Nat) : State :=
  let now := s.time
  let entry (e : FEntry) : FEntry := if e.unit == stnU n && e.code == old && e.tick == now then { e with code := new } else e
  let record (x : Trig) : Trig :=
    if x.trig == 1 && x.region == n / 2 + 1 && x.code == old && x.tick == now then { x with code := new } else x
  let s := s.withFlt fun f => { f with list := f.list.map entry }
  let s := s.withLog fun l => { l with fifo := l.fifo.map record }
  s.withMil fun m => { m with ports := m.ports.map fun p => { p with out := p.out.map (renameNotice now old new) } }

/-- The code of a cause of Table GD-9. -/
def gcCode (n cause : Nat) : Nat := stnCode n (if 0x58 ≤ cause then 2 else 1) cause

/-- A station in FAULT whose record of Table GD-9 is of the present clock: a further cause of that clock joins it (R195). -/
def gcNow (s : State) (n : Nat) : Bool := s.mode n == mFault && s.get (stnB n) H.gcT == (s.time : Int) + 1

/-- A later trip in the clock of a record: the record carries the highest cause, the side of its lowest leg, and every leg (R195). The other
station of the half stopped with the same code (R208). -/
def gcSame (s : State) (n cause legs : Nat) (side : Bool) : State :=
  let b := stnB n
  let old := s.nat b F.GC_FAULT_CAUSE + 64
  let legs0 := s.nat b F.GC_FAULT_LEGS
  let low (x : Nat) : Nat := if bitN x 0 then 0 else if bitN x 1 then 1 else 2
  let s := s.orBits b F.GC_FAULT_LEGS (legs % 8)
  if old < cause then
    let s := s.puts b [(F.GC_FAULT_CAUSE, cause % 64), (F.GC_FAULT_SIDE, b2i side)]
    [n, partner n].foldl (fun s m => s.recode m (gcCode n old) (gcCode n cause)) s
  else if old = cause ∧ (legs0 = 0 ∨ (legs % 8 ≠ 0 ∧ low legs < low legs0)) then
    s.flag b F.GC_FAULT_SIDE side
  else s

/-- A trip of a comparator or gate check: where it raises a fault it is a fault stop; in the clock of a record it joins that record as one of
its causes, and later, until Step 4 of the turn-off that the fault began, with its legs alone (R191, R195, R199). -/
def gateTrip (s : State) (n cause legs : Nat) (side : Bool) : State :=
  let b := stnB n
  if s.trips n || ((cause == 0x52 || cause == 0x53) && s.tripsOc n) then (s.faultTrip n (stnCode n 1 cause)).gcFault n legs side
  else if s.gcNow n then s.gcSame n cause legs side
  else if s.mode n = mFault && s.on b F.GC_STAT_TURNOFF then s.orBits b F.GC_FAULT_LEGS2 (legs % 8)
  else s

/-- The station's gates are driven directly (R175). -/
def direct (s : State) (n : Nat) : Bool := s.get (stnB n) F.GC_CTRL_DMODE == 0

/-- VDS_TRIP: a soft or absolute VDS comparator of some legs (R189). -/
def vdsTrip (s : State) (n legs : Nat) (high hard : Bool) : State :=
  let b := stnB n
  if !s.direct n then s
  else
    let s := s.orBits b F.GC_STAT_VDS_SEEN (legs % 8)
    let s := if hard && !s.trips n then s.put b F.GC_STAT_HARD_SEEN 1 else s
    s.gateTrip n (if hard then 0x51 else 0x50) legs high

/-- GATE_FOLLOW_FAIL (R189). -/
def gateFollow (s : State) (n legs : Nat) : State := if s.direct n then s.gateTrip n 0x55 legs false else s

/-- OC_SOFT_TRIP: the soft comparator trips in a PWM period; `again` says that the period before it tripped too (R190). In the clock of a record it
joins that record only as a fault, so once `OC_N` periods have tripped (R195). -/
def ocSoft (s : State) (n legs : Nat) (again : Bool) : State :=
  let b := stnB n
  let s := s.orBits b F.GC_STAT_OC_SEEN (legs % 8)
  if !s.tripsOc n && !s.gcNow n then s.gateTrip n 0x52 legs false
  else
    let s := s.bump b F.GC_CNT_OC_PER
    let s := s.put b H.ocRun (min 15 ((if again then s.get b H.ocRun else 0) + 1))
    if s.get b H.ocRun ≥ s.get b F.GC_OC_OC_N then (s.put b H.ocRun 0).gateTrip n 0x52 legs false else s

/-- OCHARD (R190, R191). -/
def ocHard (s : State) (n legs : Nat) : State :=
  let s := if s.tripsOc n then s else s.put (stnB n) F.GC_STAT_HARD_SEEN 1
  s.gateTrip n 0x53 legs false

/-- LFLT: the filtered level of S<n>_LFLT_N (R185). -/
def lflt (s : State) (n : Nat) (low : Bool) : State :=
  let s := s.flag (stnB n) F.GC_STAT_LFLT low
  if low && !s.direct n then (if s.gcNow n then s.gcSame n 0x56 0 false else s.faultTrip n (stnCode n 1 0x56)) else s

/-- LRDY: the level of S<n>_LRDY (R185). -/
def lrdy (s : State) (n : Nat) (high : Bool) : State :=
  let b := stnB n
  let fell := s.on b F.GC_STAT_LRDY && !high
  let s := s.flag b F.GC_STAT_LRDY high
  let m := s.mode n
  if fell && !s.direct n && s.on b F.GC_LINK_LRDY_REQ then
    if m == mArmed || m == mRun || m == mStopping || m == mIsolated then s.faultTrip n (stnCode n 1 0x57)
    else if s.gcNow n then s.gcSame n 0x57 0 false
    else s
  else s

/-! ### Bootstrap (R182, R183) -/

/-- The rising level, 0.1 V (R182). -/
def bsRise (s : State) (n : Nat) : Int := 65 + 5 * s.get (stnB n) F.GC_BS_BSUV_SET

/-- Failed periods of a leg. -/
def bsFailF (leg : Nat) : Fld := if leg = 0 then H.bsFail else if leg = 1 then H.bsFailV else H.bsFailW

/-- Voltage register of a leg. -/
def bsvF (leg : Nat) : Fld := if leg = 0 then F.GC_BSV_BSV_U else if leg = 1 then F.GC_BSV_BSV_V else F.GC_BSV_BSV_W

/-- Tick of the voltage that a leg's register holds, plus one. -/
def bsvT (leg : Nat) : Fld := if leg = 0 then H.bsT else if leg = 1 then H.bsTV else H.bsTW

/-- Tick of a leg's latest failed period, plus one. -/
def bsFailT (leg : Nat) : Fld := if leg = 0 then H.bsFT else if leg = 1 then H.bsFTV else H.bsFTW

/-- A bootstrap voltage that an event carries, in 0.1 V: the measurement of its microsecond (R182). -/
def putBsv (s : State) (n leg v : Nat) : State := s.puts (stnB n) [(bsvF leg, v), (bsvT leg, (s.time : Int) + 1)]

/-- Bootstrap voltage of a leg as last converted, 0.1 V: what an event of this microsecond reported, else an input that no row reports (R182;
DESIGN CHOICE, log entry 84). -/
def bootNow (s : State) (n leg : Nat) : Int :=
  let b := stnB n
  if s.on b (bsvT leg) && (s.nat b (bsvT leg) - 1) / 400 == s.time / 400 then s.get b (bsvF leg)
  else Config.bootVolts n leg (s.time / 400) % 256

/-- BOOTSTRAP_UNDERVOLTAGE of a leg, with its voltage in 0.1 V. -/
def bsUv (s : State) (n leg v : Nat) : State :=
  let b := stnB n
  if !s.direct n then s else ((s.orBits b F.GC_STAT_BSUV_SEEN (2 ^ leg)).orBits b H.bsLow (2 ^ leg)).putBsv n leg v

/-- The bootstrap charge of R188 runs: in arming, or as the BST item of STN_DIAG (Table GD-5). -/
def charging (s : State) (n : Nat) : Bool :=
  s.on (stnB n) H.arming || (s.mode n == mDiag && bitN (s.nat (stnB n) H.armItems) 3)

/-- A failed refresh period follows the one before it (R183): its pulse comes within one and a half PWM periods of the previous failed
pulse. -/
def bsFollows (s : State) (n leg : Nat) : Bool :=
  let b := stnB n
  decide (0 < s.get b (bsFailT leg)) && decide (2 * ((s.time : Int) + 1 - s.get b (bsFailT leg)) ≤ 3 * s.period n)

/-- Charge pulses of a leg. -/
def chgF (leg : Nat) : Fld := if leg = 0 then H.chgN else if leg = 1 then H.chgNV else H.chgNW

/-- A leg passes its rising level in the charge: after its latest charge pulse, or before any as measured now (R182, R188). -/
def legCharged (s : State) (n leg : Nat) : Bool :=
  let b := stnB n
  decide (s.bsRise n < if s.on b (chgF leg) then s.get b (bsvF leg) else s.bootNow n leg)

/-- Step 3 of Table GD-6 sends a leg another charge pulse: not past `CHG_MAX` periods or 5 ms after the end of Step 2, nor once every leg passes its
rising level; the pulses of one peak go to all three legs. -/
def chargeDue (s : State) (n leg : Nat) : Bool :=
  let b := stnB n
  decide (s.get b (chgF leg) < s.get b F.GC_BS_CHG_MAX) && (!s.on b H.bsChg0 || decide ((s.time : Int) + 1 ≤ s.get b H.bsChg0 + 2000000)) &&
  (s.get b H.pulseT == (s.time : Int) + 1 || !([0, 1, 2].all fun i => s.legCharged n i))

/-- A refresh goes into a leg that has not recovered, of a station in ARMED or with enable 1, where the commanded low-side window around the
peak is shorter than `T_REFR` (R183). With pulses from the pins no window is commanded. -/
def refreshDue (s : State) (n leg : Nat) : Bool :=
  let b := stnB n
  bitN (s.nat b H.bsLow) leg &&
  (s.mode n == mArmed ||
    (s.enOf n leg && (s.get b F.GC_CTRL_PSRC == 1 || decide (s.fineH n - s.cmpOf n leg < 320 * s.get b F.GC_BS_T_REFR))))

/-- BOOTSTRAP_REFRESH_PULSE: a refresh or charge pulse at a peak, with the voltage at its end in 0.1 V (Tables GD-4, GD-6). The command is the
whole pulse, Steps 2 to 5 of Table GD-4, so the switches stand after it as the PWM calls for. -/
def bsRefresh (s : State) (n leg v : Nat) : State :=
  let b := stnB n
  let charge := s.charging n
  if !s.direct n || s.on b F.GC_STAT_TURNOFF || s.barred n || !(if charge then s.chargeDue n leg else s.refreshDue n leg) then s
  else
    let again := s.bsFollows n leg
    let s := if charge then
        s.puts b [(chgF leg, s.get b (chgF leg) + 1), (H.bsChgT, (s.time : Int) + 1),
          (H.bsChg0, if s.on b H.bsChg0 then s.get b H.bsChg0 else (s.time : Int) + 1)]
      else s
    let s := ((s.bump b F.GC_CNT_REFR_CNT).putBsv n leg v).put b H.pulseT (s.time + 1)
    if (v : Int) > s.bsRise n then (s.clrBits b H.bsLow (2 ^ leg)).puts b [(bsFailF leg, 0), (bsFailT leg, 0)]
    else if charge then s
    else
      let s := s.puts b [(bsFailF leg, (if again then s.get b (bsFailF leg) else 0) + 1), (bsFailT leg, (s.time : Int) + 1)]
      if s.get b (bsFailF leg) ≥ 3 then (s.puts b [(bsFailF leg, 0), (bsFailT leg, 0)]).gateTrip n 0x54 (2 ^ leg) false else s

/-! ### Arming and diagnostics (R186 to R188) -/

/-- Diagnostic items without SHS while the bus guard measures less than 12 V (R186). -/
def runItems (s : State) (n items : Nat) : Nat :=
  if bitN items 1 && decide (s.get (halfB (n / 2)) F.BGD_MEAS_VDC < 120) then items - 2 else items

/-- Items that STN_ARM runs: LINK alone in link mode, the others of `ARM_ITEMS` in direct mode (R186, R188). -/
def armItemsOf (s : State) (n : Nat) : Nat :=
  if s.direct n then s.runItems n (s.nat (stnB n) F.GC_DIAG_ARM_ITEMS % 16) else 16

/-- No charge pulse has been sent. -/
def noCharge : List (Fld × Int) := [(H.chgN, 0), (H.chgNV, 0), (H.chgNW, 0), (H.bsChgT, 0), (H.bsChg0, 0)]

/-- Step 1 of Table GD-6. The host has commanded the station (R297). Without an item to run, Step 2 ends here and the 5 ms of Step 3 begin; no row
tells when the items end, so that else they begin at the first charge pulse, which comes at the first peak after Step 2 (DEDUCED, log entry 73). -/
def armStart (s : State) (n : Nat) : State :=
  let s := s.puts (stnB n) ([(H.arming, (1 : Int)), (H.armItems, (s.armItemsOf n : Int)), (F.STN_STAT_FB_ACTIVE, 0)] ++ noCharge)
  if s.armItemsOf n = 0 then s.put (stnB n) H.bsChg0 ((s.time : Int) + 1) else s

/-- The LINK item passes: S<n>_LRDY and S<n>_LFLT_N are high (Table GD-5). -/
def linkOk (s : State) (n : Nat) : Bool := s.on (stnB n) F.GC_STAT_LRDY && !s.on (stnB n) F.GC_STAT_LFLT

/-- The legs whose charge did not complete: those that the event names, and those that their latest charge pulse left at or below the rising level
(Table GD-6, Step 3). -/
def uncharged (s : State) (n low : Nat) : Nat :=
  (orI (low % 8) (([0, 1, 2].map fun leg => if s.on (stnB n) (chgF leg) && !s.legCharged n leg then 2 ^ leg else 0).foldl (· + ·) 0)).toNat

/-- ARM_COMPLETE: the sequence ends with the legs that failed an item, and those whose charge did not complete (Table GD-6). In link mode
the pins give the result. -/
def armEnd (s : State) (n legs low : Nat) : State :=
  let b := stnB n
  if !s.on b H.arming || s.mode n ≠ mOff then s
  else
    let items := s.nat b H.armItems
    let bad := if items = 0 then 0 else if s.direct n then legs % 8 else if s.linkOk n then 0 else 8
    let low := if s.direct n then s.uncharged n low else 0
    let s := s.puts b [(H.arming, 0), (H.armItems, 0)]
    if bad ≠ 0 then (s.faultStop n (stnCode n 2 0x58) true bad).gcFault n bad false
    else if low ≠ 0 then (s.faultStop n (stnCode n 1 0x54) true low).gcFault n low false
    else if s.get b F.COM_CTRL_ASRC == 0 && s.get b F.GC_CTRL_PSRC == 0 && !s.on b F.PF_STAT_VALID then
      let c := s.nat b F.PF_STAT_CAUSE
      s.faultStop n (stnCode n 1 (if c = 0 then 0x34 else c)) true 0
    else (s.setMode n mArmed).completeAll 0x20 n stOK 0

/-- The items that STN_DIAG runs: SHS is skipped while the bus guard measures less than 12 V (R186). Bit 5 marks the run. -/
def diagItems (s : State) (n items : Nat) : Nat := 32 + s.runItems n items

/-- Items that do not apply to the drive mode (Table GD-5). -/
def diagWrong (s : State) (n items : Nat) : Bool := if s.direct n then bitN items 4 else items % 16 != 0

/-- A bitmap of Table GD-5's items and legs: bit 4 × item + leg of the items run, where `p` holds (R187). -/
def diagMap (items : Nat) (p : Nat → Nat → Bool) : Nat :=
  ((([0, 1, 2, 3].flatMap fun i => [0, 1, 2].map fun leg => (i, leg)) ++ [(4, 3)]).map fun (x : Nat × Nat) =>
    if bitN items x.1 && p x.1 x.2 then 2 ^ (4 * x.1 + x.2) else 0).foldl (· + ·) 0

/-- DIAG_COMPLETE: the items end with the six SH voltages in mV, and the legs that failed OPEN and BST; pass and fail of SHG and SHS
follow from the voltages, and of LINK from the pins (Table GD-5, R187). -/
def diagEnd (s : State) (n : Nat) (mv : Nat × Nat × Nat × Nat × Nat × Nat) (openBad bstBad : Nat) : State :=
  let b := stnB n
  if s.mode n ≠ mDiag || s.get b H.armItems == 0 then s
  else
    let items := s.nat b H.armItems
    let g (leg : Nat) : Nat := (if leg = 0 then mv.1 else if leg = 1 then mv.2.1 else mv.2.2.1) % 65536
    let k (leg : Nat) : Nat := (if leg = 0 then mv.2.2.2.1 else if leg = 1 then mv.2.2.2.2.1 else mv.2.2.2.2.2) % 65536
    let bad (i leg : Nat) : Bool :=
      match i with
      | 0 => decide (g leg < 3000)
      | 1 => decide (1000 < k leg)
      | 2 => bitN openBad leg
      | 3 => bitN bstBad leg
      | _ => !s.linkOk n
    let fails := diagMap items bad
    let v (run : Bool) (x : Nat) : Nat := if run then x else 0xFFFF
    let shg := bitN items 0
    let shs := bitN items 1
    let s := (s.put b H.armItems 0).setMode n mOff
    s.completeAll 0x24 n (if fails = 0 then stOK else stFaulted) 0
      [diagMap items fun i leg => !bad i leg, fails, v shg (g 0) + 65536 * v shg (g 1), v shg (g 2) + 65536 * v shs (k 0),
       v shs (k 1) + 65536 * v shs (k 2)]

/-! ### Switching (R176, R177, R184) -/

/-- The pulse level of a leg: an edge restarts the dead time, and Table GD-3 gives the switches. -/
def switchLeg (s : State) (n leg : Nat) (level : Bool) : State :=
  let b := stnB n
  let s := if s.get b (lvlF leg) == b2i level then s else s.put b (edgeF leg) s.time
  (s.flag b (lvlF leg) level).putSwitch n leg

/-- PWM_CARRIER_EDGE: the carrier crosses a compare value, or the pulse level has held for the dead time; the level follows from the carrier
(R156). -/
def carrierEdge (s : State) (n leg t : Nat) : State :=
  let s := s.advance t
  if s.get (stnB n) F.GC_CTRL_PSRC == 1 then s
  else
    let s := s.carrierTo n s.time
    s.switchLeg n leg (s.pulseOf n leg s.time)

/-- LINK_PULSE_INPUT_EDGE: the pins of leg `leg` of a station with `PSRC` 1 after synchronisation and filter, at an edge or once a level has
held for the dead time (R177). -/
def linkEdge (s : State) (n leg t : Nat) (level en : Bool) : State :=
  let s := s.advance t
  let b := stnB n
  if s.get b F.GC_CTRL_PSRC != 1 then s
  else
    let s := s.setBit b H.extEn leg en
    let s := if s.mode n = mRun then s.setBit b H.enab leg en else s
    s.switchLeg n leg level

/-- TURNOFF_MID_HOLD_END: Step 3 of Table GD-7. -/
def midEnd (s : State) (n : Nat) : State :=
  if s.on (stnB n) F.GC_STAT_TURNOFF && s.get (stnB n) H.toPhase == 1 then s.put (stnB n) H.toPhase 2 else s

/-- TURNOFF_COMPLETE: Step 4 of Table GD-7. -/
def offDone (s : State) (n : Nat) : State :=
  if s.on (stnB n) F.GC_STAT_TURNOFF then
    (s.puts (stnB n) [(F.GC_STAT_TURNOFF, 0), (F.GC_STAT_OFF_CONF, 1), (H.toPhase, 0)]).putStoOff (n / 2)
  else s

/-! ### Safe torque off (R196 to R198) -/

/-- STO or STODISC on the stations of a half: those not OFF go to FAULT, the others only turn off and lose their brake output and any
running STN_ARM; in a half that does not run every output is low already (R30). `STO_BRK` spares the brake output at STO alone (R199). -/
def stoStations (s : State) (h cause : Nat) : State :=
  let keep := !s.on (halfB h) F.SUP_STO_CFG_STO_BRK
  s.each [2 * h, 2 * h + 1] fun n s =>
    let code := stnCode n 2 cause
    let brk := !keep || (cause == 0x5A && s.mode n != mOff)
    let s := if brk then s.put (stnB n) F.STN_STAT_MBRK 0 else s
    if s.mode n = mOff then
      ((if s.halfRun h then s.turnOff n else s).puts (stnB n) [(H.arming, 0), (H.armItems, 0)]).completeAll 0x20 n stFaulted 0
    else if s.gcNow n then (s.turnOff n).gcSame n cause 0 false
    else if s.mode n = mFault then (s.turnOff n).stnRaise n code
    else (s.put (stnB n) H.armItems 0).faultStop n code brk

/-- STO_ACTIVE: the filtered channels of a half, one of them low (R197, Table GD-8). -/
def stoActive (s : State) (h : Nat) (ch1 ch2 : Bool) : State :=
  let g := halfB h
  if !s.halfPresent h || (ch1 && ch2) then s
  else
    let s := s.puts g [(F.SUP_STO_STAT_CH1, b2i ch1), (F.SUP_STO_STAT_CH2, b2i ch2)]
    let s := if !ch1 && !ch2 then s.put g H.stoBoth 1 else s
    if s.on g F.SUP_STO_STAT_ACTIVE then s
    else ((s.puts g [(F.SUP_STO_STAT_ACTIVE, 1), (F.SUP_STO_STAT_SEEN, 1)]).bump g F.SUP_STO_STAT_EVENTS).stoStations h 0x59

/-- STO_RELEASE: both filtered channels are high. A latched discrepancy keeps STO active until they have been low together. -/
def stoRelease (s : State) (h : Nat) : State :=
  let g := halfB h
  if !s.halfPresent h then s
  else
    let s := s.puts g [(F.SUP_STO_STAT_CH1, 1), (F.SUP_STO_STAT_CH2, 1)]
    if s.on g F.SUP_STO_STAT_DISC && !s.on g H.stoBoth then s
    else s.puts g [(F.SUP_STO_STAT_ACTIVE, 0), (F.SUP_STO_STAT_DISC, 0), (H.stoBoth, 0)]

/-- STO_DISCREPANCY: the filtered channels have differed for 10 ms × `DISC_T`. -/
def stoDisc (s : State) (h : Nat) : State :=
  let g := halfB h
  if !s.halfPresent h || s.get g F.SUP_STO_STAT_CH1 == s.get g F.SUP_STO_STAT_CH2 || s.on g F.SUP_STO_STAT_DISC then s
  else (s.puts g [(F.SUP_STO_STAT_DISC, 1), (H.stoBoth, 0)]).stoStations h 0x5A

end Sys2Proof.Machine.State
end

