-- ==== Sys2Proof/Machine/Guard.lean ====
section
/-!
DEFINITION. The brim guards and the thermal blocks (chapter 10): bus samples, the chopper and its faults, precharge, temperature
conversions and throttling.
-/
namespace Sys2Proof.Machine.State

/-- The unit of a half's bus guard, and of a region. -/
def bgdU (h : Nat) : FUnit := .bgd (Fin.ofNat 2 h)
def regU (r : Nat) : FUnit := .region (Fin.ofNat 3 r)

/-- A bus guard cause: the latest cause shown, and its entry (R211). -/
def bgdRaise (s : State) (h cause : Nat) : State :=
  (s.put (halfB h) F.BGD_STAT_CAUSE (cause % 64)).raise (bgdU h) (fcode 2 (h + 1) cause)

/-- The guard of a half is in service, and no die shutdown holds its outputs low (R205, R216). -/
def bgdOn (s : State) (h : Nat) : Bool := s.halfRun h && !s.oos (.bgd (Fin.ofNat 2 h)) && s.chip.phase != .shutdown

/-- CHG falls. -/
def chgLow (s : State) (h : Nat) : State := s.put (halfB h) F.BGD_STAT_CHOP_ON 0

/-- Step 1 of R210 again: PRE low and precharge stopped until its cause is cleared. -/
def preLow (s : State) (h : Nat) : State := s.puts (halfB h) [(F.BGD_STAT_PRE_DONE, 0), (H.preStop, 1)]

/-- vdc_f: the mean of the latest samples, at most four (R201). -/
def meanVdc (s : State) (h : Nat) : Int :=
  let g := halfB h
  let k := s.nat g H.vdcN
  let a := s.get g H.vdc1
  let b := s.get g H.vdc2
  let c := s.get g H.vdc3
  let d := s.get g H.vdc4
  if k = 0 then 0 else if k = 1 then a else if k = 2 then (a + b) / 2 else if k = 3 then (a + b + c) / 3 else (a + b + c + d) / 4

/-- The chopper's hysteresis control at a sample (R205). -/
def chopper (s : State) (h : Nat) : State :=
  let g := halfB h
  let v := s.get g H.vdcf
  if !s.on g F.BGD_CTRL_CH_EN || s.on g F.BGD_STAT_CHFAULT then s.chgLow h
  else if s.on g F.BGD_STAT_CHOP_ON then
    if decide (s.time ≥ s.nat g H.chgT + s.nat g F.BGD_CHOP_T_CHMIN * 400) &&
        decide (v < s.get g F.BGD_VCHOP_V_CHOP - s.get g F.BGD_VCHOP_CHOP_HYST) then s.chgLow h else s
  else if v ≥ s.get g F.BGD_VCHOP_V_CHOP then
    (s.puts g [(F.BGD_STAT_CHOP_ON, 1), (H.chgT, s.time)]).bump g F.BGD_CNT_CHOP_CNT
  else s

/-- BUSOV on the stations and the guard's list (R208): the guard's entry counts one occurrence per run of samples. -/
def busOv (s : State) (h : Nat) (first : Bool) : State :=
  let g := halfB h
  let s := if first then (s.put g F.BGD_STAT_TRIP_SEEN 1).bgdRaise h 0x60 else s
  let code := fcode 2 (h + 1) 0x60
  s.each [2 * h, 2 * h + 1] fun n s =>
    if s.mode n = mOff then s
    else if s.mode n = mFault then
      let s := s.put (stnB n) F.STN_STAT_MBRK 0
      if first then s.stnRaise n code else s
    else s.faultStop n code true

/-- BUS_SAMPLE: the converter's code of BG<k>_VDC and the level of BG<k>_CHI in mV, every 0.5 µs (R201, R205, R208). -/
def busSample (s : State) (h t code chi : Nat) : State :=
  if !s.bgdOn h then s
  else
    let s := s.advance t
    let g := halfB h
    let v : Int := asr ((code % 65536) * s.get g F.BGD_SCALE_VSCALE) 16
    let trip := s.get g F.BGD_VTRIP_V_TRIP
    let two := decide (s.get g H.vdcN ≥ 1) && decide (v ≥ trip) && decide (s.get g H.vdc1 ≥ trip)
    let three := two && decide (s.get g H.vdcN ≥ 2) && decide (s.get g H.vdc2 ≥ trip)
    let s := s.puts g [(H.vdc4, s.get g H.vdc3), (H.vdc3, s.get g H.vdc2), (H.vdc2, s.get g H.vdc1), (H.vdc1, v),
      (H.vdcN, min 4 (s.get g H.vdcN + 1))]
    let s := s.puts g [(H.vdcf, s.meanVdc h), (F.BGD_MEAS_VDC, s.meanVdc h), (F.BGD_MEAS_ICH, chi)]
    let s := s.chopper h
    if two then s.busOv h (!three) else s

/-- Stations of a half not OFF stop with a bus guard code, the brake low (R206, R210, R211). -/
def bgdStop (s : State) (h cause : Nat) : State := s.faultHalf h (fcode 2 (h + 1) cause)

/-- BUSUV (Table BG-1, R210). -/
def busUv (s : State) (h : Nat) : State :=
  let g := halfB h
  let armed (n : Nat) : Bool := let m := s.mode n; m == mArmed || m == mRun || m == mStopping || m == mIsolated
  if s.bgdOn h && decide (s.get g H.vdcf < s.get g F.BGD_VTRIP_V_UV) &&
      (s.on g F.BGD_STAT_PRE_DONE || armed (2 * h) || armed (2 * h + 1)) then
    ((s.bgdRaise h 0x61).preLow h).bgdStop h 0x61
  else s

/-- Steps 1 to 3 of Table BG-2. -/
def chopFault (s : State) (h cause : Nat) : State :=
  let g := halfB h
  let s := ((s.chgLow h).puts g [(F.BGD_STAT_CHFAULT, 1), (F.BGD_STAT_CHF_SEEN, 1)]).bgdRaise h cause
  s.each [2 * h, 2 * h + 1] fun n s =>
    if bitN (s.nat g F.BGD_CTRL_CLASS) (n % 2) then
      let s := s.put (stnB n) F.STN_STAT_MBRK 0
      if (s.mode n = mRun || s.mode n = mStopping || s.mode n = mIsolated) && !s.on (stnB n) H.zvb then
        s.puts (stnB n) [(H.zvbPend, 1), (H.zvbCode, fcode 2 (h + 1) cause)]
      else s
    else s

/-- CHNOFB: no chopper current 2 µs after CHG rises (R206). -/
def chNoFb (s : State) (h : Nat) : State :=
  if s.bgdOn h && s.on (halfB h) F.BGD_STAT_CHOP_ON then s.chopFault h 0x62 else s

/-- CHOC: current above `CH_OC` with CHG high, or desaturation at any time (R206). -/
def chOc (s : State) (h : Nat) (desat : Bool) : State :=
  if s.bgdOn h && (desat || s.on (halfB h) F.BGD_STAT_CHOP_ON) then s.chopFault h 0x63 else s

/-- CHSTUCK: current with CHG low (R206); every station drives its brake output low, one in OFF too. -/
def chStuck (s : State) (h : Nat) : State :=
  if s.bgdOn h && !s.on (halfB h) F.BGD_STAT_CHOP_ON then
    let s := (((s.put (halfB h) F.BGD_STAT_CHF_SEEN 1).bgdRaise h 0x64).preLow h).bgdStop h 0x64
    s.each [2 * h, 2 * h + 1] fun n s => s.put (stnB n) F.STN_STAT_MBRK 0
  else s

/-- ZERO_VECTOR_BRAKING_END: Step 4 of Table BG-2. -/
def zvbEnd (s : State) (n : Nat) : State :=
  if s.on (stnB n) H.zvb then s.faultTrip n (s.nat (stnB n) H.zvbCode) else s

/-- Precharge is running (R210). -/
def precharging (s : State) (h : Nat) : Bool :=
  let g := halfB h
  s.bgdOn h && s.on g F.BGD_CTRL_PRE_EN && !s.on g F.BGD_STAT_PRE_DONE && !s.on g H.preStop

/-- PRECHARGE_DONE: the link is stable above V_PRE (R210). -/
def preDone (s : State) (h : Nat) : State :=
  if s.precharging h && decide (s.get (halfB h) H.vdcf ≥ s.get (halfB h) F.BGD_PRE_V_PRE) then s.put (halfB h) F.BGD_STAT_PRE_DONE 1
  else s

/-- PRECHG: not done within `T_PRE_MAX`. -/
def preFail (s : State) (h : Nat) : State :=
  if s.precharging h then (s.bgdRaise h 0x65).preLow h else s

/-! ### Temperature (R212 to R215) -/

/-- k_reg of a half (R214). -/
def kReg (s : State) (h : Nat) : Int :=
  let g := halfB h
  if s.on g F.THM_STAT_NOSENSE then 32768
  else clampI 0 32768 (tdiv ((1600 - s.get g F.THM_STAT_T_REG) * 32768) (1600 - s.get g F.THM_CTRL_T_START))

/-- k of both stations of a half, and `THROTTLE` (R214). -/
def putK (s : State) (h : Nat) : State :=
  let g := halfB h
  let k (n : Nat) : Int := min (s.kReg h) (min (s.get (stnB n) H.kExt) (s.get (stnB n) H.kShed))
  s.puts g [(F.THM_K_K0, k (2 * h)), (F.THM_K_K1, k (2 * h + 1)),
    (F.THM_STAT_THROTTLE, b2i (decide (k (2 * h) < 32768) || decide (k (2 * h + 1) < 32768)))]

/-- A reading is plausible (R212). -/
def plausible (x : Int) : Bool := decide (-550 ≤ x ∧ x ≤ 2000)

/-- Highest reading among the sensors whose bit is clear in `broken`, none when all are excluded. -/
def hottest (broken : Nat) : List Int → Nat → Option Int
  | [], _ => none
  | x :: r, i =>
    let y := hottest broken r (i + 1)
    if bitN broken i then y else match y with | none => some x | some z => some (max x z)

/-- The highest valid reading of a region as last converted; none of a thermal block that is out of service (Table FH-3). -/
def regTemp (s : State) (r : Nat) : Option Int :=
  if r = 0 then hottest (s.nat 0 F.THM_SH_STAT_BROKEN) [s.get 0 F.THM_SH_T_T0, s.get 0 F.THM_SH_T_T1] 0
  else if s.oos (.thm (Fin.ofNat 2 (r - 1))) then none
  else
    let g := halfB (r - 1)
    hottest (s.nat g F.THM_STAT_BROKEN) [s.get g F.THM_T01_T0, s.get g F.THM_T01_T1, s.get g F.THM_T23_T2, s.get g F.THM_T23_T3] 0

/-- Mask of the readings that satisfy a test. -/
def maskOf (p : Int → Bool) : List Int → Nat → Nat
  | [], _ => 0
  | x :: r, i => (if p x then 2 ^ i else 0) + maskOf p r (i + 1)

/-- TEMPERATURE_CONVERSION of a region's sensors in 0.1 °C: exclusion, borrowing, T_reg and k (R213, R214), and whether a valid
sensor has now read 165.0 °C or more twice (R216). Before a half's values are loaded its readings throttle nothing (R50). -/
def tempConvert (s : State) (r : Nat) (rd : List Int) : State × Bool :=
  if !s.regionRun r then (s, false)
  else if r = 0 then
    let rd := rd.take 2
    let old := s.nat 0 F.THM_SH_STAT_BROKEN
    let bad := old ||| maskOf (fun x => !plausible x) rd 0
    let s := if bad = old then s else s.raise (regU 0) (fcode 1 0 0x70)
    let s := s.puts 0 [(F.THM_SH_T_T0, rd.getD 0 0), (F.THM_SH_T_T1, rd.getD 1 0), (F.THM_SH_STAT_BROKEN, bad)]
    let own := s.regTemp 0
    let lend := if s.halfRun 0 && (s.regTemp 1).isSome then s.regTemp 1 else if s.halfRun 1 then s.regTemp 2 else none
    let none' := own.isNone && lend.isNone
    let s := if none' && !s.on 0 F.THM_SH_STAT_NOSENSE then s.raise (regU 0) (fcode 3 0 0x71) else s
    let s := s.puts 0 [(F.THM_SH_STAT_BORROW, b2i (own.isNone && lend.isSome)), (F.THM_SH_STAT_NOSENSE, b2i none')]
    let hotOld := s.nat 0 H.hotSh
    let hot := maskOf (fun x => decide (1650 ≤ x)) rd 0
    (s.put 0 H.hotSh hot, decide (clrI ((hot &&& hotOld : Nat) : Int) bad ≠ 0))
  else
    let h := r - 1
    let g := halfB h
    let old := s.nat g F.THM_STAT_BROKEN
    let out := s.oos (.thm (Fin.ofNat 2 h))
    let bad := if out then old else old ||| maskOf (fun x => !plausible x) rd 0
    let s := if bad = old then s else s.raise (regU r) (fcode 1 r 0x70)
    let s := if out then s else s.puts g [(F.THM_T01_T0, rd.getD 0 0), (F.THM_T01_T1, rd.getD 1 0), (F.THM_T23_T2, rd.getD 2 0), (F.THM_T23_T3, rd.getD 3 0),
      (F.THM_STAT_BROKEN, bad % 16)]
    let own := s.regTemp r
    let lend := if s.shRun then s.regTemp 0 else none
    let none' := own.isNone && lend.isNone
    let s := if none' && !s.on g F.THM_STAT_NOSENSE then s.raise (regU r) (fcode 3 r 0x71) else s
    let s := match own.or lend with | none => s | some t => s.put g F.THM_STAT_T_REG t
    let s := s.puts g [(F.THM_STAT_BORROW, b2i (own.isNone && lend.isSome)), (F.THM_STAT_NOSENSE, b2i none')]
    let hotOld := s.nat g H.hot
    let hot := if out then 0 else maskOf (fun x => decide (1650 ≤ x)) rd 0
    let s := s.put g H.hot hot
    (if s.halfRun h then s.putK h else s, decide (clrI ((hot &&& hotOld : Nat) : Int) bad ≠ 0))

/-- Entry `i` of the curve table of an external input (R215): code and temperature. -/
def curve (s : State) (x i : Nat) : Int × Int :=
  let a := 0x8400 + 0x100 * x + 8 * i
  ((s.tabWord a % 4096 : Nat), sgnN 16 (s.tabWord (a + 4) % 65536))

/-- The largest entry index among 0 … k whose code is at most `c`. -/
def curveIndex (s : State) (x : Nat) (c : Int) : Nat → Nat
  | 0 => 0
  | k + 1 => if (s.curve x (k + 1)).1 ≤ c then k + 1 else s.curveIndex x c k

/-- Temperature of a code by the curve, linear between entries. -/
def curveTemp (s : State) (x : Nat) (c : Int) : Int :=
  let e0 := s.curve x 0
  let e31 := s.curve x 31
  if c ≤ e0.1 then e0.2
  else if c ≥ e31.1 then e31.2
  else
    let k := s.curveIndex x c 30
    let p := s.curve x k
    let q := s.curve x (k + 1)
    p.2 + tdiv ((q.2 - p.2) * (c - p.1)) (q.1 - p.1)

/-- k_ext of a station: the lowest factor of the valid inputs assigned to it (R214, R215). -/
def putExt (s : State) (n : Nat) : State :=
  let k := (List.range 4).foldl (fun k x =>
    if s.on (4 * x) F.THM_EXT_CFG_TYPE && bitN (s.nat (4 * x) F.THM_EXT_CFG_STN) n && !bitN (s.nat 0 F.THM_SH_STAT_EXT_BROKEN) x then
      min k (s.get (8 * x) H.xK) else k) (32768 : Int)
  (s.put (stnB n) H.kExt k).putK (n / 2)

/-- EXT_TEMPERATURE_CONVERSION: the 12-bit code of an external input (R215). -/
def extConvert (s : State) (x code : Nat) : State :=
  if !s.shRun || !s.on (4 * x) F.THM_EXT_CFG_TYPE then s
  else
    let code := code % 4096
    let t := s.curveTemp x code
    let bad := decide (code < 8) || decide (4087 < code) || !plausible t
    let was := bitN (s.nat 0 F.THM_SH_STAT_EXT_BROKEN) x
    let z := s.get (4 * x) F.THM_EXT_CFG_T_X_ZERO
    let st := s.get (4 * x) F.THM_EXT_CFG_T_X_START
    let k := clampI 0 32768 (tdiv ((z - t) * 32768) (max 1 (z - st)))
    let s := s.puts (8 * x) [(H.xK, k), (H.xCode, code)]
    let s := s.put (4 * (x / 2)) (if x % 2 = 0 then F.THM_EXT_T_TXA else F.THM_EXT_T_TXB) t
    let s := if bad && !was then (s.setBit 0 F.THM_SH_STAT_EXT_BROKEN x true).raise (regU 0) (fcode 1 0 0x70) else s
    s.each (s.stations.filter fun n => s.halfRun (n / 2)) fun n s => s.putExt n

end Sys2Proof.Machine.State
end

