-- ==== Sys2Proof/Machine/Sequences.lean ====
section
/-!
DEFINITION. The timed events of a station's sequences: the observer in open form, the rotation check, the sensorless start, CATCH
(chapter 11), and the ends of brake release and of stops (chapter 14). An event that says that an interval has passed acts
only while its sequence runs.
-/
namespace Sys2Proof.Machine.State

/-- Bootstrap pulses come at each peak: the charge of arming or of a diagnostic, or in ARMED the refresh of a leg that has not recovered
(R183, R188). -/
def pulsing (s : State) (n : Nat) : Bool :=
  s.direct n && !s.on (stnB n) F.GC_STAT_TURNOFF && ((s.charging n && [0, 1, 2].any fun leg => s.chargeDue n leg) ||
    (s.mode n == mArmed && [0, 1, 2].any fun leg => s.on (stnB n) (bsvT leg) && decide (s.get (stnB n) (bsvF leg) ≤ s.bsRise n)))

/-- A sample at tick `t` of the open form is skipped: within 2 µs after a pulse, or while one conducts, `T_REFR` centred on the peak (R219). -/
def sampleSkipped (s : State) (n : Nat) (t : Int) : Bool :=
  let b := stnB n
  let p := s.period n
  let x := 2 * ((t - s.get b H.carV) % max 1 p) - p
  let w := 40 * s.get b F.GC_BS_T_REFR
  (s.on b H.pulseT && decide (t + 1 < s.get b H.pulseT + 800)) || (s.pulsing n && decide (-w ≤ x ∧ x ≤ w + 1600))

/-- OBSERVER_OPEN_EVAL: one evaluation in open form, from three codes of the phase-voltage inputs, while every enable is 0 and no turn-off
runs (R219, R221, Table SL-4). -/
def openEval (s : State) (n t u v w : Nat) : State :=
  let s := s.advance t
  let b := stnB n
  if s.on b F.OBS_CTRL_OBS_EN && !s.on b H.enab && !s.on b F.GC_STAT_TURNOFF && !s.sampleSkipped n t then s.obsOpen n u v w else s

/-- ROTATION_CHECK: 5 ms of open form at entry to RUN; in the wait of REV_ACT 2 it is the check that the station has stopped
rotating (R225, Tables SL-1 and SL-2). -/
def rotCheckEv (s : State) (n : Nat) : State :=
  let b := stnB n
  if s.mode n ≠ mRun ∧ s.mode n ≠ mIsolated then s
  else if s.on b H.rotChk then s.rotationCheck n
  else if s.on b H.revWait && !s.rotating n then s.startStill n
  else s

/-- REVERSE_WAIT_TIMEOUT (Table SL-2). -/
def revTimeout (s : State) (n : Nat) : State :=
  if (s.mode n = mRun || s.mode n = mIsolated) && s.on (stnB n) H.revWait then s.obsFault n 2 0x4A else s

/-- START_ALIGN_END: Step 3 of Table SL-3. -/
def startAlignEnd (s : State) (n : Nat) : State :=
  let b := stnB n
  if s.get b F.OBS_STAT_STARTING == 2 then s.puts b [(F.OBS_STAT_STARTING, 3), (H.idRef, s.get b F.COM_OL_I_OL), (H.startT, s.time)]
  else s

/-- START_HANDOVER_TIMEOUT: Step 5F of Table SL-3. -/
def handTimeout (s : State) (n : Nat) : State :=
  if s.get (stnB n) F.OBS_STAT_STARTING == 4 then s.obsFault n 2 0x48 else s

/-- CATCH_STOPPED: Step 3b of Table SL-4. -/
def catchStopped (s : State) (n : Nat) : State :=
  let b := stnB n
  if s.mode n = mCatch && !s.on b F.OBS_STAT_LOCKED && decide (s.get b F.OBS_EMFV_MAG < s.get b F.OBS_EMF_EMF_MIN) then
    s.put b H.catchStop 1
  else s

/-- CATCH_TIMEOUT: Step 6F of Table SL-4. -/
def catchTimeout (s : State) (n : Nat) : State :=
  let b := stnB n
  if s.mode n = mCatch && !s.on b F.OBS_STAT_LOCKED && !s.on b H.catchStop then s.obsFault n 2 0x49 else s

/-! ### Stops (R291 to R295) -/

/-- BRAKE_RELEASE_DELAY_END: the station follows its command (R291). -/
def brakeDelayEnd (s : State) (n : Nat) : State := s.put (stnB n) H.brkWait 0

/-- t_Z of Table SV-2: the brake is applied and the reference stays at 0. -/
def holdBrake (s : State) (n : Nat) : State :=
  let b := stnB n
  s.puts b [(H.stopSeq, 1), (H.tZ, s.time), (H.istarZ, s.get b H.istar), (F.STN_STAT_MBRK, 0)]

/-- STOP_DWELL_END: |w| has been at or below W_STOP for T_DWELL in a stop of type 0, 1 or 3 (R292, Table SV-2). A stop without a K1
chain slot ends with I* = 0 instead. -/
def dwellEnd (s : State) (n : Nat) : State :=
  let b := stnB n
  let w := s.speedW n
  let slow := decide ((if w < 0 then -w else w) * 100 ≤ s.get b F.STN_BRAKE_W_STOP * 2 ^ 18)
  let done := if s.on b H.stopRamp then s.get b H.istar == 0 else slow
  if s.mode n ≠ mStopping || s.on b H.zvb || s.get b H.stopSeq != 0 || s.get b F.STN_STAT_STOP == 2 || !done then s
  else if s.get b F.STN_STAT_STOP == 3 then s.holdBrake n
  else s.endStop n

/-- HOLD_BRAKE_UNLOAD: Step 3 of Table SV-2. -/
def holdUnload (s : State) (n : Nat) : State :=
  let b := stnB n
  if s.mode n = mStopping && s.get b H.stopSeq == 1 then s.puts b [(H.stopSeq, 2), (H.unlT, s.time), (H.unlI, s.get b H.istar)] else s

/-- HOLD_BRAKE_END: Step 4 of Table SV-2. -/
def holdEnd (s : State) (n : Nat) : State :=
  if s.mode n = mStopping && s.get (stnB n) H.stopSeq == 2 then s.endStop n else s

/-- STOPTO: `T_STOP_MAX` has passed, unless the brake slipped (R294, R295). -/
def stopTo (s : State) (n : Nat) : State :=
  let b := stnB n
  if s.mode n = mStopping && s.get b H.stopSeq != 3 && !s.on b H.zvb then s.faultTrip n (stnCode n 2 0xA0) else s

end Sys2Proof.Machine.State
end

