-- ==== Sys2Proof/Machine/Axes.lean ====
section
/-!
DEFINITION. The auxiliary axes (chapter 15): planner, profiles, groups, following, step engine, coils, stops and faults.
-/
namespace Sys2Proof.Machine.State

/-! ### Quantities -/

/-- 2^40: one count of r. -/
def q40 : Int := 2 ^ 40

/-- The unit of an axis's fault list. -/
def axsU (n : Nat) : FUnit := .axs (Fin.ofNat 4 n)

/-- A region's axis code (R334). -/
def axsCode (n cause : Nat) : Nat := fcode 1 (n / 2 + 1) cause

/-- Axis state (Table AX-4). -/
def axSt (s : State) (n : Nat) : Nat := s.nat (axsB n) F.AXS_STAT_STATE

/-- The nearest integer to r. -/
def axNear (s : State) (n : Nat) : Int := (s.get (axsB n) H.axR + q40 / 2) / q40

/-- The counts still owed: the nearest integer to r minus the count, which wraps with it (R4, R313). -/
def axOwed (s : State) (n : Nat) : Int := wrap48 (s.axNear n - s.get (axsB n) F.AXS_POS_POS)

/-- AXS_LAG follows r and the count. -/
def axLag (s : State) (n : Nat) : State := s.put (axsB n) F.AXS_LAG_LAG (satS 16 (s.axOwed n))

/-- AXS_VEL follows v: 0.01 counts/s (R335). -/
def axPutV (s : State) (n : Nat) (v : Int) : State :=
  s.puts (axsB n) [(H.axV, v), (F.AXS_VEL_VEL, sat32 (tdiv (v * 10 ^ 8) q40))]

/-- The rates of R321 from the fields of AXIS_MOVE. -/
def axVmOf (vmax : Int) : Int := tdiv (vmax * q40) (10 ^ 8)
def axRateOf (a : Int) : Int := max 1 (tdiv (a * q40) (10 ^ 12))

/-- The coil value in force (R315). -/
def axValue (s : State) (n : Nat) (coilB : Bool) : Int :=
  let w := s.coilWord (0x11000 + 0x1000 * n + 4 * s.nat (axsB n) F.AXS_LAG_TBL_ADDR) coilB
  sgnN 16 (if coilB then w / 65536 else w % 65536)

/-- Cycle direction and threshold of a coil. -/
def axSgF (coilB : Bool) : Fld := if coilB then H.axSgB else H.axSgA
def axVthF (coilB : Bool) : Fld := if coilB then H.axVthB else H.axVthA

/-- V_th of a coil for the value in force (R316). -/
def axVth (s : State) (n : Nat) (coilB : Bool) : Int :=
  let v := s.axValue n coilB
  asr ((if v < 0 then -v else v) * (if s.get (axsB n) F.AXS_STAT_COIL == 2 then s.get (axsB n) F.AXS_ISCALE_I_RUN else s.get (axsB n) F.AXS_ISCALE_I_HOLD)) 15

/-- A changed value, or current scale, takes effect in the running cycle; one of the other sign waits for the next (R316). -/
def axRenew (s : State) (n : Nat) : State :=
  s.each [false, true] fun k s =>
    if s.get (axsB n) (axSgF k) = sgnI (s.axValue n k) then s.put (axsB n) (axVthF k) (s.axVth n k) else s

/-- An offset in the image is one of an axis's microstep table (Table CF-4). -/
def isStep (n off : Nat) : Bool := decide (0x11000 + 0x1000 * n ≤ off ∧ off < 0x12000 + 0x1000 * n)

/-- A coil starts from the table as it was loaded. -/
def axFresh (s : State) (n : Nat) (coilB : Bool) : State := { s with axOld := s.axOld.filter fun e => !(isStep n e.1 && e.2.1 == coilB) }

/-- Coils energised at hold or run, standby or off, with EN (R318, Table AX-1). -/
def axCoil (s : State) (n : Nat) (c : Int) : State :=
  let s := if c = 1 ∨ c = 2 then s else (s.axFresh n false).axFresh n true
  (s.puts (axsB n) [(F.AXS_STAT_COIL, c), (H.axEn, b2i (c ≠ 0))]).axRenew n

/-- Standby as `STBY` sets it (R318). -/
def axStandby (s : State) (n : Nat) : State :=
  s.axCoil n (if s.on (axsB n) F.AXS_CTRL_STBY && s.get (axsB n) F.AXS_CTRL_CLASS == 2 then 3 else 0)

/-- A motion starts: from standby the axis first energises for `T_ENER` (R318). -/
def axWake (s : State) (n : Nat) : State :=
  let b := axsB n
  let c := s.get b F.AXS_STAT_COIL
  let sby := c == 0 || c == 3
  (s.axCoil n 2).put b H.axEner (b2i (sby && s.get b F.AXS_HOLD_T_ENER != 0))

/-- The axis enters IDLE and holds. -/
def axIdle (s : State) (n : Nat) : State :=
  let b := axsB n
  ((s.puts b [(F.AXS_STAT_STATE, 1), (F.AXS_STAT_TURNING, 0), (H.axGrp, 0), (H.axTab, 0), (H.axOvs, 0), (H.axEner, 0)]).axCoil n 1).axPutV n 0

/-! ### Completions -/

/-- The moves and groups of an axis that wait for completion end with a status (R85). -/
def axComplete (s : State) (n st : Nat) : State :=
  let s := s.completeAll 0x30 n st 0
  s.each (s.mil.busy.filter fun b => b.op == 0x33 && bitN b.arg n && b.fwd == none) fun b s => s.completeB b st 0 []

/-! ### Cut, guarded stop, faults (R330) -/

/-- Pulses cut at once: a cut in motion or with steps owed sets `POS_LOST`, and r stands at the count. -/
def axCut (s : State) (n : Nat) : State :=
  let b := axsB n
  let p := s.get b F.AXS_POS_POS
  let lost := s.get b H.axV != 0 || s.axOwed n != 0
  let s := if lost then s.put b F.AXS_STAT_POS_LOST 1 else s
  ((s.put b H.axR (p * q40)).axPutV n 0).axLag n

/-- A guarded axis decelerates in STOPPING toward state `fin`, out of FOLLOW at the `GDEC` in force (R322, R330). In GROUP its velocity is its share
of the path's. -/
def axGuard (s : State) (n fin : Nat) : State :=
  let b := axsB n
  s.puts b [(F.AXS_STAT_STATE, 6), (H.axGd, b2i (s.axSt n == 5)), (H.axStopSt, fin), (F.AXS_STAT_TURNING, 0), (H.axGrp, 0), (H.axTab, 0), (H.axEner, 0)]

/-- An axis enters FAULT: its scheduler slots are disarmed with FAULTED (R143, R330). -/
def axToFault (s : State) (n : Nat) : State := (s.put (axsB n) F.AXS_STAT_STATE 7).ascDisarmUser (n / 2) (2 + n % 2) stFaulted

/-- One axis stops for AXIS_STOP (`fin` 1) or for a cause that a guarded axis runs out (`fin` 7). -/
def axStopOne (s : State) (n fin : Nat) : State :=
  let b := axsB n
  let st := s.axSt n
  if st = 6 then (if fin = 7 then s.put b H.axStopSt 7 else s)
  else if s.on b F.AXS_CTRL_GUARDED && (st == 2 || st == 3 || st == 4 || st == 5) &&
      (s.get b H.axV != 0 || s.axOwed n != 0) then s.axGuard n fin
  else
    let s := (s.axCut n).axIdle n
    if fin = 7 then (s.axToFault n).axStandby n else s

/-- Signals pass between two axes: they are of one half, or the A↔B mailbox is in service (R16). -/
def axMeets (s : State) (n m : Nat) : Bool := n / 2 == m / 2 || !s.oos .abmbx

/-- The other members of an axis's group that still move with it and that its signals reach. -/
def axMates (s : State) (n : Nat) : List Nat :=
  (List.range 4).filter fun m => m != n && bitN (s.nat (axsB n) H.axGrp) m && s.axSt m == 4 && s.get (axsB m) H.axGrp == s.get (axsB n) H.axGrp &&
    s.axMeets n m

/-- Every axis that a stop of axis `n` reaches: itself, or its whole group (R326). -/
def axStop (s : State) (n fin : Nat) (st : Nat) : State :=
  let mates := if s.axSt n = 4 then s.axMates n else []
  let s := s.axComplete n st
  (s.each mates fun m s => s.axStopOne m fin).axStopOne n fin

/-- An axis fault (Table AX-6, R334): the entry and its record, its moves ended with ABORTED, and the other members of its group stopped with
an entry of their own; each disarms its scheduler slots as it enters FAULT (R143). `guarded` causes let a guarded axis run out;
`off` causes leave the coils off. -/
def axFault (s : State) (n cause : Nat) (guarded off : Bool) : State :=
  let b := axsB n
  let code := axsCode n cause
  let mates := if s.axSt n = 4 then s.axMates n else []
  let s := s.axComplete n stAborted
  let s := s.each mates fun m s => ((s.axStopOne m 7).raise (axsU m) code).put (axsB m) F.AXS_STAT_CAUSE (cause % 64)
  let s := (s.put b F.AXS_STAT_CAUSE (cause % 64)).raise (axsU n) code
  if guarded then s.axStopOne n 7
  else
    let s := ((s.axCut n).axIdle n).axToFault n
    if off then s.axCoil n 0 else s.axStandby n

/-- The backlog limit of R313. -/
def axBacklog (s : State) (n : Nat) : State :=
  let d := s.axOwed n
  if d ≥ 64 ∨ d ≤ -64 then s.axFault n 0xB0 false false else s

/-! ### Planner (R321 to R329) -/

/-- One step of the block of R321: r, v and whether the target is more than one count behind the motion. -/
def planStep (r v tt vm ta td : Int) : Int × Int × Bool :=
  let dist := tt - r
  let av := if v < 0 then -v else v
  let ad := if dist < 0 then -dist else dist
  let behind := v ≠ 0 ∧ sgnI dist ≠ sgnI v
  let vn :=
    if behind then v - sgnI v * min td av
    else
      let stop := tdiv (v * v) (2 * td) + av / 2
      if v ≠ 0 ∧ ad ≤ stop then v - sgnI v * min td av
      else if av > vm then v - sgnI v * min td (av - vm)
      else v + sgnI dist * min ta (vm - av)
  let r' := r + tdiv (v + vn) 2
  let ad' := if tt - r' < 0 then r' - tt else tt - r'
  (if vn = 0 ∧ ad' < q40 then tt else r', vn, decide (behind ∧ ad ≥ q40))

/-- OVERSHOOT and its count, at the tick in which it begins (R322). -/
def axOvershoot (s : State) (n : Nat) (over' : Bool) : State :=
  let b := axsB n
  let s := if over' && !s.on b H.axOvs then (s.put b F.AXS_STAT_OVERSHOOT 1).bump b F.AXS_CNT_OVR_CNT else s
  s.flag b H.axOvs over'

/-- A move has arrived (R323). -/
def axArrived (s : State) (n : Nat) : Bool :=
  let b := axsB n
  let tt := s.get b F.AXS_TARGET_TARGET
  s.get b H.axR == tt * q40 && s.get b H.axV == 0 && s.get b F.AXS_POS_POS == tt

/-- Arrival is taken: IDLE and the completion of a move; the last member of a group ends it (R323, R326), in each half for itself while the A↔B
mailbox is out of service (R16; DESIGN CHOICE, log entry 110). -/
def axArrive (s : State) (n : Nat) : State :=
  let b := axsB n
  if s.axSt n = 2 && s.axArrived n then (s.axIdle n).completeAll 0x30 n stOK 0
  else if s.axSt n = 3 && s.get b H.axTau == s.get b H.axL && s.get b F.AXS_POS_POS == s.get b F.AXS_TARGET_TARGET then
    (s.axIdle n).completeAll 0x30 n stOK 0
  else if s.axSt n = 4 && s.get b H.axLr == s.get b H.axL * q40 && s.get b H.axLv == 0 && s.get b F.AXS_POS_POS == s.get b F.AXS_TARGET_TARGET then
    let s := s.put b H.axArr 1
    let g := s.nat b H.axGrp
    let near := n :: s.axMates n
    let s := if near.all fun m => s.on (axsB m) H.axArr then s.each near fun m s => s.axIdle m else s
    if ((List.range 4).filter (bitN g)).all fun m => s.on (axsB m) H.axArr && s.axSt m == 1 then s.completeAll 0x33 g stOK 0 else s
  else s

/-- Word `i` of segment `k` of an axis's shaping table (Table AX-5). -/
def segWord (s : State) (n k i : Nat) : Nat := s.tabWord (0x15000 + 0x1000 * n + 16 * k + 4 * i)

/-- End position and velocity of a segment. -/
def segPos (s : State) (n k : Nat) : Int := sgnN 48 (s.segWord n k 1 + 2 ^ 32 * (s.segWord n k 2 % 65536))
def segVel (s : State) (n k : Nat) : Int := sgnN 32 (s.segWord n k 3)
def segLast (s : State) (n k : Nat) : Bool := bitN (s.segWord n k 2) 16

/-- The number of segments up to the one that carries LAST, when one does, looking at `fuel` of them from `k`. -/
def segCount (s : State) (n : Nat) : Nat → Nat → Option Nat
  | 0, _ => none
  | f + 1, k => if s.segLast n k then some (k + 1) else s.segCount n f (k + 1)

/-- The sum of the durations of `k` segments. -/
def segTotal (s : State) (n k : Nat) : Nat := (List.range k).foldl (fun t i => t + s.segWord n i 0) 0

/-- The position of the shaping table of axis `n` at progress tau, 40 fraction bits, relative to the start (R325). -/
def segAt (s : State) (n : Nat) (tau : Int) : Nat → Nat → Int → Int → Int → Int
  | 0, _, _, p0, _ => p0 * q40
  | f + 1, k, t0, p0, v0 =>
    let d : Int := s.segWord n k 0
    let p1 := s.segPos n k
    let v1 := s.segVel n k
    if tau ≤ t0 + d || s.segLast n k then
      let x := tdiv ((tau - t0) * 2 ^ 24) (max 1 d)
      let x2 := asr (x * x) 24
      let x3 := asr (x2 * x) 24
      let h10 := x3 - 2 * x2 + x
      let h01 := 3 * x2 - 2 * x3
      let h11 := x3 - x2
      p0 * q40 + (h01 * (p1 - p0)) * 2 ^ 16 + asr (h10 * d * v0) 8 + asr (h11 * d * v1) 8
    else s.segAt n tau f (k + 1) (t0 + d) p1 v1

/-- Progress of the profile clock of axis `m` (R325): whole µs since the start, or with `pclk` the scheduler timebase, held while it is. -/
def axProgress (s : State) (m t t0 : Nat) (pclk : Bool) (xs tau total : Int) : Int :=
  if !pclk then min total (((t : Int) - t0) / 400)
  else if bitN (s.nat (halfB (m / 2)) F.ASC_STAT_TB_HOLD) (2 + m % 2) then tau
  else clampI 0 total (wrap48 (s.ascTbv (m / 2) (2 + m % 2) - xs))

/-- r moves to a value and v to its change (R321). -/
def axTo (s : State) (n : Nat) (r : Int) : State :=
  let d := r - s.get (axsB n) H.axR
  (s.put (axsB n) H.axR r).axPutV n d

/-- MOVE's planner tick. -/
def tickMove (s : State) (n : Nat) : State :=
  let b := axsB n
  let p := planStep (s.get b H.axR) (s.get b H.axV) (s.get b F.AXS_TARGET_TARGET * q40) (s.get b H.axVm) (s.get b H.axTa) (s.get b H.axTd)
  (((s.put b H.axR p.1).axPutV n p.2.1).axOvershoot n p.2.2)

/-- PROFILE's planner tick. -/
def tickProfile (s : State) (n t : Nat) : State :=
  let b := axsB n
  let tau := s.axProgress n t (s.nat b H.axT0) (s.on b F.AXS_CTRL_PCLK) (s.get b H.axXs) (s.get b H.axTau) (s.get b H.axL)
  (s.put b H.axTau tau).axTo n (s.get b H.axS0 * q40 + s.segAt n tau 256 0 0 0 0)

/-- GROUP's planner tick: λ by R321 or by the shaping table, then the member's place on the line (R326). The clock of a table is the one its axis had
at the start, and a timebase of the other half stands still while the A↔B mailbox is out of service (R16; DESIGN CHOICE, log entry 110). -/
def tickGroup (s : State) (n t : Nat) : State :=
  let b := axsB n
  let l := s.get b H.axL
  if !s.on b H.axGo then s
  else
    let s :=
      if s.on b H.axTab then
        let m := s.nat b H.axTab - 1
        let k := (s.segCount m 256 0).getD 0
        let tot : Int := s.segTotal m k
        let pclk := s.on b H.axPck
        let tau := if pclk && !s.axMeets n m then s.get b H.axTau else s.axProgress m t (s.nat b H.axT0) pclk (s.get b H.axXs) (s.get b H.axTau) tot
        s.puts b [(H.axTau, tau), (H.axLr, s.segAt m tau 256 0 0 0 0), (H.axLv, if tau = tot then 0 else 1)]
      else
        let p := planStep (s.get b H.axLr) (s.get b H.axLv) (l * q40) (s.get b H.axVm) (s.get b H.axTa) (s.get b H.axTd)
        s.puts b [(H.axLr, p.1), (H.axLv, p.2.1)]
    s.axTo n (s.get b H.axS0 * q40 + tdiv ((s.get b H.axD * q40) * s.get b H.axLr) (max 1 (l * q40)))

/-- The distance from one position to another, which wraps with the 48-bit count; 40 fraction bits (R327). -/
def qDist (a b : Int) : Int := wrapS 88 (b - a)

/-- The interpolated position of the step input moves toward its count for one tick (R328). -/
def axInterp (s : State) (n : Nat) : State :=
  let b := axsB n
  let q := s.get b H.axQi
  let d := qDist q (s.get b F.AXS_IN_IN * q40)
  let rate := s.get b H.axRate * (if (if d < 0 then -d else d) > q40 then 2 else 1)
  s.put b H.axQi (q + clampI (-rate) rate d)

/-- The position of the source of FOLLOW, 40 fraction bits: the interpolated step input, or the count of a station. -/
def axGoal (s : State) (n : Nat) : Int :=
  let b := axsB n
  if s.on b H.axSrc then s.get (stnB (s.nat b H.axStn)) F.PF_POS_POS * q40 else s.get b H.axQi

/-- The source position of FOLLOW at a tick (R327): each frame's change of a serial source is spread over the frame spacing. -/
def axSource (s : State) (n : Nat) : State :=
  let b := axsB n
  let goal := s.axGoal n
  if !s.on b H.axSrc || !s.on (stnB (s.nat b H.axStn)) F.PF_CTRL_SRC then s.put b H.axQ goal
  else
    let q := s.get b H.axQ
    let d := qDist q goal
    let ft := s.get (stnB (s.nat b H.axStn)) H.psUseT
    let s := if ft != s.get b H.axPsT then
        s.puts b [(H.axPsT, ft), (H.axSrate, tdiv ((if d < 0 then -d else d) * 400) (max 1 (ft - s.get b H.axPsT)))]
      else s
    let rate := s.get b H.axSrate
    s.put b H.axQ (q + clampI (-rate) rate d)

/-- r_f of R327. -/
def axRf (s : State) (n : Nat) : Int :=
  let b := axsB n
  let num := if s.on b H.axInv then -s.get b H.axNum else s.get b H.axNum
  s.get b H.axR0 + tdiv (num * qDist (s.get b H.axQ0) (s.get b H.axQ)) (max 1 (s.get b H.axDen))

/-- Re-base so that r_f = r (R329). -/
def axRebase (s : State) (n : Nat) : State :=
  s.puts (axsB n) [(H.axR0, s.get (axsB n) H.axR), (H.axQ0, s.get (axsB n) H.axQ)]

/-- FOLLOW's planner tick (R327 to R329): the first takes the origin, from which the next ones follow. -/
def tickFollow (s : State) (n : Nat) : State :=
  let b := axsB n
  if s.on b H.axSrc && !s.on (stnB (s.nat b H.axStn)) F.PF_STAT_VALID then s.axFault n 0xB2 true false
  else if s.on b H.axOrg then
    ((s.put b H.axQ (s.axGoal n)).axRebase n).puts b [(H.axOrg, 0), (H.axTurn, 0), (F.AXS_STAT_TURNING, b2i (s.on b F.AXS_FACC_FACC))]
  else
    let s := if s.on b H.axTurn then (s.axRebase n).puts b [(H.axTurn, 0), (F.AXS_STAT_TURNING, b2i (s.on b F.AXS_FACC_FACC))] else s
    let q := s.get b H.axQ
    let s := s.axSource n
    if s.on b F.AXS_STAT_TURNING then
      let num := if s.on b H.axInv then -s.get b H.axNum else s.get b H.axNum
      let vf := tdiv (num * qDist q (s.get b H.axQ)) (max 1 (s.get b H.axDen))
      let v := s.get b H.axV
      let step := if s.on b F.AXS_FACC_FACC then axRateOf (s.get b F.AXS_FACC_FACC) else max (vf - v) (v - vf)
      let vn := v + clampI (-step) step (vf - v)
      let s := (s.put b H.axR (s.get b H.axR + tdiv (v + vn) 2)).axPutV n vn
      if vf - vn ≤ step ∧ vn - vf ≤ step then (s.axRebase n).put b F.AXS_STAT_TURNING 0 else s
    else s.axTo n (s.axRf n)

/-- STOPPING's planner tick: deceleration, then IDLE or FAULT at standstill (R330). -/
def tickStopping (s : State) (n : Nat) : State :=
  let b := axsB n
  let v := s.get b H.axV
  let td := if s.on b H.axGd then axRateOf (s.get b F.AXS_GDEC_GDEC) else s.get b H.axTd
  let vn := v - sgnI v * min td (if v < 0 then -v else v)
  let s := (s.put b H.axR (s.get b H.axR + tdiv (v + vn) 2)).axPutV n vn
  if vn = 0 ∧ s.axOwed n = 0 then
    let fin := s.get b H.axStopSt
    let s := ((s.put b H.axR (s.get b F.AXS_POS_POS * q40)).axIdle n)
    if fin = 7 then (s.axToFault n).axStandby n else s
  else s

/-- One axis at a planner tick. -/
def axTick (s : State) (n t : Nat) : State :=
  let b := axsB n
  let st := s.axSt n
  if s.on b H.axEner || st < 2 || st == 7 then s
  else
    let s := match st with
      | 2 => s.tickMove n
      | 3 => s.tickProfile n t
      | 4 => s.tickGroup n t
      | 5 => s.tickFollow n
      | _ => s.tickStopping n
    ((s.axLag n).axBacklog n).axArrive n

/-! ### The end of auto-spool (R306) -/

/-- The scheduler user of an axis. -/
def axUser (a : Nat) : Nat := 2 + a % 2

/-- Auto-spool lets go of its axis: slot 7 cancelled, the user's timebase as before the start, AXIS_STOP. -/
def spoolOff (s : State) (a : Nat) : State :=
  let s := s.ascDisarm (a / 2) (axUser a) 7 stAborted
  let s := s.puts (halfB (a / 2) + 4 * axUser a) [(F.ASC_TB_SEL_SRC, s.get (axsB a) H.spSrc), (F.ASC_TB_SEL_STN, s.get (axsB a) H.spStn)]
  let s := s.put (axsB a) H.spDrum 0
  if s.axSt a = 5 then s.axStop a 1 stAborted else s

/-- The level-wind of an auto-spool that ended with SH follows until its drum is OFF. -/
def spoolCheck (s : State) (a : Nat) : State :=
  if s.on (axsB a) H.spDrum && s.mode (s.nat (axsB a) H.spDrum - 1) == mOff then s.spoolOff a else s

/-- PLANNER_TICK: both axes of a half, once per µs (R313, R321). -/
def plannerTick (s : State) (h t : Nat) : State :=
  let s := s.advance t
  if !s.halfRun h then s else s.each [2 * h, 2 * h + 1] fun n s => ((s.axInterp n).spoolCheck n).axTick n t

/-! ### Step engine, coils and inputs -/

/-- AXIS_STEP: the step engine's instant at `t` (R313, R314). A pulse-class axis whose direction changes moves DIR first, `PW` after its latest
step or later; a change that is taken back before DIR has moved leaves it. A motion that has gone to standby for want of steps energises with its
next step, for which `T_ENER` does not wait (R318; DESIGN CHOICE, log entry 101). -/
def axStep (s : State) (n t : Nat) : State :=
  let s := s.advance t
  let b := axsB n
  let p := s.get b F.AXS_POS_POS
  let d := sgnI (s.axOwed n)
  let last := s.nat b H.axLast
  let cls := s.get b F.AXS_CTRL_CLASS
  let pw := s.nat b F.AXS_PULSE_PW
  let dirL : Int := if (decide (d < 0)) != s.on b F.AXS_CTRL_DIR_INV then 1 else 0
  let c := s.get b F.AXS_STAT_COIL
  if !s.halfRun (n / 2) || cls == 0 || s.on b H.axEner || d == 0 then s
  else if cls = 1 ∧ dirL ≠ s.get b H.axDirL then
    s.puts b [(H.axDirL, dirL), (H.axDirT, if t < s.nat b H.axDirT then 0 else max t (if last = 0 then t else last + pw))]
  else if last ≠ 0 ∧ t < last + (if cls = 1 then max 200 (pw + 40) else 200) then s.put b F.AXS_STAT_BACKLOG_SEEN 1
  else if cls = 1 ∧ t < s.nat b H.axDirT + s.nat b F.AXS_PULSE_DIR_SU ∧ s.on b H.axDirT then s
  else
    let s := if c = 0 ∨ c = 3 then s.axCoil n 2 else s
    let s := s.puts b [(F.AXS_POS_POS, p + d), (H.axLast, t)]
    let s := if cls = 2 then
        (s.put b F.AXS_LAG_TBL_ADDR ((s.get b F.AXS_LAG_TBL_ADDR + (if s.on b F.AXS_CTRL_DIR_INV then -d else d)) % 1024)).axRenew n
      else s
    (s.axLag n).axArrive n

/-- The chopper of a table-class axis runs. -/
def axChops (s : State) (n : Nat) : Bool :=
  let b := axsB n
  s.halfRun (n / 2) && s.get b F.AXS_CTRL_CLASS == 2 && (s.get b F.AXS_STAT_COIL == 1 || s.get b F.AXS_STAT_COIL == 2)

/-- A load of `k` words of the microstep table at `off` leaves a chopping coil the entries that it has until its next cycle (R315). -/
def axHold (s : State) (n off k : Nat) : State :=
  if !s.axChops n then s
  else s.each (List.range k) fun i s => s.each [false, true] fun c s =>
    if s.axOld.any fun e => e.1 == off + 4 * i && e.2.1 == c then s
    else { s with axOld := (off + 4 * i, c, s.tabWord (off + 4 * i)) :: s.axOld }

/-- Start of the running chopper cycle of a coil, and whether it has ended without a crossing. -/
def axC0F (coilB : Bool) : Fld := if coilB then H.axC0B else H.axC0A
def axNrF (coilB : Bool) : Fld := if coilB then H.axNrB else H.axNrA

/-- AXIS_CHOPPER_CYCLE: a cycle of one coil starts, with its direction and threshold from the entry in force, in the table as
loaded (R315, R316, Table AX-3). -/
def axChop (s : State) (n : Nat) (coilB : Bool) : State :=
  if !s.axChops n then s
  else
    let s := s.axFresh n coilB
    s.puts (axsB n) [(axSgF coilB, sgnI (s.axValue n coilB)), (axVthF coilB, s.axVth n coilB), (axC0F coilB, s.time), (axNrF coilB, 0)]

/-- AXIS_CHOPPER_NOREACH (Step 2F of Table AX-3), in a cycle that drives its coil. -/
def axNoReach (s : State) (n : Nat) (coilB : Bool) : State :=
  if s.axChops n && s.on (axsB n) (axSgF coilB) then (s.bump (axsB n) F.AXS_CNT_NOREACH).put (axsB n) (axNrF coilB) 1 else s

/-- t_c of the running cycle of a coil: 100 µs without a crossing, else where its comparator, which is armed after `T_BLANK`, has found one: an
input that no row reports (DESIGN CHOICE, log entry 102). -/
def axTc (s : State) (n : Nat) (coilB : Bool) : Nat :=
  let t0 := s.nat (axsB n) (axC0F coilB)
  if s.on (axsB n) (axNrF coilB) then t0 + 40000
  else t0 + min 40000 (max (40 * s.nat (axsB n) F.AXS_CHOP_T_BLANK) (Config.coilCross n coilB t0))

/-- The direction in which the two lines of a coil stand now (R316, Table AX-3): its sign in Steps 1 and 2, the opposite in fast decay, 0 in slow
decay. -/
def axPhase (s : State) (n : Nat) (coilB : Bool) : Int :=
  let b := axsB n
  let sg := s.get b (axSgF coilB)
  let tc := s.axTc n coilB
  if !s.axChops n then 0
  else if s.time < tc then sg
  else if 16 * (s.time - tc) < s.nat b F.AXS_CHOP_FD * (40 * s.nat b F.AXS_CHOP_T_OFF) then -sg
  else 0

/-- AXOC (R317). -/
def axOc (s : State) (n : Nat) : State :=
  if s.halfRun (n / 2) && s.get (axsB n) F.AXS_CTRL_CLASS == 2 then s.axFault n 0xB1 false true else s

/-- AXIS_STANDBY: `T_HOLD` without a step, of an axis with its coils energised (R318). -/
def axStandbyEv (s : State) (n : Nat) : State :=
  let b := axsB n
  if s.halfRun (n / 2) && s.get b F.AXS_HOLD_T_HOLD != 65535 && !s.on b H.axEner && (s.get b F.AXS_STAT_COIL == 1 || s.get b F.AXS_STAT_COIL == 2) then
    s.axStandby n
  else s

/-- AXIS_ENERGISED: `T_ENER` has passed; a profile's time starts here (R318). -/
def axEnergised (s : State) (n t : Nat) : State :=
  let s := s.advance t
  let b := axsB n
  if s.on b H.axEner then
    let s := s.put b H.axEner 0
    if s.axSt n = 3 then s.puts b [(H.axT0, t), (H.axXs, s.ascTbv (n / 2) (2 + n % 2))] else s
  else s

/-- AXIS_GROUP_START: the members of a group whose start tick has come, all of them energised, begin their path together (R326, R318). -/
def axGroupStart (s : State) (g t : Nat) : State :=
  let s := s.advance t
  let ms := (List.range 4).filter (bitN g)
  if ms.all fun m => s.axSt m == 4 && s.nat (axsB m) H.axGrp == g && !s.on (axsB m) H.axGo && !s.on (axsB m) H.axEner && decide (s.nat (axsB m) H.axT0 ≤ t) then
    s.each ms fun m s =>
      let low := s.nat (axsB m) H.axTab - 1
      s.puts (axsB m) [(H.axXs, s.ascTbv (low / 2) (2 + low % 2)), (H.axT0, t), (H.axGo, 1)]
  else s

/-- AXIS_STEP_INPUT_EDGE: a filtered rising STEP edge with its DIR level (R328). -/
def axEdge (s : State) (n t : Nat) (dirHigh : Bool) : State :=
  let s := s.advance t
  let b := axsB n
  if !s.halfRun (n / 2) || s.get b F.AXS_CTRL_CLASS != 2 then s
  else
    let d : Int := if dirHigh then 1 else -1
    let dt : Int := (t : Int) - s.get b H.axEdgeT
    let cap := 400 * s.get b F.AXS_IP_IP_TO
    let fresh := s.get b H.axEdgeD != d || decide (dt > cap)
    let s := s.puts b [(F.AXS_IN_IN, s.get b F.AXS_IN_IN + d), (H.axEdgeD, d), (H.axEdgeT, t)]
    if fresh then s.puts b [(H.axQi, s.get b F.AXS_IN_IN * q40), (H.axRate, 0)]
    else s.put b H.axRate (tdiv (q40 * 400) (max 1 dt))

/-! ### Commands -/

/-- A point-to-point move begins or replaces the running one (R320, R322). -/
def axMove (s : State) (n : Nat) (target vmax acc dec : Int) : State :=
  let b := axsB n
  let s := if s.axSt n = 1 then s.axWake n else s
  s.puts b [(F.AXS_STAT_STATE, 2), (F.AXS_TARGET_TARGET, target), (H.axVm, axVmOf vmax), (H.axTa, axRateOf acc), (H.axTd, axRateOf dec),
    (H.axTab, 0)]

/-- The shaping table of an axis may be played (R324); the number of its segments. -/
def segOk (s : State) (n : Nat) : Option Nat :=
  match s.segCount n 256 0 with
  | none => none
  | some k =>
    if (List.range k).all (fun i => s.segWord n i 0 != 0 && s.segWord n i 2 / 2 ^ 17 == 0) && s.segVel n (k - 1) == 0 then some k
    else none

/-- A profile begins (R324, R325). -/
def axProfile (s : State) (n k : Nat) (dec : Int) : State :=
  let b := axsB n
  let p := s.get b F.AXS_POS_POS
  (s.axWake n).puts b [(F.AXS_STAT_STATE, 3), (F.AXS_TARGET_TARGET, p + s.segPos n (k - 1)), (H.axTd, axRateOf dec), (H.axTab, n + 1),
    (H.axS0, p), (H.axT0, s.time), (H.axXs, s.ascTbv (n / 2) (2 + n % 2)), (H.axTau, 0), (H.axL, s.segTotal n k)]

/-- The time that an axis needs before a motion: `T_ENER` from standby (R318). -/
def axEnerT (s : State) (n : Nat) : Nat :=
  if s.get (axsB n) F.AXS_STAT_COIL == 0 || s.get (axsB n) F.AXS_STAT_COIL == 3 then 400000 * s.nat (axsB n) F.AXS_HOLD_T_ENER else 0

/-- A group begins: every member with its place on the line; the start tick is 100 µs ahead, or as far as the members need to energise (R326,
R318). -/
def axGroup (s : State) (g : Nat) (ds : List (Nat × Int)) (l vmax acc dec : Int) (tab : Nat) : State :=
  let t0 := s.time + ds.foldl (fun (m : Nat) d => max m (s.axEnerT d.1)) 40000
  s.each ds fun d s =>
    let b := axsB d.1
    (s.axWake d.1).puts b [(F.AXS_STAT_STATE, 4), (F.AXS_TARGET_TARGET, s.get b F.AXS_POS_POS + d.2), (H.axGrp, g), (H.axD, d.2), (H.axL, l),
      (H.axS0, s.get b F.AXS_POS_POS), (H.axLr, 0), (H.axLv, 0), (H.axTab, tab), (H.axPck, b2i (tab != 0 && s.on (axsB (tab - 1)) F.AXS_CTRL_PCLK)), (H.axT0, t0), (H.axGo, 0), (H.axTau, 0), (H.axArr, 0),
      (H.axVm, axVmOf vmax), (H.axTa, axRateOf acc), (H.axTd, axRateOf dec)]

/-- Following begins (R327). -/
def axFollow (s : State) (n src stn : Nat) (num den : Int) : State :=
  let b := axsB n
  (s.axWake n).puts b [(F.AXS_STAT_STATE, 5), (H.axSrc, src), (H.axStn, stn), (H.axNum, num), (H.axDen, den), (H.axInv, 0), (H.axTurn, 0),
    (H.axOrg, 1), (H.axSrate, 0), (H.axPsT, s.get (stnB stn) H.psUseT)]

end Sys2Proof.Machine.State
end

