-- ==== Sys2Proof/Machine/Mailbox.lean ====
section
/-!
DEFINITION. Mailboxes and doorbells (chapter 17): queues, posts and fetches, the segments of the mailbox window, credits, doorbells, and
what resets of either end do.
-/
namespace Sys2Proof.Machine

/-- Words waiting in an outbound queue (Table MB-3). -/
def Peer.outUsed (p : Peer) : Nat := (p.out.map List.length).foldl (· + ·) 0 - p.outSent

/-- S − F, modulo 2^16 (R359). -/
def Peer.inFlight (p : Peer) : Nat := (p.sent + 65536 - p.credit % 65536) % 65536

namespace State

/-- The chip's own ring position (R72, R264). -/
def ownPos (s : State) : Nat := s.nat 0 F.CHIP_PINS_ID_STRAP

/-- Ring size N. -/
def ringN (s : State) : Nat := s.nat 0 F.HBD_RING_NCHIP_M1 + 1

/-- A position's mailbox. -/
def peer (s : State) (p : Nat) : Peer := s.mbx.toList.getD p Peer.zero

/-- Change a position's mailbox. -/
def withPeer (s : State) (p : Nat) (g : Peer → Peer) : State := { s with mbx := s.mbx.setIfInBounds p (g (s.peer p)) }

/-- A position was heard in the cycle in force (R279). -/
def reaches (s : State) (p : Nat) : Bool := bitN (s.nat 0 F.HBD_STAT_REACH) p

/-! ### Host side (R355 to R357, R361) -/

/-- Free words of the queue that a post to `p` enters. -/
def mbxFree (s : State) (p : Nat) : Nat :=
  512 - (if p = s.ownPos then (s.peer p).inq.length else (s.peer p).outUsed)

/-- A post of `ws` to `p` enters whole (R356). -/
def mbxPost (s : State) (p : Nat) (ws : List Nat) : State :=
  if p = s.ownPos then s.withPeer p fun q => { q with inq := q.inq ++ ws.map fun w => (w, s.nat 0 F.MBX_EPOCH_EPOCH) }
  else s.withPeer p fun q => { q with out := q.out ++ [ws] }

/-- The words of one epoch at the head of a queue, at most `max` of them. -/
def sameEpoch (max : Nat) : List (Nat × Nat) → List Nat
  | [] => []
  | (w, e) :: r => ((((w, e) :: r).takeWhile (·.2 == e)).take max).map (·.1)

/-- A fetch: words returned, whether the epoch changed at their start, and the state after (R357, R362). -/
def mbxFetch (s : State) (p max : Nat) : List Nat × Bool × State :=
  let q := s.peer p
  let ws := sameEpoch max q.inq
  let ep := (q.inq.head?.map (·.2)).getD q.lastEp
  let chg := !ws.isEmpty && q.lastEp != 0 && ep != q.lastEp
  let s := s.withPeer p fun q =>
    { q with inq := q.inq.drop ws.length, lastEp := ep, fetched := (q.fetched + ws.length) % 65536 }
  let s := if !ws.isEmpty && ep == (s.peer p).peerEp then s.setBit 0 F.MBX_STAT_EPOCH_CHG p false else s
  let s := if p = s.ownPos && !ws.isEmpty && (s.peer p).inq.isEmpty && bitN (s.nat 0 F.MBX_CTRL_EMPTY_EN) p then
      s.setBit 0 F.MBX_DBL_EMPTY p true else s
  (ws, chg, s)

/-- Bits set in a word. -/
def popCount (w : Nat) : Nat := ((List.range 32).filter (bitN w)).length

/-- A doorbell mask reaches this chip: accepted bits set, the others are counted (R361). -/
def dblRing (s : State) (mask : Nat) : State :=
  let ok := s.nat 0 F.MBX_DBL_MASK_ACCEPT
  (s.orBits 0 F.MBX_DBL_DBL (mask &&& ok)).bumpBy 0 F.MBX_CNT_DBL_REJ (popCount (mask % 2 ^ 24) - popCount (mask % 2 ^ 24 &&& ok))

/-! ### Sending (R358, R359) -/

/-- The next sequence number toward a position, and the state that has used it. -/
def nextSeq (s : State) (p : Nat) : Nat × State :=
  ((s.peer p).seqTx, s.withPeer p fun q => { q with seqTx := (q.seqTx + 1) % 256 })

/-- The other positions of the ring, round-robin from the next one to be credited. -/
def others (s : State) : List Nat :=
  ((List.range s.ringN).map fun i => (s.nat 0 H.credNext + i) % s.ringN).filter (· != s.ownPos)

/-- The credit segment that is due, if one is (R359). -/
def creditSeg (s : State) : List Seg × State :=
  let due (p : Nat) : Bool :=
    (s.peer p).fetched != (s.peer p).credOut || (s.reaches p && decide (9 ≤ (s.peer p).credAge + s.ringN))
  let age (s : State) : State := s.each s.others fun p s => s.withPeer p fun q => { q with credAge := q.credAge + 1 }
  match s.others.find? due with
  | none => ([], age s)
  | some p =>
    let q := s.peer p
    let seg : Seg := { kind := 2, dest := p, seq := 0, first := false, last := false,
                       data := [q.fetched % 65536 + 65536 * s.nat 0 F.MBX_EPOCH_EPOCH, q.disc] }
    ([seg], ((age s).withPeer p fun q => { q with credOut := q.fetched, credAge := 0, hold := if q.hold = 3 then 2 else q.hold }).put 0 H.credNext ((p + 1) % s.ringN))

/-- The doorbell segments that fit into `room` words. -/
def bellSegs (s : State) (room : Nat) : List Seg × Nat × State :=
  s.others.foldl (fun (acc : List Seg × Nat × State) p =>
    let s := acc.2.2
    if (s.peer p).bell = 0 || acc.2.1 < 2 then acc
    else
      let n := s.nextSeq p
      (acc.1 ++ [{ kind := 3, dest := p, seq := n.1, first := false, last := false, data := [(s.peer p).bell] }], acc.2.1 - 2,
       n.2.withPeer p fun q => { q with bell := 0 })) ([], room, s)

/-- One segment of a packet of `ws` with `sent` words gone, in `room` words. -/
def pktSeg (s : State) (kind dest sent room : Nat) (ws : List Nat) : Seg × Nat × State :=
  let k := min (min 127 (room - 1)) (ws.length - sent)
  let n := s.nextSeq dest
  ({ kind := kind, dest := dest, seq := n.1, first := sent == 0, last := decide (sent + k = ws.length), data := (ws.drop sent).take k },
   sent + k, n.2)

/-- Forwarded replies, then forwarded commands, in at most `room` words (R358). -/
def fwdSegs (s : State) (room : Nat) : Nat → List Seg × Nat × State
  | 0 => ([], room, s)
  | f + 1 =>
    if room < 2 then ([], room, s)
    else
      let s := if s.hat.fwdSent = 0 then s.markHead 6 else s
      match (s.port 6).out with
      | (_, p) :: rest =>
        let g := s.pktSeg 5 p.dest s.hat.fwdSent room p.words
        let whole := decide (g.2.1 = p.words.length)
        let s' := { g.2.2 with hat := { g.2.2.hat with fwdSent := if whole then 0 else g.2.1 } }
        let s' := if whole then s'.withPort 6 fun q => { q with out := rest } else s'
        let r := s'.fwdSegs (room - 1 - g.1.data.length) f
        (g.1 :: r.1, r.2)
      | [] =>
        match s.hat.fwdOut with
        | (d, ws) :: rest =>
          let g := s.pktSeg 4 d s.hat.cmdSent room ws
          let whole := decide (g.2.1 = ws.length)
          let s' := { g.2.2 with hat := { g.2.2.hat with cmdSent := if whole then 0 else g.2.1, fwdOut := if whole then rest else (d, ws) :: rest } }
          let r := s'.fwdSegs (room - 1 - g.1.data.length) f
          (g.1 :: r.1, r.2)
        | [] => ([], room, s)

/-- Mailbox data for one position in at most `room` words, under credit (R359): none until the position's credit is known after a start of this
chip. -/
def dataSegs (s : State) (p room : Nat) : Nat → List Seg × Nat × State
  | 0 => ([], room, s)
  | f + 1 =>
    let q := s.peer p
    match q.out with
    | [] => ([], room, s)
    | ws :: rest =>
      let hd := if q.outSent = 0 then 1 else 0
      let k := min (min (127 - hd) (room - 1 - hd)) (min (ws.length - q.outSent) (512 - q.inFlight))
      if room < 2 + hd ∨ k = 0 ∨ q.hold ≠ 0 then ([], room, s)
      else
        let n := s.nextSeq p
        let whole := decide (q.outSent + k = ws.length)
        let seg : Seg := { kind := 1, dest := p, seq := n.1, first := hd == 1, last := whole,
                           data := (if hd = 1 then [ws.length + 65536 * s.nat 0 F.MBX_EPOCH_EPOCH] else []) ++ (ws.drop q.outSent).take k }
        let s' := n.2.withPeer p fun q =>
          { q with out := if whole then rest else ws :: rest, outSent := if whole then 0 else q.outSent + k, sent := (q.sent + k) % 65536 }
        let r := s'.dataSegs p (room - 1 - seg.data.length) f
        (seg :: r.1, r.2)

/-- A position that had the credit segment of the new epoch in an earlier cycle answers it from now on (R359; DESIGN CHOICE, log entry 100). -/
def holdNext (s : State) : State := { s with mbx := s.mbx.map fun (q : Peer) => { q with hold := if q.hold = 2 then 1 else q.hold } }

/-- The segments of the next window, in the order of R358. Posts for a position that is not reachable wait, and count as waiting (R356). -/
def window (s : State) : List Seg × State :=
  let w := 16 * s.nat 0 F.HBD_PUB_MBX_WIN
  if w = 0 then ([], s)
  else
    let c := s.holdNext.creditSeg
    let room := w - 3 * c.1.length
    let b := c.2.bellSegs room
    let waits := b.2.2.others.any fun p => !(b.2.2.peer p).out.isEmpty
    let cap := if waits then min b.2.1 (w / 2) else b.2.1
    let g := b.2.2.fwdSegs cap 64
    let left := b.2.1 - (cap - g.2.1)
    let d := (g.2.2.others.filter g.2.2.reaches).foldl (fun (acc : List Seg × Nat × State) p =>
      let r := acc.2.2.dataSegs p acc.2.1 64
      (acc.1 ++ r.1, r.2)) ([], left, g.2.2)
    (c.1 ++ b.1 ++ g.1 ++ d.1, d.2.2)

/-! ### Receiving (R360 to R364) -/

/-- A post from a position is discarded, with what still comes of it, and counted (R360). -/
def mbxCount (s : State) (o : Nat) : State :=
  ((s.withPeer o fun q => { q with asm := none, skip := true }).bump (8 * o) F.MBX_QIN_LOST).setBit 0 F.MBX_STAT_LOST_SEEN o true

/-- An incomplete post from a position is discarded (R360). -/
def mbxLose (s : State) (o : Nat) : State := if (s.peer o).asm.isSome then s.mbxCount o else s

/-- A sender's epoch as a credit or a FIRST segment shows it (R364). The first one heard is new to nobody. A sender that has restarted counts S and
its segments from 0; F then starts at minus the words of its earlier epochs that no fetch has taken yet, so that S − F stays the words in
flight and in the queue (R359; DESIGN CHOICE, log entry 100). -/
def hearEpoch (s : State) (o ep : Nat) : State :=
  let old := (s.peer o).peerEp
  if old = ep then s
  else if old = 0 then s.withPeer o fun q => { q with peerEp := ep, lastEp := if q.lastEp = 0 then ep else q.lastEp }
  else
    let s := s.mbxLose o
    (s.withPeer o fun q =>
      { q with peerEp := ep, skip := true, fetched := (65536 - q.inq.length) % 65536 }).setBit 0 F.MBX_STAT_EPOCH_CHG o true

/-- A credit from a position (R359, R362, R363): one of a new epoch resets S. -/
def recvCredit (s : State) (o w1 w2 : Nat) : State :=
  let ep := w1 / 65536 % 65536
  let f := w1 % 65536
  let q := s.peer o
  let s := (s.hearEpoch o ep).withPeer o fun q => { q with credEp := ep, hold := if q.hold = 1 then 0 else q.hold }
  let s :=
    if q.credEp ≠ 0 ∧ q.credEp ≠ ep then
      let part := if q.outSent = 0 then 0 else (q.out.head?.map List.length).getD 0
      let words := if w2 % 65536 = 0xFFFF then 0xFFFF else min 0xFFFE (w2 % 65536 + part)
      (s.withPeer o fun q => { q with sent := 0, credit := f, out := if q.outSent = 0 then q.out else q.out.drop 1, outSent := 0 }).notice 4
        [o + 65536 * words]
    else s.withPeer o fun q => { q with credit := f }
  let q' := s.peer o
  if q'.out.isEmpty && q'.inFlight == 0 && bitN (s.nat 0 F.MBX_CTRL_EMPTY_EN) o then s.setBit 0 F.MBX_DBL_EMPTY o true
  else s

/-- A data segment from a position (R360). One that continues no post belongs to a post whose FIRST segment was lost. -/
def recvData (s : State) (o : Nat) (g : Seg) : State :=
  let s :=
    if g.first then
      let hd := g.data.headD 0
      let s := (s.mbxLose o).hearEpoch o (hd / 65536 % 65536)
      s.withPeer o fun q => { q with asm := some (hd / 65536 % 65536, hd % 256, g.data.drop 1), skip := false }
    else if (s.peer o).asm.isNone && !(s.peer o).skip then s.mbxCount o
    else s.withPeer o fun q => { q with asm := q.asm.map fun a => (a.1, a.2.1, a.2.2 ++ g.data) }
  if !g.last then s
  else
    let s := match (s.peer o).asm with
      | none => s
      | some (ep, n, ws) =>
        if ws.length = n then s.withPeer o fun q => { q with asm := none, inq := q.inq ++ ws.map fun w => (w, ep) } else s.mbxLose o
    s.withPeer o fun q => { q with skip := false }

/-- One segment from position `o` taken into use (R358 to R361). Forwarded packets arrive as their own events. -/
def recvSeg (s : State) (o : Nat) (g : Seg) : State :=
  if g.dest ≠ s.ownPos then s
  else if g.kind = 2 then s.recvCredit o (g.data.getD 0 0) (g.data.getD 1 0)
  else
    let gap := match (s.peer o).seqRx with | none => false | some x => g.seq != (x + 1) % 256
    let s := if gap then s.mbxLose o else s
    let s := s.withPeer o fun q => { q with seqRx := some g.seq }
    if g.kind = 1 then s.recvData o g
    else if g.kind = 3 then s.dblRing (g.data.getD 0 0)
    else s

/-- What a start of SH does to the mailboxes (R363, R364): `power` says that outbound queues are lost and counts unknown. A post partly sent is
sent again from its first word, in the new epoch, and S starts again, with data held back until each position's F is known (log entry 100). The
local queue's readers knew the epoch before (R357). -/
def mbxStart (s : State) (power : Bool) : State :=
  let ep := if s.log.nvaEpoch % 65536 = 65535 then 1 else s.log.nvaEpoch % 65536 + 1
  let s := { s with mbx := s.mbx.map fun (q : Peer) =>
    if power then { Peer.zero with hold := 3 }
    else { Peer.zero with out := q.out, lastEp := q.lastEp, peerEp := q.peerEp, credEp := q.credEp, disc := min 0xFFFE q.inq.length, hold := 3 } }
  let s := if power then s
    else s.withPeer s.ownPos fun q => { q with lastEp := if q.lastEp = 0 then s.log.nvaEpoch % 65536 else q.lastEp }
  (s.withLog fun l => { l with nvaEpoch := ep }).put 0 F.MBX_EPOCH_EPOCH ep

/-- An uncorrectable ECC error in a queue clears it (R363): a free value says in which, since the row names the RAM as a whole (log entry 100).
The words of an inbound queue count as fetched, so that S − F stays the words in flight; a post partly sent is lost at the far end. -/
def mbxEcc (s : State) : State :=
  let v := s.fresh 4
  let p := v.1 % 8
  let s := v.2
  let n := (s.peer p).inq.length
  if p = s.ownPos then (s.withPeer p fun q => { q with inq := [] }).notice 4 [p + 65536 * min 0xFFFE n]
  else if v.1 < 8 then s.withPeer p fun q => { q with inq := [], disc := min 0xFFFE n, fetched := (q.fetched + n) % 65536 }
  else s.withPeer p fun q => { q with out := [], outSent := 0 }

end State

end Sys2Proof.Machine
end

