-- ==== Sys2Proof/Machine/Hatband.lean ====
section
/-!
DEFINITION. The hatband ring and load sharing (chapter 13): frames, links, the share cycle, ring time, root, allocation, and group
definitions.
-/
namespace Sys2Proof

/-- Index of a link: 0 west, 1 east. -/
def Link.ix : Link → Nat
  | .west => 0
  | .east => 1

/-- The block of a link cell. -/
def Link.block : Link → Block
  | .west => .lnkW
  | .east => .lnkE

/-- The other link. -/
def Link.other : Link → Link
  | .west => .east
  | .east => .west

/-- Byte address from which a link's registers count. -/
def Link.base (l : Link) : Nat := 4 * l.ix

end Sys2Proof

namespace Sys2Proof.Machine

/-! ### Frames (R272, R273) -/

/-- A flag as a bit at a place. -/
def bitAt (b : Bool) (i : Nat) : Nat := if b then 2 ^ i else 0

/-- Table LS-3. -/
def StnRec.words (r : StnRec) : List Nat :=
  [r.rsn + 32 * r.mode + bitAt r.follow 8 + bitAt r.limited 9 + bitAt r.pvalid 10 + 65536 * (r.torque % 65536).toNat, word32 r.speed,
   word32 r.pos, (r.pos / 2 ^ 32 % 65536).toNat + 65536 * (r.head % 65536).toNat]

/-- Table LS-4. -/
def AllocRec.words (a : AllocRec) : List Nat := [a.rsn + 256 * a.group + 65536 * (a.epoch % 65536), word32 a.alloc]

/-- Table MB-1. -/
def Seg.words (g : Seg) : List Nat :=
  (g.kind + 16 * g.dest + 256 * g.data.length + bitAt g.first 16 + bitAt g.last 17 + 2 ^ 24 * g.seq) :: g.data

/-- A frame as it is sent, with `w` words of window and its CRC. -/
def Frame.words (f : Frame) (w : Nat) : List Nat :=
  let seg := f.segs.flatMap Seg.words
  let ws := [f.type + 256 * f.origin + 65536 * f.ringNo, f.cycle % 2 ^ 32,
    f.hops + bitAt f.root 9 + bitAt f.clkfb 10 + bitAt f.sync 11 + 2 ^ 16 * f.stns.length + 2 ^ 24 * f.allocs.length, f.epoch,
    f.tlaunch % 2 ^ 32, f.tlaunch / 2 ^ 32 % 2 ^ 32, f.corr % 2 ^ 32, 4 * seg.length + 65536 * f.gsig] ++
    f.stns.flatMap StnRec.words ++ f.allocs.flatMap AllocRec.words ++ seg ++ List.replicate (w - seg.length) 0
  ws ++ [crcWords ws]

/-- Station records from words. -/
def readStns : Nat → List Nat → List StnRec × List Nat
  | n + 1, a :: b :: c :: d :: r =>
    let x := readStns n r
    ({ rsn := a % 32, mode := a / 32 % 8, follow := bitN a 8, limited := bitN a 9, pvalid := bitN a 10, torque := sgnN 16 (a / 65536 % 65536),
       speed := sgnN 32 b, pos := sgnN 48 (c + 2 ^ 32 * (d % 65536)), head := (d / 65536 % 65536 : Nat) } :: x.1, x.2)
  | _, ws => ([], ws)

/-- Allocation records from words. -/
def readAllocs : Nat → List Nat → List AllocRec × List Nat
  | n + 1, a :: b :: r =>
    let x := readAllocs n r
    ({ rsn := a % 32, group := a / 256 % 8, epoch := a / 65536 % 65536, alloc := sgnN 32 b } :: x.1, x.2)
  | _, ws => ([], ws)

/-- Segments from the words in use of a window, at most `f` of them. -/
def readSegs : Nat → List Nat → List Seg
  | f + 1, h :: r =>
    let n := h / 256 % 128
    { kind := h % 16, dest := h / 16 % 8, seq := h / 2 ^ 24 % 256, first := bitN h 16, last := bitN h 17, data := r.take n } ::
      readSegs f (r.drop n)
  | _, _ => []

/-- A frame from its words without the CRC, when its lengths agree. -/
def readFrame (ws : List Nat) : Option Frame :=
  match ws with
  | w0 :: w1 :: w2 :: w3 :: w4 :: w5 :: w6 :: w7 :: r =>
    let ns := w2 / 2 ^ 16 % 256
    let na := w2 / 2 ^ 24 % 256
    let used := w7 % 65536 / 4
    if r.length < 4 * ns + 2 * na + used then none
    else
      let a := readStns ns r
      let b := readAllocs na a.2
      some { type := w0 % 256, origin := w0 / 256 % 8, ringNo := w0 / 65536 % 65536, cycle := w1, hops := w2 % 256, root := bitN w2 9,
             clkfb := bitN w2 10, sync := bitN w2 11, epoch := w3, tlaunch := w4 + 2 ^ 32 * w5, corr := w6, gsig := w7 / 65536 % 65536,
             stns := a.1, allocs := b.1, segs := readSegs 128 (b.2.take used) }
  | _ => none

namespace State

/-! ### Ring quantities (R265, R269, R270, R277) -/

/-- Ring identity forbids the ring (R265). -/
def strapBad (s : State) : Bool :=
  s.nat 0 F.HBD_RING_POS != s.nat 0 F.CHIP_PINS_ID_STRAP || s.on 0 F.CHIP_PINS_STRAP_UNST || decide (s.ringN ≤ s.nat 0 F.HBD_RING_POS)

/-- The hatband is enabled and its identity allows the ring. -/
def hatOn (s : State) : Bool := s.on 0 F.HBD_CTRL_EN && !s.strapBad && s.shRun

/-- T_SC in ticks. -/
def tSc (s : State) : Nat := 40 * max 1 (s.nat 0 F.HBD_CYC_T_SC)

/-- D in ticks (R269). -/
def ringD (s : State) : Nat := (s.ringN - 1) * (5 * (16 * s.nat 0 F.HBD_RING_LMAX + 8) + 240) + 200

/-- Ring time of a tick (R277). -/
def ringTime (s : State) (t : Nat) : Int := (t : Int) + s.get 0 F.HBD_OFS_OFS

/-- t_u of the cycle in progress, modulo 2^32 cycles (R269). -/
def useTime (s : State) (t : Nat) : Int := s.ringTime t / s.tSc * s.tSc + s.ringD + 800

/-- The chip's timebase source runs on its fallback oscillator (R46, R272). -/
def ownClkFb (s : State) : Bool :=
  s.get 0 F.CHIP_STATUS_TB_SRC == 3 || bitN (s.nat 0 F.CHIP_STATUS_CLK_FB) (s.nat 0 F.CHIP_STATUS_TB_SRC)

/-- Some region present runs on the reference, so that the links have a bit clock (R268). -/
def ringClock (s : State) : Bool :=
  (if s.dual then [0, 1, 2] else [0, 1]).any fun r => !bitN (s.nat 0 F.CHIP_STATUS_CLK_FB) r

/-- SYNC_OK, which `CHIP_STATUS.TB_RING` follows. -/
def putSync (s : State) (v : Bool) : State := (s.flag 0 F.HBD_STAT_SYNC_OK v).flag 0 F.CHIP_STATUS_TB_RING v

/-! ### Groups (R281 to R283) -/

/-- Byte offset of a group's registers and of a member's. -/
def grpB (g : Nat) : Nat := 0x100 * g
def memB (g i : Nat) : Nat := 0x100 * g + 8 * i

/-- Members of a group: position, station and coefficient. -/
def grpMembers (s : State) (g : Nat) : List (Nat × Nat × Nat) :=
  (List.range (s.nat (grpB g) F.HBD_GDEF_COUNT)).map fun i =>
    (s.nat (memB g i) F.HBD_GMEM_POS, s.nat (memB g i) F.HBD_GMEM_STN, s.nat (memB g i) F.HBD_GMEM1_COEF)

/-- The words that the signature covers for a group (R282). -/
def grpWords (s : State) (g : Nat) : List Nat :=
  if s.get (grpB g) F.HBD_GDEF_MODE == 0 then [0, 0]
  else
    [s.nat (grpB g) F.HBD_GDEF_MODE, s.nat (grpB g) F.HBD_GDEF_COUNT] ++ (s.grpMembers g).flatMap fun m => [m.1 + 256 * m.2.1, m.2.2]

/-- The group signature (R282). -/
def gsig (s : State) : Nat := crcWords ((List.range 8).flatMap s.grpWords) % 65536

/-- The group and member index of a ring station, when it has one. -/
def grpOf (s : State) (pos stn : Nat) : Option (Nat × Nat) :=
  ((List.range 8).flatMap fun g => (List.range (s.nat (grpB g) F.HBD_GDEF_COUNT)).map fun i => (g, i)).find? fun x =>
    s.get (grpB x.1) F.HBD_GDEF_MODE != 0 && s.nat (memB x.1 x.2) F.HBD_GMEM_POS == pos && s.nat (memB x.1 x.2) F.HBD_GMEM_STN == stn

/-- A group whose allocator, the chip of member 0, is this one (R281). -/
def ownGroup (s : State) (g : Nat) : Bool := s.get (grpB g) F.HBD_GDEF_MODE != 0 && s.nat (memB g 0) F.HBD_GMEM_POS == s.ownPos

/-- Allocation records that this chip sends (R270, R284). -/
def ownAllocs (s : State) : Nat :=
  ((List.range 8).map fun g =>
    if !s.ownGroup g then 0
    else if s.get (grpB g) F.HBD_GDEF_MODE == 2 then s.nat (grpB g) F.HBD_GDEF_COUNT - 1 else s.nat (grpB g) F.HBD_GDEF_COUNT).foldl (· + ·) 0

/-- Stations published and present. -/
def pubStns (s : State) : List Nat := s.stations.filter (bitN (s.nat 0 F.HBD_PUB_PUB))

/-- L_own in bytes (R270). -/
def lOwn (s : State) : Nat := 32 + 16 * popCount (s.nat 0 F.HBD_PUB_PUB) + 8 * s.ownAllocs + 64 * s.nat 0 F.HBD_PUB_MBX_WIN + 4

/-- The conditions of R270. -/
def ringFits (s : State) : Bool :=
  decide (s.ringD + 1200 ≤ s.tSc) && decide (s.lOwn ≤ 16 * s.nat 0 F.HBD_RING_LMAX)

/-- The derived fields of the ring: D, the own signature, each group's allocator, the groups of which that is this chip (R281), and each station's
group. -/
def putRing (s : State) : State :=
  let s := s.puts 0 [(F.HBD_DLIM_D, s.ringD), (F.HBD_GSIG_OWN, s.gsig)]
  let s := s.each (List.range 8) fun g s => s.puts (grpB g)
    [(F.HBD_GDEF_ALLOC_POS, if s.get (grpB g) F.HBD_GDEF_MODE = 0 then 0 else s.get (memB g 0) F.HBD_GMEM_POS), (F.HBD_GDEF_LOCAL, b2i (s.ownGroup g))]
  s.each (List.range 4) fun n s => s.put (8 * n) F.HBD_ALLOC1_GRP (((s.grpOf s.ownPos n).map (·.1)).getD 0)

/-- GSIG_OK and SHARECFG follow the two signatures (R282), once the chip knows a root's: one that it has joined, or, as root, its own. Until then
signatures that differ leave GSIG_OK 0. -/
def checkSig (s : State) : State :=
  let s := if s.on 0 F.HBD_STAT_ROOT then s.put 0 F.HBD_GSIG_ROOT_SIG (s.get 0 F.HBD_GSIG_OWN) else s
  let ok := s.get 0 F.HBD_GSIG_ROOT_SIG == s.get 0 F.HBD_GSIG_OWN
  if !s.hatOn || !(s.on 0 H.hbJoin || s.on 0 F.HBD_STAT_ROOT) then (if ok then s else s.put 0 F.HBD_STAT_GSIG_OK 0)
  else
    let s := s.flag 0 F.HBD_STAT_GSIG_OK ok
    if ok || s.hasFault (.region 0) (fcode 2 0 0x98) then s else s.raise (.region 0) (fcode 2 0 0x98)

/-- A group's definition in force is replaced (R283). -/
def putGroup (s : State) (g mode : Nat) (ms : List (Nat × Nat × Nat)) : State :=
  let b := grpB g
  let s := { s with regs := s.regs.clear (8 * (0x51040 + b)) (8 * (0x510C0 + b)) }
  let s := s.puts b [(F.HBD_GDEF_MODE, mode), (F.HBD_GDEF_COUNT, ms.length), (F.HBD_GDEF_ALLOC_POS, ((ms.head?.map (·.1)).getD 0 : Nat))]
  let s := s.each (ms.zip (List.range 16)) fun m s =>
    s.puts (memB g m.2) [(F.HBD_GMEM_POS, (m.1.1 : Nat)), (F.HBD_GMEM_STN, (m.1.2.1 : Nat)), (F.HBD_GMEM1_COEF, (m.1.2.2 : Nat))]
  s.putRing.checkSig

/-! ### Links (R264, R266, R267, R279) -/

/-- A link's state. -/
def lnkSt (s : State) (l : Link) : Nat := s.nat l.base F.HBD_LNK_LSTATE

/-- A link that the topology uses (R264). -/
def lnkUsed (s : State) (l : Link) : Bool :=
  !(s.on 0 F.HBD_CTRL_TOPO && (match l with | .west => s.ownPos == 0 | .east => s.ownPos + 1 == s.ringN))

/-- A link fault into the list of SH (R267). -/
def lnkRaise (s : State) (cause : Nat) : State := s.raise (.region 0) (fcode 1 0 cause)

/-- HBD_STAT.STATE follows the links and REACH (R279, R280); entry to LINE, which only a closed ring knows, raises RINGLINE. A line whose used
link is not UP is PART, before REACH shows it (DEDUCED, log entry 77). -/
def hatState (s : State) : State :=
  let up := [Link.west, Link.east].any fun l => s.lnkSt l == 2
  let every := (List.range s.ringN).all s.reaches
  let old := s.nat 0 F.HBD_STAT_STATE
  let st := if !s.hatOn then 0
    else if !up then (if s.on 0 H.hbWasUp || old == 4 then 4 else 1)
    else if !every then 5
    else if [Link.west, Link.east].all fun l => !s.lnkUsed l || s.lnkSt l == 2 then 2
    else if s.on 0 F.HBD_CTRL_TOPO then 5
    else 3
  let s := s.put 0 F.HBD_STAT_STATE st
  let s := if st = 4 ∧ old ≠ 4 then s.puts 0 [(H.hbLone, max 1 (s.get 0 H.hbLone)), (H.hbSeg, 0)] else s
  if st = 3 ∧ old ≠ 3 then s.raise (.region 0) (fcode 2 0 0x95) else s

/-- The cause that holds a link. -/
def heldF : Link → Fld
  | .west => H.hbHeldW
  | .east => H.hbHeldE

/-- A link is HELD by a cause (Table LS-1). -/
def lnkHold (s : State) (l : Link) (cause : Nat) : State := (s.put l.base F.HBD_LNK_LSTATE 4).put 0 (heldF l) cause

/-- The third entry into DOWN or OUT within 1 s holds the link (R267). -/
def flapCheck (s : State) (l : Link) : State :=
  if 3 ≤ (s.hat.downs.filter fun e => e.1 == l.ix && decide (s.time < e.2 + 400000000)).length && s.lnkSt l != 4 && s.lnkSt l != 2 then
    (s.lnkHold l 0x94).lnkRaise 0x94
  else s

/-- A link enters DOWN (0) or OUT (3), counted (Table LS-9). -/
def lnkEnter (s : State) (l : Link) (st : Nat) : State := (s.put l.base F.HBD_LNK_LSTATE st).bump l.base F.HBD_CNT_DOWNS

/-- The entry counts among those that LNKFLAP watches (R267). -/
def lnkNoted (s : State) (l : Link) : State :=
  { s with hat := { s.hat with downs := (s.hat.downs.filter fun (e : Nat × Nat) => decide (s.time < e.2 + 400000000)) ++ [(l.ix, s.time)] } }

/-- A link enters DOWN (0) or OUT (3), counted, with its cause. -/
def lnkDown (s : State) (l : Link) (st cause : Nat) : State :=
  ((((s.lnkEnter l st).lnkNoted l).lnkRaise cause).flapCheck l).hatState

/-- Position of the neighbour on a link (R266). -/
def lnkNb (s : State) (l : Link) : Nat :=
  match l with | .west => (s.ownPos + s.ringN - 1) % s.ringN | .east => (s.ownPos + 1) % s.ringN

/-- A received identity set matches the own configuration, with the expected neighbour's position (R266). -/
def identOk (s : State) (l : Link) (x : Ident) : Bool :=
  x.ringNo.toNat == s.nat 0 F.HBD_RING_RING_NO && x.pos.toNat == s.lnkNb l && x.nchip.toNat == s.nat 0 F.HBD_RING_NCHIP_M1 &&
  x.tSc.toNat == s.nat 0 F.HBD_CYC_T_SC && x.lmax.toNat == s.nat 0 F.HBD_RING_LMAX && x.topo == s.on 0 F.HBD_CTRL_TOPO

/-- LINK_UP: each end has received three identical sets, this end the set `x` (R266). -/
def linkUp (s : State) (l : Link) (x : Ident) : State :=
  if !s.hatOn || !s.ringClock || !s.lnkUsed l || s.oos l.block || !(s.lnkSt l == 0 || s.lnkSt l == 1) || !s.identOk l x then s
  else (s.puts l.base [(F.HBD_LNK_LSTATE, 2), (F.HBD_LNK_NB_POS, (x.pos.toNat : Nat))]).put 0 H.hbWasUp 1 |>.hatState

/-- LINK_DELAY_MEASURE: half a round trip (R266). -/
def linkDelay (s : State) (l : Link) (d : Nat) : State :=
  if s.hatOn && (s.lnkSt l == 1 || s.lnkSt l == 2) then s.put l.base F.HBD_LNK_DLY d else s

/-- LNKLOSS: no valid symbol for 1 µs, on a link that is UP or trains (R267). -/
def lnkLoss (s : State) (l : Link) : State :=
  if s.hatOn && s.lnkUsed l && (s.lnkSt l == 1 || s.lnkSt l == 2) then s.lnkDown l 0 0x90 else s

/-- Consecutive cycles with a late frame on a link. -/
def lateF : Link → Fld × Fld
  | .west => (H.lateRunW, H.lateNowW)
  | .east => (H.lateRunE, H.lateNowE)

/-- LNKLATE: `LATE_MAX` such cycles (R267). -/
def lnkLate (s : State) (l : Link) : State :=
  if s.hatOn && s.lnkSt l == 2 && decide (s.get 0 F.HBD_CYC_LATE_MAX ≤ s.get 0 (lateF l).1) then (s.put 0 (lateF l).1 0).lnkDown l 0 0x92
  else s

/-- LNKID: an identity set that does not match holds the link (R267). -/
def lnkId (s : State) (l : Link) (x : Ident) : State :=
  if s.hatOn && s.lnkUsed l && s.lnkSt l != 4 && !s.identOk l x then ((s.lnkHold l 0x93).lnkRaise 0x93).hatState else s

/-- LNKFLAP (R267). -/
def lnkFlap (s : State) (l : Link) : State := if s.hatOn then (s.flapCheck l).hatState else s

/-- LINK_RETRAIN: a DOWN link trains (R267). -/
def linkRetrain (s : State) (l : Link) : State :=
  if s.hatOn && s.ringClock && s.lnkUsed l && s.lnkSt l == 0 then s.put l.base F.HBD_LNK_LSTATE 1 else s

/-- A link whose cell is out for good is HELD (Table FH-2 Step 4b, Table LS-1). -/
def holdLink (s : State) (b : Block) : State :=
  match b with
  | .lnkW => (s.lnkHold .west 0x91).hatState
  | .lnkE => (s.lnkHold .east 0x91).hatState
  | _ => s

/-- A block that has gone out without steaming is out for good (R370). -/
def holdOut (s : State) (b : Block) : State := if s.steaming b then s else s.holdLink b

/-- LNKCRC: the link goes OUT and its cell steams, unless its error is lasting at once (R267, R370). -/
def lnkCrc (s : State) (l : Link) : State :=
  let s := s.bump l.base F.HBD_CNT_CRC
  if s.lnkSt l == 2 then
    ((((((s.lnkEnter l 3).lnkNoted l).blockFail l.block (fcode 1 0 0x91)).holdOut l.block).flapCheck l)).hatState
  else s

/-- STRAP: the ring identity forbids the ring, whether or not the links are enabled (R265). -/
def strapCheck (s : State) : State :=
  if s.strapBad && !s.hasFault (.region 0) (fcode 2 0 0x97) then s.raise (.region 0) (fcode 2 0 0x97) else s

/-- A link's state when `EN` is written: a cell that is OUT, and a link HELD by a fault of its own cell, stay so; the other HELD links wait for the 1
(Table LS-1). A link trains only where the PLL of the links has the reference (R268). An end of the link by the 0 is one of its entries into DOWN
(R267). -/
def lnkEnable (s : State) (l : Link) (on : Bool) : State :=
  let st := s.lnkSt l
  if st = 3 ∨ (st = 4 ∧ (!on ∨ s.get 0 (heldF l) = 0x91)) then s
  else if on then s.put l.base F.HBD_LNK_LSTATE (if !s.lnkUsed l then 5 else b2i s.ringClock)
  else if st = 1 ∨ st = 2 then ((s.lnkEnter l 0).lnkNoted l).flapCheck l
  else s.put l.base F.HBD_LNK_LSTATE 0

/-- R286 for one station at t_u; none is applied in the fallback, which lasts until host firmware commands the station. -/
def applyAlloc (s : State) (n : Nat) : State :=
  let b := stnB n
  if s.mode n ≠ mRun || s.get b F.STN_STAT_SOURCE != 2 then s.puts (8 * n) [(F.HBD_ALLOC1_FRESH, 0), (F.HBD_ALLOC1_HOLD, 0)]
  else if s.on (8 * n) F.HBD_ALLOC1_FALLBACK then s
  else
    let rsn := 4 * s.ownPos + n
    let ap := ((s.grpOf s.ownPos n).map fun x => s.nat (grpB x.1) F.HBD_GDEF_ALLOC_POS)
    let hit := s.hat.inForce.findSome? fun f =>
      if some f.origin == ap then (f.allocs.find? (·.rsn == rsn)).map fun a => (a, f) else none
    let ok := s.on 0 F.HBD_STAT_SYNC_OK && s.on 0 F.HBD_STAT_GSIG_OK
    let hold (s : State) : State := s.puts (8 * n) [(F.HBD_ALLOC1_FRESH, 0), (F.HBD_ALLOC1_HOLD, 1)]
    match hit with
    | none => hold s
    | some (a, f) =>
      if a.epoch ≠ f.epoch % 65536 then (hold s).put (8 * n) F.HBD_ALLOC1_REJ_SEEN 1 |>.bump (8 * n) F.HBD_ALLOC1_REJ_CNT
      else if !ok then hold s
      else (s.puts (8 * n) [(F.HBD_ALLOC_ALLOC, a.alloc), (F.HBD_ALLOC1_FRESH, 1), (F.HBD_ALLOC1_HOLD, 0)]).put b H.alloc a.alloc

/-- A forwarded command ends with TIMEOUT (R72): its packet leaves the queue toward its position, and replies that still come for it are nobody's. -/
def fwdEnd (s : State) (tag : Nat) : State :=
  match s.mil.busy.find? (fun b => b.tag == tag && b.fwd.isSome) with
  | none => s
  | some b =>
    let p := b.fwd.getD 0
    let headOut := match s.hat.fwdOut.head? with
      | some (d, ws) => d == p && ws.getD 0 0 / 2 ^ 26 % 64 == tag
      | none => false
    let s := { s with hat := { s.hat with fwdOut := s.hat.fwdOut.filter fun x => !(x.1 == p && x.2.getD 0 0 / 2 ^ 26 % 64 == tag),
                                          cmdSent := if headOut then 0 else s.hat.cmdSent } }
    let s := s.withMil fun m => { m with busy := m.busy.map fun e => match e.tr with
      | .own o => if o.tag.toNat == tag then { e with tr := .own { o with op := 0 } } else e
      | _ => e }
    (s.bump 0 F.MIL_TUN_STAT_FWD_TO).fwdAnswer b (b.packet (if b.arg = 1 || !b.late.isEmpty then 2 else 1) stTimeout 0 [])

/-- The forwarded commands that wait for a position which has left `REACH` end at once (R72); one whose final reply waits for its turn has had its
replies. -/
def fwdDrop (s : State) : State :=
  let lost (b : Busy) : Bool := match b.fwd with
    | some p => p != s.ownPos && !s.reaches p && !(b.late.any Packet.final)
    | none => false
  s.each (s.mil.busy.filter lost) fun b s => s.fwdEnd b.tag

/-- The links start or stop with `HBD_CTRL.EN` (R266, R267, R265). Without the ring no root's signature is known, and stations that follow an
allocation hold it (R282, R286). -/
def hatEnable (s : State) (en : Bool) : State :=
  let s := s.flag 0 F.HBD_CTRL_EN en
  let s := s.puts 0 [(H.hbJoin, 0), (H.hbGood, 0), (H.hbBad, 0), (H.hbNext, 0), (H.hbWasUp, 0), (H.hbLone, 0), (H.hbSeg, 0), (F.HBD_STAT_STATE, 0)]
  let s := { s with hat := { s.hat with frames := [], inForce := [], alloc := [] } }
  let on := en && !s.strapBad
  let s := s.strapCheck.each [Link.west, Link.east] fun l s => s.lnkEnable l on
  if en then s.hatState
  else
    let s := ((s.putSync false).puts 0 [(F.HBD_STAT_ROOT, 0), (F.HBD_STAT_REACH, 0), (F.HBD_STAT_GSIG_OK, 0)]).fwdDrop
    let s := s.each s.stations fun n s => s.applyAlloc n
    (s.each (List.range 32) fun n s => s.put (16 * n) F.HBD_RCH3_AGE (2 ^ F.HBD_RCH3_AGE.w - 1)).hatState

/-! ### The share cycle (R271 to R276) -/

/-- A station's record, latched at t_c (Table LS-3). -/
def stnRec (s : State) (n : Nat) : StnRec :=
  let b := stnB n
  { rsn := 4 * s.ownPos + n, mode := s.mode n, follow := s.mode n == 3 && s.get b F.STN_STAT_SOURCE == 2, limited := s.on b H.clamped,
    pvalid := s.on b F.PF_STAT_VALID, torque := s.get b H.istarOut, speed := s.speedW n, pos := s.get b F.PF_POS_POS,
    head := s.clampLim n }

/-- A chip that has been alone has to join the root it follows (R277, R280). -/
def rejoin (s : State) : State :=
  if s.get 0 H.hbLone = 0 then s
  else
    let s := if s.get 0 H.hbLone = 2 then s.putSync false else s
    s.puts 0 [(H.hbJoin, 0), (H.hbLone, 0), (H.hbSeg, 0)]

/-- SHARE_CYCLE_START: t_c of the next cycle at tick `t` (Table LS-6 Step 1). A change of root takes effect here (R278). A chip that has
been alone, or was root before any join, joins the root it follows (R277, R280); one of a synchronised ring keeps its offset and
`SYNC_OK`. -/
def cycleStart (s : State) (t : Nat) : State :=
  let s := s.advance t
  if !s.hatOn then s
  else
    let m := (s.ringTime t / s.tSc % 2 ^ 32).toNat
    let s := s.each [Link.west, Link.east] fun l s =>
      let f := lateF l
      let s := if s.on 0 f.2 then (s.bump 0 f.1).put 0 f.2 0 else s.put 0 f.1 0
      s.lnkLate l
    let nx := s.nat 0 H.hbNext
    let s := if nx = 0 then s
      else
        let s := s.puts 0 [(H.hbNext, 0), (F.HBD_STAT_ROOT_POS, (nx - 1 : Nat)), (F.HBD_STAT_ROOT, b2i (nx - 1 == s.ownPos))]
        if nx - 1 = s.ownPos then (if s.on 0 H.hbJoin then s else s.put 0 H.hbLone 2).put 0 H.hbJoin 1 else s.rejoin
    let s := if s.on 0 F.HBD_STAT_ROOT then s.putSync true else s
    let w := if [Link.west, Link.east].any fun l => s.lnkSt l == 2 then s.window else ([], s)
    let s := w.2
    let f : Frame :=
      { type := 0xA5, origin := s.ownPos, ringNo := s.nat 0 F.HBD_RING_RING_NO, cycle := m, hops := 0, root := s.on 0 F.HBD_STAT_ROOT,
        clkfb := s.ownClkFb, sync := s.on 0 F.HBD_STAT_SYNC_OK, epoch := s.nat 0 F.CHIP_EPOCH_EPOCH,
        tlaunch := (s.ringTime t % 2 ^ 64).toNat, corr := 0, gsig := s.nat 0 F.HBD_GSIG_OWN, stns := s.pubStns.map s.stnRec,
        allocs := s.hat.alloc, segs := w.1 }
    let ws := f.words (16 * s.nat 0 F.HBD_PUB_MBX_WIN)
    { s.puts 0 [(H.hbM, m), (H.hbUsed, 0)] with
      hat := { s.hat with frames := [f], alloc := [],
                          tx := ([Link.west, Link.east].filter fun l => s.lnkSt l == 2).map fun l => (l.ix, ws, FrameEnd.normal) } }

/-- The copy sent on with the hop counted, the residence time added and a new CRC (R271). -/
def forward (s : State) (l : Link) (ws : List Nat) (res : Nat) (e : FrameEnd) : State :=
  let w2 := ws.getD 2 0
  let hops := w2 % 256 + 1
  let o := l.other
  if ws.getD 0 0 / 256 % 8 = s.ownPos ∨ s.ringN ≤ hops + 1 ∨ s.lnkSt o ≠ 2 then s
  else
    let body := ((ws.set 2 (w2 - w2 % 256 + hops % 256)).set 6 ((ws.getD 6 0 + res) % 2 ^ 32)).dropLast
    { s with hat := { s.hat with tx := s.hat.tx ++ [(o.ix, body ++ [crcWords body], e)] } }

/-- The time error of the root's first valid copy and what follows from it (R277). `e` is in units of 156.25 ps. -/
def ringError (s : State) (e : Int) : State :=
  let ae := if e < 0 then -e else e
  let s := s.put 0 F.HBD_TERR_TERR (sat32 e)
  let set (s : State) : State := s.put 0 F.HBD_OFS_OFS (wrapS 64 (s.get 0 F.HBD_OFS_OFS - tdiv e 16))
  if s.on 0 F.HBD_STAT_ROOT then s
  else if !s.on 0 H.hbJoin then (set s).puts 0 [(H.hbJoin, 1), (H.hbGood, 0), (H.hbBad, 0)]
  else
    let s := if ae > 6400 then
        let s := (set s).put 0 F.HBD_STAT_TSTEP 1
        s.raise (.region 0) (fcode 2 0 0x9A)
      else s
    let v := s.fresh 32
    let s := v.2.put 0 F.HBD_TRIM_TRIM ((v.1 % 400001 : Nat) - 200000)
    let s := if ae ≤ 64 then s.bump 0 H.hbGood else s.put 0 H.hbGood 0
    let s := if ae > 128 then s.bump 0 H.hbBad else s.put 0 H.hbBad 0
    if s.get 0 H.hbGood ≥ 64 then s.putSync true
    else if s.get 0 H.hbBad ≥ 4 then s.putSync false
    else s

/-- The chip hears nobody but itself. -/
def hearsNobody (s : State) : Bool := s.on 0 F.HBD_STAT_ROOT && s.nat 0 F.HBD_STAT_REACH == 2 ^ s.ownPos

/-- A frame of another cycle that the chip takes as its root's to join or rejoin (R277): the chip has not joined a ring, or it is its own root and
hears nobody else, and it faces a segment of two or more, to which it rejoins (R280), or R278 prefers the sender (DEDUCED, log entry 77). -/
def joins (s : State) (f : Frame) : Bool :=
  f.root && f.origin != s.ownPos && (!s.on 0 H.hbJoin ||
    (s.hearsNobody &&
      (s.on 0 H.hbSeg || (s.ownClkFb && !f.clkfb) || (s.ownClkFb == f.clkfb && decide (f.origin < s.ownPos)))))

/-- A chip alone notes a frame of another cycle from a chip that follows a root: it faces a segment (R280; DEDUCED, log entry 77). -/
def noteSeg (s : State) (f : Frame) : State :=
  if s.hearsNobody && !f.root && f.origin != s.ownPos then s.put 0 H.hbSeg 1 else s

/-- The offset error of a root's copy (R277): reception in ring time less the launch, the delays of its path and `CORR`, in 156.25 ps. -/
def rootError (s : State) (l : Link) (f : Frame) (rx16 path : Nat) : Int :=
  (rx16 : Int) + 16 * s.get 0 F.HBD_OFS_OFS - (16 * f.tlaunch + s.get l.base F.HBD_LNK_DLY + path + f.corr)

/-- HATBAND_FRAME_RECEIVED: one copy on link `l`, its words with the CRC, how it ended, whether a code error occurred inside it, the
reception instant of its opening symbol in units of 156.25 ps, the tick of its closing symbol, the delays of the earlier links
of its path and the residence time until its forwarding (Table LS-5). -/
def frameIn (s : State) (l : Link) (ws : List Nat) (e : FrameEnd) (codeErr : Bool) (rx16 t : Nat) (path res : Nat) : State :=
  let s := s.advance t
  if !s.hatOn || s.lnkSt l != 2 then s
  else if e = .abort then s.forward l ws res .abort
  else if codeErr || ws.getLastD 0 != crcWords ws.dropLast then (s.forward l ws res .abort).lnkCrc l
  else
    match readFrame ws.dropLast with
    | none => s.bump l.base F.HBD_CNT_SEQ
    | some f =>
      let late := decide (s.useTime t < s.ringTime t) || s.on 0 H.hbUsed
      if f.type ≠ 0xA5 ∨ f.ringNo ≠ s.nat 0 F.HBD_RING_RING_NO ∨ s.ringN ≤ f.origin then s.bump l.base F.HBD_CNT_SEQ
      else if f.cycle ≠ s.nat 0 H.hbM then
        let s := s.bump l.base F.HBD_CNT_SEQ
        if s.joins f then
          ((s.puts 0 [(H.hbJoin, 0), (H.hbNext, 0), (F.HBD_STAT_ROOT, 0), (F.HBD_STAT_ROOT_POS, (f.origin : Nat)), (F.HBD_GSIG_ROOT_SIG, (f.gsig : Nat)),
            (H.hbLone, 0), (H.hbSeg, 0)]).putSync false).ringError (s.rootError l f rx16 path)
        else s.noteSeg f
      else if late then
        let s := s.forward l ws res .late
        if e = .late then s
        else ((s.bump l.base F.HBD_CNT_LATE).puts 0 [(F.HBD_STAT_LATE_SEEN, 1), ((lateF l).2, 1)])
      else
        let s := s.forward l ws res e
        if s.hat.frames.any (·.origin == f.origin) then s
        else
          let s := { s with hat := { s.hat with frames := s.hat.frames ++ [f] } }
          if f.origin = s.nat 0 F.HBD_STAT_ROOT_POS && !s.on 0 F.HBD_STAT_ROOT then
            (s.put 0 F.HBD_GSIG_ROOT_SIG f.gsig).ringError (s.rootError l f rx16 path)
          else s

/-! ### Allocation (R284, R286) -/

/-- The record in force of a ring station: fresh when its position was heard in the cycle and ring time is synchronised. -/
def recOf (s : State) (pos stn : Nat) : Option StnRec :=
  (s.hat.inForce.flatMap (·.stns)).find? fun r => r.rsn == 4 * pos + stn

/-- One group's allocations (R284): records with their members, and SHORT. -/
def allocGroup (s : State) (g : Nat) : List AllocRec × Nat × Bool × Bool :=
  let mode := s.nat (grpB g) F.HBD_GDEF_MODE
  let ms := s.grpMembers g
  let cmd := s.get (grpB g) F.HBD_GCMD_GCMD
  let ep := s.nat 0 F.CHIP_EPOCH_EPOCH % 65536
  let mk (m : Nat × Nat × Nat) (a : Int) : AllocRec := { rsn := 4 * m.1 + m.2.1, group := g, epoch := ep, alloc := a }
  let lim (r : StnRec) (a : Int) : Int × Bool :=
    let hl := r.head * 2048
    (clampI (-hl) hl a, decide ((if a < 0 then -a else a) > hl))
  if mode = 1 then
    let av := ms.map fun m => match s.recOf m.1 m.2.1 with | some r => if r.follow then some r else none | none => none
    let sum : Int := ((ms.zip av).foldl (fun t x => if x.2.isSome then t + x.1.2.2 else t) 0 : Nat)
    let rs := (ms.zip av).map fun x => match x.2 with
      | some r =>
        let a := lim r (tdiv (cmd * x.1.2.2) (max 1 sum))
        (mk x.1 a.1, a.2)
      | none => (mk x.1 0, false)
    (rs.map (·.1), (av.filter Option.isSome).length, rs.any (·.2), false)
  else if mode = 2 then
    match ms with
    | [] => ([], 0, false, true)
    | m0 :: rest =>
      match s.recOf m0.1 m0.2.1 with
      | some r0 =>
        if r0.mode = mRun ∨ r0.mode = mStopping ∨ r0.mode = mIsolated then
          let rs := rest.map fun m =>
            let a := sat32 (tdiv (r0.torque * 2048 * m.2.2) (max 1 (m0.2.2 : Int)))
            match s.recOf m.1 m.2.1 with
            | some r => (mk m (lim r a).1, (lim r a).2)
            | none => (mk m (clampI 0 0 a), decide (a ≠ 0))
          (rs.map (·.1), (rest.filter fun m => (s.recOf m.1 m.2.1).isSome).length, rs.any (·.2), false)
        else ([], 0, false, true)
      | none => ([], 0, false, true)
  else if mode = 3 then
    let rs := ms.map fun m => match s.recOf m.1 m.2.1 with
      | some r => mk m (sat32 (cmd - asr (m.2.2 * (r.torque * 2048)) 15))
      | none => mk m cmd
    (rs, (ms.filter fun m => (s.recOf m.1 m.2.1).isSome).length, false, false)
  else ([], 0, false, false)

/-- A half holds the token and is not ISOLATED: the active role of the chip (R382). -/
def holderActive (s : State) : Bool := s.master != 0 && !s.isolated (s.master - 1)

/-- Step 5 of Table LS-6, on the half that holds the token. -/
def allocate (s : State) : State :=
  if !s.holderActive || !s.on 0 F.HBD_STAT_GSIG_OK || !s.on 0 F.HBD_STAT_SYNC_OK then { s with hat := { s.hat with alloc := [] } }
  else
    (List.range 8).foldl (fun s g =>
      if s.get (grpB g) F.HBD_GDEF_MODE == 0 || s.nat (grpB g) F.HBD_GDEF_ALLOC_POS != s.ownPos then s
      else
        let a := s.allocGroup g
        let s := s.puts (grpB g) [(F.HBD_GSTAT_NAVAIL, (a.2.1 : Nat)), (F.HBD_GSTAT_LEADER_LOST, b2i a.2.2.2)]
        let s := if a.2.2.1 then s.put (grpB g) F.HBD_GSTAT_SHORT 1 else s
        { s with hat := { s.hat with alloc := s.hat.alloc ++ a.1 } }) { s with hat := { s.hat with alloc := [] } }

/-- A channel's registers from its record, or one more cycle of age (Table LS-6 Steps 3 and 4). -/
def putChannel (s : State) (n : Nat) : State :=
  let b := 16 * n
  match (if s.on 0 F.HBD_STAT_SYNC_OK then s.recOf (n / 4) (n % 4) else none) with
  | some r => s.puts b [(F.HBD_RCH_POS, r.pos), (F.HBD_RCH2_SPEED, r.speed), (F.HBD_RCH3_TORQUE, r.torque), (F.HBD_RCH3_AGE, 0),
      (F.HBD_RCH3_MODE, (r.mode : Nat)), (F.HBD_RCH3_FOLLOW, b2i r.follow), (F.HBD_RCH3_LIMITED, b2i r.limited)]
  | none => s.bump b F.HBD_RCH3_AGE

/-- The root by R278 among the positions heard. -/
def chooseRoot (s : State) : Nat :=
  let good := s.hat.inForce.filter fun f => !f.clkfb
  let low (l : List Frame) : Option Nat := (l.map (·.origin)).foldl (fun m o => match m with | none => some o | some x => some (min x o)) none
  ((low good).orElse fun _ => low s.hat.inForce).getD s.ownPos

/-- SHARE_CYCLE_USE: t_u of the cycle in progress (Table LS-6 Steps 3 to 5, R360). A cycle without the root's frame ends the runs of R277. -/
def cycleUse (s : State) (t : Nat) : State :=
  let s := s.advance t
  if !s.hatOn || s.on 0 H.hbUsed then s
  else
    let fs := s.hat.frames
    let heard := s.on 0 F.HBD_STAT_ROOT || fs.any fun f => f.origin == s.nat 0 F.HBD_STAT_ROOT_POS
    let s := if heard then s else s.puts 0 [(H.hbGood, 0), (H.hbBad, 0)]
    let reach : Nat := fs.foldl (fun (m : Nat) f => m ||| 2 ^ f.origin) (2 ^ s.ownPos)
    let s := { s.puts 0 [(H.hbUsed, 1), (F.HBD_CYCLE_CYCLE, s.get 0 H.hbM), (F.HBD_STAT_REACH, reach)] with
               hat := { s.hat with inForce := fs } }
    let s := (s.fwdDrop.checkSig).hatState
    let r := s.chooseRoot
    let s := if r = s.nat 0 F.HBD_STAT_ROOT_POS && (r ≠ s.ownPos || s.on 0 F.HBD_STAT_ROOT) then s else s.put 0 H.hbNext (r + 1)
    let s := s.each (List.range 32) fun n s => s.putChannel n
    let s := s.each s.stations fun n s => s.applyAlloc n
    let s := s.each (fs.filter (·.origin != s.ownPos)) fun f s => s.each f.segs fun g s => s.recvSeg f.origin g
    s.allocate

/-- ALLOCLOSS: no record accepted for `T_HOLD`, which counts from entry to RUN too; the station takes its fallback (R286, R297). -/
def allocLoss (s : State) (n : Nat) : State :=
  let b := 8 * n
  if s.mode n = mRun && s.get (stnB n) F.STN_STAT_SOURCE == 2 && !s.on b F.HBD_ALLOC1_FRESH && !s.on b F.HBD_ALLOC1_FALLBACK then
    ((s.put b F.HBD_ALLOC1_FALLBACK 1).stnRaise n (stnCode n 2 0x99)).fallback n
  else s

/-- ROOT_TIMEOUT: 1 ms without a root frame; SYNC_OK clears, and the chip is root from the next t_c (R277, R278). -/
def rootTimeout (s : State) : State :=
  if !s.hatOn || s.on 0 F.HBD_STAT_ROOT then s else (s.putSync false).put 0 H.hbNext (s.ownPos + 1)

/-- ALONE: both links not UP for 1 ms (R280). -/
def aloneEv (s : State) : State :=
  if !s.hatOn || s.lnkSt .west == 2 || s.lnkSt .east == 2 then s
  else
    let s := ((s.putSync false).puts 0 [(F.HBD_STAT_STATE, 4), (H.hbNext, s.ownPos + 1), (H.hbLone, 2)])
    s.raise (.region 0) (fcode 2 0 0x96)

/-- NOSYNC: no SYNC_OK within 200 ms of a link becoming UP (R288). -/
def noSync (s : State) : State :=
  if s.hatOn && !s.on 0 F.HBD_STAT_SYNC_OK && (s.lnkSt .west == 2 || s.lnkSt .east == 2) then s.raise (.region 0) (fcode 2 0 0x9A) else s

/-- STN_RUN with SOURCE 2 is refused (R285). -/
def allocRefused (s : State) (n kind : Nat) : Bool :=
  !s.hatOn || !s.on 0 F.HBD_STAT_GSIG_OK || !bitN (s.nat 0 F.HBD_PUB_PUB) n ||
  (match s.grpOf s.ownPos n with
   | none => true
   | some (g, i) =>
     let mode := s.nat (grpB g) F.HBD_GDEF_MODE
     (if mode = 3 then kind != 1 else kind != 0) || (mode == 2 && i == 0))

end State

end Sys2Proof.Machine
end

