-- ==== Sys2Proof/Machine/Can.lean ====
section
/-!
DEFINITION. The CAN FD controllers (chapter 16): reception into the two partitions, transmission, error states, the tunnel's
outbound segments, and network time.
-/
namespace Sys2Proof.Machine

/-! ### Frames (R336, R343) -/

/-- Data bytes of a DLC code in a frame of the format. -/
def dlcLen (fdf : Bool) (d : Nat) : Nat :=
  if d ≤ 8 then d
  else if !fdf then 8
  else match d with
    | 9 => 12 | 10 => 16 | 11 => 20 | 12 => 24 | 13 => 32 | 14 => 48 | _ => 64

/-- The smallest DLC code whose FD frame holds `n` bytes (R71). -/
def dlcFor (n : Nat) : Nat :=
  if n ≤ 8 then n else if n ≤ 12 then 9 else if n ≤ 16 then 10 else if n ≤ 20 then 11 else if n ≤ 24 then 12
  else if n ≤ 32 then 13 else if n ≤ 48 then 14 else 15

/-- Bytes padded with 0 to `n`. -/
def padBytes (n : Nat) (l : List Byte) : List Byte := (l ++ List.replicate n 0).take n

/-- A received entry as CAN_FETCH returns it (Table PK-13). -/
def RxEnt.words (e : RxEnt) : List Nat :=
  let f := e.fr
  [f.id.toNat + 2 ^ 29 * f.ide.toNat + 2 ^ 30 * f.fdf.toNat + 2 ^ 31 * f.brs.toNat, f.dlc.val + 256 * f.esi.toNat + 65536 * e.flt] ++
    u64Words e.tick ++ bytesWords ((padBytes 64 (f.data.take (dlcLen f.fdf f.dlc.val))).map BitVec.toNat)

/-- Order in arbitration: the 11 most significant identifier bits, then IDE (R343). -/
def arbKey (f : CanFrame) : Nat := 2 * (if f.ide then f.id.toNat / 2 ^ 18 else f.id.toNat % 2048) + f.ide.toNat

namespace State

/-- The fault list of a controller, and a cause of its region (R353). -/
def canU (c : Nat) : FUnit := .can (Fin.ofNat 4 c)
def canCode (c level cause : Nat) : Nat := fcode level (c % 2 + 1) cause

/-- The queues of a controller. -/
def canq (s : State) (c : Nat) : CanS := s.can.toList.getD c CanS.zero

/-- Change the queues of a controller. -/
def withCan (s : State) (c : Nat) (g : CanS → CanS) : State := { s with can := s.can.setIfInBounds c (g (s.canq c)) }

/-- The controller takes part in bus traffic: `EN` is 1, or it still finishes a frame (R339). -/
def canOn (s : State) (c : Nat) : Bool :=
  s.halfRun (c % 2) && !s.oos (.can (Fin.ofNat 4 c)) && (s.on (canB c) F.CAN_CTRL_EN || s.get (canB c) H.cnFin == 1) && s.on (canB c) F.CAN_STAT_ACT &&
    !s.on (canB c) F.CAN_STAT_CLKOFF && decide (s.get (canB c) F.CAN_STAT_ERRSTATE ≤ 1)

/-- The controller sends data frames: not in bus monitoring or restricted operation (R339). -/
def canSends (s : State) (c : Nat) : Bool := s.canOn c && !s.on (canB c) F.CAN_CTRL_MON && !s.on (canB c) F.CAN_CTRL_RESTR

/-- The argument of a pending CAN_SEND. -/
def sendArg (c ix : Nat) : Nat := 32 * c + ix

/-- Every TX entry is freed and its completion ends with a status; the tunnel packet under way starts again (R339, R344, R78). -/
def canAbort (s : State) (c st : Nat) : State :=
  let s := s.each (s.canq c).tx fun e s => s.completeAll 0x63 (sendArg c e.ix) st 0
  s.withCan c fun q => { q with tx := [], tunSent := 0 }

/-- The controller no longer sends reference messages until it is on the bus again. -/
def tmPause (s : State) (c : Nat) : State :=
  let b := canB c
  s.puts b [(H.tmWas, b2i (s.on b F.CAN_TM_SENDING || s.on b H.tmWas)), (F.CAN_TM_SENDING, 0), (H.tmSofOk, 0), (H.tmHave, 0)]

/-- The controller leaves the bus (R339, R344). -/
def canLeave (s : State) (c : Nat) : State :=
  let b := canB c
  let s := ((s.canAbort c stAborted).completeAll 0x61 c stAborted 0).tmPause c
  s.puts b [(F.CAN_STAT_ACT, 0), (F.CAN_STAT_ERRSTATE, 3), (F.CAN_STAT_RECOVERING, 0), (H.cnXcv, 0), (H.cnRel, 0), (H.cnFin, 0)]

/-- A controller with `EN` = 0 leaves the bus when the frame it was sending or receiving has ended (R339). -/
def canFinish (s : State) (c : Nat) : State := if s.get (canB c) H.cnFin = 1 then s.canLeave c else s

/-- The controller's region has gone to its fallback oscillator: it finishes no frame (R345). -/
def canClkOff (s : State) (c : Nat) : State :=
  let b := canB c
  let s := s.canFinish c
  if !s.on b F.CAN_CTRL_EN || s.on b F.CAN_STAT_CLKOFF then s
  else
    let s := (((s.canAbort c stAborted).completeAll 0x61 c stAborted 0).tmPause c).puts b [(F.CAN_STAT_CLKOFF, 1), (F.CAN_STAT_ACT, 0),
      (F.CAN_STAT_RECOVERING, 0)]
    s.raise (canU c) (canCode c 2 0xC1)

/-- CAN_ENABLE: the transceiver wakes and the controller starts to integrate (R339), but not on a fallback oscillator (R345). -/
def canEnable (s : State) (c : Nat) : State :=
  let b := canB c
  if s.on b F.CAN_CTRL_EN then s
  else
    let s := (s.canFinish c).puts b [(F.CAN_CTRL_EN, 1), (H.cnFin, 0), (H.cnXcv, b2i (decide (c < 2))), (F.CAN_STAT_ACT, 0), (F.CAN_STAT_ERRSTATE, 3)]
    if bitN (s.nat 0 F.CHIP_STATUS_CLK_FB) (c % 2 + 1) then s.canClkOff c else s

/-- CAN_BUS_INTEGRATED: error-active, both counters 0, `ACT` set, and the time roles resume (R339, R345). -/
def canIntegrated (s : State) (c : Nat) : State :=
  let b := canB c
  if s.halfRun (c % 2) && !s.oos (.can (Fin.ofNat 4 c)) && s.on b F.CAN_CTRL_EN && !s.on b F.CAN_STAT_ACT &&
      !s.on b F.CAN_STAT_CLKOFF && s.get b F.CAN_STAT_ERRSTATE != 2 then
    s.puts b [(F.CAN_STAT_ERRSTATE, 0), (F.CAN_ERR_TEC, 0), (F.CAN_ERR_REC, 0), (F.CAN_ERR_RP, 0), (F.CAN_STAT_ACT, 1), (H.cnRel, 0),
      (F.CAN_TM_SENDING, b2i (s.on b F.CAN_TM_SENDING || s.on b H.tmWas)), (H.tmWas, 0)]
  else s

/-- Its region is on the reference again: the controller integrates (R345). -/
def canClkOn (s : State) (c : Nat) : State := s.put (canB c) F.CAN_STAT_CLKOFF 0

/-! ### Error states (R344) -/

/-- Bus-off. -/
def canBusOff (s : State) (c : Nat) : State :=
  let b := canB c
  let s := (s.canAbort c stAborted).puts b [(F.CAN_STAT_ERRSTATE, 2), (F.CAN_STAT_BOFF_SEEN, 1), (F.CAN_STAT_ACT, 0)]
  (s.bump b F.CAN_ERR_BOFF_CNT).raise (canU c) (canCode c 2 0xC0)

/-- The error state that the counters give: error-passive from 128, error-active below. -/
def canErrState (s : State) (c : Nat) : State :=
  let b := canB c
  s.put b F.CAN_STAT_ERRSTATE (if s.get b F.CAN_ERR_TEC ≥ 128 || s.on b F.CAN_ERR_RP then 1 else 0)

/-- The receive counter moves up; above 127 it stands at 127 with `RP` set. -/
def recUp (s : State) (c : Nat) (k : Int) : State :=
  let b := canB c
  let v := s.get b F.CAN_ERR_REC + k
  if v > 127 || s.on b F.CAN_ERR_RP then s.puts b [(F.CAN_ERR_REC, 127), (F.CAN_ERR_RP, 1)] else s.put b F.CAN_ERR_REC v

/-- CAN_ERROR_DETECTED: `LEC` and the counter steps of ISO 11898-1:2015: a transmitter's counter moves by 8, a receiver's by 1 or, where
that standard says so (`heavy`), by 8; a transmitter's error that the standard exempts (`heavy` false) moves nothing. -/
def canError (s : State) (c lec : Nat) (tx heavy : Bool) : State :=
  let b := canB c
  if !s.canOn c || lec = 0 || 6 < lec then s
  else
    let s := s.put b F.CAN_STAT_LEC lec
    if tx then
      if !heavy then s
      else if s.get b F.CAN_ERR_TEC + 8 > 255 then ((s.put b F.CAN_ERR_TEC 255).canBusOff c).canFinish c
      else (s.put b F.CAN_ERR_TEC (s.get b F.CAN_ERR_TEC + 8)).canErrState c
    else (s.recUp c (if heavy then 8 else 1)).canErrState c

/-- A controller that has left the bus shows no error state (Table CN-4). -/
def canOff (s : State) (c : Nat) : State := s.puts (canB c) [(F.CAN_STAT_ERRSTATE, 3), (H.cnFin, 0)]

/-- A frame received without error lowers the receive counter; from error-passive it falls to a value between 119 and 127 that
the standard leaves open (DESIGN CHOICE, log entry 2). -/
def recDown (s : State) (c : Nat) : State :=
  let b := canB c
  if s.on b F.CAN_ERR_RP then
    let r := s.fresh 4
    (r.2.puts b [(F.CAN_ERR_REC, 119 + r.1 % 9), (F.CAN_ERR_RP, 0)]).canErrState c
  else s.put b F.CAN_ERR_REC (max 0 (s.get b F.CAN_ERR_REC - 1))

/-- CAN_RECOVER accepted: 128 occurrences of 11 recessive bits are awaited. -/
def canRecover (s : State) (c : Nat) : State := s.put (canB c) F.CAN_STAT_RECOVERING 1

/-- CAN_RECOVERY_COMPLETE. -/
def canRecovered (s : State) (c : Nat) : State :=
  let b := canB c
  if s.on b F.CAN_STAT_RECOVERING then
    (s.puts b [(F.CAN_STAT_RECOVERING, 0), (F.CAN_STAT_ERRSTATE, 0), (F.CAN_ERR_TEC, 0), (F.CAN_ERR_REC, 0), (F.CAN_ERR_RP, 0),
      (F.CAN_STAT_ACT, 1)]).completeAll 0x61 c stOK 0
  else s

/-- TXD_DOMINANT_TIMEOUT: an integrated transceiver releases the bus (R336). -/
def txdTimeout (s : State) (c : Nat) : State := if c < 2 && s.halfRun (c % 2) then s.put (canB c) H.cnRel 1 else s

/-! ### Reception (R340 to R342) -/

/-- Filter `k` matches a frame. -/
def fltMatch (s : State) (c k : Nat) (f : CanFrame) : Bool :=
  let b := canB c + 8 * k
  s.on b F.CAN_FLT_ACT &&
    ((f.id.toNat ^^^ s.nat b F.CAN_FLT_ID) &&& s.nat b F.CAN_FLT1_MASK) == 0 &&
    (!s.on b F.CAN_FLT1_IDE_CMP || f.ide == s.on b F.CAN_FLT_IDE)

/-- A filter of a controller on the bus is written: a frame in reception keeps the registers of `old` (R340). -/
def keepFilters (s old : State) (c : Nat) : State :=
  if !s.canOn c then s
  else s.withCan c fun q => { q with fltOld := q.fltOld ++
    [(s.time, old.regs.filter fun e => decide (8 * canB c ≤ e.1) && decide (e.1 < 8 * (canB c + 0x200)))] }

/-- The controller with the filters that stood at tick `t`, a start of frame (R340). -/
def filtersAt (s : State) (c t : Nat) : State :=
  match (s.canq c).fltOld.find? fun o => decide (t < o.1) with
  | some o => { s with regs := o.2 }
  | none => s

/-- The action and number of the first filter that matches; `DEF_ACT` and 63 when none does. -/
def fltAction (s : State) (c : Nat) (f : CanFrame) : Nat × Nat :=
  match (List.range 32).find? fun k => s.fltMatch c k f with
  | some k => (s.nat (canB c + 8 * k) F.CAN_FLT_ACT, k)
  | none => (s.nat (canB c) F.CAN_PART_DEF_ACT, 63)

/-- The entries a partition searches, in order from its fill pointer: first entry, size, pointer. -/
def walkFrom (lo n p : Nat) : List Nat := (List.range n).map fun i => lo + (p - lo + i) % n

/-- First entry and size of a partition. -/
def partOf (s : State) (c : Nat) (host : Bool) : Nat × Nat :=
  let r := min 48 (s.nat (canB c) F.CAN_PART_RX_SVC)
  if host then (r, 64 - r) else (0, r)

/-- Entries of a partition that software owns. -/
def ownedIn (s : State) (c : Nat) (host : Bool) : List RxEnt :=
  let p := s.partOf c host
  (s.canq c).rx.filter fun e => decide (p.1 ≤ e.ix) && decide (e.ix < p.1 + p.2)

/-- RX entries return to hardware; a frame stored in this clock does not take them (R341). -/
def canFree (s : State) (c : Nat) (l : List Nat) : State :=
  s.withCan c fun q =>
    { q with rx := q.rx.filter (fun e => !l.contains e.ix), freed := (if q.freedT = s.time then q.freed else []) ++ l, freedT := s.time }

/-- The host entries of a controller that software owns, in a CAN_RX notice. The millisecond of R342 runs from a notice that a transport has
taken; without one nothing is deferred. -/
def canNotify (s : State) (c : Nat) : State :=
  let t := s.notice 6 [c + 256 * (s.ownedIn c true).length]
  let took := (List.range 6).any fun i => (t.port i).level .notice != (s.port i).level .notice
  if took then t.puts (canB c) [(H.cnNote, 1), (H.cnNoteT, s.time), (H.cnDefer, 0)] else t.put (canB c) H.cnDefer 0

/-- A CAN_RX notice, now or at the end of the millisecond that runs (R342). -/
def canRxNotice (s : State) (c : Nat) : State :=
  let b := canB c
  if s.on b H.cnNote && decide ((s.time : Int) < s.get b H.cnNoteT + 400000) then s.put b H.cnDefer 1
  else s.canNotify c

/-- CAN_RX_NOTICE_DELAY. -/
def canRxDelay (s : State) (c : Nat) : State := if s.on (canB c) H.cnDefer then s.canNotify c else s

/-- A frame goes into a partition, or is dropped (R341). -/
def canFill (s : State) (c : Nat) (host : Bool) (f : CanFrame) (flt tick : Nat) : State :=
  let b := canB c
  let p := s.partOf c host
  let ptr := s.nat b (if host then H.cnFillH else H.cnFillS)
  let ptr := if ptr < p.1 || p.1 + p.2 ≤ ptr then p.1 else ptr
  let q := s.canq c
  if s.nat b F.CAN_PART_MAXDL < f.dlc.val then (s.bump b F.CAN_DROP_DROP_DLC).put b F.CAN_STAT_DROP_SEEN 1
  else match (walkFrom p.1 p.2 ptr).find? fun i =>
      !(q.rx.any (·.ix == i)) && !(q.gone.any (·.1 == i)) && !(q.freedT == s.time && q.freed.contains i) with
    | none => (s.bump b (if host then F.CAN_DROP_DROP_H else F.CAN_DROP_DROP_S)).put b F.CAN_STAT_DROP_SEEN 1
    | some i =>
      let s := s.withCan c fun q => { q with rx := q.rx ++ [{ ix := i, fr := f, flt := flt, tick := tick }] }
      let s := s.put b (if host then H.cnFillH else H.cnFillS) (if i + 1 < p.1 + p.2 then i + 1 else p.1)
      if host then s.canRxNotice c else s

/-- A frame on the tunnel's command identifier (R347). -/
def isTunnel (s : State) (c : Nat) (f : CanFrame) : Bool :=
  let b := canB c
  s.on b F.CAN_CTRL_TUN_EN && f.id.toNat == s.nat b F.CAN_TUN_RX_ID && f.ide == s.on b F.CAN_TUN_RX_IDE

/-- A received frame by the filters as they stood at its start of frame (R340); those kept for earlier frames are no longer needed. -/
def canFilter (s : State) (c : Nat) (f : CanFrame) (tick : Nat) : State :=
  let a := (s.filtersAt c tick).fltAction c f
  let s := s.withCan c fun q => { q with fltOld := q.fltOld.filter fun o => decide (tick < o.1) }
  match a.1 with
  | 1 => s.canFill c true f a.2 tick
  | 2 => s.canFill c false f a.2 tick
  | _ => s

/-- The host entries from FIRST in index order, wrapping at 63 to `RX_SVC` (R86, R342). -/
def hostWalk (s : State) (c first n : Nat) : List Nat :=
  let p := s.partOf c true
  (walkFrom p.1 p.2 first).take n

/-- What CAN_FETCH returns: entries up to the first one software does not own. -/
def canFetch (s : State) (c first n : Nat) : List RxEnt :=
  let got := (s.hostWalk c first n).map fun i => (s.canq c).rx.find? (·.ix == i)
  (got.takeWhile Option.isSome).filterMap id

/-- Named host entries return to hardware. -/
def canAck (s : State) (c first n : Nat) : State := s.canFree c (s.hostWalk c first n)

/-- The service entries return to hardware when Milliner has consumed them (R341). -/
def canConsume (s : State) (c : Nat) : State := s.canFree c ((s.ownedIn c false).map (·.ix))

/-- The software-owned host entry with the earliest reception tick (R342). -/
def canOldest (s : State) (c : Nat) : Nat :=
  match (s.ownedIn c true).foldl (fun (m : Option RxEnt) e => match m with
      | none => some e
      | some x => some (if e.tick < x.tick then e else x)) none with
  | none => 0
  | some e => e.ix

/-! ### Transmission (R343, R71, R347) -/

/-- The entries of CAN_SEND that are free, lowest first. -/
def txFree (s : State) (c : Nat) : List Nat :=
  let lo := s.nat (canB c) F.CAN_PART_TX_RSV
  ((List.range 32).filter fun i => decide (lo ≤ i)).filter fun i =>
    !((s.canq c).tx.any (·.ix == i)) && !((s.canq c).gone.any (·.1 == 64 + i))

/-- The tunnel's next segment: the oldest packet of the port, from the bytes already acknowledged (R71). -/
def tunSegment (s : State) (c : Nat) : Option CanFrame :=
  let b := canB c
  match (s.port (2 + c)).out with
  | [] => none
  | (_, p) :: _ =>
    let bs := p.bytes
    let sent := (s.canq c).tunSent
    let part := (bs.drop sent).take 62
    let isLast := bs.length ≤ sent + 62
    let hd := (if sent = 0 then 128 else 0) + (if isLast then 64 else 0) + sent / 62
    let n := part.length + 2
    let d := if isLast then dlcFor n else 15
    some { id := BitVec.ofNat 29 (s.nat b F.CAN_TUN_TX_ID), ide := s.on b F.CAN_TUN_TX_IDE, fdf := true, brs := s.on b F.CAN_TUN_TX_BRS,
           esi := false, dlc := Fin.ofNat 16 d, data := padBytes (dlcLen true d) (BitVec.ofNat 8 hd :: BitVec.ofNat 8 p.tag :: part) }

/-- The tunnel's segment in its TX entry: the lowest reserved entry that is not withdrawn (R343, R346; DESIGN CHOICE, log entry 12). With all of
them withdrawn the segment waits (R347). -/
def tunPending (s : State) (c : Nat) : Option TxEnt :=
  if s.on (canB c) F.CAN_CTRL_TUN_EN then
    match (List.range (s.nat (canB c) F.CAN_PART_TX_RSV)).find? fun i => !((s.canq c).gone.any (·.1 == 64 + i)) with
    | some i => (s.tunSegment c).map (TxEnt.mk i)
    | none => none
  else none

/-- TX entries in use, as `CAN_TXBUSY` shows them. -/
def txBusy (s : State) (c : Nat) : Nat :=
  let t := match s.tunPending c with
    | some e => if s.on (canB c) F.CAN_STAT_ACT then 2 ^ e.ix else 0
    | none => 0
  (s.canq c).tx.foldl (fun m e => m + 2 ^ e.ix) t

/-- What goes to arbitration, in entry order: the tunnel's segment and the entries of CAN_SEND. -/
def txPending (s : State) (c : Nat) : List TxEnt :=
  (s.tunPending c).toList ++ (List.range 32).filterMap fun i => (s.canq c).tx.find? (·.ix == i)

/-- The winner among the pending entries: lowest identifier, then lowest entry. -/
def txWinner (s : State) (c : Nat) : Option TxEnt :=
  (s.txPending c).foldl (fun (m : Option TxEnt) e => match m with
    | none => some e
    | some x => some (if arbKey e.fr < arbKey x.fr then e else x)) none

/-- Bytes of a whole number, least significant first. -/
def leBytes (n : Nat) : Nat → List Byte
  | v => (List.range n).map fun i => BitVec.ofNat 8 (v / 2 ^ (8 * i) % 256)

/-- The time reference message as it goes out next (R349, Table CN-2). -/
def refFrame (s : State) (c : Nat) : CanFrame :=
  let b := canB c
  let p := s.nat b F.CAN_TM_PRIO
  let data : List Byte := leBytes 8 ((s.get b H.tmSof % 2 ^ 64).toNat) ++
    [BitVec.ofNat 8 (s.nat b H.tmSeq), BitVec.ofNat 8 (p + (if s.on b H.tmSofOk then 0 else 128)), 0, 0]
  { id := BitVec.ofNat 29 (s.nat b F.CAN_TM_ID_ID + p), ide := s.on b F.CAN_TM_ID_IDE, fdf := true, brs := false,
    esi := s.get b F.CAN_STAT_ERRSTATE == 1, dlc := 9, data := data }

/-- A reference message, a CAN FD frame, waits for the bus: none has gone out since the sender became active, or a period has passed since the latest
one's start of frame (R349; DESIGN CHOICE, log entry 103). -/
def refDue (s : State) (c : Nat) : Bool :=
  let b := canB c
  s.on b F.CAN_TM_SENDING && s.on b F.CAN_CTRL_FD_EN && (!s.on b H.tmSofOk || decide (s.get b H.tmSendT + 400 * s.get b F.CAN_TM_PER_PER ≤ s.time))

/-- The reference message goes before a TX entry in arbitration (R343); it also goes before one of its own identifier (DESIGN CHOICE, log
entry 103). -/
def refFirst (s : State) (c : Nat) (e : TxEnt) : Bool := decide (arbKey (s.refFrame c) ≤ arbKey e.fr)

/-- What the controller's next attempt sends from a TX entry: the winner, unless a reference message goes first. -/
def txNext (s : State) (c : Nat) : Option TxEnt :=
  if s.canSends c then (s.txWinner c).filter fun e => !(s.refDue c && s.refFirst c e) else none

/-- An attempt to send a frame measures the transmitter delay (R337); the specification does not give its value (DESIGN CHOICE, log entry 2). -/
def tdcMeasure (s : State) (c : Nat) (f : CanFrame) : State :=
  if f.fdf && s.on (canB c) F.CAN_DBT_TDC_EN then s.putFree (canB c) F.CAN_STAT_TDCV else s

/-- A frame has been sent and acknowledged: the transmit error counter falls (R344). -/
def txGood (s : State) (c : Nat) (f : CanFrame) : State :=
  ((s.withCan c fun q => { q with lastTx := some f }).put (canB c) F.CAN_ERR_TEC (max 0 (s.get (canB c) F.CAN_ERR_TEC - 1))).canErrState c

/-- A tunnel segment has been acknowledged: the packet leaves its queue with its last one. -/
def tunAcked (s : State) (c : Nat) : State :=
  match (s.port (2 + c)).out with
  | [] => s
  | (_, p) :: r =>
    let n := (s.canq c).tunSent + 62
    if p.bytes.length ≤ n then (s.withPort (2 + c) fun q => { q with out := r }).withCan c fun q => { q with tunSent := 0 }
    else s.withCan c fun q => { q with tunSent := n }

/-- A TX entry ends with a status and is free. -/
def txEnd (s : State) (c ix st : Nat) : State :=
  (s.completeAll 0x63 (sendArg c ix) st 0).withCan c fun q => { q with tx := q.tx.filter (·.ix != ix) }

/-- CAN_FRAME_SENT: the winning entry has been on the bus; it was acknowledged, or it lost arbitration or met an error and is sent
again unless `DAR` = 1 (R343). ESI is 1 while error-passive. -/
def canSent (s : State) (c : Nat) (acked : Bool) : State :=
  let b := canB c
  match s.txNext c with
  | none => s
  | some e =>
    let tun := decide (e.ix < s.nat b F.CAN_PART_TX_RSV)
    let f := { e.fr with esi := e.fr.fdf && s.get b F.CAN_STAT_ERRSTATE == 1 }
    let s := s.tdcMeasure c f
    if acked then
      let s := s.txGood c f
      if tun then s.tunAcked c else s.txEnd c e.ix stOK
    else if s.on b F.CAN_CTRL_DAR && !tun then s.txEnd c e.ix stTimeout
    else s

/-- CAN_TX_TIMEOUT: `TX_TO` of an entry has passed and its frame is not on the bus. -/
def canTxTimeout (s : State) (c ix : Nat) : State := if (s.canq c).tx.any (·.ix == ix) then (s.txEnd c ix stTimeout).canFinish c else s

/-- CAN_DISABLE (R339). No row tells whether a frame is on the bus at that moment: a frame of the controller's own that waits for its attempt is
taken as being sent, until the attempt ends or another frame comes in, and a frame received from a start of frame before it as being received
(DEDUCED, log entry 111). -/
def canDisable (s : State) (c : Nat) : State :=
  let b := canB c
  if !s.on b F.CAN_CTRL_EN then s
  else if (s.txNext c).isSome then s.puts b [(F.CAN_CTRL_EN, 0), (H.cnFin, 1), (H.cnOffT, s.time)]
  else (s.canLeave c).puts b [(F.CAN_CTRL_EN, 0), (H.cnFin, if s.canOn c then 2 else 0), (H.cnOffT, s.time)]

/-- A frame of CAN_SEND takes an entry. -/
def canQueue (s : State) (c ix : Nat) (f : CanFrame) : State := s.withCan c fun q => { q with tx := q.tx ++ [{ ix := ix, fr := f }] }

/-! ### Network time (R349 to R351) -/

/-- TIME_MASTER. -/
def timeMaster (s : State) (c role prio per : Nat) : State :=
  let b := canB c
  let s := s.puts b [(F.CAN_TM_ROLE, role), (F.CAN_TM_PRIO, prio), (F.CAN_TM_PER_PER, per), (F.CAN_TM_SENDING, b2i (role == 1)),
    (H.tmDup, 0), (H.tmSofOk, 0), (H.tmHave, 0), (H.tmWas, 0)]
  if role = 1 then s.put b F.CAN_NT_OFS_OFS (s.get 0 F.HBD_OFS_OFS) else s

/-- TIME_BACKUP_ACTIVATE: the network time continues without a step (R350). -/
def timeBackup (s : State) (c : Nat) : State :=
  let b := canB c
  if s.canOn c && s.get b F.CAN_TM_ROLE == 2 && !s.on b F.CAN_TM_SENDING && !s.on b H.tmDup then
    s.puts b [(F.CAN_TM_SENDING, 1), (H.tmSofOk, 0)]
  else s

/-- A reference message goes out at this time: the sender is active with `EN` and `FD_EN` set, and no TX entry goes before the message (R343,
R349, Table CN-4). -/
def refGoes (s : State) (c : Nat) : Bool :=
  s.canSends c && s.on (canB c) F.CAN_CTRL_EN && s.on (canB c) F.CAN_CTRL_FD_EN && s.on (canB c) F.CAN_TM_SENDING && (s.txWinner c).all (s.refFirst c)

/-- TIME_REFERENCE_SEND: start of frame at tick `t` (R349, Table CN-2). -/
def timeSend (s : State) (c t : Nat) : State :=
  let b := canB c
  if !s.refGoes c then s
  else
    let s := s.advance t
    let f := s.refFrame c
    let s := (s.tdcMeasure c f).txGood c f
    s.puts b [(H.tmSendT, s.time), (H.tmSof, (s.time : Int) + s.get b F.CAN_NT_OFS_OFS), (H.tmSofOk, 1), (H.tmSeq, s.get b H.tmSeq + 1)]

/-- The priority of a frame that is a reference message of the controller's network (R349). -/
def refPrio (s : State) (c : Nat) (f : CanFrame) : Option Nat :=
  let b := canB c
  let base := s.nat b F.CAN_TM_ID_ID
  let p := f.id.toNat - base
  if s.on b F.CAN_CTRL_TM_EN && f.fdf && !f.brs && f.dlc.val == 9 && f.ide == s.on b F.CAN_TM_ID_IDE && decide (base ≤ f.id.toNat) &&
      decide (p ≤ 7) && (f.data.getD 9 0).toNat % 8 == p then some p
  else none

/-- A receiver takes a reference message of priority `p` whose start of frame was at tick `t` (R351). -/
def timeTake (s : State) (c p t : Nat) (f : CanFrame) : State :=
  let b := canB c
  let k := (f.data.getD 8 0).toNat
  let valid := (f.data.getD 9 0).toNat < 128
  let stamp := (f.data.take 8).foldr (fun (x : Byte) (a : Nat) => x.toNat + 256 * a) 0
  let pair := s.on b H.tmHave && s.nat b F.CAN_TM_SRC_PRIO == p && (s.nat b H.tmRxSeq + 1) % 256 == k && valid
  let e := wrapS 64 ((stamp : Int) - s.get b H.tmRxT)
  let s :=
    if pair then
      let d := e - s.get b H.tmPrevE
      let ok := s.on b F.CAN_TM_NT_OK || (s.on b H.tmPrevOk && decide (d ≤ 400) && decide (-400 ≤ d))
      s.puts b [(F.CAN_NT_ERR_NT_ERR, satS 32 (e - s.get b F.CAN_NT_OFS_OFS)), (F.CAN_NT_OFS_OFS, e), (H.tmPrevE, e), (H.tmPrevOk, 1),
        (F.CAN_TM_NT_OK, b2i ok)]
    else s
  s.puts b [(H.tmHave, 1), (H.tmRxSeq, k), (H.tmRxT, t), (F.CAN_TM_SRC_PRIO, p)]

/-- A reference message with start of frame at tick `t` reaches the time unit (R350, R351). -/
def timeRef (s : State) (c p t : Nat) (f : CanFrame) : State :=
  let b := canB c
  let own := s.nat b F.CAN_TM_PRIO
  let role := s.get b F.CAN_TM_ROLE != 0
  if role && p = own then
    (s.puts b [(F.CAN_TM_SENDING, 0), (H.tmDup, 1), (F.CAN_TM_TMDUP_SEEN, 1)]).raise (canU c) (canCode c 2 0xC3)
  else if s.on b F.CAN_TM_SENDING then
    if p < own then (s.put b F.CAN_TM_SENDING 0).timeTake c p t f else s
  else s.timeTake c p t f

/-- NTLOSS: no valid pair for 3 periods (R351). -/
def ntLoss (s : State) (c : Nat) : State :=
  let b := canB c
  if s.on b F.CAN_TM_NT_OK then (s.puts b [(F.CAN_TM_NT_OK, 0), (H.tmPrevOk, 0)]).raise (canU c) (canCode c 2 0xC4) else s

/-- A remote frame is acknowledged, not stored, and counted (R336). -/
def canRemote (s : State) (c : Nat) : State := (s.recDown c).bump (canB c) F.CAN_DROP_DROP_RTR

/-- A frame received without error, except for the tunnel, which is Milliner's (R340, R349). -/
def canReceive (s : State) (c t : Nat) (f : CanFrame) : State :=
  let s := (s.recDown c).advance t
  let s := match s.refPrio c f with
    | some p => s.timeRef c p t f
    | none => s
  s.canFilter c f t

end State

end Sys2Proof.Machine
end

