-- ==== Sys2Proof/Machine/Services.lean ====
section
/-!
DEFINITION. Services (chapter 14): parameters, start, change and end, and the service tick of the master half.
-/
namespace Sys2Proof.Machine

/-! ### Parameters (Tables SV-4 to SV-9) -/

/-- A parameter: index, range, default, whether only SVC_START may set it, and whether its word is unsigned. -/
structure SvcP where
  ix    : Nat
  lo    : Int
  hi    : Int
  dflt  : Int
  start : Bool
  uns   : Bool
  deriving DecidableEq, Repr

/-- A signed 32-bit parameter. -/
def pS (ix : Nat) (start : Bool) : SvcP := ⟨ix, -(2 ^ 31), 2 ^ 31 - 1, 0, start, false⟩
/-- A non-negative 32-bit parameter. -/
def pP (ix : Nat) (start : Bool) : SvcP := ⟨ix, 0, 2 ^ 31 - 1, 0, start, false⟩
/-- An unsigned parameter with a range and a default. -/
def pU (ix : Nat) (lo hi dflt : Int) (start : Bool) : SvcP := ⟨ix, lo, hi, dflt, start, true⟩

/-- The parameters of a service. A parameter with no stated default takes 0, or the lowest value of its range (DEDUCED, log entry 13). -/
def svcParams (v : Nat) : List SvcP :=
  [pU 0 0 1 (if v = 5 then 0 else 1) false, pU 1 0 3 1 false] ++
  match v with
  | 1 => [pS 8 false, pP 9 false, pS 10 false, pP 11 false, pP 12 false, pU 13 0 0x6F 0 true, pS 14 false, pU 15 0 1 0 true,
          pU 16 1 65535 100 false]
  | 2 => [pS 8 false, pU 9 0 1 0 false, pS 10 false, pP 11 false, pP 12 false, pU 13 0 0x6F 0 true, pS 14 false, pU 15 0 1 0 true,
          pU 16 1 65535 100 false, pU 17 1 65535 100 false, pS 18 false, pS 19 false]
  | 3 => [pS 8 true, pU 9 0 (2 ^ 32 - 1) 0 true, pU 10 0 (2 ^ 31 - 1) 0 true, pU 11 0 255 0 true, pU 12 0 255 0 true, pS 13 true,
          pU 14 0 (2 ^ 32 - 1) 0 false]
  | 4 => [pU 8 0 (2 ^ 30 - 1) 0 true, pU 9 0 (2 ^ 22 - 1) 0 true, pS 10 true, pS 11 true, pS 12 false, pU 13 1 65535 200 false,
          pU 14 1 65535 2000 false, pU 15 0 65536 65536 false, pS 16 false, pS 17 false, pU 18 0 1 0 true]
  | 5 => [pU 8 0 1 0 true, pU 9 0 1 0 false, pS 10 false, pU 11 1 65535 100 false, pU 12 1 65535 100 false, pU 13 0 (2 ^ 30 - 1) 0 true,
          pU 14 0 (2 ^ 14 - 1) 0 true, pU 15 1 (2 ^ 32 - 1) 1 true, pU 16 1 65535 1000 false, pS 17 false]
  | _ => [pU 8 0 7 0 true, pU 9 0 (2 ^ 32 - 1) 0 true, pP 10 false, pU 11 0 65535 0 false, pU 12 0 1 0 false, pU 13 0 65535 0 false,
          pU 14 1 32768 1 false]

/-- The value of a parameter word. -/
def SvcP.value (p : SvcP) (w : Nat) : Int := if p.uns then (w : Int) else sgnN 32 w

/-- Ranges beyond an interval: a tension source, byte offsets up to 60, a checker station or none. -/
def svcExtra (v ix : Nat) (x : Int) : Bool :=
  let n := x.toNat
  match v, ix with
  | 1, 13 | 2, 13 => n == 0 || decide (0x40 ≤ n)
  | 3, 12 => decide (n ≤ 3) || n == 255
  | 4, 9 => n / 16 % 16 == 0 && decide (n / 256 % 64 ≤ 60) && n / 2 ^ 14 % 4 == 0 && decide (n / 65536 % 64 ≤ 60)
  | 5, 14 => n / 16 % 16 == 0 && decide (n / 256 % 64 ≤ 60)
  | _, _ => true

/-- Pairs of an index word and a value word. -/
def svcPairs : List Nat → List (Nat × Nat)
  | a :: b :: r => (a, b) :: svcPairs r
  | _ => []

/-- A start-only index of a service, which SVC_PARAM refuses by the state it is in (R302; step 8 of Table PK-4). -/
def svcStartOnly (v ix : Nat) : Bool :=
  match (svcParams v).find? fun p => p.ix == ix with
  | none => false
  | some p => p.start

/-- A pair's index and value are of the service (R301, R302). -/
def svcPairOk (v : Nat) (e : Nat × Nat) : Bool :=
  match (svcParams v).find? fun p => p.ix == e.1 with
  | none => false
  | some p => decide (p.lo ≤ p.value e.2) && decide (p.value e.2 ≤ p.hi) && svcExtra v p.ix (p.value e.2)

/-- The value a list of pairs gives an index: the last pair that names it, else `d`. -/
def svcGiven (v : Nat) (l : List (Nat × Nat)) (ix : Nat) (d : Int) : Int :=
  match (svcParams v).find? (·.ix == ix) with
  | none => d
  | some p => match l.reverse.find? (·.1 == ix) with
    | none => d
    | some e => p.value e.2

namespace State

/-- Byte address from which a handle's parameters and hidden numbers count. -/
def svcH (k : Nat) : Nat := 0x200 * k

/-- A parameter read unsigned. -/
def svcU (s : State) (k i : Nat) : Nat := (s.svcParam k i % 2 ^ 32).toNat

/-- Set a parameter in force. -/
def putParam (s : State) (k i : Nat) (v : Int) : State := s.put (svcH k + 4 * i) F.SVC_PARAM_VAL v

/-- The relation between parameters of a service: T_MIN below T_MAX (Table SV-6). -/
def svcRelation (v : Nat) (val : Nat → Int) : Bool := v != 2 || decide (val 19 < val 18)

/-! ### Auto-spool geometry (R306) -/

/-- The drum counts per revolution of Step 1 of R306: `PF_LINES` × 2^14 whatever the mode, or 2^`ST_BITS` for a serial source. -/
def spoolCounts (s : State) (drum : Nat) : Int :=
  if s.on (stnB drum) F.PF_CTRL_SRC then 2 ^ s.nat (serB (drum / 2)) F.PS_FMT_ST_BITS else s.linesOf drum * 2 ^ 14

/-- PER of slot 7: WRAPS × counts per revolution / 1000. -/
def spoolPer (s : State) (drum : Nat) (wraps : Nat) : Int := tdiv (wraps * s.spoolCounts drum) 1000

/-- A scheduler slot of the axis user is armed, or waits to be. -/
def userArmed (s : State) (h u : Nat) : Bool :=
  (List.range 8).any fun i => s.on (ascB h u i) F.ASC_SST_ARMED || s.on (ascH h u i) H.ascPend

/-! ### Start (R301) -/

/-- The KIND by which a service commands a station, where it does; a parameter out of its range names none. -/
def svcKind (v : Nat) (p8 : Int) : Option Nat :=
  match v with
  | 1 | 2 | 4 => some 1
  | 5 => if p8 = 0 ∨ p8 = 1 then some p8.toNat else none
  | _ => none

/-- The stations and axes word matches the service. -/
def svcBitmapOk (s : State) (v w : Nat) : Bool :=
  let st := w % 16
  let ax := w / 256 % 16
  let n := popCount st
  let shape := match v with
    | 1 | 2 | 5 => decide (1 ≤ n) && ax == 0
    | 3 => n == 1 && popCount ax == 1 && ((decide (st < 4)) == decide (ax < 4))
    | 4 => decide (1 ≤ n) && decide (n ≤ 2) && ax == 0
    | _ => decide (1 ≤ n) && ax == 0
  w == st + 256 * ax && shape && (List.range 4).all fun i => (!bitN st i && !bitN ax i) || s.stnPresent i

/-- The state rules of R301 on a valid service and bitmap. -/
def svcStartState (s : State) (v w : Nat) (l : List (Nat × Nat)) : Bool :=
  let kind := svcKind v (svcGiven v l 8 0)
  (List.range 4).all (fun n => !bitN w n ||
    ((s.mode n == mArmed || s.mode n == mRun) &&
     !(s.mode n == mRun && s.get (stnB n) F.STN_STAT_SOURCE == 2) &&
     !((List.range 16).any fun k => s.svcLive k && bitN (s.nat (svcB k) F.SVC_STAT_STNS) n && v != 6 &&
        s.get (svcB k) F.SVC_STAT_SERVICE != 6) &&
     (match kind with | some q => (s.chainEntry n q).isSome | none => true))) &&
  (List.range 4).all (fun a => !bitN w (8 + a) || (s.axSt a == 1 && !s.userArmed (a / 2) (axUser a)))

/-- The parameter rules of SVC_START that need more than the parameter (R306, Table SV-6). -/
def svcStartParam (s : State) (v w : Nat) (l : List (Nat × Nat)) : Bool :=
  let val := fun i => svcGiven v l i 0
  svcRelation v val &&
  (v != 3 ||
    let drum := ((List.range 4).find? (bitN w)).getD 0
    let per := s.spoolPer drum (val 9).toNat
    decide (per ≤ 2 ^ 31 - 1) && decide (2 * val 10 < per))

/-- A station's position as the services know it (R16). -/
def svcPos (s : State) (n : Nat) : Int := if s.svcReaches n then s.get (stnB n) F.PF_POS_POS else s.get (stnB n) H.mbPos

/-- Auto-spool begins: the axis user's timebase, the follow, slot 7 and its event (R306). -/
def spoolStart (s : State) (k : Nat) : State :=
  let st := s.nat (svcB k) F.SVC_STAT_STNS
  let drum := ((List.range 4).find? (bitN st)).getD 0
  let a := ((List.range 4).find? (bitN (s.nat (svcB k) F.SVC_STAT_AXES))).getD 0
  let h := a / 2
  let u := axUser a
  let tb := halfB h + 4 * u
  let x := s.get (stnB drum) F.PF_POS_POS
  let chk := s.svcU k 12
  let s := s.puts (axsB a) [(H.spSrc, s.get tb F.ASC_TB_SEL_SRC), (H.spStn, s.get tb F.ASC_TB_SEL_STN)]
  let s := s.puts (svcH k) [(H.svDrum, drum), (H.svAxis, a), (H.svX0, s.get (axsB a) F.AXS_POS_POS), (H.svChk0, if chk = 255 then 0 else s.svcPos chk), (H.svDev, 0)]
  let s := s.puts tb [(F.ASC_TB_SEL_SRC, 2), (F.ASC_TB_SEL_STN, drum % 2)]
  let s := s.axFollow a 1 drum (s.svcParam k 8) (s.spoolCounts drum)
  let s := if s.svcU k 11 % 2 = 1 then s.put (axsB a) H.axInv 1 else s
  let s := s.puts (ascB h u 7) [(F.ASC_PER_PER, s.spoolPer drum (s.svcU k 9)), (F.ASC_HYST_HYST, s.svcParam k 10)]
  s.evtArm h u 7 x 3 (a % 2) 2 true

/-- SVC_START of a checked service on handle `k`. A station in ARMED enters RUN; one in RUN waits for the next tick (R301). Load
shedding commands no station and takes none over (R309, DEDUCED, log entry 13). -/
def svcBegin (s : State) (k v w : Nat) (l : List (Nat × Nat)) : State :=
  let s := s.svcFree k
  let s := s.puts (svcB k) [(F.SVC_STAT_SERVICE, v), (F.SVC_STAT_STATE, 1), (F.SVC_STAT_STNS, w % 16), (F.SVC_STAT_AXES, w / 256 % 16)]
  let s := s.each (svcParams v) fun p s => s.putParam k p.ix (svcGiven v l p.ix p.dflt)
  let s := s.puts (svcH k) [(H.svOrig, w % 16), (H.svRx, s.time),
    (H.svPos0, s.svcPos (((List.range 4).find? (bitN w)).getD 0))]
  let s := if v = 6 then s
    else s.each ((List.range 4).filter (bitN w)) fun n s =>
      if s.mode n = mArmed then
        let kind := (svcKind v (s.svcParam k 8)).getD (if (s.chainEntry n 1).isSome then 1 else 0)
        (s.enterRun n 3 kind).put (stnB n) F.STN_STAT_HANDLE k
      else s.orBits (svcH k) H.svTake (2 ^ n)
  if v = 3 then s.spoolStart k else s

/-! ### End -/

/-- Auto-spool's axis side ends once the drum is OFF (R306). -/
def spoolEnd (s : State) (k : Nat) : State := s.spoolOff (s.nat (svcH k) H.svAxis)

/-- The stop of SVC_STOP on those of a list of stations that the services reach and that have not left (R16); the host has commanded them, so that no
fallback stands (R297). -/
def svcStopOn (s : State) (k : Nat) (l : List Nat) : State :=
  s.each (l.filter fun n => s.svcReaches n) fun n s =>
    if bitN (s.nat (svcH k) H.svLeft) n then s.svcDrop k n
    else ((s.svcDrop k n).put (stnB n) F.STN_STAT_FB_ACTIVE 0).stopStation n (s.nat (svcH k) H.svTy)

/-- SVC_STOP of a running service with a stop type (R302, R309, R85). -/
def svcStop (s : State) (k ty : Nat) : State :=
  let s := s.completeAll 0x40 k stOK 0
  if s.get (svcB k) F.SVC_STAT_SERVICE == 6 then (s.put (svcB k) F.SVC_STAT_STATE 3).put (svcH k) H.svEnd 1
  else
    let l := s.svcStations k
    let s := (s.puts (svcH k) [(H.svWait, s.get (svcB k) F.SVC_STAT_STNS), (H.svTake, 0), (H.svTy, ty)]).put (svcB k) F.SVC_STAT_STATE 3
    s.svcStopOn k l

/-- A service in its end: the stations that its stop has not reached yet take it; SVC_STOP completes when all its stations have reached OFF,
with FAULTED when one is in FAULT; the handle of auto-spool waits for the drum (R302, R306). -/
def svcStopping (s : State) (k : Nat) : State :=
  let s := s.svcStopOn k (s.svcStations k)
  let w := s.nat (svcH k) H.svWait
  let l := (List.range 4).filter (bitN w)
  let off := l.all fun n => s.mode n == mOff
  let bad := l.any fun n => s.mode n == mFault
  let s := if bad then s.completeAll 0x42 k stFaulted 0 else s
  if s.get (svcB k) F.SVC_STAT_SERVICE == 3 then
    if s.mode (s.nat (svcH k) H.svDrum) = mOff then ((s.spoolEnd k).completeAll 0x42 k stOK 0).svcFree k else s
  else if off then (s.completeAll 0x42 k stOK 0).svcFree k
  else if bad then s.svcFree k
  else s

/-- Every service ends with REGION_DOWN (R303): no half has held the token for 1 ms, or SH is out of service. A service ends on
its stations with a ramp stop (DEDUCED, log entry 13). -/
def svcAllDown (s : State) : State :=
  s.each ((List.range 16).filter fun k => s.svcLive k) fun k s =>
    let l := if s.get (svcB k) F.SVC_STAT_SERVICE == 6 then [] else (s.svcStations k).filter fun n => !bitN (s.nat (svcH k) H.svLeft) n
    let s := s.each (s.svcStations k) fun n s => s.svcDrop k n
    let s := s.each l fun n s => s.stopStation n 0
    s.svcEnd k stRegionDown

/-- SERVICE_TOKEN_TIMEOUT. -/
def tokenTimeout (s : State) : State := if s.master = 0 then s.svcAllDown else s

/-! ### Outputs (R300) -/

/-- What the services receive from the stations they reach; the values of the others stay as last received (R16). -/
def svcHear (s : State) : State :=
  s.each (s.stations.filter fun n => s.svcReaches n) fun n s =>
    let b := stnB n
    s.puts b [(H.mbIstar, s.get b H.istarOut), (H.mbSpeed, s.speedPu n), (H.mbSp, s.outOr0 (n / 2) (s.spSlot n)), (H.mbPos, s.get b F.PF_POS_POS),
      (H.mbVdc, s.get (halfB (n / 2)) H.vdcf), (H.mbRun, b2i (s.mode n == mRun))]

/-- A station's output; it takes it when it is owned and reached. -/
def svcOut (s : State) (k n : Nat) (v : Int) : State :=
  let b := stnB n
  if s.svcReaches n && s.get b F.STN_STAT_SOURCE == 3 && s.nat b F.STN_STAT_HANDLE == k then s.put b H.hostCmd (satS 32 v) else s

/-- Stations in RUN taken over at this tick, with I* preset to its present value; the command stays until the service gives one. -/
def svcTakeOver (s : State) (k : Nat) : State :=
  let v := s.nat (svcB k) F.SVC_STAT_SERVICE
  let l := (List.range 4).filter fun n => bitN (s.nat (svcH k) H.svTake) n && s.svcReaches n
  s.each l fun n s =>
    let b := stnB n
    let s := s.clrBits (svcH k) H.svTake (2 ^ n)
    if s.mode n ≠ mRun then s
    else
      let kind := match svcKind v (s.svcParam k 8) with | some q => (q : Int) | none => s.get b F.STN_STAT_KIND
      let s := s.completeSet n stAborted fun _ => true
      (s.puts b [(F.STN_STAT_SOURCE, 3), (F.STN_STAT_HANDLE, k), (F.STN_STAT_KIND, kind), (F.STN_STAT_FB_ACTIVE, 0),
        (H.hostCmd, if kind = 2 then s.cmdPosNow n else s.cmdNow n)]).presetIstar n (s.get b H.istar)

/-- A limit was active in this tick. -/
def svcLimit (s : State) (k : Nat) (v : Bool) : State := if v then s.bump (svcB k) F.SVC_CNT_LIMITS else s

/-- Byte `i` and those above it as a number of `n` bytes, least significant first (DEDUCED, log entry 13). -/
def leNum (d : List Byte) (i n : Nat) : Nat := ((d.drop i).take n).foldr (fun (x : Byte) (a : Nat) => x.toNat + 256 * a) 0

/-- Frames of the service partitions in order of reception, each with its controller. -/
def svcFrames (s : State) : List (Nat × RxEnt) :=
  (s.cans.filter fun c => s.halfReached (c % 2)).flatMap fun c => (s.ownedIn c false).map fun e => (c, e)

/-- The frames that match an identifier word on a set of controllers. -/
def svcMatch (fs : List (Nat × RxEnt)) (idw ctls : Nat) : List RxEnt :=
  (fs.filter fun x => bitN ctls x.1 && x.2.fr.id.toNat == idw % 2 ^ 29 && x.2.fr.ide == bitN idw 29).map (·.2)

/-- The newest of the frames, by reception tick. -/
def newest (l : List RxEnt) : Option RxEnt :=
  l.foldl (fun (m : Option RxEnt) e => match m with
    | none => some e
    | some x => some (if x.tick ≤ e.tick then e else x)) none

/-- A cause of a service: an entry of its first station (R310). -/
def svcFirst (s : State) (k : Nat) : Nat := (s.svcStations k).headD (((List.range 4).find? (bitN (s.nat (svcH k) H.svOrig))).getD 0)

/-! ### Constant tension and payout (R304, R305) -/

/-- s_o: the sign of payout. -/
def payout (s : State) (k i : Nat) : Int := if s.svcParam k i = 1 then 1 else -1

/-- T of R304, pu32; a tension slot that is not reached stays as last received. -/
def tension (s : State) (k : Nat) : Int :=
  let src := s.svcU k 13
  if src = 0 then
    let sum := (s.svcStations k).foldl (fun (t : Int) n => t + s.get (stnB n) H.mbIstar) 0
    let q := asr (s.svcParam k 14 * sum * 2048) 16
    sat32 (q * -(s.payout k 15))
  else if s.svcReaches (s.svcFirst k) then s.slotOut (s.svcFirst k / 2) (src - 0x40)
  else s.get (svcB k) F.SVC_MEAS_MEAS

/-- A command toward its target, `acc` away from zero and `dec` toward it, over one tick of 100 µs. -/
def rampCmd (cur tgt acc dec : Int) : Int :=
  let a := rateStep acc 40000
  let d := rateStep dec 40000
  if cur > 0 ∧ tgt < cur then toward cur (max 0 tgt) d
  else if cur < 0 ∧ tgt > cur then toward cur (min 0 tgt) d
  else toward cur tgt a

/-- Service 1. -/
def svcTension (s : State) (k : Nat) : State :=
  let t := s.tension k
  let e := t - s.svcParam k 8
  let band := s.svcParam k 9
  let kt := s.svcParam k 10
  let so := s.payout k 15
  let x1 := asr (kt * (e - band)) 16
  let x2 := asr (kt * (-e - band)) 16
  let v := if e > band then so * min x1 (s.svcParam k 11) else if e < -band then -so * min x2 (s.svcParam k 12) else 0
  let sub : Int := if e > band then 1 else if e < -band then 2 else 0
  let lim := (decide (e > band) && decide (x1 > s.svcParam k 11)) || (decide (e < -band) && decide (x2 > s.svcParam k 12))
  let acc := s.svcParam k 16
  let o := sat32 (toward (s.get (svcH k) H.svVr) v (rateStep acc 40000))
  let s := (s.puts (svcB k) [(F.SVC_STAT_SUB, sub), (F.SVC_OUT_OUT, o), (F.SVC_MEAS_MEAS, satS 32 t)]).put (svcH k) H.svVr o
  (s.each (s.svcStations k) fun n s => s.svcOut k n o).svcLimit k lim

/-- Service 2. A difference or sum of pu32 quantities saturates (R4). -/
def svcPayout (s : State) (k : Nat) : State :=
  let t := s.tension k
  let so := s.payout k 15
  let f := s.svcFirst k
  let tgt := if s.svcParam k 9 = 1 then s.get (stnB f) H.mbSp else s.svcParam k 8
  let tmax := s.svcParam k 18
  let tmin := s.svcParam k 19
  let slack := s.on (svcH k) H.svSlack && decide (t < sat32 (tmin + tdiv tmin 8))
  let vr0 := s.get (svcH k) H.svVr
  let vr1 := if slack && decide (so * tgt > 0) && decide (so * vr0 ≥ 0) then 0 else rampCmd vr0 tgt (s.svcParam k 16) (s.svcParam k 17)
  let nowSlack := decide (so * vr1 > 0) && decide (t < tmin)
  let vr := if nowSlack then 0 else vr1
  let hold := nowSlack || (slack && decide (so * tgt > 0) && decide (so * vr ≥ 0))
  let over' := decide (so * vr < 0) && decide (t > tmax)
  let o := if hold then 0
    else if over' then sat32 (so * min (so * vr + asr (s.svcParam k 10 * sat32 (t - tmax)) 16) (s.svcParam k 11))
    else vr
  let s := (s.puts (svcB k) [(F.SVC_STAT_SUB, if hold then 3 else 0), (F.SVC_OUT_OUT, o), (F.SVC_MEAS_MEAS, satS 32 t)]).puts (svcH k)
    [(H.svVr, vr), (H.svSlack, b2i (nowSlack || slack))]
  (s.each (s.svcStations k) fun n s => s.svcOut k n o).svcLimit k (hold || over')

/-! ### Auto-spool (R306) -/

/-- SPOOLDEV: the drum makes a stop of type FSTOP. -/
def spoolDev (s : State) (k : Nat) : State :=
  if s.get (svcB k) F.SVC_STAT_SERVICE == 3 && s.get (svcB k) F.SVC_STAT_STATE != 3 then
    let d := s.nat (svcH k) H.svDrum
    let ty := s.svcU k 1
    let s := s.stnRaise d (stnCode d 2 0xA8)
    let s := (s.svcDrop k d).stopStation d ty
    (s.put (svcH k) H.svWait (2 ^ d)).svcEnd k stAborted
  else s

/-- Service 3, on a drum that is reached: the layer, and the carriage deviation. -/
def svcSpool (s : State) (k : Nat) : State :=
  let a := s.nat (svcH k) H.svAxis
  let sector := s.get (ascH (a / 2) (axUser a) 7) H.ascSector
  let s := s.puts (svcB k) [(F.SVC_MEAS_MEAS, satS 32 (s.svcParam k 11 + sector)), (F.SVC_OUT_OUT, s.cmdNow (s.nat (svcH k) H.svDrum))]
  let chk := s.svcU k 12
  if chk = 255 then s
  else
    let x := wrap48 (s.get (axsB a) F.AXS_POS_POS - s.get (svcH k) H.svX0)
    let c := wrap48 (s.get (stnB chk) H.mbPos - s.get (svcH k) H.svChk0)
    let dev := asr (c * s.svcParam k 13) 16 - x
    let bad := decide ((if dev < 0 then -dev else dev) > s.svcU k 14)
    let n := if bad then s.get (svcH k) H.svDev + 1 else 0
    let s := s.put (svcH k) H.svDev (min 3 n)
    if n ≥ 3 then s.spoolDev k else s

/-! ### Heave following (R307) -/

/-- HEAVELOSS: no frame for `T_MRU`. -/
def heaveLoss (s : State) (k : Nat) : State :=
  if s.get (svcB k) F.SVC_STAT_SERVICE == 4 && s.get (svcB k) F.SVC_STAT_STATE != 3 && !s.on (svcH k) H.svLost then
    let n := s.svcFirst k
    ((s.puts (svcH k) [(H.svLost, 1), (H.svLossN, n)]).put (svcB k) F.SVC_STAT_SUB 4).stnRaise n (stnCode n 2 0xA9)
  else s

/-- The frames of a motion reference: the newest usable one is taken, and ends a loss. -/
def heaveFrames (s : State) (k : Nat) (fs : List RxEnt) : State :=
  let w := s.svcU k 9
  let oh := w / 256 % 64
  let ov := w / 65536 % 64
  let fits (e : RxEnt) : Bool := decide (max oh ov + 4 ≤ dlcLen e.fr.fdf e.fr.dlc.val)
  let s := s.bumpBy (svcB k) F.SVC_CNT_BAD ((fs.filter fun e => !fits e).length)
  match newest (fs.filter fits) with
  | none => s
  | some e =>
    let n := s.svcFirst k
    let x := s.nat (svcH k) H.svLossN
    let lost := s.on (svcH k) H.svLost
    let s := s.puts (svcH k) [(H.svH, sgnN 32 (leNum e.fr.data oh 4)), (H.svHv, sgnN 32 (leNum e.fr.data ov 4)), (H.svRx, e.tick),
      (H.svHave, 1), (H.svLost, 0)]
    if lost then
      let s := s.unraise (stnU x) (stnCode x 2 0xA9)
      s.put (svcH k) H.svPos0 (s.get (stnB n) H.mbPos)
    else s

/-- Service 4. -/
def svcHeave (s : State) (k : Nat) (fs : List (Nat × RxEnt)) : State :=
  let s := s.heaveFrames k (svcMatch fs (s.svcU k 8) (s.svcU k 9 % 16))
  let n := s.svcFirst k
  let so := s.payout k 18
  let lost := s.on (svcH k) H.svLost
  let hv := if lost then 0 else s.get (svcH k) H.svHv
  let hp := s.get (svcH k) H.svH * 400000000 + hv * ((s.time : Int) - s.get (svcH k) H.svRx)
  let corr := so * tdiv (hp * s.svcParam k 10) (400000000 * 65536)
  let pos := s.get (stnB n) H.mbPos
  let vop := s.svcParam k 17
  let pos0 := if vop ≠ 0 then pos - corr else s.get (svcH k) H.svPos0
  let gain := s.svcParam k 15
  let tgtG := if lost then 0 else gain
  let g := toward (s.get (svcH k) H.svG) (tgtG * 65536) (max 1 (tdiv (gain * 65536) (10 * max 1 (s.svcParam k 14))))
  let target := pos0 + corr
  let vc := so * asr (hv * s.svcParam k 11) 16
  let raw := asr (tdiv g 65536 * (vc + asr (s.svcParam k 12 * (target - pos)) 16)) 16
  let vm := s.svcParam k 16
  let o := clampI (-vm) vm raw + vop
  let s := (s.puts (svcH k) [(H.svPos0, pos0), (H.svG, g)]).puts (svcB k) [(F.SVC_STAT_SUB, if lost then 4 else 0), (F.SVC_OUT_OUT, satS 32 o),
    (F.SVC_MEAS_MEAS, satS 32 (target - pos))]
  (s.each (s.svcStations k) fun n s => s.svcOut k n o).svcLimit k (decide (raw > vm) || decide (raw < -vm))

/-! ### Thruster command (R308) -/

/-- PMSLOSS: no power-limit frame for `T_PMS`. -/
def pmsLoss (s : State) (k : Nat) : State :=
  if s.get (svcB k) F.SVC_STAT_SERVICE == 5 && s.get (svcB k) F.SVC_STAT_STATE != 3 && !s.on (svcH k) H.svLost then
    let n := s.svcFirst k
    (s.puts (svcH k) [(H.svLost, 1), (H.svLossN, n)]).stnRaise n (stnCode n 2 0xAA)
  else s

/-- The power-limit frames. -/
def pmsFrames (s : State) (k : Nat) (fs : List RxEnt) : State :=
  let o := s.svcU k 14 / 256 % 64
  let fits (e : RxEnt) : Bool := decide (o + 2 ≤ dlcLen e.fr.fdf e.fr.dlc.val)
  let s := s.bumpBy (svcB k) F.SVC_CNT_BAD ((fs.filter fun e => !fits e).length)
  match newest (fs.filter fits) with
  | none => s
  | some e =>
    let n := s.nat (svcH k) H.svLossN
    let lost := s.on (svcH k) H.svLost
    let s := s.puts (svcH k) [(H.svPlim, sat32 (tdiv (leNum e.fr.data o 2 * 2 ^ 24) (max 1 (s.svcU k 15)))), (H.svRx, e.tick), (H.svHave, 1),
      (H.svLost, 0)]
    if lost then s.unraise (stnU n) (stnCode n 2 0xAA) else s

/-- The leader of KIND 1: the lowest-numbered station of the service in RUN, as the services know it. -/
def svcLeader (s : State) (k : Nat) : Option Nat := (s.svcStations k).find? fun n => s.on (stnB n) H.mbRun

/-- Service 5. Before the first power-limit frame, and until `T_PMS` has passed without one, no limit stands (log entry 13). -/
def svcThruster (s : State) (k : Nat) (fs : List (Nat × RxEnt)) : State :=
  let s := s.pmsFrames k (svcMatch fs (s.svcU k 13) (s.svcU k 14 % 16))
  let hb := svcH k
  let acc := s.svcParam k 11
  let dec := s.svcParam k 12
  let p := sat32 ((s.svcStations k).foldl (fun (t : Int) n => t + max 0 (asr (s.get (stnB n) H.mbIstar * s.get (stnB n) H.mbSpeed) 13)) 0)
  let plim := if s.on hb H.svLost then s.svcParam k 17 else s.get hb H.svPlim
  let lim := (s.on hb H.svLost || s.on hb H.svHave) && decide (p > plim)
  let s := s.each (s.svcStations k) fun n s =>
    let tgt := if s.svcParam k 9 = 1 then s.get (stnB n) H.mbSp else s.svcParam k 10
    let cr := rampCmd (s.get (hb + 8 * n) H.svCr) tgt acc dec
    let co := s.get (hb + 8 * n) H.svCo
    let co := if lim then tdiv (co * max 0 plim) p else rampCmd co cr acc dec
    let co := if cr ≥ 0 then clampI 0 cr co else clampI cr 0 co
    s.puts (hb + 8 * n) [(H.svCr, cr), (H.svCo, co)]
  let lead := s.svcLeader k
  let f := s.svcFirst k
  let co (s : State) (n : Nat) : Int := s.get (hb + 8 * n) H.svCo
  let s := s.puts (svcB k) [(F.SVC_STAT_SUB, if lim then 5 else 0), (F.SVC_OUT_OUT, co s (if s.svcParam k 8 = 1 then lead.getD f else f)),
    (F.SVC_MEAS_MEAS, satS 32 p)]
  let s := s.svcLimit k lim
  if s.svcParam k 8 = 0 then s.each (s.svcStations k) fun n s => s.svcOut k n (co s n)
  else
    match lead with
    | none => s
    | some m =>
      let fresh := s.nat hb H.svLead != m + 1
      let owned := s.svcReaches m && s.get (stnB m) F.STN_STAT_SOURCE == 3
      let s := if fresh && owned then
          ((s.put hb H.svLead (m + 1)).put (stnB m) F.STN_STAT_KIND 1).presetIstar m (s.get (stnB m) H.istar)
        else s
      let i := s.get (stnB m) H.mbIstar * 2048
      let s := s.svcOut k m (co s m)
      s.each ((s.svcStations k).filter (· != m)) fun n s =>
        let s := if s.svcReaches n && s.get (stnB n) F.STN_STAT_SOURCE == 3 && s.get (stnB n) F.STN_STAT_KIND != 0 then
            (s.put (stnB n) F.STN_STAT_KIND 0).presetIstar n (s.get (stnB n) H.istar) else s
        s.svcOut k n i

/-! ### Load shedding (R309) -/

/-- SHED_KEEP_END. -/
def shedKeepEnd (s : State) (k : Nat) : State :=
  if s.get (svcB k) F.SVC_STAT_SERVICE == 6 then s.put (svcH k) H.svKeep 0 else s

/-- Service 6: the triggers, the hold and the rise of the factor, which is kept in units of 1/2560 so that a tick of 100 µs adds its tenth of
`RESTORE` whole. -/
def svcShed (s : State) (k : Nat) (fs : List (Nat × RxEnt)) : State :=
  let hb := svcH k
  let src := s.svcU k 8
  let idw := s.svcU k 9
  let stop := s.on hb H.svEnd
  let frame := bitN src 0 && !(svcMatch fs idw (idw / 2 ^ 28)).isEmpty
  let low := bitN src 1 && (s.svcStations k).any fun n => decide (s.get (stnB n) H.mbVdc < s.svcParam k 10)
  let cmd := bitN src 2 && s.svcParam k 12 == 1
  let trig := !stop && (frame || low || cmd)
  let was := s.on hb H.svTrig
  let keep := !stop && !trig && (if was then s.svcParam k 13 != 0 else s.on hb H.svKeep)
  let full : Int := 83886080
  let fac := if trig || keep then min (s.get hb H.svFac) (s.svcParam k 11 * 2560) else min full (s.get hb H.svFac + s.svcParam k 14 * 256)
  let fac := if trig then min full (s.svcParam k 11 * 2560) else fac
  let s := s.puts hb [(H.svTrig, b2i trig), (H.svKeep, b2i keep), (H.svFac, fac)]
  let s := s.puts (svcB k) [(F.SVC_STAT_SUB, if fac < full then 6 else 0), (F.SVC_OUT_OUT, fac / 2560)]
  let s := s.svcLimit k (decide (fac < full))
  let l := s.svcStations k
  let s := s.each (l.filter fun n => s.svcReaches n) fun n s => s.putShed n
  if stop && decide (fac = full) then
    let s := s.each l fun n s => s.svcDrop k n
    (s.completeAll 0x42 k stOK 0).svcFree k
  else s

/-! ### The tick (R300, R302) -/

/-- Parameters accepted since the last tick take effect together. -/
def svcApply (s : State) : State :=
  let l := s.svcNew
  let s := { s with svcNew := [] }
  s.each l fun e s => if s.svcLive e.1 then s.putParam e.1 e.2.1 e.2.2 else s

/-- One running service. -/
def svcRun (s : State) (k : Nat) (fs : List (Nat × RxEnt)) : State :=
  let v := s.nat (svcB k) F.SVC_STAT_SERVICE
  if v = 6 then s.svcShed k fs
  else if s.get (svcB k) F.SVC_STAT_STATE == 3 then s.svcStopping k
  else
    let s := s.svcTakeOver k
    match v with
    | 1 => s.svcTension k
    | 2 => s.svcPayout k
    | 3 => if s.svcReaches (s.nat (svcH k) H.svDrum) then s.svcSpool k else s
    | 4 => s.svcHeave k fs
    | _ => s.svcThruster k fs

/-- A master that reads at its tick that it is no longer holder becomes FOLLOWER (R382). -/
def roleCheck (s : State) : State :=
  s.each (s.halves.filter fun h => s.halfRun h && s.get (halfB h) F.SUP_MST_ROLE == 1 && s.master != h + 1) fun h s =>
    s.put (halfB h) F.SUP_MST_ROLE 2

/-- SERVICE_TICK at tick `t`: the master half updates every running service, in handle order; the frames of the service partitions
are consumed (R300, R341, R382). -/
def svcTick (s : State) (t : Nat) : State :=
  let s := s.advance t
  let s := if s.shRun then s.roleCheck else s
  let m := s.master
  if !s.shRun || m = 0 || !s.halfRun (m - 1) || s.isolated (m - 1) then s
  else
    let fs := s.svcFrames
    let s := s.svcHeard.svcHear.svcApply
    let s := s.each (List.range 16) fun k s => if s.svcLive k then s.svcRun k fs else s
    let s := s.each (s.cans.filter fun c => s.halfReached (c % 2)) fun c s => s.canConsume c
    s.each (s.halves.filter fun h => s.halfRun h) fun h s => s.putK h

end State

end Sys2Proof.Machine
end

