-- ==== Sys2Proof/Machine/RegMap.lean ====
section
/-!
DEFINITION. The register space (R5 to R9, R18, R19): which register stands at an address, what a read of a word returns, what it
clears and which shadow it loads.
-/
namespace Sys2Proof.Machine

/-! ### Decoding an address (R19) -/

/-- A word of a register: the unit's number, the copy's number and base address, the register and the word's index in it. -/
structure Hit where
  unit : Nat
  idx  : Nat
  b    : Nat
  d    : RegD
  j    : Nat
  deriving DecidableEq, Repr

/-- The word is its register's highest, which completes a multi-word quantity (R9). -/
def Hit.top (x : Hit) : Bool := x.j + 1 == x.d.words

/-- Copy and word index of register `d` of the unit at `b` at address `a`. -/
def RegD.at? (d : RegD) (b a : Nat) : Option (Nat × Nat) :=
  let o := a - (b + d.off)
  if a < b + d.off then none
  else if d.count ≤ 1 then (if o < 4 * d.words then some (0, o / 4) else none)
  else if o / d.stride < d.count ∧ o % d.stride < 4 * d.words then some (o / d.stride, o % d.stride / 4)
  else none

/-- The register of a list that stands at an address. -/
def hitIn (unit b a : Nat) (l : List RegD) : Option Hit :=
  l.findSome? fun d => (d.at? b a).map fun x => { unit := unit, idx := x.1, b := b + d.stride * x.1, d := d, j := x.2 }

/-- `CHIP_TIME_LO` and `CHIP_TIME_HI`: the arbiter's count (R22). -/
def chipTimeF : Fld := { off := 0x10, lo := 0, w := 64, sgn := false, dflt := 0 }

/-- `CHIP_TIME` as a register of two words. -/
def chipTimeReg : RegD := { area := .abs, off := 0x10, words := 2, count := 1, stride := 0, flds := [⟨chipTimeF, .ro, none, false⟩] }

/-- The parameters in force of the sixteen services (R311). -/
def svcParamReg : RegD :=
  { area := .abs, off := 0x11000, words := 1, count := 2048, stride := 4, flds := [⟨F.SVC_PARAM_VAL, .ro, none, false⟩] }

/-- The member words of a sharing group (Table LS-11). -/
def gmemReg : RegD :=
  { area := .abs, off := 0x51040, words := 1, count := 16, stride := 8,
    flds := [⟨F.HBD_GMEM_POS, .ro, none, true⟩, ⟨F.HBD_GMEM_STN, .ro, none, true⟩] }
def gmem1Reg : RegD :=
  { area := .abs, off := 0x51044, words := 1, count := 16, stride := 8, flds := [⟨F.HBD_GMEM1_COEF, .ro, none, true⟩] }

/-- The snapshot addresses of a trigger (Table ER-5). -/
def taddrReg : RegD :=
  { area := .abs, off := 0x30104, words := 1, count := 26, stride := 4, flds := [⟨F.REC_TADDR_ADDR, .ro, none, true⟩] }

/-- The register of the shared region at an address. The place of trigger 0, which Table ER-5 does not have, holds none. -/
def findChip (a : Nat) : Option Hit :=
  if 0x11000 ≤ a ∧ a < 0x13000 then hitIn 0 0 a [svcParamReg]
  else if 0x51000 ≤ a ∧ a < 0x51800 ∧ 0x40 ≤ a % 0x100 then hitIn ((a - 0x51000) / 0x100) (State.grpB ((a - 0x51000) / 0x100)) a [gmemReg, gmem1Reg]
  else if 0x30100 ≤ a ∧ a < 0x30180 then none
  else if 0x30180 ≤ a ∧ a < 0x30900 ∧ a % 0x80 ≠ 0 then hitIn ((a - 0x30100) / 0x80) (recT ((a - 0x30100) / 0x80)) a [taddrReg]
  else if 0x10 ≤ a ∧ a < 0x18 then hitIn 0 0 a [chipTimeReg]
  else hitIn 0 0 a R.chipRegs

/-- The register of half `h` at an address. -/
def findHalf (h a : Nat) : Option Hit :=
  let o := a - halfB h
  if 0x20000 ≤ o ∧ o < 0x40000 then
    let n := 2 * h + (o - 0x20000) / 0x10000
    match hitIn n (stnB n) a R.stnRegs with
    | some x => some x
    | none => hitIn h (serB h) a R.serialRegs
  else if 0x40000 ≤ o ∧ o < 0x60000 then
    let n := 2 * h + (o - 0x40000) / 0x10000
    hitIn n (axsB n) a R.axisRegs
  else if 0x70000 ≤ o ∧ o < 0x90000 then
    let c := h + 2 * ((o - 0x70000) / 0x10000)
    hitIn c (canB c) a R.canRegs
  else hitIn h (halfB h) a R.halfRegs

/-- The region whose map holds an address, when one does: 0 SH, 1 HA, 2 HB (R6, R19). The shared region's map is taken as its areas of Table
AR-5, so that 0x0007_0000 to 0x000E_FFFF lies outside every map (DESIGN CHOICE, log entry 72). -/
def regionAt (a : Nat) : Option Nat :=
  if a < 0x70000 then some 0
  else if 0xF0000 ≤ a ∧ a < 0x100000 then some 0
  else if 0x1000000 ≤ a ∧ a < 0x2000000 then some 1
  else if 0x2000000 ≤ a ∧ a < 0x3000000 then some 2
  else none

/-- The register at an address; none where the map holds no register. -/
def findReg (a : Nat) : Option Hit :=
  match regionAt a with
  | some 0 => findChip a
  | some r => findHalf (r - 1) a
  | none => none

/-- The place in the image of the table word that a read-only window shows at an address (Tables FC-5, AX-8, LE-6). -/
def tableAt (a : Nat) : Option Nat :=
  match regionAt a with
  | none | some 0 => none
  | some r =>
    let h := r - 1
    let o := a - halfB h
    if 0x20000 ≤ o ∧ o < 0x40000 ∧ 0x8000 ≤ o % 0x10000 ∧ o % 0x10000 < 0x8100 then
      some (0x8000 + 0x100 * (2 * h + (o - 0x20000) / 0x10000) + (o % 0x10000 - 0x8000))
    else if 0x40000 ≤ o ∧ o < 0x60000 ∧ 0x1000 ≤ o % 0x10000 ∧ o % 0x10000 < 0x2000 then
      some (0x11000 + 0x1000 * (2 * h + (o - 0x40000) / 0x10000) + (o % 0x10000 - 0x1000))
    else if 0x40000 ≤ o ∧ o < 0x60000 ∧ 0x2000 ≤ o % 0x10000 ∧ o % 0x10000 < 0x3000 then
      some (0x15000 + 0x1000 * (2 * h + (o - 0x40000) / 0x10000) + (o % 0x10000 - 0x2000))
    else if 0x14000 ≤ o ∧ o < 0x14000 + 0x200 * 48 ∧ o % 0x100 < 0x84 then
      some (0x9000 + 0x4000 * h + 0x88 * ((o - 0x14000) / 0x200) + 0x2000 * (o / 0x100 % 2) + o % 0x100)
    else none

/-- A gain-table word, which exists only with the G law (R2, R93). -/
def gainOff (off : Nat) : Bool := decide (0x9000 ≤ off ∧ off < 0x11000)

namespace State

/-! ### What a read shows -/

/-- The entries of a unit exist. -/
def listed (s : State) (u : FUnit) : Bool := s.flt.list.any (·.unit == u)

/-- A bitmap over unit numbers. -/
def bitsOf (l : List Nat) (p : Nat → Bool) : Nat := l.foldl (fun a i => a + bitAt (p i) i) 0

/-- Felt records are all in use (R396). -/
def feltFull (s : State) : Bool := decide (512 ≤ s.feltUsed)

/-- Two images differ in the words of byte offsets `lo … hi − 1`. -/
def imageDiff (a b : Sparse) (lo hi : Nat) : Bool :=
  (a.filter fun e => lo / 4 ≤ e.1 && decide (e.1 < hi / 4)) != (b.filter fun e => lo / 4 ≤ e.1 && decide (e.1 < hi / 4))

/-- The chip-time triggers of the slot whose `LEN_SST` stands at an address count in its `MISS` before a read (R245). -/
def settleAt (s : State) (a : Nat) : State :=
  s.each s.halves fun h s =>
    let o := a - (halfB h + 0x11000)
    if halfB h + 0x11000 ≤ a ∧ o < 0x1800 ∧ o % 0x80 = 0x40 then s.settleSlot h (o / 0x80) else s

/-- Registers of the halves that show what other parts of the state hold: the command as it stands (R242), the bootstrap voltages (R182), and
whether the braking limit of either station is below `I_REGEN` (R204). -/
def viewHalf (s : State) (a : Nat) : State :=
  let s := s.each s.stations fun n s =>
    let b := stnB n
    if a = b + 0x4 then s.put b F.STN_CMD_CMD (s.cmdNow n)
    else if a = b + 0x3020 then
      s.put b F.GC_STAT_BS_OK (bitsOf [0, 1, 2] fun leg => decide (s.bsRise n < s.bootNow n leg))
    else if a = b + 0x3028 then s.puts b [(F.GC_BSV_BSV_U, s.bootNow n 0), (F.GC_BSV_BSV_V, s.bootNow n 1), (F.GC_BSV_BSV_W, s.bootNow n 2)]
    else s
  s.each s.halves fun h s =>
    if a = halfB h + 0x60028 then
      s.flag (halfB h) F.BGD_STAT_REGEN_LIM ([2 * h, 2 * h + 1].any fun n => decide (s.regenLim n < s.get (halfB h) F.BGD_REGEN_I_REGEN))
    else s

/-- The state with the fields of one register that show another part of the state brought up to date, for a read at address `a`. -/
def view (s : State) (a : Nat) : State :=
  if a = 0x4 then
    s.puts 0 [(F.CHIP_STATUS_SH_RUN, b2i s.shRun), (F.CHIP_STATUS_HA_RUN, b2i (s.regionRun 1)), (F.CHIP_STATUS_HB_RUN, b2i (s.regionRun 2)),
      (F.CHIP_STATUS_HA_ISOL, b2i (s.isolated 0)), (F.CHIP_STATUS_HB_ISOL, b2i (s.isolated 1)), (F.CHIP_STATUS_READY, b2i s.chip.ready),
      (F.CHIP_STATUS_FAULT_SUM, b2i s.faultSum)]
  else if a = 0x10 ∨ a = 0x14 then s.put 0 chipTimeF s.time
  else if a = 0x18 then s.flag 0 F.CHIP_PINS_FAULT_PIN_LOW (s.faultSum || Config.faultWire s.time)
  else if a = 0x20 then
    s.puts 0 [(F.FLT_SUM_CHIP, b2i (s.listed .chip)),
      (F.FLT_SUM_REG, bitsOf [0, 1, 2] fun i => s.listed (.region (Fin.ofNat 3 i))),
      (F.FLT_SUM_STN, bitsOf [0, 1, 2, 3] fun i => s.listed (.stn (Fin.ofNat 4 i))),
      (F.FLT_SUM_AXS, bitsOf [0, 1, 2, 3] fun i => s.listed (.axs (Fin.ofNat 4 i))),
      (F.FLT_SUM_BGD, bitsOf [0, 1] fun i => s.listed (.bgd (Fin.ofNat 2 i))),
      (F.FLT_SUM_CAN, bitsOf [0, 1, 2, 3] fun i => s.listed (.can (Fin.ofNat 4 i))),
      (F.FLT_SUM_OVF, b2i (!s.flt.ovf.isEmpty)), (F.FLT_SUM_LASTING, b2i (s.flt.list.any (·.lasting)))]
  else if a = 0x60008 then
    s.puts 0 [(F.CHIP_SUPPLY_MEAS_VIN_MV, (Config.supplyMv (s.time / 4000)).1), (F.CHIP_SUPPLY_MEAS_VGD_MV, (Config.supplyMv (s.time / 4000)).2)]
  else if a = 0x60014 then s.put 0 F.CHIP_CLK_STAT_HOLDOVER (bitsOf [0, 1, 2] fun r => decide ((s.time : Int) < s.get (8 * r) H.holdEnd))
  else if a = 0x10008 then s.put 0 F.MIL_STAT_TAGS_IN_USE s.mil.busy.length
  else if a = 0x1000C then s.put 0 F.MIL_TAG_BUSY_LO_BUSY (bitsOf (List.range 32) fun i => s.mil.busy.any (·.tag == i))
  else if a = 0x10010 then s.put 0 F.MIL_TAG_BUSY_HI_BUSY (bitsOf (List.range 32) fun i => s.mil.busy.any (·.tag == i + 32))
  else if 0x20020 ≤ a ∧ a < 0x20060 then
    let p := (a - 0x20020) / 8
    let own := p == s.ownPos
    let x := s.peer p
    let inq := (x.inq.length : Int)
    s.puts (8 * p) [(F.MBX_QOUT_OUT_USED, if own then inq else x.outUsed), (F.MBX_QOUT_CREDIT, if own then 0 else 512 - x.inFlight),
      (F.MBX_QIN_IN_USED, if own then 0 else inq)]
  else if a = 0x30000 then
    s.puts 0 [(F.REC_STAT_FELT_USED, s.feltUsed), (F.REC_STAT_FELT_FULL, b2i s.feltFull), (F.REC_STAT_FLUSHING, b2i s.log.flush.isSome),
      (F.REC_STAT_FIFO_LVL, s.log.fifo.length), (F.REC_STAT_STG_LVL, s.log.staging.length)]
  else if a = 0x30004 then s.put 0 F.REC_NEXT_NEXT_C s.log.nextCirc
  else if 0x30100 ≤ a ∧ a < 0x30900 ∧ a % 0x80 = 0 then
    s.flag (a - 0x30100) F.REC_TCFG_FIXED (trigFixed.contains ((a - 0x30100) / 0x80))
  else if a = 0x40000 then
    s.puts 0 [(F.CFG_STAT_BUSY, b2i s.cfg.commit.isSome), (F.CFG_STAT_SEALED, b2i s.cfg.sealMark),
      (F.CFG_STAT_DIRTY, b2i (imageDiff s.cfg.staging s.cfg.inForce 0x40 0x20000)), (F.CFG_STAT_KEY_NEEDED, b2i (imageDiff s.cfg.staging s.cfg.inForce 0x40 0x3000))]
  else if a = 0xF000C then
    s.flag 0 F.TST_STAT_ACTIVE ([F.TST_SEL_A_TMA0, F.TST_SEL_A_TMA1, F.TST_SEL_A_TMA2, F.TST_SEL_A_TMA3, F.TST_SEL_D0_TMD0, F.TST_SEL_D0_TMD1,
      F.TST_SEL_D0_TMD2, F.TST_SEL_D0_TMD3, F.TST_SEL_D1_TMD4, F.TST_SEL_D1_TMD5, F.TST_SEL_D1_TMD6, F.TST_SEL_D1_TMD7].any (s.on 0))
  else
    s.each s.cans fun c s =>
      if a = canB c + 0x30 then
        s.puts (canB c) [(F.CAN_RXH_OLDEST, s.canOldest c), (F.CAN_RXH_HOST_OWNED, (s.ownedIn c true).length),
          (F.CAN_RXH_SVC_OWNED, (s.ownedIn c false).length)]
      else if a = canB c + 0x34 then s.put (canB c) F.CAN_TXBUSY_BUSY (s.txBusy c)
      else s
    |>.viewHalf a |>.settleAt a

/-- The field is the `LEN_ACC` of an O slot, whose two words are its observer state and no quantity of R9 (R253). -/
def obsAcc (s : State) (b : Nat) (f : Fld) : Bool := decide (f = F.LEN_ACC_ACC) && s.get b F.LEN_CFG_TYPE == 3

/-- The value of a register field; an O slot shows its observer state in place of the integrator (R253). -/
def fieldVal (s : State) (b : Nat) (f : Fld) : Int :=
  if s.obsAcc b f then s.get b H.slTl % 2 ^ 32 + 2 ^ 32 * (s.get b H.slWh % 2 ^ 32)
  else s.get b f

/-- Word `j` of a register: its fields at their bits; reserved bits read 0 (R6). The high word of a 48-bit signed quantity carries
the sign (R82). -/
def regWord (s : State) (x : Hit) : Nat :=
  if x.d.words = 1 then (x.d.flds.map fun d => ((s.fieldVal x.b d.f % 2 ^ d.f.w).toNat * 2 ^ d.f.lo)).foldl (· + ·) 0
  else (x.d.flds.map fun d => word32 (s.fieldVal x.b d.f / 2 ^ (32 * x.j))).foldl (· + ·) 0

/-- The register at an address belongs to a function present in the variant (R2). -/
def addrPresent (s : State) (a : Nat) : Bool :=
  match regionAt a with
  | some 2 => s.dual
  | _ => true

/-- The present value of the word at an address, with no side effect: 0 where no register stands, or where its function is absent. -/
def rdWord (s : State) (a : Nat) : Nat :=
  if !s.addrPresent a then 0
  else match findReg a with
    | some x => (s.view a).regWord x
    | none => match tableAt a with
      | some off => if gainOff off && !s.on 0 F.CHIP_ID_G_LAW then 0 else s.tabShown off
      | none => 0

/-- The region that holds an address runs; a region absent in the variant counts as the map it is not (R2). -/
def addrRuns (s : State) (a : Nat) : Bool :=
  match regionAt a with
  | some r => !s.addrPresent a || s.regionRun r
  | none => true

/-! ### READ_REG (R83, R5, R9) -/

/-- The RC fields of a register as a read sees them: before the events of its own clock (R7). -/
def beforeNow (s : State) (x : Hit) : State :=
  s.each x.d.flds fun d s => match s.marks.events s.time (d.f.key x.b) with
    | some e => if d.acc == .rc then s.put x.b d.f e.1 else s
    | none => s

/-- Clear the RC fields of a register to their reset values. The events of the read's own clock are kept for the next read (R7). -/
def clearRc (s : State) (x : Hit) : State :=
  s.each x.d.flds fun d s =>
    if d.acc == .rc then
      match s.marks.events s.time (d.f.key x.b) with
      | some e =>
        { s.put x.b d.f (min (2 ^ d.f.w - 1) (d.f.dflt + e.2)) with
          marks := { s.marks.at s.time with
            cnt := (d.f.key x.b, d.f.dflt, e.2) :: (s.marks.at s.time).cnt.filter (·.1 != d.f.key x.b) } }
      | none => s.put x.b d.f d.f.dflt
    else s

/-- The shadow key of a register: the bit address of its low word. -/
def shadowKey (x : Hit) : Nat := 8 * (x.b + x.d.off)

/-- The captured value of a multi-word quantity. -/
def shadow (s : State) (k : Nat) : Option Int := (s.shadows.find? (·.1 == k)).map (·.2)

/-- Capture a multi-word quantity. -/
def setShadow (s : State) (k : Nat) (v : Int) : State :=
  { s with shadows := (k, v) :: s.shadows.filter (·.1 != k) }

/-- READ_REG of one word: its value, and the state after the side effects of the read. -/
def readWord (s : State) (a : Nat) : Nat × State :=
  let w := s.rdWord a
  if !s.addrPresent a then (0, s)
  else match findReg a with
    | none => (w, s)
    | some x =>
      if x.d.words = 1 then (((s.view a).beforeNow x).regWord x, (s.settleAt a).clearRc x)
      else if x.d.flds.any fun d => s.obsAcc x.b d.f then (w, s)
      else
        let v := ((x.d.flds.head?.map fun d => (s.view a).fieldVal x.b d.f)).getD 0
        if x.j = 0 then (w, s.setShadow (shadowKey x) v)
        else match s.shadow (shadowKey x) with
          | some v => (word32 (v / 2 ^ (32 * x.j)), s)
          | none => (w, s)

/-- READ_REG of `n` words from `a`, in ascending order. -/
def readWords (s : State) (a : Nat) : Nat → List Nat × State
  | 0 => ([], s)
  | n + 1 =>
    let r := s.readWord a
    let q := r.2.readWords (a + 4) n
    (r.1 :: q.1, q.2)

end State

end Sys2Proof.Machine
end

