-- ==== Sys2Proof/Machine/RegRules.lean ====
section
/-!
DEFINITION. The checks of a register write (R83): stated ranges and reserved codes, the relations between fields, and the state rules.
The relations also serve the loading and the commit of a configuration (R92, R98).
-/
namespace Sys2Proof.Machine

/-- A relation between fields: the fields that take part in it, and whether it holds. -/
structure Rel where
  flds : List (Nat × Fld)
  ok   : State → Bool

namespace State

/-! ### Relations -/

/-- Every field is at its default. The defaults satisfy every check (R92). -/
def atDefault (s : State) (l : List (Nat × Fld)) : Bool := l.all fun x => s.get x.1 x.2 == x.2.dflt

/-- A relation holds of the values in force. The fit of the ring depends on the sharing groups too, so its fields' defaults do not meet it by
themselves (R270). -/
def relOk (s : State) (r : Rel) : Bool := (s.atDefault r.flds && !(r.flds.any fun x => x.2 == F.HBD_RING_NCHIP_M1)) || r.ok s

/-- Relations of one station block (R113, R116, R157, R159, R175, R200). -/
def stnRels (n : Nat) : List Rel :=
  let b := stnB n
  [⟨[(b, F.PF_LIM_LO_LIM_LO), (b, F.PF_LIM_HI_LIM_HI)], fun s => decide (s.get b F.PF_LIM_LO_LIM_LO ≤ s.get b F.PF_LIM_HI_LIM_HI)⟩,
   ⟨[(b, F.PWM_HPER_HPER), (b, F.PWM_PHASE_PHASE)], fun s => decide (s.get b F.PWM_PHASE_PHASE < 2 * s.get b F.PWM_HPER_HPER)⟩,
   ⟨[(b, F.PWM_HPER_HPER), (b, F.CS_SAMP_OFS)], fun s => decide (s.get b F.CS_SAMP_OFS < s.get b F.PWM_HPER_HPER)⟩,
   ⟨[(b, F.GC_CTRL_DMODE), (b, F.GC_CTRL_PSRC)], fun s => !(s.get b F.GC_CTRL_DMODE == 1 && s.on b F.GC_CTRL_PSRC)⟩,
   ⟨[(b, F.GC_VDS_VDS_TH), (b, F.GC_VDS_VDS_ABS)], fun s => decide (s.get b F.GC_VDS_VDS_TH < 40 + 20 * s.get b F.GC_VDS_VDS_ABS)⟩]

/-- Relations of a half's serial port (R122, R123). -/
def serRels (h : Nat) : List Rel :=
  let b := serB h
  [⟨[(b, F.PS_CTRL_PROTO), (b, F.PS_CTRL_CLK_DIV)], fun s => s.get b F.PS_CTRL_PROTO != 2 || decide (10 ≤ s.get b F.PS_CTRL_CLK_DIV)⟩,
   ⟨[(b, F.PS_CTRL_PROTO), (b, F.PS_FMT_ST_BITS), (b, F.PS_FMT_MT_BITS)], fun s =>
    decide (s.get b F.PS_FMT_ST_BITS + s.get b F.PS_FMT_MT_BITS ≤
      (match s.nat b F.PS_CTRL_PROTO with | 1 => 48 | 2 => 32 | _ => 56))⟩]

/-- Relations of an axis (R317, R318). -/
def axsRels (n : Nat) : List Rel :=
  let b := axsB n
  [⟨[(b, F.AXS_ISCALE_I_RUN), (b, F.AXS_ISCALE_I_HOLD)], fun s => decide (s.get b F.AXS_ISCALE_I_HOLD ≤ s.get b F.AXS_ISCALE_I_RUN)⟩,
   ⟨[(b, F.AXS_ISCALE_I_RUN), (b, F.AXS_OC_OC_MV)], fun s => decide (s.get b F.AXS_ISCALE_I_RUN < s.get b F.AXS_OC_OC_MV)⟩,
   ⟨[(b, F.AXS_CTRL_CLASS), (b, F.AXS_CTRL_STBY)], fun s => !(s.get b F.AXS_CTRL_CLASS == 1 && s.on b F.AXS_CTRL_STBY)⟩]

/-- At most two axes of the chip are guarded (R331). -/
def guardRel : Rel :=
  ⟨(List.range 4).map fun n => (axsB n, F.AXS_CTRL_GUARDED), fun s =>
    decide ((s.axes.filter fun n => s.on (axsB n) F.AXS_CTRL_GUARDED).length ≤ 2)⟩

/-- Clocks of a nominal and of a data bit (R337). -/
def nomBit (s : State) (b : Nat) : Int := (s.get b F.CAN_NBT_BRP + 1) * (3 + s.get b F.CAN_NBT_TSEG1 + s.get b F.CAN_NBT_TSEG2)
def datBit (s : State) (b : Nat) : Int := (s.get b F.CAN_DBT_DBRP + 1) * (3 + s.get b F.CAN_DBT_DTSEG1 + s.get b F.CAN_DBT_DTSEG2)

/-- Relations of a CAN controller (R337, R347). -/
def canRels (c : Nat) : List Rel :=
  let b := canB c
  let nom := [(b, F.CAN_NBT_BRP), (b, F.CAN_NBT_TSEG1), (b, F.CAN_NBT_TSEG2)]
  let dat := [(b, F.CAN_DBT_DBRP), (b, F.CAN_DBT_DTSEG1), (b, F.CAN_DBT_DTSEG2)]
  [⟨[(b, F.CAN_NBT_TSEG1)] ++ nom, fun s => decide (1 ≤ s.get b F.CAN_NBT_TSEG1)⟩,
   ⟨[(b, F.CAN_NBT_SJW), (b, F.CAN_NBT_TSEG2)], fun s => decide (s.get b F.CAN_NBT_SJW ≤ s.get b F.CAN_NBT_TSEG2)⟩,
   ⟨nom, fun s => decide (80 ≤ s.nomBit b)⟩,
   ⟨[(b, F.CAN_DBT_DSJW), (b, F.CAN_DBT_DTSEG2)], fun s => decide (s.get b F.CAN_DBT_DSJW ≤ s.get b F.CAN_DBT_DTSEG2)⟩,
   ⟨dat, fun s => decide (10 ≤ s.datBit b)⟩,
   ⟨dat ++ [(b, F.CAN_DBT_TDC_EN)], fun s => s.on b F.CAN_DBT_TDC_EN || decide (80 ≤ s.datBit b)⟩,
   ⟨nom ++ dat, fun s => decide (s.datBit b ≤ s.nomBit b)⟩,
   ⟨[(b, F.CAN_CTRL_TUN_EN), (b, F.CAN_CTRL_FD_EN)], fun s => !s.on b F.CAN_CTRL_TUN_EN || s.on b F.CAN_CTRL_FD_EN⟩]

/-- A signal code of Table LE-2. -/
def codeOk (v : Int) : Bool :=
  v == 0 || decide (0x10 ≤ v ∧ v ≤ 0x1A) || decide (0x20 ≤ v ∧ v ≤ 0x2A) || decide (0x30 ≤ v ∧ v ≤ 0x6F)

/-- A signal code that names an s48 signal (R240). -/
def code48 (v : Int) : Bool := v == 0x16 || v == 0x18 || v == 0x26 || v == 0x28

/-- `TPARAM` within the range of its trigger (R244). -/
def tparamOk (trig tp : Int) : Bool :=
  if trig = 1 then decide (5 ≤ tp) else if trig = 2 then decide (1 ≤ tp) else decide (1 ≤ tp ∧ tp ≤ 256)

/-- `TOPT` holds no reserved code of its type (Table LE-9). -/
def toptOk (type topt : Int) : Bool :=
  if type = 4 then topt % 4 != 0 else if type = 5 then topt % 4 != 3 else if type = 6 then topt / 2 % 4 != 3 else true

/-- The inputs fit the input mode (R240). -/
def inputsOk (s : State) (b : Nat) : Bool :=
  let ty := s.get b F.LEN_CFG_TYPE
  let inm := (ty == 1 || ty == 2) && bitN (s.nat b F.LEN_CFG_TOPT) 1
  let a := code48 (s.get b F.LEN_IN_IN_A)
  let c := code48 (s.get b F.LEN_IN_IN_B)
  ty == 0 || (!code48 (s.get b F.LEN_IN_IN_C) && !code48 (s.get b F.LEN_IN_IN_D) && (if inm then a && c else !a && !c))

/-- Relations and reserved codes of loop slot `m` of half `h` (R240, R244, R263, Table LE-5). A range or reserved code that depends on `TYPE` or
`TRIG` counts as a relation with that field, so at load both take their defaults (DESIGN CHOICE, log entry 97). -/
def slotRels (h m : Nat) : List Rel :=
  let b := slotB h m
  [F.LEN_IN_IN_A, F.LEN_IN_IN_B, F.LEN_IN_IN_C, F.LEN_IN_IN_D].map (fun f => ⟨[(b, f)], fun s => codeOk (s.get b f)⟩) ++
  [⟨[(b, F.LEN_CFG_TRIG), (b, F.LEN_CFG_TPARAM)], fun s => tparamOk (s.get b F.LEN_CFG_TRIG) (s.get b F.LEN_CFG_TPARAM)⟩,
   ⟨[(b, F.LEN_CFG_TYPE), (b, F.LEN_CFG_TOPT)], fun s => toptOk (s.get b F.LEN_CFG_TYPE) (s.get b F.LEN_CFG_TOPT)⟩,
   ⟨[(b, F.LEN_CFG_TYPE), (b, F.LEN_CFG_TOPT), (b, F.LEN_IN_IN_A), (b, F.LEN_IN_IN_B), (b, F.LEN_IN_IN_C), (b, F.LEN_IN_IN_D)],
     fun s => s.inputsOk b⟩,
   ⟨[(b, F.LEN_LO_LO), (b, F.LEN_HI_HI)], fun s => decide (s.get b F.LEN_LO_LO ≤ s.get b F.LEN_HI_HI)⟩,
   ⟨[(b, F.LEN_CFG_TYPE), (b, F.LEN_C00_C)], fun s => s.get b F.LEN_CFG_TYPE != 2 || decide (s.get b F.LEN_C00_C % 16 ≤ 10)⟩,
   ⟨[(b, F.LEN_CFG_TYPE), (b, F.LEN_C10_C)], fun s => s.get b F.LEN_CFG_TYPE != 2 || decide (s.get b F.LEN_C10_C % 16 ≤ 10)⟩]

/-- A slot number of `LEN_SNK` or `LEN_CHAIN` (R241). -/
def slotNoOk (v : Int) : Bool := decide (v < 48) || v == 63

/-- A slot may be the VD or VQ slot of station local `l` (R241). -/
def sinkOk (s : State) (h l : Nat) (v : Int) : Bool :=
  v == 63 || (decide (v < 48) &&
    (let b := slotB h v.toNat
     (s.get b F.LEN_CFG_TYPE == 1 || s.get b F.LEN_CFG_TYPE == 2) && s.get b F.LEN_CFG_TRIG == 0 && s.get b F.LEN_CFG_TPARAM == 1 &&
     s.nat b F.LEN_CFG_OWNER == l))

/-- Relations and reserved codes of the two stations' sink registers (R241). -/
def snkRels (h : Nat) : List Rel :=
  [0, 1].flatMap fun l =>
    let b := snkB h l
    ([F.LEN_SNK_VD_SLOT, F.LEN_SNK_VQ_SLOT].map fun f => (⟨[(b, f)], fun s => s.sinkOk h l (s.get b f)⟩ : Rel)) ++
    ([F.LEN_SNK_FF_SLOT, F.LEN_CHAIN_K0, F.LEN_CHAIN_K1, F.LEN_CHAIN_K2, F.LEN_CHAIN_SP_SLOT].map fun f =>
      ⟨[(b, f)], fun s => slotNoOk (s.get b f)⟩)

/-- Relations of a half's bus guard (R202, R206). -/
def bgdRels (h : Nat) : List Rel :=
  let b := halfB h
  let g : State → Nat → Fld → Int := State.get
  [⟨[(b, F.BGD_VTRIP_V_UV), (b, F.BGD_PRE_V_PRE), (b, F.BGD_VCHOP_V_CHOP), (b, F.BGD_VBRIM_V_BRIM), (b, F.BGD_VBRIM_V_BAND),
     (b, F.BGD_VTRIP_V_TRIP), (b, F.BGD_SCALE_VSCALE)], fun s =>
     decide (g s b F.BGD_VTRIP_V_UV < g s b F.BGD_PRE_V_PRE) && decide (g s b F.BGD_PRE_V_PRE < g s b F.BGD_VCHOP_V_CHOP) &&
     decide (g s b F.BGD_VCHOP_V_CHOP ≤ g s b F.BGD_VBRIM_V_BRIM - g s b F.BGD_VBRIM_V_BAND) && decide (1 ≤ g s b F.BGD_VBRIM_V_BAND) &&
     decide (g s b F.BGD_VBRIM_V_BRIM < g s b F.BGD_VTRIP_V_TRIP) && decide (g s b F.BGD_VTRIP_V_TRIP < g s b F.BGD_SCALE_VSCALE)⟩,
   ⟨[(b, F.BGD_VCHOP_CHOP_HYST), (b, F.BGD_VCHOP_V_CHOP), (b, F.BGD_PRE_V_PRE)], fun s =>
     decide (1 ≤ g s b F.BGD_VCHOP_CHOP_HYST ∧ g s b F.BGD_VCHOP_CHOP_HYST ≤ g s b F.BGD_VCHOP_V_CHOP - g s b F.BGD_PRE_V_PRE)⟩,
   ⟨[(b, F.BGD_CHOP_CH_OC), (b, F.BGD_CHOP_I_PRES)], fun s => decide (g s b F.BGD_CHOP_I_PRES < g s b F.BGD_CHOP_CH_OC)⟩]

/-- Relations of the ring (R270). -/
def ringRels : List Rel :=
  [⟨[(0, F.HBD_RING_NCHIP_M1), (0, F.HBD_RING_LMAX), (0, F.HBD_CYC_T_SC), (0, F.HBD_PUB_PUB), (0, F.HBD_PUB_MBX_WIN)], fun s => s.ringFits⟩]

/-- Relations of the external thermal inputs (Table BG-9). -/
def extRels : List Rel :=
  (List.range 4).map fun i =>
    ⟨[(4 * i, F.THM_EXT_CFG_T_X_START), (4 * i, F.THM_EXT_CFG_T_X_ZERO)], fun s =>
      decide (s.get (4 * i) F.THM_EXT_CFG_T_X_START < s.get (4 * i) F.THM_EXT_CFG_T_X_ZERO)⟩

/-- The relations that the registers of a hit may take part in. -/
def relsOf (x : Hit) : List Rel :=
  match x.d.area with
  | .abs => ringRels ++ extRels
  | .half => if decide (0x11000 ≤ x.d.off ∧ x.d.off < 0x14000) then slotRels x.unit x.idx else snkRels x.unit ++ bgdRels x.unit
  | .stn => stnRels x.unit
  | .stn0 => serRels x.unit
  | .axs => guardRel :: axsRels x.unit
  | .can => canRels x.unit

/-- A field of the register takes part in the relation. -/
def inRel (x : Hit) (r : Rel) : Bool := r.flds.any fun p => x.d.flds.any fun d => d.f.key x.b == p.2.key p.1

/-- A field with a stated range or with reserved codes holds a value it may hold. -/
def rangeOk (s : State) (b : Nat) (d : FD) : Bool :=
  match d.rng with
  | some r => decide (r.1 ≤ s.get b d.f ∧ s.get b d.f ≤ r.2)
  | none => true

/-- The write of a word leaves a value outside its range, a reserved code, or a broken relation (R83). A multi-word quantity is checked when its
highest word completes it; of a command that holds that word (`whole`), each of the quantity's words holds a field of its relations. -/
def paramBad (c : State) (x : Hit) (whole : Bool) : Bool :=
  (x.top && x.d.flds.any fun d => (d.acc == .rw || d.acc == .wk || d.acc == .ws) && !c.rangeOk x.b d) ||
  (whole && (relsOf x).any fun r => inRel x r && !c.relOk r)

/-! ### State rules (R83) -/

/-- A field of the unit at `b` changes. -/
def chg (s c : State) (b : Nat) (f : Fld) : Bool := s.get b f != c.get b f

/-- The station is in OFF, DIAG or ARMED. -/
def stnQuiet (s : State) (n : Nat) : Bool := s.mode n == mOff || s.mode n == mDiag || s.mode n == mArmed

/-- State rules of a station's registers (R107, R117, R145, R147, R157, R159, R174, R175, R200, R238). -/
def stnBad (s c : State) (n off : Nat) : Bool :=
  let b := stnB n
  match off with
  | 0x5000 => !s.stnQuiet n && (chg s c b F.PF_CTRL_MODE || chg s c b F.PF_CTRL_SRC || chg s c b F.PF_CTRL_DIR_INV)
  | 0x5028 => !s.stnQuiet n
  | 0x1000 => !s.stnQuiet n && (chg s c b F.COM_CTRL_LAW || chg s c b F.COM_CTRL_ASRC)
  | 0x1004 => s.mode n != mOff && chg s c b F.COM_MOTOR_PP
  | 0x1008 => !s.stnQuiet n
  | 0x2000 => !s.stnQuiet n && chg s c b F.PWM_CTRL_UPD2
  | 0x4000 => s.mode n != mOff && chg s c b F.CS_CTRL_MODE
  | 0x2004 => !s.stnQuiet n
  | 0x200C => s.mode n != mOff
  | 0x3000 => s.mode n != mOff
  | 0x3004 => s.mode n != mOff
  | 0x6000 => !s.stnQuiet n
  | 0x6004 => !s.stnQuiet n
  | _ => false

/-- A sink or chain entry of a station that drives (R239). -/
def slotInUse (s : State) (h m : Nat) : Bool :=
  [2 * h, 2 * h + 1].any fun n => s.namesSlot n m &&
    (s.mode n == mRun || s.mode n == mStopping || s.mode n == mCatch || s.mode n == mIsolated)

/-- A coefficient word of a slot may be written: not in the bank in force of a slot with a type, and no swap pending (R256). -/
def coefOpen (s : State) (h m bank : Nat) : Bool :=
  !bitN (s.nat (halfB h) F.LEN_SWAP_PENDING) (s.nat (slotB h m) F.LEN_CFG_GROUP) &&
  (s.get (slotB h m) F.LEN_CFG_TYPE == 0 || bank != s.bankOf h m)

/-- State rules of a slot's registers (R239, R256). -/
def slotBad (s c : State) (h m off : Nat) : Bool :=
  let b := slotB h m
  let old := s.get b F.LEN_CFG_TYPE
  let new := c.get b F.LEN_CFG_TYPE
  if off = 0x11000 then
    (old != 0 && new != 0 && old != new) || (old != 0 && new == 0 && s.slotInUse h m) || (old != 0 && chg s c b F.LEN_CFG_GROUP)
  else if 0x11010 ≤ off ∧ off < 0x11030 then !s.coefOpen h m ((off - 0x11010) / 16)
  else false

/-- State rules of a half's other registers (R133, R241, R257). -/
def halfBad (s c : State) (h idx off : Nat) : Bool :=
  if off = 0xA0000 then s.userArmed h idx
  else if off = 0x10020 ∨ off = 0x10024 then !s.stnQuiet (2 * h + idx)
  else if off = 0xB0000 then
    (chg s c (halfB h) F.SPT_CTRL_AMODE || chg s c (halfB h) F.SPT_CTRL_PMODE) &&
    (List.range 48).any fun m => s.get (slotB h m) F.LEN_CFG_TYPE == 6
  else slotBad s c h idx off

/-- A station of this chip leads a sharing group one of whose members on this chip runs from it. -/
def leadsRunning (s : State) (n : Nat) : Bool :=
  (List.range 8).any fun g => s.get (grpB g) F.HBD_GDEF_MODE == 2 && (s.grpMembers g).head?.map (fun m => (m.1, m.2.1)) == some (s.ownPos, n) &&
    (s.mode n == mRun || s.mode n == mStopping || s.mode n == mIsolated)

/-- State rules of the shared region's registers (R44, R284, R289). -/
def chipBad (s c : State) (off unit : Nat) : Bool :=
  match off with
  | 0x60000 => chg s c 0 F.CHIP_PWR_CTRL_VGD_SET && !s.stations.all fun n => s.mode n == mOff || s.mode n == mDiag
  | 0x50000 => s.on 0 F.HBD_CTRL_EN && chg s c 0 F.HBD_CTRL_TOPO
  | 0x50004 => s.on 0 F.HBD_CTRL_EN
  | 0x50008 => s.on 0 F.HBD_CTRL_EN
  | 0x5000C => s.stations.any fun n => bitN (s.nat 0 F.HBD_PUB_PUB) n && !bitN (c.nat 0 F.HBD_PUB_PUB) n &&
      ((s.mode n == mRun && s.get (stnB n) F.STN_STAT_SOURCE == 2) || s.leadsRunning n)
  | 0x51004 => !s.on (grpB unit) F.HBD_GDEF_LOCAL
  | _ => false

/-- State rules of an axis's registers (R312, R319, R332). -/
def axsBad (s c : State) (n off : Nat) : Bool :=
  let b := axsB n
  let st := s.axSt n
  match off with
  | 0x0 => chg s c b F.AXS_CTRL_CLASS && !((st == 1 && s.get b F.AXS_STAT_COIL % 3 == 0) || st == 7 || st == 0)
  | 0x4 => !(st == 0 || st == 1)
  | 0x8 => !(st == 0 || st == 1)
  | 0xC => !(st == 0 || st == 1)
  | 0x28 => st != 1
  | _ => false

/-- State rules of a CAN controller's registers (R338): the configuration registers are open only with EN at 0; a write of `CAN_CTRL`
that clears EN is how the controller is disabled. -/
def canBad (s c : State) (k off : Nat) : Bool :=
  s.on (canB k) F.CAN_CTRL_EN && decide (off ≤ 0x1C) && !(off == 0 && !c.on (canB k) F.CAN_CTRL_EN)

/-- A state rule forbids the write of a word. -/
def stateBad (s c : State) (x : Hit) : Bool :=
  match x.d.area with
  | .abs => chipBad s c x.d.off x.idx
  | .half => halfBad s c x.unit x.idx x.d.off
  | .stn => stnBad s c x.unit x.d.off
  | .stn0 => false
  | .axs => axsBad s c x.unit x.d.off
  | .can => canBad s c x.unit x.d.off

/-- The admission rule refuses a write of `LEN_CFG` that raises the committed load above 400 million cycles per second (R261). -/
def loadBad (s c : State) (x : Hit) : Bool :=
  x.d.area == .half && x.d.off == 0x11000 && decide (400000000 < c.committed x.unit) && decide (s.committed x.unit < c.committed x.unit)

/-- A write of a G slot's type to a part without the G law (R239). -/
def lawBad (s c : State) (x : Hit) : Bool :=
  x.d.area == .half && x.d.off == 0x11000 && c.get x.b F.LEN_CFG_TYPE == 2 && !s.on 0 F.CHIP_ID_G_LAW

/-- A written count lies outside the station's soft limits (R117). -/
def posBad (c : State) (x : Hit) : Bool :=
  x.d.area == .stn && x.d.off == 0x5028 && x.j == 1 &&
  !decide (c.get x.b F.PF_LIM_LO_LIM_LO ≤ c.get x.b F.PF_POS_POS ∧ c.get x.b F.PF_POS_POS ≤ c.get x.b F.PF_LIM_HI_LIM_HI)

/-- The word that makes a written quantity take effect: its highest (R9, DEDUCED, log entry 14). -/
def effective (x : Hit) : Bool := x.j + 1 == x.d.words

/-- The write of a word changes a field of an access type. -/
def chgAcc (s c : State) (x : Hit) (a : Acc) : Bool := effective x && x.d.flds.any fun d => d.acc == a && chg s c x.b d.f

/-- The first check that refuses the write of a word, as its status; 0 when none does (R83, Table PK-4). `c` is the state with every
word of the command at its new value. A word that breaks a rule of state and holds a reserved code answers STATE, `VGD_SET` too, of which
R62 says BAD_PARAM (R44; DESIGN CHOICE, log entry 115). -/
def wordCheck (s c : State) (x : Hit) (whole : Bool) : Nat :=
  if lawBad s c x then stBadTarget
  else if effective x && stateBad s c x then stState
  else if c.paramBad x whole || loadBad s c x || c.posBad x then stBadParam
  else if chgAcc s c x .wk && !s.on 0 F.CHIP_PINS_PRES_VALID then stNoKey
  else if chgAcc s c x .ws && s.cfg.sealMark then stSealed
  else 0

end State

end Sys2Proof.Machine
end

