-- ==== Sys2Proof/Machine/RegAccess.lean ====
section
/-!
DEFINITION. Writing registers: what each access type does with a written word (R5, R8, R9), and what a write starts in the block that owns
the register.
-/
namespace Sys2Proof.Machine.State

/-! ### A word into its fields -/

/-- The low word of a writable quantity that waits for its high word (R9). -/
def heldLow (s : State) (k : Nat) : Option Int := (s.held.find? (·.1 == k)).map (·.2)

/-- Word `w` written to a register: RW, WK and WS fields take their bits, a W1C bit clears where `w1` has 1 (R7), RO and RC fields ignore it.
The low word of a two-word quantity is held until the high word completes it (R9); a high word with no low word held joins the present low
word (DESIGN CHOICE, log entry 78). The two words of an O slot's `LEN_ACC` are no such quantity (R253). -/
def storeWord (s : State) (x : Hit) (w w1 : Nat) : State :=
  if x.d.words = 1 then
    s.each x.d.flds fun d s =>
      match d.acc with
      | .rw | .wk | .ws => s.put x.b d.f (bitsN w d.f.lo d.f.w)
      | .w1c => s.clrSeen x.b d.f (bitsN w1 d.f.lo d.f.w)
      | .ro | .rc => s
  else
    let k := shadowKey x
    s.each x.d.flds fun d s =>
      match d.acc with
      | .rw | .wk | .ws =>
        if s.obsAcc x.b d.f then s.put x.b (if x.j = 0 then H.slTl else H.slWh) (sgnN 32 w)
        else if x.j = 0 then { s with held := (k, (w : Int)) :: s.held.filter (·.1 != k) }
        else
          let lo := (s.heldLow k).getD (s.fieldVal x.b d.f % 2 ^ 32)
          { s.put x.b d.f (lo + 2 ^ 32 * w) with held := s.held.filter (·.1 != k) }
      | _ => s

/-! ### What a write starts -/

/-- `TOPT` keeps the bits that its type has; the others are reserved and read 0 (Table LE-9, R6). -/
def toptMask (type topt : Nat) : Nat :=
  match type with
  | 1 => topt &&& 2
  | 2 => topt &&& 3
  | 4 => topt &&& 3
  | 5 => topt &&& 3
  | 6 => topt &&& 7
  | _ => 0

/-- Coefficient word `w` of a bank keeps the bits that its slot's type has; the others are reserved and read 0 (Table LE-5, R6). -/
def coefMask (type w : Nat) : Nat :=
  match type, w with
  | 0, _ | 3, 0 | 3, 1 | 3, 2 | 6, 0 | 6, 1 | 6, 3 => 0xFFFFFFFF
  | 1, 0 | 5, 1 | 5, 2 | 6, 2 => 0x7FFFFFFF
  | 2, 0 => 0xFF
  | 3, _ | 5, 0 => 0xFFFF
  | _, _ => 0

/-- The reserved bits of a slot's type options and coefficient words are 0 (R6). -/
def maskSlot (s : State) (h m : Nat) : State :=
  let b := slotB h m
  let ty := s.nat b F.LEN_CFG_TYPE
  let s := s.put b F.LEN_CFG_TOPT (toptMask ty (s.nat b F.LEN_CFG_TOPT))
  s.each [(F.LEN_C00_C, 0), (F.LEN_C01_C, 1), (F.LEN_C02_C, 2), (F.LEN_C03_C, 3), (F.LEN_C10_C, 0), (F.LEN_C11_C, 1), (F.LEN_C12_C, 2),
    (F.LEN_C13_C, 3)] fun x s => s.put b x.1 (andI (s.get b x.1 % 2 ^ 32) (coefMask ty x.2))

/-- LEN_CFG_WRITE: chip-time triggers up to the write count by the settings before it (R245); a slot that leaves type 0 takes its reset state; a slot
switched off drops its waiting work and holds its output (R239, R255, R261); a selector switched off has no losing candidates any more (R251). -/
def slotConfigured (s old : State) (h m : Nat) : State :=
  let b := slotB h m
  let ty := s.nat b F.LEN_CFG_TYPE
  let o := old.settleSlot h m
  let s := (s.maskSlot h m).puts b [(H.slReq, o.get b H.slReq), (H.slReqT, o.get b H.slReqT), (H.slTrigT, o.get b H.slTrigT),
    (F.LEN_SST_MISS, o.get b F.LEN_SST_MISS)]
  let s := if chg old s b F.LEN_CFG_TRIG || chg old s b F.LEN_CFG_TPARAM then s.put b H.slTrigT s.time else s
  let s := if old.get b F.LEN_CFG_TYPE == 4 && ty != 4 then s.putLosers h m [] else s
  let s := if old.get b F.LEN_CFG_TYPE == 0 && ty != 0 then s.resetSlot h m else s
  let s := if ty = 0 then s.puts b [(H.slReq, 0), (H.slPre, 0), (H.slCnt, 0)] else s
  s.putLoad h

/-- HOST_WATCHDOG_ARM: a write of `MIL_HOST_WD` arms the watchdog and starts its interval, or disarms it (R81). -/
def armWatchdog (s : State) : State :=
  if s.on 0 F.MIL_HOST_WD_TIMEOUT_MS then (s.put 0 H.wdStart s.time).withMil fun m => { m with wdArmed := true }
  else s.withMil fun m => { m with wdArmed := false }

/-- A write of `CLASS`: OFF with 0, else IDLE with the coils in standby; an axis in FAULT stays there, and one with faults enters it (R312, Table
AX-4). -/
def axisClass (s : State) (n : Nat) : State :=
  let b := axsB n
  if s.get b F.AXS_CTRL_CLASS == 0 then (s.axCoil n 0).put b F.AXS_STAT_STATE 0
  else if s.axSt n = 7 then (if s.get b F.AXS_CTRL_CLASS == 2 then s else s.axCoil n 0)
  else if (s.faultsOf (axsU n)).isEmpty then (s.put b F.AXS_STAT_STATE 1).axStandby n
  else s.axToFault n

/-- AXS_POS_WRITE: the count and the reference position are set, as a jump for the scheduler (R319, R142). -/
def axisPosSet (s : State) (n : Nat) : State :=
  ((s.put (axsB n) H.axR (s.get (axsB n) F.AXS_POS_POS * q40)).axLag n).ascJumped (n / 2) (2 + n % 2)

/-- A write of `BGD_CTRL`: CHG falls with `CH_EN` = 0, and PRE stays low with `PRE_EN` = 0 (R205, R210). -/
def guardWritten (s : State) (h : Nat) : State :=
  let s := if s.on (halfB h) F.BGD_CTRL_CH_EN then s else s.chgLow h
  if s.on (halfB h) F.BGD_CTRL_PRE_EN then s else s.put (halfB h) F.BGD_STAT_PRE_DONE 0

/-- What the write of a word does beyond its fields. `old` is the state before the command. -/
def afterWrite (s old : State) (x : Hit) : State :=
  let n := x.unit
  match x.d.area with
  | .abs =>
    if x.d.off = 0x60000 then
      if chg old s 0 F.CHIP_PWR_CTRL_VGD_SET then s.put 0 F.CHIP_PWR_STAT_VGD_OK 0 else s
    else if x.d.off = 0x10004 then s.armWatchdog
    else if x.d.off = 0x3000C then s.trigger 0 15 (s.nat 0 F.REC_SOFT_SOFT)
    else if x.d.off = 0x50000 then
      if chg old s 0 F.HBD_CTRL_EN then s.hatEnable (s.on 0 F.HBD_CTRL_EN) else s
    else if x.d.off = 0x50004 ∨ x.d.off = 0x50008 ∨ x.d.off = 0x5000C then s.putRing.strapCheck
    else if x.d.off = 0x60110 then s.each (s.stations.filter fun n => s.halfRun (n / 2)) fun n s => s.putExt n
    else s
  | .half =>
    if x.d.off = 0x11000 then s.slotConfigured old n x.idx
    else if 0x11010 ≤ x.d.off ∧ x.d.off < 0x11030 then s.maskSlot n x.idx
    else if x.d.off = 0x60000 then s.guardWritten n
    else s
  | .stn =>
    let b := stnB n
    if x.d.off = 0x5000 then
      let s := s.rpFollow (n / 2)
      if chg old s b F.PF_CTRL_MODE || chg old s b F.PF_CTRL_SRC || chg old s b F.PF_CTRL_DIR_INV then s.startAcq n true else s
    else if x.d.off = 0x5028 then (if x.j = 1 then s.ascJumped (n / 2) (n % 2) else s)
    else if x.d.off = 0x1008 then s.put b F.COM_STAT_OFS_VALID 1
    else if x.d.off = 0x6000 then
      (if s.on b F.OBS_CTRL_OBS_EN then s else s.puts b [(F.OBS_STAT_LOCKED, 0), (H.obsRestart, 1), (H.lockRun, 0), (H.weakRun, 0)])
    else if x.d.off = 0x6018 then s.putSlow n
    else if x.d.off = 0x2004 ∨ x.d.off = 0x2008 then (if s.on b H.syncP then s else s.rephase n)
    else s
  | .stn0 =>
    if x.d.off = 0x5800 ∨ x.d.off = 0x5804 then
      if old.get (serB n) F.PS_CTRL_PROTO != s.get (serB n) F.PS_CTRL_PROTO || old.get (serB n) F.PS_FMT_ST_BITS != s.get (serB n) F.PS_FMT_ST_BITS ||
         old.get (serB n) F.PS_FMT_MT_BITS != s.get (serB n) F.PS_FMT_MT_BITS then s.put (serB n) H.psHave 0 else s
    else if x.d.off = 0x5900 then s.rpWritten n
    else s
  | .axs =>
    if x.d.off = 0x0 then (if chg old s (axsB n) F.AXS_CTRL_CLASS then s.axisClass n else s)
    else if x.d.off = 0x28 then (if x.j = 1 then s.axisPosSet n else s)
    else s
  | .can =>
    if x.d.off = 0x0 then
      if !chg old s (canB n) F.CAN_CTRL_EN then s
      else if s.on (canB n) F.CAN_CTRL_EN then (s.put (canB n) F.CAN_CTRL_EN 0).canEnable n
      else (s.put (canB n) F.CAN_CTRL_EN 1).canDisable n
    else if 0x100 ≤ x.d.off then s.keepFilters old n
    else s

/-- After the seal, a direct write that changes a WK field leaves a WK_WRITE record (R103, Table ER-4). `src` is the transport, 0 to 3,
with the tag at bit 8. -/
def wkRecord (s old : State) (x : Hit) (a src : Nat) : State :=
  if s.cfg.sealMark && chgAcc old s x .wk then s.trigger 0 14 0 [a, old.rdWord a, s.rdWord a, src] else s

/-! ### Commands that write -/

/-- The words of a write that meet a register of a function that is present: index in the command, address, value and register. -/
def writeHits (s : State) (a : Nat) : Nat → List Nat → List (Nat × Nat × Nat × Hit)
  | _, [] => []
  | i, w :: ws =>
    let rest := s.writeHits (a + 4) (i + 1) ws
    if !s.addrPresent a then rest
    else match findReg a with
      | some x => (i, a, w, x) :: rest
      | none => rest

/-- The state with every word of a write at its new value. -/
def candidate (s : State) (hs : List (Nat × Nat × Nat × Hit)) : State :=
  s.each hs fun e s => s.storeWord e.2.2.2 e.2.2.1 e.2.2.1

/-- The words of a command hold the highest word of a hit's register. -/
def wholeIn (hs : List (Nat × Nat × Nat × Hit)) (x : Hit) : Bool := hs.any fun e => e.2.2.2.top && e.2.2.2.b == x.b && e.2.2.2.d.off == x.d.off

/-- The first refused word of a write, as its status and index (R83). -/
def writeCheck (s : State) (a : Nat) (ws : List Nat) : Option (Nat × Nat) :=
  let hs := s.writeHits a 0 ws
  let c := s.candidate hs
  hs.findSome? fun e =>
    let st := s.wordCheck c e.2.2.2 (wholeIn hs e.2.2.2)
    if st = 0 then none else some (st, e.1)

/-- The words of an accepted write take effect in ascending address order (R83). -/
def writeWords (s : State) (a : Nat) (ws : List Nat) (src : Nat) : State :=
  s.each (s.writeHits a 0 ws) fun e s =>
    let x := e.2.2.2
    ((s.storeWord x e.2.2.1 e.2.2.1).afterWrite s x).wkRecord s x e.2.1 src

/-- The word that a MODIFY_REG stores (R8). -/
def mergeWord (before mask v : Nat) : Nat := (before ||| mask) - mask + (v &&& mask)

/-- MODIFY_REG's check of its one word. -/
def modifyCheck (s : State) (a mask v : Nat) : Nat :=
  if !s.addrPresent a then 0
  else match findReg a with
    | none => 0
    | some x => s.wordCheck (s.storeWord x (mergeWord (s.rdWord a) mask v) (v &&& mask)) x x.top

/-- MODIFY_REG's locked write; W1C bits outside the mask stay (R8). -/
def modifyWord (s : State) (a mask v src : Nat) : State :=
  if !s.addrPresent a then s
  else match findReg a with
    | none => s
    | some x => ((s.storeWord x (mergeWord (s.rdWord a) mask v) (v &&& mask)).afterWrite s x).wkRecord s x a src

/-- A write of one register word through WRITE_REG, as the register-write rows of the table name it: refused words change nothing. -/
def regWrite (s : State) (a : Nat) (ws : List Nat) : State :=
  if (regionAt a).isNone || !s.addrRuns a then s
  else match s.writeCheck a ws with
    | some _ => s
    | none => s.writeWords a ws 0

end Sys2Proof.Machine.State
end

