-- ==== Sys2Proof/Machine/Recorder.lean ====
section
/-!
DEFINITION. The event recorder (chapter 19): capture of a trigger into a staged record, the NVA writer with its token bucket, the flush,
the start-up scan, and reading.
-/
namespace Sys2Proof.Machine

/-! ### Records (R390) -/

/-- A list of words, filled with 0 to `n`. -/
def padWords (n : Nat) (l : List Nat) : List Nat := (l ++ List.replicate n 0).take n

/-- The 32 words of a record (Table ER-3). -/
def Recd.words (r : Recd) : List Nat :=
  let ws := [r.seq] ++ u64Words r.tick ++
    [r.trig + (if r.redir then 64 else 0) + (if r.part then 128 else 0) + 256 * r.data.length + 8192 * r.region + 65536 * r.code,
     r.rep + 65536 * r.lost + 16777216 * r.rseq] ++ padWords 26 r.data
  ws ++ [crcWords ws]

namespace State

/-! ### Capture (R389, R391, R392) -/

/-- The snapshot list of a trigger. -/
def trigAddrs (s : State) (t : Nat) : List Nat :=
  (List.range (min 26 (s.nat (recT t) F.REC_TCFG_N))).map fun i => s.nat (recT t + 4 * i) F.REC_TADDR_ADDR

/-- The region that holds a listed address runs at capture (R389); SH does so in the flush of a RESET_N that found it running (R48 Step 4). -/
def capRuns (s : State) (a : Nat) : Bool := s.addrRuns a || (s.log.flushSh && s.log.flush.isSome && regionAt a == some 0)

/-- A listed register in a record: 0 where its region does not run (R389). -/
def snapWord (s : State) (a : Nat) : Nat := if s.capRuns a then s.rdWord a else 0

/-- The record of a trigger as its capture starts. -/
def composeRec (s : State) (x : Trig) : Recd :=
  let fixed := trigContent.contains x.trig
  let l := if fixed then [] else s.trigAddrs x.trig
  { felt := x.felt, seq := if x.felt then s.log.nextFelt else s.log.nextCirc, tick := x.tick, trig := x.trig, redir := x.redir,
    part := l.any fun a => !s.capRuns a, region := x.region, code := x.code, rep := 0, lost := min 255 s.log.pendLost, rseq := x.rseq,
    data := if fixed then x.data else l.map s.snapWord }

/-- The next number of an area is spent. -/
def takeSeq (l : Recorder) (felt : Bool) : Recorder :=
  if felt then { l with nextFelt := l.nextFelt + 1 } else { l with nextCirc := (l.nextCirc + 1) % 2 ^ 32 }

/-- The area of a trigger whose capture starts: by the FELT setting at this time (R388). A felt record that it found at its entry is its own; one
that was not felt-bound then takes a free one, or is redirected (R396). -/
def feltAt (s : State) (x : Trig) : Trig :=
  let bound := s.trigFelt x.trig x.code
  let felt := bound && (x.felt || (!x.redir && decide (s.feltUsed < 512)))
  { x with felt := felt, redir := bound && !felt }

/-- A trigger leaves the FIFO: a repeat of a staged record, or a record of its own, numbered as it enters the staging buffer. -/
def stageTrig (s : State) (x : Trig) : State :=
  if s.log.staging.any (repeats x.trig x.region x.code) then s.addRepeat x.trig x.region x.code
  else
    let x := s.feltAt x
    let r := s.composeRec x
    let s := s.withLog fun l => takeSeq { l with staging := l.staging ++ [r], pendLost := 0 } x.felt
    if x.redir then s.bump 0 F.REC_CNT_REDIR else s

/-- The oldest trigger leaves the FIFO and is staged. -/
def recPop (s : State) : State :=
  match s.log.fifo with
  | [] => s
  | x :: rest => (s.withLog fun l => { l with fifo := rest }).stageTrig x

/-- RECORD_CAPTURE: the oldest trigger leaves the FIFO while the staging buffer has room (R389, R393). -/
def recCapture (s : State) : State :=
  if (!s.shRun && s.log.flush.isNone) || 64 ≤ s.log.staging.length then s else s.recPop

/-! ### The NVA writer (R393, R396) -/

/-- The slot of the circulating region that a number takes, and so that of the record 2048 numbers older (R396). -/
def circSlot (q : Nat) : Nat := q % 2048

/-- The circulating region once the slot of a record is being written: what stood there is gone (R396, R400). -/
def circWithout (l : Recorder) (q : Nat) : Recorder := { l with circ := l.circ.filter fun x => circSlot x.seq != circSlot q }

/-- A record stands in its NVA area (R396). -/
def nvaPut (s : State) (r : Recd) : State :=
  s.withLog fun l =>
    if r.felt then { l with felt := l.felt ++ [r] }
    else { circWithout l r.seq with circ := (circWithout l r.seq).circ ++ [r] }

/-- VIN is lost during a flush: the record being written, the oldest staged one, stays incomplete. It fails its CRC, so that no list of valid records
holds it, and what stood in its slot is gone (R53, R397; DEDUCED, log entry 112). -/
def tornWrite (s : State) : State :=
  if s.log.flush.isNone || s.oos .recorder then s
  else match s.log.staging with
    | [] => s
    | r :: _ => s.withLog fun l => if r.felt then l else circWithout l r.seq

/-- RECORD_NVA_WRITE: the oldest staged record is written; outside a flush a circulating write spends a token. -/
def recWrite (s : State) : State :=
  if s.oos .recorder || s.chip.phase == .off || s.chip.phase == .asleep then s
  else match s.log.staging with
    | [] => s
    | r :: rest =>
      if r.felt || s.log.flush.isSome then (s.withLog fun l => { l with staging := rest }).nvaPut r
      else if s.log.bucket = 0 then s
      else (s.withLog fun l => { l with staging := rest, bucket := l.bucket - 1 }).nvaPut r

/-- RECORDER_BUCKET_REFILL: one token per millisecond, 64 at most; the writer runs on while SH is out (R15, R395). -/
def recRefill (s : State) : State :=
  if s.chip.phase == .off || s.chip.phase == .asleep then s else s.withLog fun l => { l with bucket := min 64 (l.bucket + 1) }

/-- The stages of Table ER-1 go on: what waits in the FIFO is captured as far as the staging buffer has room, and its oldest record is written as
far as the tokens go (R393). -/
def recAdvance (s : State) : State := (s.each (List.range s.log.fifo.length) fun _ s => s.recCapture).recWrite

/-- What waits in the FIFO and in the staging buffer is captured and written, as far as the tokens go. -/
def recDrain (s : State) : State := s.each (List.range (s.log.fifo.length + s.log.staging.length)) fun _ s => s.recAdvance

/-- A felt record of a commit cannot have been written yet: the recorder block is out of service (Table FH-3), or a circulating record ahead of it
waits for a token (R393; DEDUCED, log entry 104). -/
def feltWaits (s : State) : Bool := s.oos .recorder || !(s.recDrain.log.fifo.isEmpty && s.recDrain.log.staging.isEmpty)

/-- The felt record that a commit or seal has reserved (R102, R103). It passes the stages of Table ER-1 behind what waits there, which cannot take
it, and it has been written when Step 5 of Table CF-6 ends (DEDUCED, log entry 104). -/
def feltRecord (s : State) (t : Nat) (data : List Nat) : State :=
  ((s.recDrain.withLog fun l => { l with reserved := l.reserved - 1 }).trigger 0 t 0 data).recDrain

/-! ### Flush (R394) -/

/-- A trigger of SH that enters the FIFO whatever it holds, while SH restarts too: the flush's own record (R394, R395). -/
def ownTrigger (s : State) (t code : Nat) : State :=
  if !s.trigOn t then s
  else
    let q := s.log.rseq.toList.getD 0 0
    s.withLog fun l => { l with rseq := l.rseq.setIfInBounds 0 ((q + 1) % 256), fifo := (l.fifo ++
      [{ trig := t, region := 0, code := code, tick := s.time, rseq := q, felt := s.trigFelt t code && decide (s.feltUsed < 512),
         redir := s.trigFelt t code && decide (512 ≤ s.feltUsed), data := [] }]) }

/-- A flush starts: the lost-count word says "unknown" until it ends. -/
def startFlush (s : State) (k : FlushKind) : State := s.withLog fun l => { l with flush := some k, lostWord := 0xFFFFFFFF }

/-- The flush's own record, last in the FIFO until it is captured: POWER_FAIL, or the FAULT record of the shutdown. -/
def ownOf (k : FlushKind) (l : List Trig) : List Trig :=
  (l.drop (l.length - 1)).filter fun x =>
    match k with
    | .powerFail => x.trig == 8
    | .shutdown => x.trig == 1 && x.code == 0x4072
    | .reset | .sleep => false

/-- The oldest trigger leaves the FIFO in a flush: captured while the staging buffer has free space, else lost (R394 Step 2). -/
def flushPop (s : State) : State :=
  if s.log.staging.length < 64 then s.recPop else (s.withLog fun l => { l with fifo := l.fifo.drop 1 }).loseTrig 1

/-- The work of a flush: capture what the staging buffer has room for, count the rest as lost, add the flush's own record, and write the
staging buffer out in order. -/
def flushWork (s : State) (k : FlushKind) : State :=
  let own := ownOf k s.log.fifo
  let s := s.each (List.range (s.log.fifo.length - own.length)) fun _ s => s.flushPop
  let s := s.each own fun _ s => s.recPop
  let s := if s.oos .recorder then s
    else (s.each s.log.staging fun r s => s.nvaPut r).withLog fun l => { l with staging := [] }
  s.withLog fun l => { l with flush := none, flushSh := false, lostWord := min l.pendLost 0xFFFFFFFE }

/-! ### Start-up (R397, Table ER-4) -/

/-- The scan of both areas: the next numbers follow the records held, and those that a restricted start-up has staged (R397). -/
def recScan (s : State) : State :=
  s.withLog fun l => { l with
    nextFelt := (l.felt ++ l.staging.filter (·.felt)).foldl (fun a r => max a (r.seq + 1)) 0,
    nextCirc := (((l.circ ++ l.staging.filter (!·.felt)).getLast?.map fun r => (r.seq + 1) % 2 ^ 32)).getD 0 }

/-- The recorder at a chip reset: what was not in the NVA is lost, and the start-up scan follows. -/
def recReset (s : State) : State :=
  (s.withLog fun l => { l with
    fifo := [], staging := [], bucket := 64, pendLost := 0, halfLost := Vector.replicate 2 0,
    rseq := Vector.replicate 3 0, reserved := 0, flush := none, flushSh := false }).recScan

/-- The START record at the end of start-up; the lost-count word returns to 0. -/
def startRecord (s : State) : State :=
  let d := [s.rdWord 0x6000C, s.rdWord 0x2C, s.rdWord 0x40004, s.rdWord 0x0, s.rdWord 0x18, s.rdWord 0x20008, s.log.lostWord]
  (s.trigger 0 9 (s.rdWord 0x6000C % 8192) d).withLog fun l => { l with lostWord := 0 }

/-- The START record of a region restart: words 0, 1 and 6 are 0. -/
def restartRecord (s : State) (r : Nat) : State :=
  s.trigger r 9 0 [0, 0, s.rdWord 0x40004, s.rdWord 0x0, s.rdWord 0x18, s.rdWord 0x20008, 0]

/-! ### Reading (R398) -/

/-- The records of an area, oldest first: in the NVA, then still staged. -/
def areaRecs (s : State) (area : Nat) : List Recd :=
  if area = 0 then s.log.felt ++ s.log.staging.filter (·.felt) else s.log.circ ++ s.log.staging.filter (!·.felt)

/-- REC_READ: up to `n` records from the oldest whose number is not behind `first`; the number after the last, then the records. -/
def recRead (s : State) (area first n : Nat) : List Nat :=
  let l := ((s.areaRecs area).filter fun r => decide (0 ≤ wrap32 ((r.seq : Int) - first))).take n
  let next := match l.getLast? with
    | some r => (r.seq + 1) % 2 ^ 32
    | none => if area = 0 then s.log.nextFelt else s.log.nextCirc
  next :: l.flatMap Recd.words

end State

end Sys2Proof.Machine
end

