-- ==== Sys2Proof/Machine/CfgStore.lean ====
section
/-!
DEFINITION. The configuration store (chapter 5): images and their records, the checks of R92, loading a region's values, reading and
staging, commit and seal, and the staging copies that commands rewrite.
-/
namespace Sys2Proof.Machine

/-! ### Images (R89, R90) -/

/-- A word of an image at a byte offset. -/
def imgGet (m : Sparse) (off : Nat) : Nat := (m.get (off / 4)).toNat

/-- Set a word of an image. -/
def imgSet (m : Sparse) (off w : Nat) : Sparse := m.set (off / 4) (w % 2 ^ 32 : Nat)

/-- Set consecutive words of an image. -/
def imgPut (m : Sparse) (off : Nat) : List Nat → Sparse
  | [] => m
  | w :: ws => imgPut (imgSet m off w) (off + 4) ws

/-- The words of an image from a byte offset. -/
def imgWords (m : Sparse) (off n : Nat) : List Nat := (List.range n).map fun i => imgGet m (off + 4 * i)

/-- The record areas of Table CF-2: start, records it holds, and the code of R99. -/
structure CfgArea where
  start : Nat
  room  : Nat
  code  : Nat
  deriving DecidableEq, Repr

def sealedArea : CfgArea := ⟨0x40, 336, 3⟩
def protArea : CfgArea := ⟨0x1000, 682, 2⟩
def tuneArea : CfgArea := ⟨0x3000, 682, 1⟩
def operArea : CfgArea := ⟨0x5000, 1024, 0⟩

/-- The areas in image order. -/
def cfgAreas : List CfgArea := [sealedArea, protArea, tuneArea, operArea]

/-- The image in force in the safe default (R97). -/
def emptyImage : Sparse :=
  imgSet (imgSet (imgSet (imgSet [] 0x40 0xFFFFFFFF) 0x1000 0xFFFFFFFF) 0x3000 0xFFFFFFFF) 0x5000 0xFFFFFFFF

/-- The records from a byte offset, at most `n`, up to the end mark: address, mask and value. -/
def recordsGo (m : Sparse) (off : Nat) : Nat → List (Nat × Nat × Nat)
  | 0 => []
  | n + 1 =>
    if imgGet m off = 0xFFFFFFFF then []
    else (imgGet m off, imgGet m (off + 4), imgGet m (off + 8)) :: recordsGo m (off + 12) n

/-- The records of an area. -/
def areaRecords (m : Sparse) (a : CfgArea) : List (Nat × Nat × Nat) := recordsGo m a.start a.room

/-- An area rewritten with a list of records, where they fit; every word behind the new end mark reads 0 (DESIGN CHOICE, log entry 81). -/
def putArea (m : Sparse) (a : CfgArea) (l : List (Nat × Nat × Nat)) : Option Sparse :=
  if a.room < l.length then none
  else
    let m' : Sparse := Sparse.clear m (a.start / 4) (a.start / 4 + 3 * a.room)
    let ws := l.flatMap fun r => [r.1, r.2.1, r.2.2]
    some (imgPut m' a.start (ws ++ (if l.length < a.room then [0xFFFFFFFF] else [])))

/-- The CRC of an image (Table CF-3). -/
def imgCrc (m : Sparse) : Nat := crcWords (imgWords m 0 15 ++ imgWords m 0x40 (0x8000 - 16))

/-- A slot is valid (R97). -/
def slotValid (m : Sparse) : Bool :=
  imgGet m 0 == 0x43463934 && imgGet m 4 == 1 && imgGet m 8 != 0 && imgGet m 8 != 0xFFFFFFFF && imgGet m 60 == imgCrc m

/-- An image with a header of its own (Table CF-3). -/
def withHeader (m : Sparse) (seq part : Nat) (seald : Bool) (sealSeq : Nat) : Sparse :=
  let m := imgPut m 0 ([0x43463934, 1, seq, part, if seald then 1 else 0, sealSeq] ++ List.replicate 9 0)
  imgSet m 60 (imgCrc m)

/-! ### Tables (Table CF-4) -/

/-- A table: its length in words, its place in the image, and the region that owns it. -/
structure TableAt where
  words  : Nat
  off    : Nat
  region : Nat
  deriving DecidableEq, Repr

/-- The tables of the chip: kind, unit and instance, and the table. -/
def tableOf (kind unit inst : Nat) : Option TableAt :=
  match kind with
  | 1 => if inst = 0 then some ⟨64, 0x8000 + 0x100 * unit, unit / 2 + 1⟩ else none
  | 2 => if inst < 48 then some ⟨33, 0x9000 + 0x4000 * unit + 0x88 * inst, unit + 1⟩ else none
  | 3 => if inst < 48 then some ⟨33, 0xB000 + 0x4000 * unit + 0x88 * inst, unit + 1⟩ else none
  | 4 => if inst = 0 then some ⟨1024, 0x11000 + 0x1000 * unit, unit / 2 + 1⟩ else none
  | 5 => if inst = 0 then some ⟨1024, 0x15000 + 0x1000 * unit, unit / 2 + 1⟩ else none
  | 6 => if inst < 4 then some ⟨64, 0x8400 + 0x100 * inst, 0⟩ else none
  | _ => none

/-- The scope of a table kind (Table PK-3 numbers). -/
def tableScope (kind : Nat) : Nat :=
  match kind with | 1 => 2 | 2 => 6 | 3 => 6 | 4 => 3 | 5 => 3 | _ => 0

/-- Every table: kind, unit and instance. -/
def allTables : List (Nat × Nat × Nat) :=
  (List.range 4).map (fun n => (1, n, 0)) ++ (List.range 4).map (fun i => (6, 0, i)) ++
  [0, 1].flatMap (fun h => (List.range 48).map fun m => (2, h, m)) ++ [0, 1].flatMap (fun h => (List.range 48).map fun m => (3, h, m)) ++
  (List.range 4).map (fun n => (4, n, 0)) ++ (List.range 4).map (fun n => (5, n, 0))

/-- The first word of a phase-advance table that breaks R155. -/
def advBad : Nat → Nat → List Nat → Option Nat
  | i, b, x :: a :: r => if x < b then some i else if 0x4000 < a then some (i + 1) else advBad (i + 2) x r
  | _, _, _ => none

/-- The first word of a sensor curve whose code does not rise (R215). -/
def curveBad : Nat → Option Nat → List Nat → Option Nat
  | i, none, x :: _ :: r => curveBad (i + 2) (some (x % 4096)) r
  | i, some b, x :: _ :: r => if x % 4096 ≤ b then some i else curveBad (i + 2) (some (x % 4096)) r
  | _, _, _ => none

/-- The first word of a table that breaks the table's own rule; a table of zeros, the default content, is no sensor curve and breaks
none (R92, R155, R215). -/
def tableBad (kind : Nat) (ws : List Nat) : Option Nat :=
  match kind with
  | 1 => advBad 0 0 ws
  | 6 => if ws.all (· == 0) then none else curveBad 0 none ws
  | _ => none

/-- The region that owns a word of the table area; none for reserved bytes. -/
def tableRegion (off : Nat) : Option Nat :=
  if off < 0x8400 then some ((off - 0x8000) / 0x200 + 1)
  else if off < 0x8800 then some 0
  else if off < 0x9000 then none
  else if off < 0x11000 then (if (off - 0x9000) % 0x2000 < 0x88 * 48 ∧ (off - 0x9000) % 0x2000 % 0x88 < 0x84 then some ((off - 0x9000) / 0x4000 + 1) else none)
  else if off < 0x15000 then some ((off - 0x11000) / 0x2000 + 1)
  else if off < 0x19000 then some ((off - 0x15000) / 0x2000 + 1)
  else none

namespace State

/-! ### Records into registers (R90 to R92) -/

/-- A field that a record of an area may select: CFG fields of the area's access type, and command-owned fields (Table CF-10). -/
def areaTakes (a : CfgArea) (x : Hit) (d : FD) : Bool :=
  d.cfg && (match d.acc with
    | .ws => a.code == 3
    | .wk => a.code == 2
    | .rw => a.code == 1 || a.code == 0
    | .ro =>
      if x.d.area == .half then a.code == 1
      else if decide (0x51000 ≤ x.d.off) then a.code == 2 else a.code == 0
    | _ => false)

/-- The bits of a record's word that the area may select. -/
def areaMask (a : CfgArea) (x : Hit) : Nat :=
  if x.d.words = 1 then
    (x.d.flds.map fun d => if areaTakes a x d then (2 ^ d.f.w - 1) * 2 ^ d.f.lo else 0).foldl (· ||| ·) 0
  else (x.d.flds.map fun d => if areaTakes a x d then (2 ^ d.f.w - 1) / 2 ^ (32 * x.j) % 2 ^ 32 else 0).foldl (· ||| ·) 0

/-- A record sets the selected bits of the CFG fields of its register. -/
def applyRecord (s : State) (a mask v : Nat) : State :=
  match findReg a with
  | none => s
  | some x =>
    s.each x.d.flds fun d s =>
      if !d.cfg then s
      else
        let u : Nat := (s.get x.b d.f % 2 ^ d.f.w).toNat
        if x.d.words = 1 then
          let m := bitsN mask d.f.lo d.f.w
          s.put x.b d.f (mergeWord u m (bitsN v d.f.lo d.f.w))
        else
          let m := mask * 2 ^ (32 * x.j)
          s.put x.b d.f (mergeWord u m (v * 2 ^ (32 * x.j)))

/-- Every record of an image for a region, in image order. -/
def regionRecords (m : Sparse) (r : Nat) : List (Nat × Nat × Nat) :=
  (cfgAreas.flatMap (areaRecords m)).filter fun x => regionAt x.1 == some r

/-- The default snapshot list (R388). -/
def defaultList : List Nat :=
  [0x4, 0x8, 0x60004, 0x60008] ++ ([0, 1, 2, 3].flatMap fun n => [stnB n, stnB n + 4, stnB n + 0x3020, stnB n + 0x3024]) ++
  [halfB 0 + 0x6002C, halfB 1 + 0x6002C, halfB 0 + 0x90004, halfB 1 + 0x90004, 0x10008, 0x20]

/-- A trigger's default list (R388). -/
def putDefaultList (s : State) (t : Nat) : State :=
  (s.put (recT t) F.REC_TCFG_N 26).each (defaultList.zip (List.range 26)) fun x s => s.put (recT t + 4 * x.2) F.REC_TADDR_ADDR (x.1 : Nat)

/-- A trigger's default settings: enabled but for trigger 5, felt for 3, 12 and 13, and no snapshot words but the default list where Table ER-2 gives
it (R388). -/
def trigDefault (s : State) (t : Nat) : State :=
  let s := { s with regs := s.regs.clear (8 * (0x30104 + recT t)) (8 * (0x3016C + recT t)) }
  let s := s.puts (recT t) [(F.REC_TCFG_EN, b2i (t != 5)), (F.REC_TCFG_FELT, b2i ([3, 12, 13].contains t)), (F.REC_TCFG_N, 0)]
  if [1, 2, 3, 4, 6, 7, 8, 10].contains t then s.putDefaultList t else s

/-- The default trigger settings (Table ER-2, R388). -/
def recDefaults (s : State) : State := s.each (List.range 15) fun i s => s.trigDefault (i + 1)

/-- The conditions of R388 on a trigger's settings. -/
def recSettingOk (t : Nat) (en felt : Bool) (n : Nat) (addrs : List Nat) : Bool :=
  decide (1 ≤ t ∧ t ≤ 15) && decide (n ≤ 26) && addrs.all (fun a => a % 4 == 0 && (regionAt a).isSome) &&
  (en || !trigFixed.contains t) && (felt || !(t == 12 || t == 13)) && (!felt || t != 14) && (n == 0 || !trigContent.contains t)

/-- The settings in force of a trigger satisfy R388. -/
def recInForceOk (s : State) (t : Nat) : Bool :=
  recSettingOk t (s.on (recT t) F.REC_TCFG_EN) (s.on (recT t) F.REC_TCFG_FELT) (s.nat (recT t) F.REC_TCFG_N) (s.trigAddrs t)

/-- The conditions of R283 on a group definition. -/
def groupOk (s : State) (g mode : Nat) (ms : List (Nat × Nat × Nat)) : Bool :=
  if mode = 0 then ms.isEmpty
  else
    decide (mode ≤ 3) && decide (ms.length ≤ 16) && decide ((if mode = 2 then 2 else 1) ≤ ms.length) &&
    ms.all (fun m => (mode == 3 || decide (1 ≤ m.2.2)) && (m.1 != s.ownPos || (s.stnPresent m.2.1 && bitN (s.nat 0 F.HBD_PUB_PUB) m.2.1)) &&
      (match s.grpOf m.1 m.2.1 with | some x => x.1 == g | none => true)) &&
    decide ((ms.map fun m => (m.1, m.2.1)).Nodup) && (s.putGroup g mode ms).ringFits

/-- The groups in force satisfy R283. -/
def groupInForceOk (s : State) (g : Nat) : Bool :=
  s.groupOk g (s.nat (grpB g) F.HBD_GDEF_MODE) (s.grpMembers g)

/-- Relations of a region's blocks. -/
def relsOfRegion (r : Nat) : List Rel :=
  match r with
  | 0 => ringRels ++ extRels
  | h + 1 =>
    bgdRels h ++ canRels h ++ canRels (h + 2) ++ stnRels (2 * h) ++ stnRels (2 * h + 1) ++ serRels h ++ axsRels (2 * h) ++
    axsRels (2 * h + 1) ++ [guardRel] ++ (List.range 48).flatMap (slotRels h) ++ snkRels h

/-- The fields that take part in a relation of region `r`: those it lists and, for a VD or VQ entry that names a slot, the slot's fields that
R241 asks about. -/
def relFlds (s : State) (r : Nat) (x : Rel) : List (Nat × Fld) :=
  x.flds ++ x.flds.flatMap fun p =>
    if (p.2 == F.LEN_SNK_VD_SLOT || p.2 == F.LEN_SNK_VQ_SLOT) && decide (s.get p.1 p.2 < 48) then
      [F.LEN_CFG_TYPE, F.LEN_CFG_TRIG, F.LEN_CFG_TPARAM, F.LEN_CFG_OWNER].map fun f => (slotB (r - 1) (s.nat p.1 p.2), f)
    else []

/-- A value that fails a check takes its default; the flag says that one has (R92). -/
def defaultFld (s : State) (b : Nat) (f : Fld) : State := s.put b f f.dflt

/-- Ranges of the fields that records set. -/
def fixRanges (s : State) (recs : List (Nat × Nat × Nat)) : State × Bool :=
  recs.foldl (fun a r => match findReg r.1 with
    | none => a
    | some x => x.d.flds.foldl (fun a d => if d.cfg && !a.1.rangeOk x.b d then (a.1.defaultFld x.b d.f, true) else a) a) (s, false)

/-- Relations of a region. -/
def fixRels (s : State) (r : Nat) : State × Bool :=
  (relsOfRegion r).foldl (fun a x => if a.1.relOk x then a else ((a.1.relFlds r x).foldl (fun s p => s.defaultFld p.1 p.2) a.1, true)) (s, false)

/-- The slots that admission would refuse, taken in ascending order, take their default `LEN_CFG` (R92, R261). -/
def fixLoad (s : State) (h : Nat) : State × Bool :=
  let out := (List.range 48).foldl (fun (a : Rat × List Nat) m =>
    let l := s.slotLoad h m
    if l ≠ 0 ∧ 400000000 < a.1 + l then (a.1, a.2 ++ [m]) else (a.1 + l, a.2)) (0, [])
  (s.each out.2 fun m s => s.each [F.LEN_CFG_TYPE, F.LEN_CFG_TRIG, F.LEN_CFG_OWNER, F.LEN_CFG_RUNGATE, F.LEN_CFG_SEL_HOLD, F.LEN_CFG_GROUP,
    F.LEN_CFG_TOPT, F.LEN_CFG_TPARAM] fun f s => s.defaultFld (slotB h m) f, !out.2.isEmpty)

/-- Slots of a part without the G law keep no G type (R2, R239): the record is one for an absent function (R92; DEDUCED, log entry 83). -/
def fixLaw (s : State) (h : Nat) : State :=
  if s.on 0 F.CHIP_ID_G_LAW then s
  else s.each (List.range 48) fun m s => if s.get (slotB h m) F.LEN_CFG_TYPE == 2 then s.put (slotB h m) F.LEN_CFG_TYPE 0 else s

/-- Trigger settings and groups, by the checks of their owning commands (R91). -/
def fixOwned (s : State) : State × Bool :=
  let a := (List.range 15).foldl (fun (a : State × Bool) i =>
    if a.1.recInForceOk (i + 1) then a else (a.1.trigDefault (i + 1), true)) (s, false)
  (List.range 8).foldl (fun (a : State × Bool) g => if a.1.groupInForceOk g then a else (a.1.putGroup g 0 [], true)) a

/-- The address words of a trigger beyond its `N` read 0 (Table ER-6). -/
def clipLists (s : State) : State :=
  s.each (List.range 15) fun i s =>
    s.each ((List.range 26).filter fun (k : Nat) => decide (s.nat (recT (i + 1)) F.REC_TCFG_N ≤ k)) fun (k : Nat) s =>
      s.put (recT (i + 1) + 4 * k) F.REC_TADDR_ADDR 0

/-- The values of a region from an image, with every check of R92 in one pass: ranges, relations in the order of their list, then
admission, with no second pass after a default (DESIGN CHOICE, log entry 82): the state, whether a value took its default for a failed check, and
whether a record or type of an absent function was skipped. -/
def loadValues (s : State) (m : Sparse) (r : Nat) : State × Bool × Bool :=
  let recs := regionRecords m r
  let skip := r == 0 && !s.dual && !(regionRecords m 2).isEmpty
  let s := if r = 0 then s.recDefaults else s
  let s := s.each recs fun x s => s.applyRecord x.1 x.2.1 x.2.2
  if recs.isEmpty then (s, false, skip)
  else
    let law := r != 0 && !s.on 0 F.CHIP_ID_G_LAW && (List.range 48).any fun k => s.get (slotB (r - 1) k) F.LEN_CFG_TYPE == 2
    let s := if r = 0 then s else s.fixLaw (r - 1)
    let a := s.fixRanges recs
    let b := a.1.fixRels r
    let c := if r = 0 then (b.1.fixOwned.1.clipLists, b.1.fixOwned.2) else b.1.fixLoad (r - 1)
    (c.1, a.2 || b.2 || c.2, skip || law)

/-- The tables of a region from an image; a table that fails its rule keeps its default content (R92). -/
def loadTables (s : State) (m : Sparse) (r : Nat) : State × Bool :=
  let bad := allTables.filterMap fun k => match tableOf k.1 k.2.1 k.2.2 with
    | some t => if t.region = r ∧ (tableBad k.1 (imgWords m t.off t.words)).isSome then some t else none
    | none => none
  let inBad (off : Nat) : Bool := bad.any fun t => decide (t.off ≤ off ∧ off < t.off + 4 * t.words)
  let tabs : Sparse := (List.range 0x6000).filterMap fun i =>
    let w := 0x2000 + i
    let v : Int := if tableRegion (4 * w) = some r then (if inBad (4 * w) then 0 else m.get w - defTab w) else s.tabs.get w
    if v = 0 then none else some (w, v)
  ({ s with tabs := tabs, axOld := s.axOld.filter fun e => tableRegion e.1 != some r }, !bad.isEmpty)

/-- A region's tables at their default content. -/
def defaultTables (s : State) (r : Nat) : State :=
  { s with tabs := s.tabs.filter fun e => tableRegion (4 * e.1) != some r, axOld := s.axOld.filter fun e => tableRegion e.1 != some r }

/-! ### Selection (R97) -/

/-- A slot may be selected: valid, and sealed where the seal mark is set. -/
def slotGood (s : State) (m : Sparse) : Bool := slotValid m && (!s.cfg.sealMark || imgGet m 16 % 2 == 1)

/-- Step 8 of Table PW-5: the copy in force is selected and staging becomes its copy. -/
def selectCopy (s : State) : State :=
  let m0 := s.cfg.slots.toList.getD 0 []
  let m1 := s.cfg.slots.toList.getD 1 []
  let g0 := s.slotGood m0
  let g1 := s.slotGood m1
  let pick : Option Nat := if g0 && g1 then (if imgGet m0 8 < imgGet m1 8 then some 1 else some 0) else if g0 then some 0 else if g1 then some 1 else none
  let m := match pick with | some 0 => m0 | some _ => m1 | none => emptyImage
  let rej := s.cfg.sealMark && ((slotValid m0 && !g0) || (slotValid m1 && !g1))
  (s.withCfg fun c => { c with inForce := m, staging := m, commit := none }).puts 0
    [(F.CFG_STAT_SLOT, ((pick.getD 0 : Nat) : Int)), (F.CFG_STAT_SLOT0_OK, b2i g0), (F.CFG_STAT_SLOT1_OK, b2i g1),
     (F.CFG_STAT_DEFAULT, b2i pick.isNone), (F.CFG_STAT_SEAL_REJECT, b2i rej), (F.CFG_SEQ_SEQ, (imgGet m 8 : Nat)),
     (F.CFG_SEAL_SEQ_SEAL_SEQ, (imgGet m 20 : Nat)), (F.CFG_STAT_WORN, b2i (decide (0x3B9ACA00 ≤ imgGet m 8))),
     (F.CHIP_STATUS_CFG_VALID, b2i pick.isSome)]

/-! ### Commit checks (R99) -/

/-- A record that its area may not hold: an address that is no register word, or a mask that selects another field. Records of absent
functions are skipped. -/
def recordBad (s : State) (a : CfgArea) (r : Nat × Nat × Nat) : Bool :=
  if !s.addrPresent r.1 then false
  else
    (r.1 % 4 != 0) ||
    (match findReg r.1 with
     | none => r.2.1 != 0 || (regionAt r.1).isNone
     | some x => r.2.1 - (r.2.1 &&& areaMask a x) != 0)

/-- The records of an image with their areas and index in the area, in image order. -/
def allRecords (m : Sparse) : List (CfgArea × Nat × Nat × Nat × Nat) :=
  cfgAreas.flatMap fun a => ((areaRecords m a).zip (List.range 1024)).map fun x => (a, x.2, x.1)

/-- A record selects a bit of a field. -/
def recordSets (r : Nat × Nat × Nat) (b : Nat) (f : Fld) : Bool :=
  match findReg r.1 with
  | none => false
  | some x => x.d.flds.any fun d => d.f.key x.b == f.key b &&
      (if x.d.words = 1 then bitsN r.2.1 d.f.lo d.f.w != 0 else r.2.1 != 0)

/-- The fields that a check finds at fault in the values that an image gives at start-up, check by check. A `LEN_BANK` record is held to no check
of BANK_SWAP (DESIGN CHOICE, log entry 80); a TYPE 2 on a part without the G law is skipped, as at load (R92, R98; DEDUCED, log entry 83). -/
def imageFaults (s : State) (m : Sparse) : List (List (Nat × Fld)) :=
  let blank : State := { s with regs := s.regs.filter fun e => e.1 < 32 ∨ (8 * 0x18 ≤ e.1 ∧ e.1 < 8 * 0x1C) }
  let v : State := (blank.recDefaults).each (cfgAreas.flatMap (areaRecords m)) fun x s =>
    if s.addrPresent x.1 then s.applyRecord x.1 x.2.1 x.2.2 else s
  let v : State := v.each s.halves fun h v => v.fixLaw h
  let ranges := (cfgAreas.flatMap (areaRecords m)).flatMap fun r => match findReg r.1 with
    | none => []
    | some x => (x.d.flds.filter fun d => d.cfg && !v.rangeOk x.b d).map fun d => [(x.b, d.f)]
  let rels := (if s.dual then [0, 1, 2] else [0, 1]).flatMap fun r =>
    (relsOfRegion r).filterMap fun x => if v.relOk x then none else some (v.relFlds r x)
  let load := s.halves.flatMap fun h => if (v.fixLoad h).2 then
      (List.range 48).filterMap fun k => if (v.fixLoad h).1.get (slotB h k) F.LEN_CFG_TYPE != v.get (slotB h k) F.LEN_CFG_TYPE then
        some [(slotB h k, F.LEN_CFG_TYPE)] else none
    else []
  let recs := (List.range 15).filterMap fun i => if v.recInForceOk (i + 1) then none else
    some ([F.REC_TCFG_EN, F.REC_TCFG_FELT, F.REC_TCFG_N].map (fun f => (recT (i + 1), f)) ++
      (List.range 26).map fun k => (recT (i + 1) + 4 * k, F.REC_TADDR_ADDR))
  let grps := (List.range 8).filterMap fun g => if v.groupInForceOk g then none else
    some ([F.HBD_GDEF_MODE, F.HBD_GDEF_COUNT].map (fun f => (grpB g, f)) ++
      (List.range 16).flatMap fun k => [F.HBD_GMEM_POS, F.HBD_GMEM_STN, F.HBD_GMEM1_COEF].map fun f => (memB g k, f))
  ranges ++ rels ++ load ++ recs ++ grps

/-- The first word of the table area that breaks a table's rule or the zero rule for reserved bytes (R93). -/
def tablesFault (m : Sparse) : Option Nat :=
  let rules := allTables.filterMap fun k => match tableOf k.1 k.2.1 k.2.2 with
    | some t => (tableBad k.1 (imgWords m t.off t.words)).map fun i => t.off / 4 + i
    | none => none
  let zeros := (m.filter fun e => 0x2000 ≤ e.1 ∧ e.1 < 0x8000 ∧ tableRegion (4 * e.1) = none).map (·.1)
  (rules ++ zeros).min?

/-- Step 2 of Table CF-6: the DETAIL of the first failure in image order, none when the image passes (R99). -/
def commitFault (s : State) (m : Sparse) : Option Nat :=
  let faults := s.imageFaults m
  match (allRecords m).find? fun r => s.recordBad r.1 r.2.2 || faults.any fun l => l.any fun p => recordSets r.2.2 p.1 p.2 with
  | some r => some (r.1.code * 8192 + r.2.1)
  | none => (tablesFault m).map fun w => 4 * 8192 + (w - 0x2000) / 4

/-! ### Commit and seal (R98 to R103) -/

/-- Words of a range that differ between two images. -/
def changedWords (a b : Sparse) (lo hi : Nat) : Nat :=
  ((List.range ((hi - lo) / 4)).filter fun i => imgGet a (lo + 4 * i) != imgGet b (lo + 4 * i)).length

/-- CRC-32 of a range of an image. -/
def rangeCrc (m : Sparse) (lo hi : Nat) : Nat := crcWords (imgWords m lo ((hi - lo) / 4))

/-- The slot that a commit writes: not the one in force; slot 0 in the safe default (R98). -/
def commitTarget (s : State) : Nat := if s.on 0 F.CHIP_STATUS_CFG_VALID then 1 - s.nat 0 F.CFG_STAT_SLOT else 0

/-- A commit of this staging area needs the key (R96). -/
def commitKey (s : State) : Bool := imageDiff s.cfg.staging s.cfg.inForce 0x40 0x3000

/-- A commit of this staging area writes a felt record (R102, R103). -/
def commitFelt (s : State) (sealing : Bool) : Bool := sealing || (s.cfg.sealMark && imageDiff s.cfg.staging s.cfg.inForce 0x1000 0x3000)

/-- Set a slot's words. -/
def putSlot (s : State) (k : Nat) (m : Sparse) : State := s.withCfg fun c => { c with slots := c.slots.setIfInBounds k m }

/-- The validity bit of a slot. -/
def slotOkF (k : Nat) : Fld := if k = 0 then F.CFG_STAT_SLOT0_OK else F.CFG_STAT_SLOT1_OK

/-- An accepted commit or seal: staging is captured; with an image that passes Step 2, the target's `SEQ` is written as 0 (Table CF-6). -/
def commitBegin (s : State) (sealing : Bool) (tag : Nat) : State :=
  let k := s.commitTarget
  let seq := if s.on 0 F.CHIP_STATUS_CFG_VALID then s.nat 0 F.CFG_SEQ_SEQ + 1 else 1
  let felt := s.commitFelt sealing
  let job : Commit := { image := s.cfg.staging, target := k, sealing := sealing, tag := tag, seq := seq, keyed := sealing || s.commitKey, felt := felt }
  let s := s.withCfg fun c => { c with commit := some job }
  let s := if felt then s.withLog fun l => { l with reserved := l.reserved + 1 } else s
  match s.commitFault s.cfg.staging with
  | some _ => s
  | none => (s.putSlot k (imgSet (s.cfg.slots.toList.getD k []) 8 0)).put 0 (slotOkF k) 0

/-- A commit or seal ends without a new copy in force: `CFG_LAST_ERR`, its reservation and its completion (R99). -/
def commitEnd (s : State) (st detail : Nat) : State :=
  match s.cfg.commit with
  | none => s
  | some j =>
    let s := s.withCfg fun c => { c with commit := none }
    let s := if j.felt then s.withLog fun l => { l with reserved := l.reserved - 1 } else s
    let s := s.puts 0 [(F.CFG_LAST_ERR_STATUS, st), (F.CFG_LAST_ERR_DETAIL, detail)]
    s.each (s.mil.busy.filter fun b => b.tag == j.tag && (b.op == 0x12 || b.op == 0x13)) fun b s => s.completeB b st detail []

/-- COMMIT_FINISH: Steps 2 to 6 of Table CF-6 end. `ok` is the read-back of Step 4. Step 5 does not end while its felt record waits (R393, Table FH-3,
DEDUCED, log entry 104). -/
def commitFinish (s : State) (ok : Bool) : State :=
  match s.cfg.commit with
  | none => s
  | some j =>
    match s.commitFault j.image with
    | some d => s.commitEnd stBadParam d
    | none =>
      let sealSeq := if j.sealing then j.seq else imgGet s.cfg.inForce 20
      let old := s.cfg.inForce
      let m := withHeader j.image j.seq (s.nat 0 F.CHIP_ID_PART) (j.sealing || s.cfg.sealMark) sealSeq
      if !ok then ((s.putSlot j.target (imgSet m 8 0)).commitEnd stFaulted 0).blockFail .cfg (fcode 2 0 0xD5)
      else if j.felt && s.feltWaits then s
      else
        let s := if j.sealing then
            (s.withCfg fun c => { c with sealMark := true }).feltRecord 13 [j.seq, rangeCrc m 0x40 0x1000]
          else if j.felt then
            s.feltRecord 12 [j.seq, changedWords old m 0x1000 0x3000, rangeCrc old 0x1000 0x3000, rangeCrc m 0x1000 0x3000]
          else s
        let s := (s.putSlot j.target m).withCfg fun c => { c with inForce := m, commit := none }
        let mate := b2i (s.slotGood (s.cfg.slots.toList.getD (1 - j.target) []))
        let s := s.puts 0 [(slotOkF j.target, 1), (slotOkF (1 - j.target), mate), (F.CFG_STAT_SLOT, j.target), (F.CFG_STAT_DEFAULT, 0), (F.CFG_SEQ_SEQ, j.seq),
          (F.CFG_SEAL_SEQ_SEAL_SEQ, sealSeq), (F.CFG_STAT_WORN, b2i (decide (0x3B9ACA00 ≤ j.seq))), (F.CHIP_STATUS_CFG_VALID, 1)]
        s.each (s.mil.busy.filter fun b => b.tag == j.tag && (b.op == 0x12 || b.op == 0x13)) fun b s =>
          s.completeB b stOK 0 (if j.sealing then [j.seq] else [j.seq, j.target])

/-! ### Staging copies (R91, R94) -/

/-- Records of an area replaced: those at the given addresses go, the new ones follow the rest. None where the area has no room. -/
def restage (s : State) (a : CfgArea) (addrs : List Nat) (new : List (Nat × Nat × Nat)) : Option State :=
  (putArea s.cfg.staging a ((areaRecords s.cfg.staging a).filter (fun r => !addrs.contains r.1) ++ new)).map fun m =>
    s.withCfg fun c => { c with staging := m }

/-- Words into the staging area. -/
def stageWords (s : State) (off : Nat) (ws : List Nat) : State := s.withCfg fun c => { c with staging := imgPut c.staging off ws }

/-- Words of a table in force (R94). -/
def putTable (s : State) (off : Nat) : List Nat → State
  | [] => s
  | w :: ws => putTable { s with tabs := s.tabs.set (off / 4) ((w % 2 ^ 32 : Nat) - defTab (off / 4)) } (off + 4) ws

end State

end Sys2Proof.Machine
end

