-- ==== Sys2Proof/Machine/Mastership.lean ====
section
/-!
DEFINITION. The token and the roles of the halves (R17, R24, R378 to R382): taking and releasing the token, heartbeats, and a half's way
into and out of ISOLATED.
-/
namespace Sys2Proof.Machine.State

/-! ### The token (R24, R380) -/

/-- The notice and the record of a change of holder (Tables PK-11 and ER-2). -/
def masterNote (s : State) : State := (s.notice 5 [s.master, s.nat 0 F.CHIP_EPOCH_EPOCH]).trigger 0 6 s.master

/-- Half `h` takes the token by a compare-and-set that succeeds: a new epoch, its role, and the loss of a running former holder.
`seen` marks a takeover (Table FH-6, R380); a master whose token another half takes so is FOLLOWER from its next tick, and does not take it
back for want of heartbeats (R382). -/
def takeToken (s : State) (h : Nat) (seen : Bool) : State :=
  let old := s.master
  let s := s.puts 0 [(F.CHIP_STATUS_MASTER, h + 1), (F.CHIP_EPOCH_EPOCH, s.get 0 F.CHIP_EPOCH_EPOCH + 1)]
  let s := s.puts (halfB h) [(F.SUP_MST_ROLE, 1), (H.tkLost, 0)]
  let s := if seen then s.put (halfB h) F.SUP_MST_TAKEN_SEEN 1 else s
  let s := if old ≠ 0 ∧ old ≠ h + 1 ∧ s.halfRun (old - 1) then
      let s := s.put (halfB (old - 1)) F.SUP_MST_LOST_SEEN 1
      if seen then s.put (halfB (old - 1)) H.tkLost 1
      else if s.isolated (old - 1) then s else s.put (halfB (old - 1)) F.SUP_MST_ROLE 2
    else s
  s.masterNote

/-- The arbiter frees the token of a half that leaves service, and the other half takes it where it runs and reaches it (R380). -/
def releaseToken (s : State) (h : Nat) : State :=
  if s.master ≠ h + 1 then s
  else
    let o := 1 - h
    let s := (s.put 0 F.CHIP_STATUS_MASTER 0).masterNote
    if s.halfPresent o && s.halfRun o && !s.isolated o && s.shRun then s.takeToken o true else s

/-- The first token of a start-up: Half A first, epoch 1 (R23, R24). -/
def firstToken (s : State) : State :=
  let s := s.takeToken 0 false
  if s.dual then s.put (halfB 1) F.SUP_MST_ROLE 2 else s

/-! ### ISOLATED (R17, R298, R378) -/

/-- The half that does the work of a busy command (R75), for the commands that a half executes. -/
def busyHalf (b : Busy) : Option Nat :=
  match b.op with
  | 0x09 => if b.arg = 0 then none else some (b.arg - 1)
  | 0x20 | 0x23 | 0x24 | 0x25 => some (b.arg / 2)
  | 0x22 => some (b.arg % 4 / 2)
  | 0x28 => some (b.arg / 16)
  | 0x30 => some (b.arg / 2)
  | 0x33 => some (if b.arg % 4 = 0 then 1 else 0)
  | 0x50 => some (b.arg % 64 / 32)
  | 0x61 => some (b.arg % 2)
  | 0x63 => some (b.arg / 32 % 2)
  | 0xF1 => if b.scope = 1 then (if b.index = 0 then none else some (b.index - 1))
            else if b.scope = 4 then some b.index
            else if b.scope = 5 then some (b.index % 2)
            else some (b.index / 2)
  | _ => none

/-- Every completion owed by a half's work ends with a status (R75), and so does the reply that a BANK_SWAP owes (R77); a group of axes
counts with each half that has a member. -/
def endHalfWork (s : State) (h st : Nat) : State :=
  let mine (b : Busy) : Bool := b.fwd == none &&
    (if b.op = 0x33 then bitsN b.arg (2 * h) 2 != 0 else busyHalf b == some h)
  s.each (s.mil.busy.filter mine) fun b s =>
    if !b.late.isEmpty then s.orderedAnswer b b.late
    else if b.op = 0x28 then s.orderedAnswer b [b.packet 1 st 0 []] else s.completeB b st 0 []

/-- The stations of a half leave their services together; the services then act by `ON_FAULT` (R302). -/
def halfLeaves (s : State) (h : Nat) : State :=
  let l := [2 * h, 2 * h + 1]
  let s := s.each (List.range 16) fun k s =>
    if s.svcLive k && s.get (svcB k) F.SVC_STAT_STATE != 3 && l.all (bitN (s.nat (svcB k) F.SVC_STAT_STNS)) then s.svcDrop k (2 * h + 1) else s
  s.each l fun n s => s.leaveService n false

/-- A half enters ISOLATED: ISOL, its owed completions with REGION_DOWN, and its stations in RUN move toward their port; one that CATCH would return
to RUN returns to ISOLATED (R17, R298). -/
def isolate (s : State) (h : Nat) : State :=
  if !s.halfPresent h || !s.halfRun h || s.isolated h then s
  else
    let s := (s.put (halfB h) F.SUP_MST_ROLE 3).raise (.region (Fin.ofNat 3 (h + 1))) (fcode 3 (h + 1) 0xD4)
    let s := s.endHalfWork h stRegionDown
    let s := s.each [2 * h, 2 * h + 1] fun n s =>
      if s.mode n = mRun then (s.leaveExt n).setMode n mIsolated
      else if s.mode n = mCatch && s.get (stnB n) H.catchMode == mRun then s.put (stnB n) H.catchMode mIsolated
      else s
    s.halfLeaves h

/-- ISOLATION_ENTRY: a token access of a half has had no answer for 2 µs (R378). -/
def isolationEntry (s : State) (h : Nat) : State := if s.alive then s.isolate h else s

/-- A station of a half that regains the token enters RUN: at the port with `SP_SLOT` set, else at command 0 (R298); one with pulses from the pins
follows them again (R177), and one in CATCH does so at its end (R17). -/
def regainRun (s : State) (n : Nat) : State :=
  let b := stnB n
  let catching := s.mode n == mCatch && s.get b H.catchMode == mIsolated
  if s.mode n ≠ mIsolated ∧ !catching then s
  else
    let port := (s.spSlot n).isSome
    let s := s.puts b [(F.STN_STAT_SOURCE, if port then 1 else 0), (F.STN_STAT_HANDLE, 0), (H.hostCmd, 0)]
    if catching then s.put b H.catchMode mRun
    else
      let s := (s.resetGated n).setMode n mRun
      if s.get b F.GC_CTRL_PSRC == 1 then s.followPins n else s

/-- ISOLATION_END: token accesses have been answered for 1 ms; the half takes a free token, finds itself holder, or follows (R378). -/
def isolationEnd (s : State) (h : Nat) : State :=
  if !s.halfPresent h || !s.halfRun h || !s.isolated h || !s.shRun then s
  else
    let s := s.put (halfB h) F.SUP_MST_ROLE 2
    let s := if s.master = 0 then s.takeToken h false else if s.master = h + 1 then s.put (halfB h) F.SUP_MST_ROLE 1 else s
    s.each [2 * h, 2 * h + 1] fun n s => s.regainRun n

/-! ### Heartbeats (R379, R382) -/

/-- A half that takes part in mastership. -/
def heartOn (s : State) (h : Nat) : Bool := s.dual && s.halfPresent h && s.halfRun h && s.get (halfB h) F.SUP_MST_ROLE != 0

/-- HEARTBEAT_SEND: the next sequence number. -/
def heartSend (s : State) (h : Nat) : State :=
  if s.heartOn h then s.put (halfB h) H.hbSeq (s.get (halfB h) H.hbSeq + 1) else s

/-- HEARTBEAT_RECEIVED by half `h`: the other half's latest number; none arrives while the A↔B mailbox is out of service. -/
def heartReceived (s : State) (h : Nat) : State :=
  if s.heartOn h && s.heartOn (1 - h) && !s.oos .abmbx then
    s.puts (halfB h) [(F.SUP_HB_HB_RX, s.get (halfB (1 - h)) H.hbSeq), (F.SUP_MST_PEER_UP, 1), (H.hbRun, 0), (H.hbRx, s.time + 1)]
  else s

/-- HEARTBEAT_MISS by half `h`, unless one has arrived in the same clock (R80); the second in a row deems the other half down, which `h` records
(R386), and a follower takes the token from it (Table FH-6), unless it lost the token to that half itself (R382). -/
def heartMiss (s : State) (h : Nat) : State :=
  if !s.heartOn h || s.get (halfB h) H.hbRx == s.time + 1 then s
  else
    let o := 1 - h
    let run := s.get (halfB h) H.hbRun
    let s := (s.bump (halfB h) F.SUP_HB_HB_MISS).put (halfB h) H.hbRun (min 2 (run + 1))
    if run ≠ 1 then s
    else
      let s := (s.put (halfB h) F.SUP_MST_PEER_UP 0).raiseBy (h + 1) (.region (Fin.ofNat 3 (o + 1))) (fcode 3 (o + 1) 0xD3)
      if s.get (halfB h) F.SUP_MST_ROLE == 2 && s.master == o + 1 && !s.on (halfB h) H.tkLost && s.shRun then s.takeToken h true else s

/-! ### MASTERSHIP (R381) -/

/-- The token can be handed over on command: a half holds it and is not ISOLATED, and the other half is present, runs and is not. -/
def canHandOver (s : State) : Bool :=
  match s.master with
  | 0 => false
  | m + 1 => !s.isolated m && s.halfPresent (1 - m) && s.halfRun (1 - m) && !s.isolated (1 - m)

/-- The token goes to the other half by a compare-and-set that expects the present holder. -/
def handOver (s : State) : State := s.takeToken (2 - s.master) false

end Sys2Proof.Machine.State
end

