-- ==== Sys2Proof/Machine/Start.lean ====
section
/-!
DEFINITION. Starting and restarting regions (R50, R92, R372, R373): loading a region's configuration, taking a region down, its return, and
RESET_REGION of the shared region once its OK has been sent.
-/
namespace Sys2Proof.Machine.State

/-! ### Clearing a region -/

/-- The registers and internal numbers of a byte address range take their reset values; captured and held words go with them (R9, R10). -/
def clearBytes (s : State) (lo hi : Nat) : State :=
  let out (k : Nat) : Bool := decide (k < 8 * lo) || decide (8 * hi ≤ k)
  { s with regs := s.regs.clear (8 * lo) (8 * hi), shadows := s.shadows.filter fun e => out e.1, held := s.held.filter fun e => out e.1 }

/-- Fields at base 0 that a restart of SH leaves as they are: what start-up latched, the arbiter's token and epoch, the supply and clock
levels, the copy in force, and the blocks that keep running (R15, R34, R64). No rule says whether SH's PLL stays locked while SH restarts or
is held: `PLL_LOCK` and `TB_SRC` stand (R22; DESIGN CHOICE, log entry 66); nor whether `STRAP_UNST` outlives the straps' latest sampling at a
RESET_REGION: it stands with `ID_STRAP` (R10, R34; DESIGN CHOICE, log entry 90). `SKIPPED` and `LOAD_REJ` tell of the latest start-up of every
region (Table CF-8). -/
def keptSh : List Fld :=
  [F.CHIP_ID_PART, F.CHIP_ID_GRADE, F.CHIP_ID_STEP_LETTER, F.CHIP_ID_STEP_NUM, F.CHIP_ID_HALF_B, F.CHIP_ID_G_LAW, F.CHIP_STATUS_MASTER,
   F.CHIP_STATUS_CFG_VALID, F.CHIP_STATUS_CLK_FB, F.CHIP_STATUS_TB_SRC, F.CHIP_EPOCH_EPOCH, F.CHIP_PINS_ID_STRAP, F.CHIP_PINS_STRAP_UNST,
   F.CHIP_PINS_PRES_LOW, F.CHIP_PINS_WAKE_LOW, F.CHIP_PINS_FUSE_ALT, F.CHIP_PWR_STAT_VIN_OV, F.CHIP_PWR_STAT_PFW, F.CHIP_PWR_STAT_VGD_OK,
   F.CHIP_PWR_STAT_VIO_18, F.CHIP_RST_CAUSE_POR,
   F.CHIP_RST_CAUSE_RESET_PIN, F.CHIP_RST_CAUSE_BROWNOUT, F.CHIP_RST_CAUSE_WAKE, F.CHIP_RST_CAUSE_WAKE_PIN, F.CHIP_RST_CAUSE_WAKE_C0_EDGE,
   F.CHIP_RST_CAUSE_WAKE_C1_EDGE, F.CHIP_RST_CAUSE_WAKE_C0_FRAME, F.CHIP_RST_CAUSE_WAKE_C1_FRAME, F.CHIP_RST_CAUSE_WAKE_C0_FEC,
   F.CHIP_RST_CAUSE_WAKE_C1_FEC, F.CHIP_RST_CAUSE_SLEEP_ABORT, F.CHIP_RST_CAUSE_ARBITER, F.CHIP_CLK_STAT_XTAL_OK, F.CHIP_CLK_STAT_PLL_LOCK,
   F.FLT_SH_OOS_REC, F.FLT_SH_OOS_ABMBX, F.CFG_STAT_SLOT,
   F.CFG_STAT_SLOT0_OK, F.CFG_STAT_SLOT1_OK, F.CFG_STAT_DEFAULT, F.CFG_STAT_SKIPPED, F.CFG_STAT_SEAL_REJECT, F.CFG_STAT_WORN, F.CFG_STAT_LOAD_REJ,
   F.CFG_SEQ_SEQ,
   F.CFG_SEAL_SEQ_SEAL_SEQ, H.vgdLow, H.vgdSet, H.refBad, H.holdEnd, H.holdEnd1, H.holdEnd2]

/-- The registers of the recorder block, which a restart of SH does not reset (R395). -/
def recRegs (s : State) : List (Nat × Int) := s.regs.filter fun e => decide (8 * 0x30000 ≤ e.1) && decide (e.1 < 8 * 0x31000)

/-- The recorder block's registers as they were. -/
def putRec (s : State) (l : List (Nat × Int)) : State :=
  { s with regs := l.foldl (fun m e => m.set e.1 e.2) (s.regs.clear (8 * 0x30000) (8 * 0x31000)) }

/-- The shared region's registers in reset; the recorder block runs on. -/
def clearSh (s : State) : State :=
  let v := keptSh.map fun f => (f, s.get 0 f)
  let steam := andI (s.get 0 F.FLT_SH_OOS_STEAM) 0x82
  (((s.clearBytes 0 0x30000).clearBytes 0x31000 0x100000).puts 0 v).put 0 F.FLT_SH_OOS_STEAM steam

/-- Fields of a station that show levels at its pins. -/
def stnPins : List Fld := [F.GC_STAT_LRDY, F.GC_STAT_LFLT, H.pfA, H.pfLB, H.pfRA, H.pfRB, H.pfTA, H.pfTB, H.extEn]

/-- A half's registers in reset; the levels at its pins stand (R30, R33). -/
def clearHalf (s : State) (h : Nat) : State :=
  let g := halfB h
  let c1 := s.get g F.SUP_STO_STAT_CH1
  let c2 := s.get g F.SUP_STO_STAT_CH2
  let pins (n : Nat) : List (Fld × Int) := stnPins.map fun f => (f, s.get (stnB n) f)
  let l0 := pins (2 * h)
  let l1 := pins (2 * h + 1)
  let s := (((s.clearBytes g (g + 0x1000000)).puts g
    [(F.SUP_STO_STAT_CH1, c1), (F.SUP_STO_STAT_CH2, c2), (F.SUP_STO_STAT_ACTIVE, b2i (c1 == 0 || c2 == 0))]).puts (stnB (2 * h)) l0).puts
    (stnB (2 * h + 1)) l1
  s.each [h, h + 2] fun c s => s.withCan c fun _ => CanS.zero

/-- Set a region's own condition. -/
def setRegion (s : State) (r : Nat) (v : RegSt) : State := s.withChip fun c => { c with regions := c.regions.setIfInBounds r v }

/-- A region's condition. -/
def regionSt (s : State) (r : Nat) : RegSt := s.chip.regions.toList.getD r .down

/-- The region of a fault unit. -/
def unitRegion : FUnit → Option Nat
  | .chip => none
  | .region r => some r.val
  | .stn n => some (n.val / 2 + 1)
  | .axs n => some (n.val / 2 + 1)
  | .bgd h => some (h.val + 1)
  | .can c => some (c.val % 2 + 1)

/-- Steaming and self-tests of a region's blocks end with its reset; the A↔B mailbox and the recorder keep running (R15, R395). -/
def dropSteam (s : State) (r : Nat) : State :=
  let stays (b : Block) : Bool := b == .abmbx || b == .recorder
  s.withFlt fun f => { f with
    list := f.list.map fun e => if unitRegion e.unit == some r then { e with out := e.out.filter fun x => match x with
      | .block b => stays b
      | .canEntry _ _ => false } else e,
    tests := f.tests.filter fun t => !(t.todo.any fun b => b.region == r) }

/-! ### Configuration load (R50, R92) -/

/-- Step 10 of Table PW-5 for a controller: configured `EN` enables it (R339). -/
def canStart (s : State) (c : Nat) : State :=
  let b := canB c
  if s.on b F.CAN_CTRL_EN then (s.put b F.CAN_CTRL_EN 0).canEnable c else s

/-- The blocks of SH act on the values loaded. -/
def startSh (s : State) : State :=
  let s := s.each (List.range 8) fun g s => s.putGroup g (s.nat (grpB g) F.HBD_GDEF_MODE) (s.grpMembers g)
  let s := s.putRing
  s.hatEnable (s.on 0 F.HBD_CTRL_EN)

/-- A station's block acts on the values loaded: OFF, gates low, its carrier at `PWM_HPER`, acquisition begun; FAULT where its list still
holds entries (Table FH-4 Step 5). -/
def startStn (s : State) (n : Nat) : State :=
  let b := stnB n
  let s := ((s.put b F.GC_STAT_OFF_CONF 1).startCarrier n).startAcq n false
  if (s.faultsOf (stnU n)).isEmpty then s else s.put b F.STN_STAT_MODE mFault

/-- An axis acts on the values loaded: OFF or IDLE, or FAULT where its list still holds entries. -/
def startAxs (s : State) (n : Nat) : State :=
  let b := axsB n
  if !(s.faultsOf (axsU n)).isEmpty then s.put b F.AXS_STAT_STATE 7
  else if s.on b F.AXS_CTRL_CLASS then (s.put b F.AXS_STAT_STATE 1).axStandby n
  else s

/-- The blocks of a half act on the values loaded. -/
def startHalf (s : State) (h : Nat) : State :=
  let s := s.each [2 * h, 2 * h + 1] fun n s => (s.startStn n).startAxs n
  let s := s.putStoOff h
  let s := s.each (List.range 48) fun m s => (s.maskSlot h m).resetSlot h m
  let s := (s.putLoad h).put (halfB h) F.LEN_STAT_IN_SERVICE 1
  let s := s.each [h, h + 2] fun c s => s.canStart c
  (s.putK h)

/-- CONFIG_LOAD of a region: the copy in force applied and checked, or the safe default; CFGREJ where a value or table took its default. -/
def loadRegion (s : State) (r : Nat) : State :=
  let m := s.cfg.inForce
  if !s.on 0 F.CHIP_STATUS_CFG_VALID then (if r = 0 then s.recDefaults else s).defaultTables r
  else
    let a := s.loadValues m r
    let b := a.1.loadTables m r
    let s := if a.2.2 then b.1.put 0 F.CFG_STAT_SKIPPED 1 else b.1
    if a.2.1 || b.2 then (s.put 0 F.CFG_STAT_LOAD_REJ 1).raise (.region 0) (fcode 3 0 0xD9) else s

/-! ### Region restart (Table FH-4) -/

/-- A commit or seal under way stops; its reservation goes (R100, R103). -/
def stopCommit (s : State) : State :=
  match s.cfg.commit with
  | none => s
  | some j =>
    let s := s.withCfg fun c => { c with commit := none }
    if j.felt then s.withLog fun l => { l with reserved := l.reserved - 1 } else s

/-- SH goes out of service: services end, a level-wind following on until its drum is OFF (R306), the halves lose the token path, ports and tags are
cleared, the links go DOWN, staged edits and a commit are lost (Table FH-4 Steps 1 to 3; R15, R74, R97, R100, R303). -/
def takeDownSh (s : State) (v : RegSt) : State :=
  let s := s.each ((List.range 16).filter s.svcLive) fun k s =>
    let d := s.nat (svcH k) H.svDrum
    let s := if s.get (svcB k) F.SVC_STAT_SERVICE == 3 then (s.put (axsB (s.nat (svcH k) H.svAxis)) H.spDrum (d + 1)).spoolCheck
      (s.nat (svcH k) H.svAxis) else s
    s.each (s.svcStations k) fun n s => s.svcDrop k n
  let s := (s.withMil fun _ => Mil.zero).setRegion 0 v
  let s := s.each s.halves fun h s => s.isolate h
  let s := s.put 0 H.vgdSet (s.get 0 F.CHIP_PWR_CTRL_VGD_SET)
  let s := ((s.stopCommit).dropSteam 0).clearSh
  let s := { s with hat := Hat.zero, svcNew := [] }
  (s.withCfg fun c => { c with staging := c.inForce }).withChip fun c => { c with ready := false }

/-- The stations of a half turn off with their brakes applied, one that is arming in OFF too; its axes are cut with their coils off (Table FH-4
Step 1, R48, R216). -/
def cutHalf (s : State) (h : Nat) : State :=
  let s := s.each [2 * h, 2 * h + 1] fun n s =>
    (if s.mode n = mOff && !s.on (stnB n) H.arming then s else (s.turnOff n).endSequences n).put (stnB n) F.STN_STAT_MBRK 0
  s.each [2 * h, 2 * h + 1] fun n s => (s.axCut n).axCoil n 0

/-- A half goes out of service: its stations turn off and leave their services, its completions end with a status, its token is released, its
fault lists stay (Table FH-4 Steps 1 to 3; R75, R302, R375, R380). -/
def takeDownHalf (s : State) (h : Nat) (v : RegSt) (st : Nat) : State :=
  let s := ((s.cutHalf h).endHalfWork h st).halfLeaves h
  let s := s.setRegion (h + 1) v
  ((s.releaseToken h).dropSteam (h + 1)).clearHalf h

/-- A region goes out of service, to restart or to be held. Work of a half ends with ABORTED where a command resets the half, and with
REGION_DOWN where its own error takes it out (R75). -/
def takeDown (s : State) (r : Nat) (v : RegSt) (st : Nat) : State :=
  match r with
  | 0 => s.takeDownSh v
  | h + 1 => s.takeDownHalf h v st

/-- REGION_ERROR: LOCKSTEP or RAMECC of a region (R372); one that has restarted `REG_MAX` times within 60 s on its own errors is held, and
escalates to the chip (R373). -/
def regionError (s : State) (r : Nat) (ram : Bool) : State :=
  if !s.alive || !s.regionRun r then s
  else
    let u : FUnit := .region (Fin.ofNat 3 r)
    let s := s.raise u (fcode 3 r (if ram then 0xD1 else 0xD0))
    let past := s.flt.restart.filter fun e => e.1 == r && decide (s.time < e.2 + 24000000000)
    if s.nat 0 F.FLT_CFG_REG_MAX ≤ past.length then
      ((s.raise u (fcode 3 r 0xD2)).raise .chip (fcode 4 r 0xD8)).takeDown r .held stRegionDown
    else
      (s.withFlt fun f => { f with restart := (f.restart.filter fun e => decide (s.time < e.2 + 24000000000)) ++ [(r, s.time)] }).takeDown r
        .restarting stRegionDown

/-- The notice of R363 for the local queue, once the chip is ready: its position and the words discarded. -/
def localNote (s : State) : State :=
  s.notice 4 [s.ownPos + 65536 * (s.peer s.ownPos).disc]

/-- REGION_RESTART_COMPLETE (Table FH-4 Steps 4 and 5). The recorder block was not reset, and loads nothing (R395). -/
def restartDone (s : State) (r : Nat) : State :=
  if !s.alive || s.regionSt r != .restarting then s
  else
    match r with
    | 0 =>
      let rec0 := s.recRegs
      let s := (((s.setRegion 0 .run).mbxStart false).loadRegion 0).putRec rec0
      let s := if s.get 0 F.CHIP_PWR_CTRL_VGD_SET = s.get 0 H.vgdSet then s else s.put 0 F.CHIP_PWR_STAT_VGD_OK 0
      let s := (s.startSh).withChip fun c => { c with ready := c.phase == .running }
      (s.restartRecord 0).localNote
    | h + 1 =>
      let s := ((s.setRegion r .run).loadRegion r).startHalf h
      let s := if !s.shRun then s.isolate h
        else if s.master = 0 then s.takeToken h false
        else s.put (halfB h) F.SUP_MST_ROLE (if s.master = h + 1 then 1 else 2)
      (s.restartRecord r).completeAll 0x09 r stOK 0

/-- RESET_REGION is refused: the region is held, or its restart is in progress (R373). -/
def resetBusy (s : State) (r : Nat) : Bool := s.regionSt r == .held || s.regionSt r == .restarting

/-- A packet's words answer RESET_REGION of SH, possibly wrapped for a forwarding chip (R72). -/
def shReply : Nat → List Nat → Bool
  | 0, _ => false
  | f + 1, ws =>
    let w0 := ws.getD 0 0
    let w1 := ws.getD 1 0
    (bitsN w0 16 8 == 9 && bitsN w0 24 2 == 1 && bitsN w1 24 4 == 0 && bitsN w1 28 4 == 1 && bitsN w1 16 8 == 0) ||
    (bitsN w1 28 4 == 7 && shReply f (ws.drop 2))

/-- C0 and C1 leave the bus in sleep entry once their tunnels owe no reply any more (R57 Step 2). -/
def sleepCheck (s : State) : State :=
  if s.chip.phase = .sleepEntry then
    s.each ([0, 1].filter fun c => s.canPresent c && (s.port (2 + c)).level .reply == 0) fun c s => s.canLeave c
  else s

/-- RESET_REGION of SH takes effect once no port holds its OK any more (Table PK-6), and sleep entry goes on (R57). -/
def shResetCheck (s : State) : State :=
  let s := s.sleepCheck
  if s.on 0 H.shRst && !(s.mil.ports.toList.any fun p => p.out.any fun q => q.1 == .reply && shReply 100 q.2.words) then s.takeDownSh .restarting
  else s

end Sys2Proof.Machine.State
end

