-- ==== Sys2Proof/Machine/Power.lean ====
section
/-!
DEFINITION. Supply, reset, start-up, sleep and clocks (chapter 3), the die shutdown (R216), the chip arbiter's error (R374) and the test
access port's hold on the chip (R428).
-/
namespace Sys2Proof.Machine.State

/-! ### Chip-wide reset -/

/-- Every station off with its brake applied, every axis cut with its coils off, choppers and precharge low: what the halves' reset does at
once (R48). -/
def cutOutputs (s : State) : State :=
  s.each s.halves fun h s => ((if s.halfRun h then s.cutHalf h else s).chgLow h).preLow h

/-- Levels that a chip-wide reset leaves: the supply comparators, the pins, the code of the latest chip-level reset (R374). -/
def keptReset : List Fld :=
  [F.CHIP_PINS_PRES_LOW, F.CHIP_PINS_WAKE_LOW, F.CHIP_PINS_ID_STRAP, F.CHIP_PINS_STRAP_UNST, F.CHIP_PWR_STAT_VIN_OV, F.CHIP_PWR_STAT_VGD_OK,
   F.CHIP_PWR_STAT_VIO_18, F.FLT_CHIP_CODE, H.vgdLow]

/-- Levels of pins that no loss of supply changes (R36). -/
def pinFields : List Fld := [F.CHIP_PINS_PRES_LOW, F.CHIP_PINS_WAKE_LOW]

/-- Every region in reset: registers at their reset values but for a few levels and those of the stations' pins, fault lists, queues, tables and
staging gone; the mailbox queues stay for the next start to settle (R363, R364), the recorder is what its NVA holds (R397). -/
def wipe (s : State) (kept : List Fld) : State :=
  let v := kept.map fun f => (f, s.get 0 f)
  let pins := (List.range 4).map fun n => (stnB n, stnPins.map fun f => (f, s.get (stnB n) f))
  let s := ({ s with regs := [], tabs := [], shadows := [], held := [], mil := Mil.zero, hat := Hat.zero,
                     can := Vector.replicate 4 CanS.zero, axOld := [], svcNew := [], flt := Faults.zero }).puts 0 v
  let s := s.each pins fun p s => s.puts p.1 p.2
  let s := (s.withCfg fun c => { c with inForce := [], staging := [], commit := none }).recReset
  s.withChip fun c => { c with regions := Vector.replicate 3 .down, ready := false }

/-- `CHIP_RST_CAUSE` with the given fields at 1 (R64). -/
def putCause (s : State) (fs : List Fld) : State := s.puts 0 (fs.map fun f => (f, (1 : Int)))

/-- The chip acts on its supply and its temperature: out of its chip-wide reset, sleep entry included. -/
def awake (s : State) : Bool := s.alive || s.chip.phase == .sleepEntry

/-- RESET_N taken, or the arbiter's reset (R48 Steps 1 to 4): ports and tags stop, outputs go off, the halves enter reset, the flush
starts. -/
def resetTaken (s : State) (arb : Bool) : State :=
  let sh := s.shRun
  let s := (s.withMil fun _ => Mil.zero).stopCommit.cutOutputs
  let s := s.withChip fun c => { c with phase := .resetFlush, regions := Vector.replicate 3 .down, ready := false, arbPend := arb,
                                        wakePend := none }
  let s := s.each s.halves fun h s => s.clearHalf h
  { (s.startFlush .reset).withLog fun l => { l with flushSh := sh } with hat := Hat.zero, svcNew := [] }

/-! ### Start-up (R28, R34, R49) -/

/-- A part's rank by the functions it enables: single-half before dual-half, H only before H and G (R28). -/
def partRank : Part → Nat
  | .cx9410 => 0
  | .cx9420 => 1
  | .cx9430 => 2
  | .cx9440 => 3

/-- `CHIP_ID.PART`, `HALF_B` and `G_LAW` of a part (Tables AR-8 and PN-1). -/
def partBits : Part → Nat × Nat × Nat
  | .cx9440 => (0x9440, 1, 1)
  | .cx9430 => (0x9430, 1, 0)
  | .cx9420 => (0x9420, 0, 1)
  | .cx9410 => (0x9410, 0, 0)

/-- The part that the two fuse copies give, and whether they disagree in any field (R28). -/
def fusePart (s : State) : Option (Part × Bool) :=
  match s.chip.fuseA, s.chip.fuseB with
  | some a, some b => some (if partRank a ≤ partRank b then a else b, a != b || s.chip.grade.1 != s.chip.grade.2)
  | some a, none => some (a, true)
  | none, some b => some (b, true)
  | none, none => none

/-- The grade of the copy in force; of two copies that name the same part, the first's (R28; DESIGN CHOICE, log entry 65). -/
def fuseGrade (s : State) : Nat :=
  match s.chip.fuseA, s.chip.fuseB with
  | some a, some b => if partRank a ≤ partRank b then s.chip.grade.1 else s.chip.grade.2
  | none, some _ => s.chip.grade.2
  | _, none => s.chip.grade.1

/-- Bits of the regions present, SH lowest. -/
def regionMask (s : State) : Int := if s.dual then 7 else 3

/-- Step 7 of Table PW-5: the regions run and the host ports take the restricted set. -/
def enterRestricted (s : State) : State :=
  (s.withChip fun c => { c with phase := .restricted }).each (0 :: s.halves.map (· + 1)) fun r s => s.setRegion r .run

/-- Steps 4 to 7 of Table PW-5, or with no reference Step 4 alone: without a valid fuse copy the chip stays in reset (R28). The straps
are those of the latest sampling (R34). -/
def bootChip (s : State) : State :=
  match s.fusePart with
  | none => s.withChip fun c => { c with phase := .reset }
  | some (p, alt) =>
    let b := partBits p
    let x := s.chip.boot
    let maj := (x.id0 &&& x.id1) ||| (x.id0 &&& x.id2) ||| (x.id1 &&& x.id2)
    let s := { s with time := 0, marks := ⟨0, [], []⟩ }.puts 0
      [(F.CHIP_ID_PART, b.1), (F.CHIP_ID_GRADE, s.fuseGrade), (F.CHIP_ID_STEP_LETTER, 0xB), (F.CHIP_ID_STEP_NUM, 2),
       (F.CHIP_ID_HALF_B, b.2.1), (F.CHIP_ID_G_LAW, b.2.2), (F.CHIP_PINS_FUSE_ALT, b2i alt), (F.CHIP_PINS_ID_STRAP, maj.toNat),
       (F.CHIP_PINS_STRAP_UNST, b2i (!(x.id0 == x.id1 && x.id1 == x.id2)))]
    if x.reference then
      (s.puts 0 [(F.CHIP_CLK_STAT_XTAL_OK, 1), (F.CHIP_CLK_STAT_PLL_LOCK, s.regionMask)]).enterRestricted
    else (s.put 0 F.CHIP_STATUS_TB_SRC 3).withChip fun c => { c with phase := .starting }

/-- START_NO_REFERENCE: Step 5F of Table PW-5, then Steps 6 and 7. -/
def startNoRef (s : State) : State :=
  if s.chip.phase = .starting then
    (s.puts 0 [(F.CHIP_CLK_STAT_PLL_LOCK, s.regionMask), (F.CHIP_STATUS_CLK_FB, s.regionMask), (F.CHIP_STATUS_TB_SRC, 0),
      (H.refBad, s.regionMask)]).enterRestricted
  else s

/-- Steps 1 to 3 of Table PW-5: the rails come up, VIO_SEL is sampled (R41); then the chip waits for RESET_N and the test port, or boots. -/
def railsUp (s : State) (b : Boot) (cause : List Fld) : State :=
  let s := (s.puts 0 [(F.FLT_CHIP_CODE, 0), (F.CHIP_PWR_STAT_VIO_18, b2i b.vio18), (F.CHIP_PWR_STAT_VGD_OK, 1)]).putCause cause
  let s := s.withChip fun c => { c with boot := b, vinLost := false, wakePend := none, mbxLost := true }
  if s.chip.resetLow || s.chip.tapHold then s.withChip fun c => { c with phase := .reset } else s.bootChip

/-- POWER_ON: VIN rises through VIN_START; a latched die shutdown keeps the chip down (R49, R54, R55). -/
def powerOn (s : State) (b : Boot) : State :=
  if s.chip.phase ≠ .off then s
  else if s.chip.dieLatch then s.withChip fun c => { c with phase := .shutdown }
  else s.railsUp b [if s.chip.vinLost then F.CHIP_RST_CAUSE_POR else F.CHIP_RST_CAUSE_BROWNOUT]

/-- The chip comes out of a reset by RESET_N or the test port once nothing holds it. -/
def leaveReset (s : State) : State :=
  if s.chip.phase = .reset && !s.chip.resetLow && !s.chip.tapHold then s.bootChip else s

/-- The mailboxes start: those of a chip that has powered on, browned out or slept since they last did lose everything, a reset taken meanwhile
or not (R363, R364). -/
def startMailboxes (s : State) : State := (s.mbxStart s.chip.mbxLost).withChip fun c => { c with mbxLost := false }

/-- START_UP_COMPLETE: Steps 8 to 11 of Table PW-5. -/
def startUp (s : State) : State :=
  if s.chip.phase ≠ .restricted then s
  else
    let s := (((s.withChip fun c => { c with phase := .running }).startMailboxes).recScan).selectCopy
    let s := s.loadRegion 0
    let s := if s.get 0 F.CHIP_PWR_CTRL_VGD_SET == 4 then s else s.put 0 F.CHIP_PWR_STAT_VGD_OK 0
    let s := s.each s.halves fun h s => (s.loadRegion (h + 1)).startHalf h
    let s := (s.firstToken).startSh
    let s := s.withChip fun c => { c with ready := true }
    (s.startRecord).localNote

/-! ### RESET_N, brown-out (R48, R54) -/

/-- A phase that a chip-wide reset interrupts. -/
def resettable (s : State) : Bool :=
  match s.chip.phase with
  | .starting | .restricted | .running | .sleepEntry => true
  | _ => false

/-- RESET_N: a low pulse that is taken. -/
def resetPin (s : State) : State :=
  let s := s.withChip fun c => { c with resetLow := true }
  if s.resettable then s.resetTaken false else s

/-- RESET_N_RELEASE: RESET_N rises, and the straps are sampled (R34). VIO_SEL is not (R41). -/
def resetRelease (s : State) (b : Boot) : State :=
  if !s.chip.resetLow then s
  else (s.withChip fun c => { c with resetLow := false, boot := b }).leaveReset

/-- VIO is gone, and the test port with it (R426). -/
def tapDark (c : Chip) : Chip := { c with ir := .idcode, tapOff := true, tapHold := false }

/-- Supply lost or VGD collapsed: everything in reset, no flush; one under way is cut short (R43, R53, R54, R394). -/
def powerLost (s : State) : State := (s.tornWrite.wipe pinFields).withChip fun c => { tapDark c with phase := .off, arbPend := false, wakePend := none }

/-- BROWNOUT: VIN below VIN_UV. -/
def brownout (s : State) : State := if s.chip.phase = .off then s else s.powerLost

/-- VGD_COLLAPSE: VGD below 5.5 V while the chip runs (R43). -/
def vgdCollapse (s : State) : State := if s.resettable || s.chip.phase = .reset || s.chip.phase = .resetFlush then s.powerLost else s

/-- SHUTDOWN_LATCH_CLEAR: VIN below that threshold; the always-on domain has lost its state (R54, R55). -/
def latchClear (s : State) : State :=
  (if s.chip.phase = .off then s else s.powerLost).withChip fun c => { c with dieLatch := false, vinLost := true }

/-! ### Flush (R52, R394) -/

/-- Axes stop for a power-fail stop: cut, FAULT, coils off (Table AX-6). -/
def axPowerFail (s : State) (n : Nat) : State :=
  let code := fcode 2 (n / 2 + 1) 0xDA
  if s.axSt n = 0 then s
  else
    let s := (((s.axComplete n stAborted).axCut n).axIdle n).axToFault n
    (s.axCoil n 0).raise (axsU n) code

/-- POWER_FAIL_WARNING: VIN below the PFW level (R52, R53). A warning during a power-fail flush adds nothing. One that comes while sleep entry
flushes does not restart that flush: its trigger is refused and counted as lost (R394), and `FLUSH_DONE`, cleared, stays 0 (DESIGN CHOICE, log
entry 89). -/
def powerFail (s : State) : State :=
  if !s.awake || s.on 0 F.CHIP_PWR_STAT_PFW then s
  else
    let again := s.log.flush == some .powerFail
    let s := s.puts 0 [(F.CHIP_PWR_STAT_PFW, 1), (F.CHIP_PWR_STAT_PFW_SEEN, 1)]
    let s := if again then s else s.put 0 F.CHIP_PWR_STAT_FLUSH_DONE 0
    let s := s.notice 7 [s.rdWord 0x60004]
    let s := if again then s
      else if s.log.flush.isSome then s.trigger 0 8 (s.rdWord 0x60004 % 65536)
      else ((s.ownTrigger 8 (s.rdWord 0x60004 % 65536)).startFlush .powerFail).commitEnd stAborted 0
    if s.on 0 F.CHIP_PWR_CTRL_PFW_STOP then
      let s := s.each (s.stations.filter fun n => s.halfRun (n / 2)) fun n s =>
        if s.mode n = mOff then s
        else if s.mode n = mFault then (s.put (stnB n) F.STN_STAT_MBRK 0).stnRaise n (stnCode n 2 0xDA)
        else s.faultStop n (stnCode n 2 0xDA) true
      s.each (s.axes.filter fun n => s.halfRun (n / 2)) fun n s => s.axPowerFail n
    else s

/-- POWER_FAIL_RECOVERY (R53). -/
def powerBack (s : State) : State := s.put 0 F.CHIP_PWR_STAT_PFW 0

/-- The end of a chip-wide reset's flush: SH in reset too; the chip waits or starts again (R48). VGD goes back to 12.0 V (R44), so that from
another `VGD_SET` it leaves its window (R63). -/
def enterReset (s : State) : State :=
  let arb := s.chip.arbPend
  let s := if s.get 0 F.CHIP_PWR_CTRL_VGD_SET == 4 then s else s.put 0 F.CHIP_PWR_STAT_VGD_OK 0
  let s := (s.wipe keptReset).putCause [if arb then F.CHIP_RST_CAUSE_ARBITER else F.CHIP_RST_CAUSE_RESET_PIN]
  (s.withChip fun c => { c with phase := .reset, arbPend := false }).leaveReset

/-- FLUSH_COMPLETE (R394): the flush's work, then what its kind goes on to. -/
def flushComplete (s : State) : State :=
  match s.log.flush with
  | none => s
  | some k =>
    let s := s.flushWork k
    match k with
    | .powerFail => s.put 0 F.CHIP_PWR_STAT_FLUSH_DONE 1
    | .reset => s.enterReset
    | .shutdown => (s.wipe pinFields).withChip fun c => { c with phase := .shutdown }
    | .sleep => s

/-! ### Supply events (R38, R43, R44) -/

/-- VIN_OVERVOLTAGE: VIN above VIN_OV, or below it by the hysteresis (R38). -/
def vinOver (s : State) (above : Bool) : State :=
  if s.chip.phase = .off || s.chip.phase = .asleep then s
  else
    let rise := above && !s.on 0 F.CHIP_PWR_STAT_VIN_OV
    let s := s.flag 0 F.CHIP_PWR_STAT_VIN_OV above
    if rise then s.put 0 F.CHIP_PWR_STAT_VIN_OV_SEEN 1 else s

/-- BUCK_BOOST_CURRENT_LIMIT (R43 Step 1): VGD starts to fall; `VGD_OK` ends where it has left its window (R63). -/
def buckLimit (s : State) (out : Bool) : State :=
  if !s.supplied then s
  else (s.when s.awake fun s => s.put 0 F.CHIP_PWR_STAT_BB_ILIM_SEEN 1).when out fun s => s.put 0 F.CHIP_PWR_STAT_VGD_OK 0

/-- A station's gates turn off for the gate supply: a fault stop whose cause number no table names, so that it is an open value (DESIGN CHOICE, log
entry 2); no rule gives its level either, and it takes level 1, as the other turn-offs of one station do (DESIGN CHOICE, log entry 68). -/
def supplyTrip (s : State) (n : Nat) : State :=
  if s.on (stnB n) F.GC_STAT_TURNOFF || !(s.trips n || s.on (stnB n) H.arming) then s
  else
    let c := s.fresh 8
    c.2.faultTrip n (stnCode n 1 c.1)

/-- VGD_UV: VGD below VGD_UV holds the transistors off, whatever the regions' state (R31), and turns off every gate cell of both halves (R43
Step 2, R178). The registers of a chip in reset stand. -/
def vgdUv (s : State) : State :=
  if !s.supplied then s
  else
    let s := (s.when s.awake fun s => s.put 0 F.CHIP_PWR_STAT_VGD_UV_SEEN 1).puts 0 [(F.CHIP_PWR_STAT_VGD_OK, 0), (H.vgdLow, 1)]
    s.each (s.stations.filter fun n => s.halfRun (n / 2)) fun n s => s.supplyTrip n

/-- VGD_SETTLED: VGD inside its window (R44). The hold of R31 ends here, and not at the threshold plus its hysteresis, which no row reports
(DESIGN CHOICE, log entry 108). -/
def vgdSettled (s : State) : State := if s.supplied then s.puts 0 [(F.CHIP_PWR_STAT_VGD_OK, 1), (H.vgdLow, 0)] else s

/-! ### The die shutdown and the arbiter (R216, R374) -/

/-- DIE_SHUTDOWN: outputs off, brakes applied, stations not OFF in FAULT (R210) with the code in their own lists as in the chip's (R375), READY
low. Its one record is the shutdown record, flushed last (Table BG-5). -/
def dieShutdown (s : State) : State :=
  let s := s.cutOutputs
  let s := s.each (s.stations.filter fun n => s.halfRun (n / 2)) fun n s =>
    if s.mode n = mOff then s
    else
      let s := if s.mode n = mFault then s else s.faultStop n 0x4072 true 0 false
      (s.stnCause n 0x4072).enterList (stnU n) 0x4072
  let s := s.enterList .chip 0x4072
  let s := s.stopCommit.withChip fun c => { c with phase := .shutdown, ready := false, dieLatch := true, wakePend := none }
  (s.ownTrigger 1 0x4072).startFlush .shutdown

/-- TEMPERATURE_CONVERSION with the shutdown it may start. -/
def temperature (s : State) (r : Nat) (rd : List Int) : State :=
  if !s.awake then s
  else
    let a := s.tempConvert r rd
    if a.2 then a.1.dieShutdown else a.1

/-- ARBERR: the chip resets as on RESET_N, wherever RESET_N is taken, with its code kept in `FLT_CHIP` (R374). -/
def arbError (s : State) : State :=
  if !s.resettable then s
  else
    let s := (s.raise .chip (fcode 4 0 0xD7)).put 0 F.FLT_CHIP_CODE (fcode 4 0 0xD7)
    s.resetTaken true

/-! ### Clocks (R46, R47, R268, R345) -/

/-- With no region on the reference the links stop, and raise nothing of their own (R268). -/
def linksFollow (s : State) : State :=
  if !s.hatOn || s.ringClock then s
  else
    (s.each [Link.west, Link.east] fun l s =>
      if s.lnkSt l == 2 || s.lnkSt l == 1 then s.lnkEnter l 0 else s).hatState

/-- The first and the last region whose controllers follow a region's clock: those of the half. -/
def halfCans (r : Nat) : List Nat := if r = 0 then [] else [r - 1, r + 1]

/-- A region's clock is present: SH, or a half of the part. -/
def clockOf (s : State) (r : Nat) : Bool := r == 0 || s.halfPresent (r - 1)

/-- A region's PLL changes its source through holdover, for 100 µs (R46, R47; DESIGN CHOICE, log entry 66). No rule says whether a PLL in holdover,
or one that locks to its other source, counts as locked: `PLL_LOCK` and `TB_SRC` stand meanwhile (R22, R65; DESIGN CHOICE, log entry 66). -/
def switchOver (s : State) (r : Nat) : State := s.put (8 * r) H.holdEnd (s.time + 40000)

/-- REFERENCE_LOSS of a region (R46): the loss is counted in any case; a region that runs on the reference goes through holdover to its
fallback oscillator. -/
def refLoss (s : State) (r : Nat) : State :=
  if !s.alive || !s.clockOf r || bitN (s.nat 0 H.refBad) r then s
  else
    let s := ((s.setBit 0 H.refBad r true).puts 0 [(F.CHIP_CLK_STAT_XTAL_LOST, 1), (F.CHIP_CLK_STAT_XTAL_OK, 0)]).bump 0
      F.CHIP_CLK_STAT_XTAL_LOSS_CNT
    if bitN (s.nat 0 F.CHIP_STATUS_CLK_FB) r then s
    else
      let s := (s.setBit 0 F.CHIP_STATUS_CLK_FB r true).switchOver r
      let s := s.each (halfCans r) fun c s => if s.halfRun (c % 2) then s.canClkOff c else s
      s.linksFollow

/-- REFERENCE_RETURN of a region: the reference is good again for it, and with `FB_RETURN` set the region returns to it through holdover
(R47); its controllers integrate again and stopped links retrain. -/
def refReturn (s : State) (r : Nat) : State :=
  if !s.alive || !s.clockOf r || !bitN (s.nat 0 F.CHIP_STATUS_CLK_FB) r then s
  else
    let was := s.ringClock
    let s := s.setBit 0 H.refBad r false
    let s := s.flag 0 F.CHIP_CLK_STAT_XTAL_OK (!s.on 0 H.refBad)
    if !s.on 0 F.CHIP_CLK_CTRL_FB_RETURN || s.chip.phase = .restricted then s
    else
      let s := (s.setBit 0 F.CHIP_STATUS_CLK_FB r false).switchOver r
      let s := s.each (halfCans r) fun c s => if s.halfRun (c % 2) then s.canClkOn c else s
      if was then s else s.each [Link.west, Link.east] fun l s => s.linkRetrain l

/-! ### Sleep (R57 to R60, R348) -/

/-- SLEEP's conditions of state (R57). -/
def sleepOk (s : State) : Bool :=
  s.stations.all (fun n => s.mode n == mOff) && s.axes.all (fun n => s.axSt n ≤ 1) &&
  (List.range 16).all (fun k => !s.svcLive k) && s.cfg.commit.isNone && !s.on 0 F.CHIP_PINS_WAKE_LOW

/-- SLEEP accepted: the flush starts; C0 and C1 leave the bus once the OK has gone (`sleepCheck`). -/
def sleepBegin (s : State) (selective : Bool) (frames : List Nat) : State :=
  (s.withChip fun c => { c with phase := .sleepEntry, ready := false, selective := selective, wakeFrame := frames, wakePend := none }).startFlush
    .sleep

/-- A wake frame (Table PK-12) matches a classical frame: identifier under its mask, IDE, DLC, and data under its mask where compared. -/
def wakeMatch (w : List Nat) (f : CanFrame) : Bool :=
  let i := w.getD 0 0
  let k := w.getD 1 0 % 2 ^ 29
  let d := w.getD 2 0
  let bytes (a b : Nat) : List Nat := (wordBytes (w.getD a 0)) ++ (wordBytes (w.getD b 0))
  let dat := bytes 3 4
  let msk := bytes 5 6
  let n := dlcLen false f.dlc.val
  bitN i 30 && !f.fdf && f.ide == bitN i 29 && (f.id.toNat &&& k) == (i % 2 ^ 29 &&& k) && f.dlc.val == d % 16 &&
  (!bitN d 4 || (List.range n).all fun j =>
    ((f.data.getD j 0).toNat &&& msk.getD j 0) == (dat.getD j 0 &&& msk.getD j 0))

/-- A wake path is armed (Table PW-7, R29), and a frame event's frame matches. -/
def wakeArmed (s : State) (c : WakeCause) : Bool :=
  let sel := s.chip.selective
  let two := match s.fusePart with | some (p, _) => (partBits p).2.1 == 1 | none => false
  match c with
  | .pin low => low
  | .c0Edge => !sel
  | .c1Edge => !sel && two
  | .c0Frame f => sel && wakeMatch (s.chip.wakeFrame.take 7) f
  | .c1Frame f => sel && two && wakeMatch (s.chip.wakeFrame.drop 7) f
  | .c0Fec => sel
  | .c1Fec => sel && two

/-- The cause bit of a wake event (Table PW-13). -/
def wakeField : WakeCause → Fld
  | .pin _ => F.CHIP_RST_CAUSE_WAKE_PIN
  | .c0Edge => F.CHIP_RST_CAUSE_WAKE_C0_EDGE
  | .c1Edge => F.CHIP_RST_CAUSE_WAKE_C1_EDGE
  | .c0Frame _ => F.CHIP_RST_CAUSE_WAKE_C0_FRAME
  | .c1Frame _ => F.CHIP_RST_CAUSE_WAKE_C1_FRAME
  | .c0Fec => F.CHIP_RST_CAUSE_WAKE_C0_FEC
  | .c1Fec => F.CHIP_RST_CAUSE_WAKE_C1_FEC

/-- The level of WAKE_N follows its pin (R36). -/
def pinLevel (s : State) (c : WakeCause) : State :=
  match c with
  | .pin low => s.flag 0 F.CHIP_PINS_WAKE_LOW low
  | _ => s

/-- WAKE: an armed wake event starts a sleeping chip at Step 2 of Table PW-5; during sleep entry it waits for the entry to end, and of
several the first is the one that shows (R59; DESIGN CHOICE, log entry 67). -/
def wake (s : State) (c : WakeCause) (b : Boot) : State :=
  let s := s.pinLevel c
  if !s.wakeArmed c then s
  else if s.chip.phase = .asleep then s.railsUp b [F.CHIP_RST_CAUSE_WAKE, wakeField c]
  else if s.chip.phase = .sleepEntry then
    s.withChip fun q => { q with boot := b, wakePend := some (q.wakePend.getD c) }
  else s

/-- SLEEP_ENTRY_COMPLETE: regions in reset, rails off; a wake event that came meanwhile wakes the chip at once (R57, R59). -/
def sleepDone (s : State) : State :=
  if s.chip.phase ≠ .sleepEntry then s
  else
    let s := if s.log.flush.isSome then s.flushWork .sleep else s
    let pend := s.chip.wakePend
    let s := (s.wipe pinFields).withChip fun c => { tapDark c with phase := .asleep, wakePend := none }
    match pend with
    | some c => s.railsUp s.chip.boot [F.CHIP_RST_CAUSE_WAKE, wakeField c, F.CHIP_RST_CAUSE_SLEEP_ABORT]
    | none => s

/-! ### Presence key (R95, R96) -/

/-- PRESENCE_KEY_VALID: PRES_N goes low, or has been low for 1000 samples. -/
def keyValid (s : State) (full : Bool) : State :=
  (s.put 0 F.CHIP_PINS_PRES_LOW 1).when (full && s.alive && s.shRun) fun s => s.put 0 F.CHIP_PINS_PRES_VALID 1

/-- PRESENCE_KEY_RELEASE: PRES_N goes high, or two high samples have been taken; a commit that needs the key is then abandoned before its
`SEQ` write. -/
def keyRelease (s : State) (full : Bool) : State :=
  let s := s.put 0 F.CHIP_PINS_PRES_LOW 0
  if !full || !s.alive then s
  else
    let s := s.put 0 F.CHIP_PINS_PRES_VALID 0
    if s.cfg.commit.any (·.keyed) then s.commitEnd stNoKey 0 else s

/-! ### Test access (R426 to R428) -/

/-- The instruction of a code (Table PT-4); every other code acts as BYPASS (R427). -/
def tapInstr (code : Nat) : TapInstr :=
  match code with
  | 0x01 => .idcode
  | 0x02 => .samplePreload
  | 0x03 => .extest
  | 0x04 => .clamp
  | 0x05 => .highz
  | _ => .bypass

/-- EXTEST, CLAMP and HIGHZ are intrusive (R428). -/
def intrusive (i : TapInstr) : Bool := i == .extest || i == .clamp || i == .highz

/-- EXTEST and CLAMP drive the pins from the boundary register's latches (R428). -/
def drivesPins (i : TapInstr) : Bool := i == .extest || i == .clamp

/-- Width of the value drawn for the boundary register's latches; no variant has more cells (R429). -/
def latchBits : Nat := 512

/-- What scans have left in the boundary register's latches when EXTEST or CLAMP takes effect. No row shifts the register, so it is an open value
(DESIGN CHOICE, log entry 113). -/
def loadLatches (s : State) (i : TapInstr) : State :=
  if drivesPins i then (s.fresh latchBits).2.withChip fun c => { c with latches := (s.fresh latchBits).1 } else s

/-- TAP_UPDATE_IR: an instruction takes effect; an intrusive one acts as RESET_N while a region is out of reset, and holds the chip until
a non-intrusive one follows (R428). The port works whenever VIO is present (R426). TRST_N is high at an Update-IR (R426; DEDUCED, log
entry 113). -/
def tapIr (s : State) (code : Nat) : State :=
  let i := tapInstr code
  if s.chip.phase = .off || s.chip.phase = .asleep then s
  else
    let s := (s.loadLatches i).withChip fun c => { c with ir := i, tapOff := false, tapHold := intrusive i }
    if intrusive i then (if s.resettable then s.resetTaken false else s) else s.leaveReset

/-- TAP_RESET: Test-Logic-Reset selects IDCODE, which is not intrusive (R426). -/
def tapReset (s : State) : State := (s.withChip fun c => { c with ir := .idcode, tapOff := true, tapHold := false }).leaveReset

end Sys2Proof.Machine.State
end

