-- ==== Sys2Proof/Machine/Faults.lean ====
section
/-!
DEFINITION. Fault handling (chapter 18): block errors with the cover of Table FH-3, cell errors, the end of steaming, self-tests, scrubbing,
and FAULT_CLEAR with the conditions under which a cause counts as present.
-/
namespace Sys2Proof.Machine.State

/-! ### Block errors (R368, R369) -/

/-- Of a station's block only the current sense is out of service (R168). -/
def senseOut (s : State) : Block → Bool
  | .stn n => s.on (stnB n.val) H.csOut
  | _ => false

/-- A block runs, so that it can raise an error: its region does, and the A↔B mailbox and the recorder run on while SH is out (R15). One that is
out of service after Step 4b stays so and raises none; one that steams, or of which only the current sense is out (R168), does (R368, R370). -/
def blockLive (s : State) (b : Block) : Bool :=
  s.alive && (!s.oos b || s.steaming b || s.senseOut b) && (s.regionRun b.region || b == .abmbx || b == .recorder) && (b.region == 0 || s.halfPresent (b.region - 1))

/-- A link cell goes OUT of the ring; one that is held or unused stays so (Table LS-1). -/
def lnkOut (s : State) (l : Link) : State :=
  if s.lnkSt l ≤ 2 then (((s.lnkEnter l 3).lnkNoted l).flapCheck l).hatState else s

/-- A loss on a path of the set-point port that has none yet. -/
def portOut (s : State) (h : Nat) (pulse : Bool) : State :=
  if s.on (halfB h) (if pulse then F.SPT_STAT_LOS_P else F.SPT_STAT_LOS_A) then s else s.spLos h pulse

/-- The entry of a block's error and what the loss of the block does to functions (Table FH-3). -/
def cover (s : State) (b : Block) (code : Nat) : State :=
  match b with
  | .stn n => (s.faultTrip n.val code).put (stnB n.val) H.csOut 0
  | .axs n => if s.axSt n.val = 0 then (s.put (axsB n.val) F.AXS_STAT_CAUSE (code % 64)).raise (axsU n.val) code else s.axFault n.val 0xB3 false true
  | .bgd h => (((s.bgdRaise h.val (code % 256)).chgLow h.val).preLow h.val).faultHalf h.val code
  | .can c => (s.raise (canU c.val) code).canLeave c.val
  | .len h => (((s.settleHalf h.val).put (halfB h.val) F.LEN_STAT_IN_SERVICE 0).raise b.unit code).faultHalf h.val code
  | .asc h => (s.raise b.unit code).each (List.range 4) fun u s => s.ascDisarmUser h.val u stFaulted
  | .spt h => ((s.raise b.unit code).portOut h.val false).portOut h.val true
  | .lnkW => (s.raise b.unit code).lnkOut .west
  | .lnkE => (s.raise b.unit code).lnkOut .east
  | .mbx => (s.raise b.unit code).mbxEcc
  | .cfg => ((match s.cfg.commit with
      | some j => (s.putSlot j.target (imgSet (s.cfg.slots.toList.getD j.target []) 8 0)).commitEnd stFaulted 0
      | none => s).raise b.unit code)
  | _ => s.raise b.unit code

/-- BLOCK_ERROR. -/
def blockError (s : State) (b : Block) : State :=
  if s.blockLive b then ((s.cover b b.error).blockOut b b.error).holdOut b else s

/-! ### Restoring a block (Step 4a of Table FH-2) -/

/-- The keys of the CFG fields of registers, or of every field. -/
def regKeys (b : Nat) (l : List RegD) (every : Bool) : List Nat :=
  l.flatMap fun d => (List.range d.count).flatMap fun i =>
    (d.flds.filter fun f => every || f.cfg).map fun f => f.f.key (b + i * d.stride)

/-- The cells of a block at reset: its address range, but for the fields kept. -/
def resetBlock (s : State) (lo hi : Nat) (keep : List Nat) : State :=
  { s with regs := s.regs.filter fun e => e.1 < 8 * lo || 8 * hi ≤ e.1 || keep.contains e.1 }

/-- The current sense at reset after PLAUS (R168). -/
def restoreSense (s : State) (n : Nat) : State :=
  let b := stnB n
  (s.resetBlock (b + 0x4000) (b + 0x4024) (regKeys b R.stnRegs false)).puts b [(H.csOut, 0), (H.badRun, 0), (H.sumRun, 0)]

/-- A station at reset, with its mode, its factors from other blocks, the levels at its pins, and the ports that share its position area. -/
def restoreStn (s : State) (n : Nat) : State :=
  let b := stnB n
  let own := regKeys b R.stnRegs false ++ [F.STN_STAT_MODE.key b, H.prevMode.key b, H.kExt.key b, H.kShed.key b, F.GC_STAT_LRDY.key b,
    F.GC_STAT_LFLT.key b] ++ [H.pfA, H.pfLB, H.pfRA, H.pfRB, H.pfTA, H.pfTB, H.extEn].map fun f => f.key b
  let ser := if n % 2 = 0 then regKeys b R.serialRegs true ++ (List.range 0x80).map fun i => 8 * (b + 0xFC00 + 8 * i) else []
  let s := ((s.resetBlock b (b + 0x10000) (own ++ ser)).put b F.GC_STAT_OFF_CONF 1).startCarrier n
  (s.startAcq n false).putStoOff (n / 2)

/-- A link returns to training after its cell has passed. -/
def lnkBack (s : State) (l : Link) : State :=
  if s.lnkSt l = 3 || (s.lnkSt l = 4 && s.get 0 (heldF l) == 0x91) then
    (s.put l.base F.HBD_LNK_LSTATE (if s.hatOn && s.ringClock then 1 else 0)).hatState
  else s

/-- A block restored: cells at reset, CFG fields at the values in force; no function restarts. A slot in error stays so (R262). -/
def restoreBlock (s : State) (b : Block) : State :=
  match b with
  | .stn n => if s.on (stnB n.val) H.csOut then s.restoreSense n.val else s.restoreStn n.val
  | .axs n =>
    let a := axsB n.val
    s.resetBlock a (a + 0x10000) (regKeys a R.axisRegs false ++ [F.AXS_STAT_STATE.key a])
  | .bgd h =>
    let g := halfB h.val
    (s.resetBlock (g + 0x60000) (g + 0x70000) (regKeys g R.halfRegs false)).puts g
      [(H.vdc1, 0), (H.vdc2, 0), (H.vdc3, 0), (H.vdc4, 0), (H.vdcN, 0), (H.vdcf, 0), (H.preStop, 0)]
  | .can c =>
    let a := canB c.val
    ((s.resetBlock a (a + 0x10000) (regKeys a R.canRegs false)).withCan c.val fun q => { CanS.zero with gone := q.gone }).canStart c.val
  | .len h =>
    (s.each (List.range 48) fun m s => (s.resetSlot h.val m).put (slotB h.val m) F.LEN_SST_ERR (s.get (slotB h.val m) F.LEN_SST_ERR)).put (halfB h.val)
      F.LEN_STAT_IN_SERVICE 1
  | .asc h =>
    (s.each (List.range 4) fun u s => s.ascDisarmUser h.val u stFaulted).resetBlock (halfB h.val + 0xA0000) (halfB h.val + 0xB0000)
      (regKeys (halfB h.val) R.halfRegs false)
  | .spt h =>
    let g := halfB h.val
    (s.resetBlock (g + 0xB0000) (g + 0xC0000) (regKeys g R.halfRegs false)).puts g
      [(H.losBad, 0), (H.losGood, 0), (H.lastEdge, 0), (H.prevEdge, 0), (H.highT, 0), (H.perT, 0), (H.curHigh, 0), (H.portCnt, 0)]
  | .thm h => (s.resetBlock (halfB h.val + 0x90000) (halfB h.val + 0xA0000) (regKeys (halfB h.val) R.halfRegs false)).putK h.val
  | .lnkW => s.lnkBack .west
  | .lnkE => s.lnkBack .east
  | _ => s

/-! ### The end of steaming (Table FH-2, R370, R371) -/

/-- The entry that a steaming unit's error made and that is not lasting. -/
def steamEntry (s : State) (x : Steamed) : Option FEntry := s.flt.list.find? fun e => e.out.contains x && !e.lasting

/-- Step 4a: the error is transient; its count, the time of it, and its record. -/
def countTransient (s : State) (x : Steamed) (code : Nat) : State :=
  ((s.bump 0 F.FLT_CNT_TRANS).withFlt fun f => { f with trans := f.trans ++ [(x, s.time)] }).trigger (code / 256 % 16) 2 code

/-- Step 4a with the error's entry: one that reports nothing else goes. -/
def transient (s : State) (x : Steamed) (e : FEntry) : State :=
  let s := s.withEntry e.unit e.code fun e => { e with out := e.out.filter (· != x) }
  (if e.out.all (· == x) then s.unraise e.unit e.code else s).countTransient x e.code

/-- A self-test passes: a block that was out with a lasting entry is back, and the entry is no longer lasting. -/
def testPass (s : State) (b : Block) : State :=
  if !s.oos b then s
  else
    let s := s.withFlt fun f => { f with list := f.list.map fun e =>
      if (e.out.contains (.block b)) = true then
        { e with out := e.out.filter (· != .block b), lasting := e.lasting && !(e.out.all (· == .block b)) }
      else e }
    (s.setOos b false).restoreBlock b

/-- A self-test fails: Step 4b. -/
def testFail (s : State) (b : Block) : State :=
  (((if s.oos b then s.raise b.unit b.error else s.cover b b.error).setOos b true).markLasting (.block b) b.unit b.error).holdLink b

/-- The steaming of a block ends: of an error whose entry a FAULT_CLEAR has removed meanwhile, and of a self-test, too. -/
def blockSteamed (s : State) (b : Block) (pass : Bool) : State :=
  if !s.steaming b then s
  else
    let s := s.setSteam b false
    let s := match s.steamEntry (.block b) with
      | some e =>
        if pass then ((s.setOos b false).restoreBlock b).transient (.block b) e
        else (s.markLasting (.block b) e.unit e.code).holdLink b
      | none =>
        if !pass then s.testFail b
        else if s.flt.tests.any (·.todo.head? == some b) then s.testPass b
        else ((s.setOos b false).restoreBlock b).countTransient (.block b) b.error
    s.each s.flt.tests fun t s => s.testNext b pass t

/-- The steaming of a CAN queue entry ends (R346). -/
def entrySteamed (s : State) (c : Fin 4) (ix : Fin 96) (pass : Bool) : State :=
  if !(s.canq c.val).gone.contains (ix.val, true) then s
  else
    let rest := (s.canq c.val).gone.filter (·.1 != ix.val)
    match s.steamEntry (.canEntry c ix) with
    | some e =>
      if pass then ((s.withCan c.val fun q => { q with gone := rest }).canFree c.val [ix.val]).transient (.canEntry c ix) e
      else (s.withCan c.val fun q => { q with gone := rest ++ [(ix.val, false)] }).markLasting (.canEntry c ix) e.unit e.code
    | none =>
      let code := canCode c.val 1 0xC2
      if pass then ((s.withCan c.val fun q => { q with gone := rest }).canFree c.val [ix.val]).countTransient (.canEntry c ix) code
      else ((s.withCan c.val fun q => { q with gone := rest ++ [(ix.val, false)] }).raise (canU c.val) code).markLasting (.canEntry c ix) (canU c.val) code

/-- STEAMING_END. -/
def steamingEnd (s : State) (x : Steamed) (pass : Bool) : State :=
  match x with
  | .block b => if s.blockLive b then s.blockSteamed b pass else s
  | .canEntry c ix => if s.alive && s.halfRun (c.val % 2) then s.entrySteamed c ix pass else s

/-! ### SELFTEST (R371) -/

/-- The blocks of a region in ascending local order (Tables FH-8 and FH-9). -/
def regionBlocks (r : Nat) : List Block :=
  match r with
  | 0 => [.cfg, .recorder, .lnkW, .lnkE, .mbx, .spi, .uart, .abmbx]
  | h + 1 =>
    let i := Fin.ofNat 2 h
    [.stn (Fin.ofNat 4 (2 * h)), .stn (Fin.ofNat 4 (2 * h + 1)), .axs (Fin.ofNat 4 (2 * h)), .axs (Fin.ofNat 4 (2 * h + 1)), .bgd i,
     .can (Fin.ofNat 4 h), .can (Fin.ofNat 4 (h + 2)), .len i, .asc i, .spt i, .thm i]

/-- Steaming on request starts with the first block. -/
def selfTest (s : State) (tag : Nat) (l : List Block) : State :=
  match l with
  | [] => s
  | b :: _ => (s.withFlt fun f => { f with tests := f.tests ++ [{ tag := tag, todo := l, cause := 0 }] }).setSteam b true

/-- A self-test is abandoned (R75). -/
def stopTest (s : State) (tag : Nat) : State :=
  let l := s.flt.tests.filter (·.tag == tag)
  let s := s.withFlt fun f => { f with tests := f.tests.filter (·.tag != tag) }
  s.each l fun t s => match t.todo.head? with
    | some b => if (s.steamEntry (.block b)).isSome then s else s.setSteam b false
    | none => s

/-! ### Cell errors and scrubbing (R366, R367) -/

/-- An ECC error in a CAN queue entry (R346): a frame in it is lost and counted as a drop of its set, the entry is withdrawn and steams. The tunnel's
segment then waits for another reserved entry (R347; DESIGN CHOICE, log entry 50). -/
def entryError (s : State) (c : Fin 4) (ix : Fin 96) : State :=
  let x := Steamed.canEntry c ix
  let code := canCode c.val 1 0xC2
  let u := canU c.val
  match (s.canq c.val).gone.find? (·.1 == ix.val) with
  | some (_, true) =>
    ((s.withCan c.val fun q => { q with gone := q.gone.filter (·.1 != ix.val) ++ [(ix.val, false)] }).raise u code).markLasting x u code
  | some (_, false) => s
  | none =>
    let b := canB c.val
    let s :=
      if ix.val < 64 then
        if (s.canq c.val).rx.any (·.ix == ix.val) then
          let host := decide ((s.partOf c.val true).1 ≤ ix.val)
          ((s.withCan c.val fun q => { q with rx := q.rx.filter (·.ix != ix.val) }).bump b
            (if host then F.CAN_DROP_DROP_H else F.CAN_DROP_DROP_S)).put b F.CAN_STAT_DROP_SEEN 1
        else s
      else if (s.canq c.val).tx.any (·.ix == ix.val - 64) then
        ((s.txEnd c.val (ix.val - 64) stFaulted).bump b F.CAN_DROP_DROP_H).put b F.CAN_STAT_DROP_SEEN 1
      else if (s.tunPending c.val).any (·.ix == ix.val - 64) then (s.bump b F.CAN_DROP_DROP_S).put b F.CAN_STAT_DROP_SEEN 1
      else s
    let s := s.raise u code
    if s.nat 0 F.FLT_CFG_STEAM_MAX ≤ s.recentTransients x then
      (s.withCan c.val fun q => { q with gone := q.gone ++ [(ix.val, false)] }).markLasting x u code
    else (s.withCan c.val fun q => { q with gone := q.gone ++ [(ix.val, true)] }).withEntry u code fun e => { e with out := e.out ++ [x] }

/-- CELL_ERROR: the safe state of Table AR-3. A station's block cannot cover for a gate, PWM, ADC or commutation cell and goes out of
service itself; a position cell's error is a position fault. -/
def cellError (s : State) (x : Cell) : State :=
  match x with
  | .gate n _ | .pwm n _ | .commutation n => s.blockError (.stn n)
  | .adc n _ => if s.blockLive (.stn n) then (s.put (stnB n.val) F.CS_I_W_VALID 0).blockError (.stn n) else s
  | .position n => if s.blockLive (.stn n) then s.positionFaultBy n.val (Block.error (.stn n)) else s
  | .slot h m => if s.alive then s.slotErrEv h.val m.val else s
  | .canEntry c ix => if s.blockLive (.can c) then s.entryError c ix else s
  | .axis n => s.blockError (.axs n)
  | .record ix =>
    if s.alive && decide (ix < s.log.staging.length) then
      ((s.withLog fun l => { l with staging := l.staging.eraseIdx ix }).loseTrig 1).blockFail .recorder (Block.error .recorder)
    else s

/-- RAM_SCRUB: single-bit errors found and corrected are counted (R366). -/
def ramScrub (s : State) (errors : Nat) : State := if s.alive then s.bumpBy 0 F.FLT_CNT_CORR errors else s

/-! ### FAULT_CLEAR (R377) -/

/-- An entry's block, or withdrawn queue entry, is still out of service. -/
def outStill (s : State) : Steamed → Bool
  | .block b => s.oos b
  | .canEntry c ix => (s.canq c.val).gone.any (·.1 == ix.val)

/-- Sensors of a region that are excluded, and whether a reading of one of them is still outside its window. -/
def sensorBad (s : State) (r : Nat) : Bool :=
  let bad (broken : Nat) (l : List Int) : Bool := maskOf (fun x => !plausible x) l 0 &&& broken != 0
  if r = 0 then
    bad (s.nat 0 F.THM_SH_STAT_BROKEN) [s.get 0 F.THM_SH_T_T0, s.get 0 F.THM_SH_T_T1] ||
    (List.range 4).any fun x => bitN (s.nat 0 F.THM_SH_STAT_EXT_BROKEN) x &&
      (decide (s.get (8 * x) H.xCode < 8) || decide (4087 < s.get (8 * x) H.xCode) || !plausible (s.curveTemp x (s.get (8 * x) H.xCode)))
  else
    let g := halfB (r - 1)
    bad (s.nat g F.THM_STAT_BROKEN) [s.get g F.THM_T01_T0, s.get g F.THM_T01_T1, s.get g F.THM_T23_T2, s.get g F.THM_T23_T3]

/-- A cause is still present, by the chapter that owns it. -/
def present (s : State) (u : FUnit) (code : Nat) : Bool :=
  let r := code / 256 % 16
  let h := r - 1
  let g := halfB h
  match code % 256 with
  | 0x59 | 0x5A => s.on g F.SUP_STO_STAT_ACTIVE
  | 0x60 => decide (1 ≤ s.get g H.vdcN) && decide (s.get g F.BGD_VTRIP_V_TRIP ≤ s.get g H.vdc1)
  | 0x61 => decide (s.get g H.vdcf < s.get g F.BGD_VTRIP_V_UV)
  | 0x62 | 0x63 => decide (s.get g F.BGD_VCHOP_V_CHOP - s.get g F.BGD_VCHOP_CHOP_HYST ≤ s.get g H.vdcf)
  | 0x64 => !s.on g F.BGD_STAT_CHOP_ON && decide (10 * s.get g F.BGD_CHOP_I_PRES < s.get g F.BGD_MEAS_ICH)
  | 0x70 => s.sensorBad r
  | 0x71 => if r = 0 then s.on 0 F.THM_SH_STAT_NOSENSE else s.on g F.THM_STAT_NOSENSE
  | 0x72 => true
  | 0x80 => (List.range 48).any fun m => s.on (slotB h m) F.LEN_SST_ERR
  | 0x81 => s.oos (.len (Fin.ofNat 2 h))
  | 0x88 => s.on g F.SPT_STAT_LOS_A || s.on g F.SPT_STAT_LOS_P
  | 0x95 => s.get 0 F.HBD_STAT_STATE == 3
  | 0x96 => s.get 0 F.HBD_STAT_STATE == 4
  | 0x97 => s.strapBad
  | 0x98 => s.get 0 F.HBD_GSIG_ROOT_SIG != s.get 0 F.HBD_GSIG_OWN
  | 0xB2 => match u with
    | .axs n => s.on (axsB n.val) H.axSrc && !s.on (stnB (s.nat (axsB n.val) H.axStn)) F.PF_STAT_VALID
    | _ => false
  | 0xC0 => match u with | .can c => s.get (canB c.val) F.CAN_STAT_ERRSTATE == 2 | _ => false
  | 0xC1 => match u with | .can c => s.on (canB c.val) F.CAN_STAT_CLKOFF | _ => false
  | 0xDA => s.on 0 F.CHIP_PWR_STAT_PFW || !s.on 0 F.CHIP_PWR_STAT_FLUSH_DONE
  | _ => false

/-- Causes of position faults, and the position cell's own error. -/
def posCauses : List Nat := [0x30, 0x31, 0x32, 0x33, 0x34, 0xD6]

/-- What the removal of an entry sets going: acquisition again (R115, R121), the chopper and precharge (R206, R210), excluded sensors
(R213), held links (Table LS-1). -/
def afterClear (s : State) (u : FUnit) (code : Nat) : State :=
  let c := code % 256
  match u with
  | .stn n =>
    if s.on (stnB n.val) H.pfFlt && !((s.faultsOf u).any fun e => posCauses.contains (e.code % 256)) then s.startAcq n.val true else s
  | .bgd h =>
    let g := halfB h.val
    let s := if (c = 0x62 || c = 0x63) && !((s.faultsOf u).any fun e => e.code % 256 == 0x62 || e.code % 256 == 0x63) then
        s.put g F.BGD_STAT_CHFAULT 0 else s
    if (c = 0x61 || c = 0x64 || c = 0x65) && !((s.faultsOf u).any fun e => [0x61, 0x64, 0x65].contains (e.code % 256)) then
      s.put g H.preStop 0 else s
  | .region r =>
    if c = 0x70 then
      (if r.val = 0 then s.puts 0 [(F.THM_SH_STAT_BROKEN, 0), (F.THM_SH_STAT_EXT_BROKEN, 0)]
       else s.put (halfB (r.val - 1)) F.THM_STAT_BROKEN 0)
    else if c = 0x93 || c = 0x94 then
      (s.each [Link.west, Link.east] fun l s =>
        if s.lnkSt l = 4 && s.get 0 (heldF l) == c then s.put l.base F.HBD_LNK_LSTATE (if s.hatOn && s.ringClock then 1 else 0) else s).hatState
    else s
  | _ => s

/-- One entry removed by FAULT_CLEAR: notice, record and what follows. -/
def clearOne (s : State) (u : FUnit) (code : Nat) : State :=
  ((s.unraise u code).trigger (code / 256 % 16) 4 code).afterClear u code

/-- The entries of a unit that a FAULT_CLEAR with a code removes: the cause has passed, the entry is not lasting with its block still out, and no
occurrence of it came in this clock (R377, R7; DEDUCED, log entry 99). -/
def clearable (s : State) (u : FUnit) (code : Nat) : List Nat :=
  ((s.faultsOf u).filter fun e =>
    (code == 0xFFFF || e.code == code) && e.last != s.time && !(e.lasting && e.out.any s.outStill) && !s.present u e.code).map (·.code)

/-- FAULT_CLEAR: the entries that can go; with 0xFFFF the overflow mark too. A station whose list is then empty goes from FAULT to OFF, an
axis to IDLE. -/
def faultClear (s : State) (u : FUnit) (code : Nat) : State :=
  let s := s.each (s.clearable u code) fun c s => s.clearOne u c
  let s := if code = 0xFFFF then s.withFlt fun f => { f with ovf := f.ovf.filter (· != u) } else s
  if !(s.faultsOf u).isEmpty then s
  else
    match u with
    | .stn n => if s.mode n.val = mFault then s.setMode n.val mOff else s
    | .axs n => if s.axSt n.val = 7 then s.put (axsB n.val) F.AXS_STAT_STATE (s.get (axsB n.val) F.AXS_CTRL_CLASS != 0 |> b2i) else s
    | _ => s

end Sys2Proof.Machine.State
end

