-- ==== Sys2Proof/Machine/Milliner.lean ====
section
/-!
DEFINITION. Milliner's view of a command: its payload, its target and the half that owns it (R67, R73), the snapshot capture (R79,
R83), and the form in which the files of commands state what an opcode checks and does (Table PK-4).
-/
namespace Sys2Proof
open Machine

/-- Word `i` of a command's payload; 0 beyond its end. -/
def Cmd.word (c : Cmd) (i : Nat) : Nat := (c.payload.getD i 0).toNat

/-- The payload's length in words. -/
def Cmd.len (c : Cmd) : Nat := c.payload.length

/-- The payload from word `i` on. -/
def Cmd.wordsFrom (c : Cmd) (i : Nat) : List Nat := (c.payload.drop i).map BitVec.toNat

/-- The index of the target. -/
def Cmd.ix (c : Cmd) : Nat := c.index.toNat

/-- An s48 value in words `i` and `i + 1` of the payload. -/
def Cmd.s48 (c : Cmd) (i : Nat) : Int := sgnN 48 (c.word i + 2 ^ 32 * (c.word (i + 1) % 65536))

/-- The high word of an s48 value extends its sign (R82). -/
def Cmd.s48Ok (c : Cmd) (i : Nat) : Bool := (c.word (i + 1) : Int) == sgnN 16 (c.word (i + 1) % 65536) % 2 ^ 32

end Sys2Proof

namespace Sys2Proof.Machine


/-- The first of a list of checks that fails, with `DETAIL` 0. -/
def firstBad : List (Bool × Nat) → Option (Nat × Nat)
  | [] => none
  | (bad, st) :: r => if bad then some (st, 0) else firstBad r

namespace State

/-! ### Targets (R67, R73) -/

/-- The target is in Table PK-3, its function is present, and the reserved bits of word 1 are 0. -/
def targetOk (s : State) (c : Cmd) : Bool :=
  c.rsv == 0 &&
  match c.scope.toNat with
  | 0 => c.ix == 0
  | 1 => c.ix == 0 || (decide (c.ix ≤ 2) && s.halfPresent (c.ix - 1))
  | 2 | 3 => s.stnPresent c.ix
  | 4 => s.halfPresent c.ix
  | 5 => s.canPresent c.ix
  | 6 => decide (1 ≤ c.ix) && s.halfPresent (c.ix - 1)
  | _ => false

/-- The half that owns the target; none for the chip and SH. -/
def targetHalf (c : Cmd) : Option Nat :=
  match c.scope.toNat with
  | 1 | 6 => if c.ix = 0 then none else some (c.ix - 1)
  | 2 | 3 => some (c.ix / 2)
  | 4 => some c.ix
  | 5 => some (c.ix % 2)
  | _ => none

/-- A half is in reset, out of service or ISOLATED (R73). -/
def halfDown (s : State) (h : Nat) : Bool := !s.regionRun (h + 1) || s.isolated h

/-- The half that owns the target is down. -/
def ownerDown (s : State) (c : Cmd) : Bool :=
  match targetHalf c with
  | none => false
  | some h => s.halfDown h

/-- Step 7 of the commands that need a token holder (R73). -/
def noToken (s : State) (_ : Cmd) : Bool := s.master == 0

/-- The tag is busy (R74). -/
def tagBusy (s : State) (tag : Nat) : Bool := s.mil.busy.any (·.tag == tag)

/-- The presence key is held (R95). -/
def keyHeld (s : State) : Bool := s.on 0 F.CHIP_PINS_PRES_VALID

/-- The power-fail flush is running (R52, Table PK-7). -/
def pfFlush (s : State) : Bool := s.log.flush == some .powerFail

/-! ### Snapshots (R79, R83) -/

/-- The regions that are captured, as the bits of word +8. -/
def regionBits (s : State) : Nat := bitsOf [0, 1, 2] s.regionRun

/-- The words of listed addresses at one tick; 0 in a region that is not running. -/
def sample (s : State) (addrs : List Nat) : List Nat := addrs.map s.snapWord

/-- The snapshot set of R79. -/
def snapSet (s : State) : List Nat := [0x4, 0x8, 0x60004] ++ s.stations.flatMap fun n => (List.range 8).map fun i => stnB n + 4 * i

/-- A command with `SNAP` captures the snapshot set. -/
def capture (s : State) (tag op : Nat) : State :=
  s.withMil fun m => { m with snap := some (s.time, s.regionBits, tag, op, s.sample s.snapSet) }

/-- The fault list that a target names (R375). -/
def unitOf (c : Cmd) : FUnit :=
  match c.scope.toNat with
  | 1 => .region (Fin.ofNat 3 c.ix)
  | 2 => .stn (Fin.ofNat 4 c.ix)
  | 3 => .axs (Fin.ofNat 4 c.ix)
  | 4 => .bgd (Fin.ofNat 2 c.ix)
  | 5 => .can (Fin.ofNat 4 c.ix)
  | _ => .chip

end State

/-- An opcode: its code, the scopes it accepts, whether it belongs to the start-up set of R51, a target of its own that is absent (step 6
of Table PK-4), its step 7, the first failure among steps 8 to 11 as a status and `DETAIL`, and what it does when it is accepted. -/
structure OpSpec where
  code    : Nat
  scopes  : List Nat
  startup : Bool := false
  absent  : State → Cmd → Bool := fun _ _ => false
  down    : State → Cmd → Bool := State.ownerDown
  check   : State → Cmd → Option (Nat × Nat) := fun _ _ => none
  run     : State → Cmd → State

end Sys2Proof.Machine
end

