-- ==== Sys2Proof/Machine/CmdChip.lean ====
section
/-!
DEFINITION. Commands on the chip and its regions: identity and registers (Table PK-6), configuration (Table PK-7), sharing, recorder,
mailboxes, mastership and test (Tables PK-9 and PK-10), and the fault lists.
-/
namespace Sys2Proof.Machine

namespace State

/-! ### Register commands (R73, R83) -/

/-- The byte addresses of `n` words. -/
def addrsFrom (a n : Nat) : List Nat := (List.range n).map fun i => a + 4 * i

/-- An address is a multiple of 4 inside some region's map (R6). -/
def addrOk (a : Nat) : Bool := a % 4 == 0 && (regionAt a).isSome

/-- A word of the command lies in a region that is not running (R73). -/
def anyDown (s : State) (a n : Nat) : Bool := a % 4 == 0 && (addrsFrom a n).any fun x => !s.addrRuns x

/-- The first refused word of a WRITE_REG: outside every map, or refused by its register (R83). -/
def writeBad (s : State) (a : Nat) (ws : List Nat) : Option (Nat × Nat) :=
  let out := (List.range ws.length).find? fun i => !addrOk (a + 4 * i)
  match out, s.writeCheck a ws with
  | none, r => r
  | some i, none => some (stBadParam, i)
  | some i, some (st, k) => if i ≤ k then some (stBadParam, i) else some (st, k)

/-- The number of the transport that carried a command, as a record names it (Table ER-4): for the chip's own position that of the
outer command. -/
def transportNo (s : State) : Transport → Nat
  | .spi => 0
  | .uart => 1
  | .can _ => 2
  | .ring _ _ => 3
  | .own o =>
    match s.mil.busy.find? (fun b => b.tag == o.tag.toNat) with
    | some b => (match b.tr with | .uart => 1 | .can _ => 2 | .ring _ _ => 3 | _ => 0)
    | none => 0

/-- The source word of a WK_WRITE record. -/
def writeSrc (s : State) (c : Cmd) : Nat := s.transportNo c.tr + 256 * c.tag.toNat

/-- A write that clears the enable of the transport that carried it leaves that transport open until its reply has been sent
(Table PK-15). -/
def holdEnable (s old : State) (c : Cmd) : State :=
  match c.tr with
  | .spi => if chg old s 0 F.MIL_PORT_CFG_SPI_EN && !s.on 0 F.MIL_PORT_CFG_SPI_EN then s.put 0 H.enHoldSpi (c.tag.toNat + 1) else s
  | .uart => if chg old s 0 F.MIL_PORT_CFG_UART_EN && !s.on 0 F.MIL_PORT_CFG_UART_EN then s.put 0 H.enHoldUart (c.tag.toNat + 1) else s
  | _ => s

/-! ### Sleep (R57, R348) -/

/-- The nominal rate in force of C0 and of C1, where present, is one of the four that a selective-wake sleep needs: in controller
clocks of 80 MHz a bit takes 640, 320, 160 or 80. -/
def wakeRateOk (s : State) : Bool :=
  ([0, 1].filter s.canPresent).all fun c => [640, 320, 160, 80].contains (s.nomBit (canB c)).toNat

/-! ### Tables (R93, R94) -/

/-- The table that a TABLE_LOAD names on its target: kind, instance and table, where they match the scope. -/
def loadTable (c : Cmd) : Option (Nat × Nat × TableAt) :=
  let id := c.word 0
  let kind := id / 256
  let unit := match c.scope.toNat with | 2 | 3 => c.ix | 6 => c.ix - 1 | _ => 0
  if tableScope kind = c.scope.toNat then (tableOf kind unit (id % 256)).map fun t => (kind, id % 256, t) else none

/-- The owning chapter allows a load of the table in the target's present state. -/
def loadOpen (s : State) (c : Cmd) (kind inst : Nat) : Bool :=
  match kind with
  | 2 | 3 => s.coefOpen (c.ix - 1) inst (kind - 2)
  | 4 => !([2, 3, 4, 5, 6].contains (s.axSt c.ix))
  | 5 => s.axSt c.ix != 3 && !(s.axes.any fun m => s.axSt m == 4 && s.nat (axsB m) H.axTab == c.ix + 1)
  | _ => true

/-- The words of the table as they would stand after the load. -/
def loadedWords (s : State) (t : TableAt) (start : Nat) (ws : List Nat) : List Nat :=
  (List.range t.words).map fun i => if start ≤ i ∧ i < start + ws.length then ws.getD (i - start) 0 else s.tabWord (t.off + 4 * i)

/-! ### Sharing groups (R283) -/

/-- The members in a SHARE_CFG payload, where every field is in range. -/
def shareMembers (c : Cmd) : Option (List (Nat × Nat × Nat)) :=
  let n := c.word 2
  let l := (List.range n).map fun i => (c.word (3 + 2 * i), c.word (4 + 2 * i))
  if 3 + 2 * n ≤ c.len ∧ n ≤ 16 ∧ l.all (fun m => m.1 == m.1 % 8 + 256 * (m.1 / 256 % 4) && decide (m.2 < 65536)) = true then
    some (l.map fun m => (m.1 % 8, m.1 / 256 % 4, m.2))
  else none

/-- A member station of this chip is in RUN, STOPPING, ISOLATED or CATCH. -/
def shareBusy (s : State) (ms : List (Nat × Nat × Nat)) : Bool :=
  ms.any fun m => m.1 == s.ownPos && s.stnPresent m.2.1 && [mRun, mStopping, mIsolated, mCatch].contains (s.mode m.2.1)

/-- The staged records of a group (R91, Table CF-10). -/
def shareRestage (s : State) (g mode : Nat) (ms : List (Nat × Nat × Nat)) : Option State :=
  let a := 0x51000 + 0x100 * g
  s.restage protArea (a :: addrsFrom (a + 0x40) 32)
    ((a, 0x1F03, mode + 256 * ms.length) :: (ms.zip (List.range 16)).flatMap fun m =>
      [(a + 0x40 + 8 * m.2, 0x307, m.1.1 + 256 * m.1.2.1), (a + 0x44 + 8 * m.2, 0xFFFF, m.1.2.2)])

/-! ### Trigger settings (R388) -/

/-- The staged records of a trigger (R91, Table CF-10). -/
def trigRestage (s : State) (t en felt : Nat) (addrs : List Nat) : Option State :=
  let a := 0x30100 + 0x80 * t
  s.restage operArea (a :: addrsFrom (a + 4) 26)
    ((a, 0x1F03, en + 2 * felt + 256 * addrs.length) :: (addrs.zip (List.range 26)).map fun x => (a + 4 + 4 * x.2, 0xFFFFFFFF, x.1))

/-- The trigger setting in force. -/
def putTrig (s : State) (t en felt : Nat) (addrs : List Nat) : State :=
  let b := recT t
  let s := s.puts b [(F.REC_TCFG_EN, en), (F.REC_TCFG_FELT, felt), (F.REC_TCFG_N, addrs.length)]
  s.each (List.range 26) fun i s => s.put (b + 4 * i) F.REC_TADDR_ADDR (addrs.getD i 0 : Nat)

/-! ### Mailboxes (R355) -/

/-- A mailbox number that is refused with BAD_PARAM. -/
def mbxBad (s : State) (p : Nat) : Bool :=
  decide (8 ≤ p) || decide (s.ringN ≤ p) || (p != s.ownPos && !s.hatOn)

/-- A remote mailbox on a chip without a mailbox window. -/
def mbxNoWin (s : State) (p : Nat) : Bool := p != s.ownPos && s.get 0 F.HBD_PUB_MBX_WIN == 0

/-! ### Test multiplexer (Table PT-5) -/

/-- A code of a TMA output. -/
def tmaOk (s : State) (v : Nat) : Bool :=
  decide (v ≤ 5) || (decide (0x10 ≤ v ∧ v < 0x30) && decide (v % 4 ≤ 2) && s.stnPresent (v % 16 / 4))

/-- A code of a TMD output. -/
def tmdOk (s : State) (v : Nat) : Bool :=
  v == 0 || v == 1 || (decide (2 ≤ v ∧ v ≤ 3) && s.halfPresent (v - 2)) ||
  (decide (0x08 ≤ v ∧ v < 0x0C) && s.stnPresent (v - 0x08)) || (decide (0x10 ≤ v ∧ v < 0x14) && s.stnPresent (v - 0x10)) ||
  (decide (0x18 ≤ v ∧ v < 0x1C) && s.stnPresent (v - 0x18)) || (decide (0x20 ≤ v ∧ v ≤ 0x22)) ||
  (decide (0x28 ≤ v ∧ v ≤ 0x29) && s.halfPresent (v - 0x28))

/-- The four bytes of a word. -/
def selects (w : Nat) : List Nat := wordBytes w

/-! ### Self-test (R371) -/

/-- The blocks that a SELFTEST target names. -/
def testBlocks (c : Cmd) : List Block :=
  match c.scope.toNat with
  | 1 => regionBlocks c.ix
  | 2 => [.stn (Fin.ofNat 4 c.ix)]
  | 3 => [.axs (Fin.ofNat 4 c.ix)]
  | 4 => [.bgd (Fin.ofNat 2 c.ix)]
  | 5 => [.can (Fin.ofNat 4 c.ix)]
  | _ => []

/-- The stations that a SELFTEST needs OFF: the target, or every station of the region (SH has none). -/
def testStns (c : Cmd) : List Nat :=
  match c.scope.toNat with
  | 1 => if c.ix = 0 then [] else [2 * (c.ix - 1), 2 * (c.ix - 1) + 1]
  | 2 => [c.ix]
  | _ => []

end State

open State

/-! ### Table PK-6 -/

/-- ECHO. -/
def opEcho : OpSpec where
  code := 0x01
  scopes := [0]
  startup := true
  run s c := s.reply c 0x01 stOK 0 (c.wordsFrom 0)

/-- IDENTIFY. -/
def opIdentify : OpSpec where
  code := 0x02
  scopes := [0]
  startup := true
  check _ c := firstBad [(c.len != 0, stBadParam)]
  run s c := s.reply c 0x02 stOK 0
    ([s.rdWord 0x0, s.rdWord 0x4, Config.romVersion % 2 ^ 32, s.rdWord 0x18, s.rdWord 0x8] ++ u64Words s.time)

/-- READ_REG. The tag is busy while it executes (R74). -/
def opReadReg : OpSpec where
  code := 0x03
  scopes := [0]
  startup := true
  down s c := c.len == 2 && decide (1 ≤ c.word 1 ∧ c.word 1 ≤ 255) && s.anyDown (c.word 0) (c.word 1)
  check _ c := firstBad [(c.len != 2 || !decide (1 ≤ c.word 1 ∧ c.word 1 ≤ 255) || !(addrsFrom (c.word 0) (c.word 1)).all addrOk, stBadParam)]
  run s c :=
    let r := (s.occupy c 0x03 0).readWords (c.word 0) (c.word 1)
    (r.2.freeTag c.tag.toNat).reply c 0x03 stOK 0 r.1

/-- WRITE_REG. -/
def opWriteReg : OpSpec where
  code := 0x04
  scopes := [0]
  down s c := decide (2 ≤ c.len) && s.anyDown (c.word 0) (c.len - 1)
  check s c := if c.len < 2 ∨ c.word 0 % 4 ≠ 0 then some (stBadParam, 0) else s.writeBad (c.word 0) (c.wordsFrom 1)
  run s c := ((s.writeWords (c.word 0) (c.wordsFrom 1) (s.writeSrc c)).holdEnable s c).reply c 0x04 stOK 0 []

/-- MODIFY_REG. -/
def opModifyReg : OpSpec where
  code := 0x05
  scopes := [0]
  down s c := c.len == 3 && s.anyDown (c.word 0) 1
  check s c :=
    if c.len ≠ 3 ∨ addrOk (c.word 0) = false then some (stBadParam, 0)
    else
      let st := s.modifyCheck (c.word 0) (c.word 1) (c.word 2)
      if st = stOK then none else some (st, 0)
  run s c :=
    let t := (s.modifyWord (c.word 0) (c.word 1) (c.word 2) (s.writeSrc c)).holdEnable s c
    t.reply c 0x05 stOK 0 [(s.occupy c 0x05 0).rdWord (c.word 0), (t.occupy c 0x05 0).rdWord (c.word 0)]

/-- STATUS_SNAPSHOT. Before any capture the buffer is empty. MODE is the whole word: its upper bits, of which Table PK-6 says nothing, are
refused when set (DESIGN CHOICE, log entry 69). -/
def opSnapshot : OpSpec where
  code := 0x06
  scopes := [0]
  startup := true
  check _ c := firstBad [(match c.word 0 with
    | 0 => decide (c.len < 2) || decide (253 < c.len) || !(c.wordsFrom 1).all addrOk
    | 1 => c.len != 1
    | _ => true, stBadParam)]
  run s c :=
    if c.word 0 = 0 then s.reply c 0x06 stOK 0 (u64Words s.time ++ [s.regionBits] ++ (s.occupy c 0x06 0).sample (c.wordsFrom 1))
    else
      let p := s.mil.snap.getD (0, 0, 0, 0, [])
      s.reply c 0x06 stOK 0 (u64Words p.1 ++ [p.2.1 + 2 ^ 16 * p.2.2.1 + 2 ^ 24 * p.2.2.2.1] ++ p.2.2.2.2)

/-- A wake frame's words are laid out as Table PK-12: no bit outside its fields is set. -/
def wakeWordsOk (c : Cmd) (i : Nat) : Bool :=
  c.word i < 2 ^ 31 && decide (c.word (i + 1) < 2 ^ 29) && decide (c.word (i + 2) < 2 ^ 5)

/-- SLEEP (R57). Bits of its wake frames that Table PK-12 gives no field are reserved, and refused when set (DESIGN CHOICE, log entry 69). -/
def opSleep : OpSpec where
  code := 0x08
  scopes := [0]
  check s c := firstBad [(!s.sleepOk, stState),
    (!((c.word 0 == 0 && c.len == 1) || (c.word 0 == 1 && c.len == 15 && wakeWordsOk c 1 && wakeWordsOk c 8 && s.wakeRateOk)), stBadParam)]
  run s c := ((s.reply c 0x08 stOK 0 []).sleepBegin (c.word 0 == 1) (c.wordsFrom 1)).sleepCheck

/-- RESET_REGION (R373): of SH, OK first, and the reset once it has been sent; of a half, the restart with its completion. -/
def opResetRegion : OpSpec where
  code := 0x09
  scopes := [1]
  down _ _ := false
  check s c := firstBad [(s.resetBusy c.ix, stState), (c.len != 0, stBadParam)]
  run s c :=
    if c.ix = 0 then ((s.reply c 0x09 stOK 0 []).put 0 H.shRst 1).shResetCheck
    else (s.takeDown c.ix .restarting stAborted).begin c 0x09 c.ix

/-! ### Table PK-7 -/

/-- CFG_READ. -/
def opCfgRead : OpSpec where
  code := 0x10
  scopes := [0]
  check _ c := firstBad [(c.len != 3 || decide (2 < c.word 0) || c.word 1 % 4 != 0 || !decide (1 ≤ c.word 2 ∧ c.word 2 ≤ 255) ||
    decide (0x20000 < c.word 1 + 4 * c.word 2), stBadParam)]
  run s c :=
    let slot (k : Nat) : Sparse := s.cfg.slots.toList.getD k []
    let inUse := s.nat 0 F.CFG_STAT_SLOT
    let m := if c.word 0 = 2 then s.cfg.staging
      else if !s.on 0 F.CHIP_STATUS_CFG_VALID then slot (c.word 0)
      else if c.word 0 = 0 then s.cfg.inForce else slot (1 - inUse)
    s.reply c 0x10 stOK 0 (imgWords m (c.word 1) (c.word 2))

/-- CFG_STAGE (R89, R96, R101, R103). -/
def opCfgStage : OpSpec where
  code := 0x11
  scopes := [0]
  check s c :=
    let off := c.word 0
    let n := c.len - 1
    if s.cfg.commit.isSome || s.pfFlush then some (stState, 0)
    else if c.len < 2 ∨ off % 4 ≠ 0 ∨ off < 0x40 then some (stBadParam, 0)
    else if 0x20000 < off + 4 * n then some (stBadParam, (0x20000 - off) / 4)
    else firstBad [(decide (off < 0x3000) && !s.keyHeld, stNoKey), (decide (off < 0x1000) && s.cfg.sealMark, stSealed)]
  run s c := (s.stageWords (c.word 0) (c.wordsFrom 1)).reply c 0x11 stOK 0 []

/-- A commit or seal is refused in the present state (R99, R101, R103): one is running, the power-fail flush is running, the store is out
of service, `SEQ` is used up, or no felt record is free. -/
def commitShut (s : State) (sealing : Bool) : Bool :=
  s.cfg.commit.isSome || s.pfFlush || s.oos .cfg || decide (0x3B9ACA00 ≤ s.nat 0 F.CFG_SEQ_SEQ) || (s.commitFelt sealing && s.feltFull)

/-- CFG_COMMIT (R98). -/
def opCfgCommit : OpSpec where
  code := 0x12
  scopes := [0]
  check s c := firstBad [(commitShut s false, stState), (c.len != 0, stBadParam), (s.commitKey && !s.keyHeld, stNoKey)]
  run s c := (s.begin c 0x12).commitBegin false c.tag.toNat

/-- CFG_SEAL (R102). -/
def opCfgSeal : OpSpec where
  code := 0x13
  scopes := [0]
  check s c := firstBad [(commitShut s true, stState), (c.len != 1 || c.word 0 != 0x5EA1, stBadParam), (!s.keyHeld, stNoKey),
    (s.cfg.sealMark, stSealed)]
  run s c := (s.begin c 0x13).commitBegin true c.tag.toNat

/-- TABLE_LOAD (R93, R94): into the table in force and into staging; its completion follows at once. -/
def opTableLoad : OpSpec where
  code := 0x14
  scopes := [0, 2, 3, 6]
  absent s c := (c.word 0 / 256 == 2 || c.word 0 / 256 == 3) && decide (1 ≤ c.len) && !s.on 0 F.CHIP_ID_G_LAW
  check s c :=
    match loadTable c with
    | none => firstBad [(s.pfFlush, stState), (true, stBadParam)]
    | some (kind, inst, t) =>
      firstBad [(s.pfFlush || (decide (3 ≤ c.len) && !s.loadOpen c kind inst), stState),
        (decide (c.len < 3) || decide (t.words < c.word 1 + (c.len - 2)) ||
          (tableBad kind (s.loadedWords t (c.word 1) (c.wordsFrom 2))).isSome, stBadParam)]
  run s c :=
    match loadTable c with
    | none => s
    | some (k, _, t) =>
      let off := t.off + 4 * c.word 1
      let s := if k = 4 then s.axHold c.ix off (c.len - 2) else s
      let s := (s.putTable off (c.wordsFrom 2)).stageWords off (c.wordsFrom 2)
      let b : Busy := { tag := c.tag.toNat, op := 0x14, want := c.want, snap := c.snap, scope := c.scope.toNat, index := c.ix, tr := c.tr,
                        fwd := none, arg := 0 }
      (s.occupy c 0x14 0).orderedAnswer b [b.packet 1 stAccepted 0 [], b.packet 2 stOK 0 [c.len - 2]]

/-! ### Tables PK-9 and PK-10: sharing, recorder, mailboxes -/

/-- SHARE_CFG (R283). -/
def opShareCfg : OpSpec where
  code := 0x48
  scopes := [0]
  down := noToken
  check s c :=
    let ms := shareMembers c
    let old := if c.word 0 < 8 then s.grpMembers (c.word 0) else []
    let full := ms.isSome && decide (c.word 0 ≤ 7 ∧ c.word 1 ≤ 3) && (s.shareRestage (c.word 0) (c.word 1) (ms.getD [])).isNone
    let long := decide (3 ≤ c.len) && (decide (16 < c.word 2) || decide (3 + 2 * c.word 2 ≤ c.len))
    firstBad [((long && (s.shareBusy old || s.shareBusy (ms.getD []))) || full, stState),
      (c.len != 3 + 2 * c.word 2 || match ms with
       | none => true
       | some l => decide (7 < c.word 0) || decide (3 < c.word 1) || !s.groupOk (c.word 0) (c.word 1) l, stBadParam),
      (!s.keyHeld, stNoKey)]
  run s c :=
    let ms := (shareMembers c).getD []
    let s := (s.shareRestage (c.word 0) (c.word 1) ms).getD s
    (s.putGroup (c.word 0) (c.word 1) ms).reply c 0x48 stOK 0 []

/-- REC_READ (R398). -/
def opRecRead : OpSpec where
  code := 0x58
  scopes := [0]
  check _ c := firstBad [(c.len != 3 || decide (1 < c.word 0) || !decide (1 ≤ c.word 2 ∧ c.word 2 ≤ 7), stBadParam)]
  run s c := s.reply c 0x58 stOK 0 (s.recRead (c.word 0) (c.word 1) (c.word 2))

/-- REC_TRIGGER_CFG (R388). Reserved bits of its flags word must be 0 (DESIGN CHOICE, log entry 69). -/
def opRecTriggerCfg : OpSpec where
  code := 0x59
  scopes := [0]
  check s c :=
    let shaped := decide (3 + c.word 2 ≤ c.len) && decide (1 ≤ c.word 0 ∧ c.word 0 ≤ 15 ∧ c.word 1 ≤ 3 ∧ c.word 2 ≤ 26)
    firstBad [(shaped && (s.trigRestage (c.word 0) (c.word 1 % 2) (c.word 1 / 2) ((c.wordsFrom 3).take (c.word 2))).isNone, stState),
      (!shaped || c.len != 3 + c.word 2 || !recSettingOk (c.word 0) (c.word 1 % 2 == 1) (c.word 1 / 2 == 1) (c.word 2) (c.wordsFrom 3), stBadParam)]
  run s c :=
    let s := (s.trigRestage (c.word 0) (c.word 1 % 2) (c.word 1 / 2) (c.wordsFrom 3)).getD s
    (s.putTrig (c.word 0) (c.word 1 % 2) (c.word 1 / 2) (c.wordsFrom 3)).reply c 0x59 stOK 0 []

/-- MBX_POST (R355, R356). -/
def opMbxPost : OpSpec where
  code := 0x68
  scopes := [0]
  check s c :=
    let p := c.word 0
    let room := if c.len = 0 ∨ s.mbxBad p = true then 0 else min 254 (s.mbxFree p)
    if 2 ≤ c.len ∧ s.mbxBad p = false ∧ s.mbxNoWin p = true then some (stState, room)
    else if c.len < 2 ∨ s.mbxBad p = true ∨ room < c.len - 1 then some (stBadParam, room)
    else none
  run s c := (s.mbxPost (c.word 0) (c.wordsFrom 1)).reply c 0x68 stOK 0 []

/-- MBX_FETCH (R355, R357). -/
def opMbxFetch : OpSpec where
  code := 0x69
  scopes := [0]
  check s c :=
    let p := c.word 0
    firstBad [(decide (2 ≤ c.len) && !s.mbxBad p && s.mbxNoWin p, stState),
      (c.len != 2 || s.mbxBad p || !decide (1 ≤ c.word 1 ∧ c.word 1 ≤ 254), stBadParam)]
  run s c :=
    let r := s.mbxFetch (c.word 0) (c.word 1)
    r.2.2.reply c 0x69 stOK 0 ((r.1.length + (if r.2.1 then 65536 else 0)) :: r.1)

/-- A doorbell for a remote position waits for the next frame. -/
def dblSend (s : State) (p mask : Nat) : State := s.withPeer p fun q => { q with bell := q.bell ||| mask }

/-- DBL_RING (R361). -/
def opDblRing : OpSpec where
  code := 0x6A
  scopes := [0]
  check s c :=
    let p := c.word 0
    firstBad [(decide (2 ≤ c.len) && decide (p < 8) && p != s.ownPos && !(s.hatOn && s.reaches p), stState),
      (c.len != 2 || decide (7 < p) || c.word 1 == 0 || decide (2 ^ 24 ≤ c.word 1), stBadParam)]
  run s c :=
    let s := if c.word 0 = s.ownPos then s.dblRing (c.word 1) else dblSend s (c.word 0) (c.word 1)
    s.reply c 0x6A stOK 0 []

/-! ### Table PK-10: faults, mastership, test -/

/-- FAULT_READ (R375). -/
def opFaultRead : OpSpec where
  code := 0x70
  scopes := [0, 1, 2, 3, 4, 5]
  startup := true
  check _ c := firstBad [(c.len != 2 || !decide (1 ≤ c.word 1 ∧ c.word 1 ≤ 63), stBadParam)]
  run s c :=
    let l := s.faultsOf (unitOf c)
    s.reply c 0x70 stOK 0 (l.length :: ((l.drop (c.word 0)).take (c.word 1)).flatMap fun e => [e.code + 65536 * e.occ, 0] ++ u64Words e.tick)

/-- FAULT_CLEAR (R377). Its word's bits above the code have no stated meaning and must be 0 (DESIGN CHOICE, log entry 116). -/
def opFaultClear : OpSpec where
  code := 0x71
  scopes := [0, 1, 2, 3, 4, 5]
  check _ c := firstBad [(c.len != 1 || decide (65536 ≤ c.word 0), stBadParam)]
  run s c :=
    let k := (s.clearable (unitOf c) (c.word 0)).length
    (s.faultClear (unitOf c) (c.word 0)).reply c 0x71 stOK k []

/-- MASTERSHIP (R381). -/
def opMastership : OpSpec where
  code := 0x78
  scopes := [0]
  check s c := firstBad [(decide (1 ≤ c.len) && c.word 0 == 1 && !s.canHandOver, stState), (c.len != 1 || decide (1 < c.word 0), stBadParam)]
  run s c :=
    let s := if c.word 0 = 1 then s.handOver else s
    s.reply c 0x78 stOK 0 [s.master, s.nat 0 F.CHIP_EPOCH_EPOCH]

/-- TESTMUX_SEL (R430). -/
def opTestmux : OpSpec where
  code := 0xF0
  scopes := [0]
  check s c := firstBad [(c.len != 3 || !((selects (c.word 0)).all s.tmaOk && (selects (c.word 1) ++ selects (c.word 2)).all s.tmdOk), stBadParam),
    (!s.keyHeld, stNoKey)]
  run s c :=
    let a := selects (c.word 0)
    let d := selects (c.word 1) ++ selects (c.word 2)
    (s.puts 0 ((([F.TST_SEL_A_TMA0, F.TST_SEL_A_TMA1, F.TST_SEL_A_TMA2, F.TST_SEL_A_TMA3, F.TST_SEL_D0_TMD0, F.TST_SEL_D0_TMD1,
      F.TST_SEL_D0_TMD2, F.TST_SEL_D0_TMD3, F.TST_SEL_D1_TMD4, F.TST_SEL_D1_TMD5, F.TST_SEL_D1_TMD6, F.TST_SEL_D1_TMD7].zip (a ++ d))).map
        fun x => (x.1, (x.2 : Int)))).reply c 0xF0 stOK 0 []

/-- SELFTEST (R371). -/
def opSelftest : OpSpec where
  code := 0xF1
  scopes := [1, 2, 3, 4, 5]
  check s c := firstBad [((testStns c).any (fun n => s.mode n != mOff), stState), (c.len != 0, stBadParam)]
  run s c := (s.begin c 0xF1 (16 * c.scope.toNat + c.ix)).selfTest c.tag.toNat (testBlocks c)

end Sys2Proof.Machine
end

