-- ==== Sys2Proof/Machine/CmdStation.lean ====
section
/-!
DEFINITION. Commands on stations and loop engines (Table PK-8), and on the scheduler's slots (EVT_ARM and EVT_CANCEL of Table PK-9).
-/
namespace Sys2Proof.Machine

namespace State

/-! ### Arming and running -/

/-- STN_ARM is refused in the present state (Table PK-8, R188, R210, R226). -/
def armShut (s : State) (n : Nat) : Bool :=
  let g := halfB (n / 2)
  s.mode n != mOff || s.on (stnB n) H.arming || s.on g F.SUP_STO_STAT_ACTIVE ||
  (s.on g F.BGD_CTRL_PRE_EN && !s.on g F.BGD_STAT_PRE_DONE) ||
  (s.on (stnB n) F.OBS_CTRL_ARM_GUARD && s.direct n && s.get (stnB n) F.GC_CTRL_PSRC != 1 && s.rotating n)

/-- A sink or chain entry that the station names is in error (R262). -/
def namedErr (s : State) (n : Nat) : Bool :=
  [s.vdSlot n, s.vqSlot n, s.ffSlot n, s.spSlot n, s.chainEntry n 0, s.chainEntry n 1, s.chainEntry n 2].any fun m =>
    match m with
    | some i => s.on (slotB (n / 2) i) F.LEN_SST_ERR
    | none => false

/-- STN_RUN is refused for its SOURCE and KIND (R241, R224, R285), which it ignores with pulses from the pins (R177). -/
def runShut (s : State) (n source kind : Nat) : Bool :=
  let b := stnB n
  let ext := s.get b F.GC_CTRL_PSRC == 1
  (!ext && ((s.vqSlot n).isNone && decide (s.get b F.COM_CTRL_LAW ≤ 1) || ((s.vdSlot n).isNone && s.get b F.COM_CTRL_LAW == 0) ||
    (kind != 0 && (s.chainEntry n kind).isNone) || (source == 1 && (s.spSlot n).isNone) ||
    (s.get b F.COM_CTRL_ASRC == 1 && (!s.on b F.OBS_CTRL_OBS_EN || kind == 2)) || (source == 2 && s.allocRefused n kind)))

/-- STN_RUN is refused whatever its SOURCE and KIND (Table PK-8, R147, R262). -/
def runClosed (s : State) (n : Nat) : Bool :=
  let b := stnB n
  s.mode n != mArmed || s.namedErr n ||
  (s.get b F.COM_CTRL_ASRC == 0 && !s.on b F.COM_STAT_OFS_VALID && !s.on b F.COM_CTRL_ALIGN_EN)

/-! ### Set-points (Table PK-8, R242) -/

/-- The value of a set-point before its limits: pu32, a speed as pu32, or a position. -/
def setValue (s : State) (c : Cmd) (kind : Nat) : Int :=
  match kind with
  | 0 => sgnN 32 (c.word 1)
  | 1 => s.toPu c.ix (sgnN 32 (c.word 1))
  | _ => c.s48 1

/-- The value within the configured limits: `BGD_ILIM`, `W_MAX`, or the soft limits of the count. -/
def setLimited (s : State) (n kind : Nat) (v : Int) : Int :=
  match kind with
  | 0 =>
    let l := 2048 * s.get (halfB (n / 2)) (if n % 2 = 0 then F.BGD_ILIM_ILIM0 else F.BGD_ILIM_ILIM1)
    clampI (-l) l v
  | 1 =>
    let l := 2048 * s.get (stnB n) F.STN_WMAX_W_MAX
    clampI (-l) l v
  | _ => clampI (s.get (stnB n) F.PF_LIM_LO_LIM_LO) (s.get (stnB n) F.PF_LIM_HI_LIM_HI) v

/-- STN_SETPOINT takes effect: the host's command of a running station; in ARMED it waits for no CMD (R242). -/
def setPoint (s : State) (n : Nat) (v : Int) : State :=
  let s := s.put (stnB n) F.STN_STAT_FB_ACTIVE 0
  if s.mode n = mRun then s.put (stnB n) H.hostCmd v else s

/-! ### Stops (R84) -/

/-- STN_STOP of a station that is not OFF. -/
def hostStop (s : State) (n ty : Nat) : State :=
  let s := (s.leaveService n false).put (stnB n) F.STN_STAT_FB_ACTIVE 0
  s.stopStation n ty

/-! ### Sizing (R128) -/

/-- Sizing items that do not apply to the station's source and mode. -/
def sizingWrong (s : State) (n items : Nat) : Bool :=
  let b := stnB n
  let m := s.get b F.PF_CTRL_MODE
  let ser := s.on b F.PF_CTRL_SRC
  (bitN items 1 && (ser || !(m == 1 || m == 2))) || (bitN items 2 && (ser || m != 2))

/-- STN_SIZING begins: DIAG, and the first of its items (R128). -/
def sizingBegin (s : State) (n items : Nat) : State :=
  ((s.setMode n mDiag).puts (stnB n) [(H.sizItems, items), (H.sizFail, 0), (H.szNow, 0), (H.szN, 0), (H.szPk, 0), (H.szSat, 0),
    (H.szSI, 0), (H.szSQ, 0), (H.szCI, 0), (H.szCQ, 0), (F.STN_STAT_FB_ACTIVE, 0)]).sizNext n

/-! ### The scheduler's users (R131, R134) -/

/-- The half and user of an EVT_ARM or EVT_CANCEL target: stations 0 and 1, axes 2 and 3. -/
def ascUser (c : Cmd) : Nat × Nat := (c.ix / 2, c.ix % 2 + (if c.scope.toNat = 3 then 2 else 0))

/-- The target is in FAULT. -/
def ascFault (s : State) (c : Cmd) : Bool := if c.scope.toNat = 3 then s.axSt c.ix == 7 else s.mode c.ix == mFault

/-- The fields of an EVT_ARM payload are in range and its reserved bits are 0 (Table TB-2). -/
def evtFieldsOk (c : Cmd) : Bool :=
  c.len == 5 && decide (c.word 0 < 8) && c.s48Ok 1 && c.word 3 == c.word 3 % 8 + 256 * (c.word 3 / 256 % 256) && decide (c.word 4 < 8)

end State

open State

/-- STN_ARM (R188). -/
def opStnArm : OpSpec where
  code := 0x20
  scopes := [2]
  check s c := firstBad [(s.armShut c.ix, stState), (c.len != 0, stBadParam)]
  run s c := (s.begin c 0x20 c.ix).armStart c.ix

/-- STN_RUN (R242). With pulses from the pins any SOURCE and KIND code passes (R177). Reserved bits must be 0 (DESIGN CHOICE, log entry 69). -/
def opStnRun : OpSpec where
  code := 0x21
  scopes := [2]
  check s c :=
    let w := c.word 0
    let ext := s.get (stnB c.ix) F.GC_CTRL_PSRC == 1
    let ok := decide (1 ≤ c.len) && (ext || decide (w % 8 ≤ 2) && decide (w / 16 % 8 ≤ 2)) && w == w % 8 + 16 * (w / 16 % 8)
    firstBad [(s.runClosed c.ix || (ok && s.runShut c.ix (w % 8) (w / 16 % 8)), stState), (!ok || c.len != 1, stBadParam)]
  run s c := (s.enterRun c.ix (c.word 0 % 8) (c.word 0 / 16 % 8)).reply c 0x21 stOK 0 []

/-- STN_SETPOINT (R242). -/
def opStnSetpoint : OpSpec where
  code := 0x22
  scopes := [2]
  check s c :=
    let b := stnB c.ix
    let k := c.word 0
    let known := decide (3 ≤ c.len) && decide (k ≤ 2)
    firstBad [(!(s.mode c.ix == mArmed || (s.mode c.ix == mRun && s.get b F.STN_STAT_SOURCE == 0 && (!known || s.nat b F.STN_STAT_KIND == k))), stState),
      (c.len != 3 || decide (2 < k) || (if k = 2 then !c.s48Ok 1 else c.word 2 != 0), stBadParam)]
  run s c :=
    let k := c.word 0
    let v := s.setValue c k
    let v' := s.setLimited c.ix k v
    (s.setPoint c.ix v').start c 0x22 (setArg c.ix k v') (if v' = v then 0 else 1) []

/-- STN_STOP (R84, R292). -/
def opStnStop : OpSpec where
  code := 0x23
  scopes := [2]
  check s c :=
    let m := s.mode c.ix
    firstBad [(!(m == mOff || m == mArmed || m == mRun || m == mStopping || m == mCatch), stState), (c.len != 1 || decide (3 < c.word 0), stBadParam)]
  run s c :=
    if s.mode c.ix = mOff then (s.put (stnB c.ix) F.STN_STAT_FB_ACTIVE 0).reply c 0x23 stOK 0 []
    else (s.begin c 0x23 c.ix).hostStop c.ix (c.word 0)

/-- STN_DIAG (R186, R187). -/
def opStnDiag : OpSpec where
  code := 0x24
  scopes := [2]
  check s c := firstBad [(s.mode c.ix != mOff || s.on (stnB c.ix) H.arming, stState),
    (c.len != 1 || decide (31 < c.word 0) || s.diagWrong c.ix (c.word 0), stBadParam)]
  run s c := ((s.begin c 0x24 c.ix).setMode c.ix mDiag).puts (stnB c.ix)
    ([(H.armItems, (s.diagItems c.ix (c.word 0) : Int)), (F.STN_STAT_FB_ACTIVE, 0)] ++ noCharge)

/-- STN_SIZING (R128, R129, R172). With no item it ends at once. -/
def opStnSizing : OpSpec where
  code := 0x25
  scopes := [2]
  check s c := firstBad [(s.mode c.ix != mOff || s.on (stnB c.ix) H.arming, stState),
    (c.len != 1 || decide (7 < c.word 0) || s.sizingWrong c.ix (c.word 0), stBadParam)]
  run s c :=
    let s := s.begin c 0x25 c.ix
    if c.word 0 = 0 then s.completeAll 0x25 c.ix stOK 0 [0, 0] else s.sizingBegin c.ix (c.word 0)

/-- BANK_SWAP (R256): its one reply follows the swap boundary. -/
def opBankSwap : OpSpec where
  code := 0x28
  scopes := [6]
  check s c :=
    let h := c.ix - 1
    let ok := decide (1 ≤ c.len) && decide (c.word 0 < 16)
    firstBad [(ok && ((s.members h (c.word 0)).isEmpty || bitN (s.nat (halfB h) F.LEN_SWAP_PENDING) (c.word 0)), stState),
      (!ok || c.len != 1, stBadParam)]
  run s c := (s.occupy c 0x28 (swapId (c.ix - 1) (c.word 0))).setBit (halfB (c.ix - 1)) F.LEN_SWAP_PENDING (c.word 0) true

/-- EVT_ARM (R134). -/
def opEvtArm : OpSpec where
  code := 0x50
  scopes := [2, 3]
  check s c :=
    let hu := ascUser c
    let a := c.word 3
    let o := c.word 4
    firstBad [(s.ascFault c, stState),
      (!(evtFieldsOk c && s.evtArmOk hu.1 hu.2 (c.word 0) (a % 8) (a / 256) (o % 4) (o / 4 == 1)), stBadParam)]
  run s c :=
    let hu := ascUser c
    let a := c.word 3
    let o := c.word 4
    (s.evtArm hu.1 hu.2 (c.word 0) (c.s48 1) (a % 8) (a / 256) (o % 4) (o / 4 == 1)).start c 0x50 (64 + ascId hu.1 hu.2 (c.word 0)) 0 []

/-- EVT_CANCEL (R85). -/
def opEvtCancel : OpSpec where
  code := 0x51
  scopes := [2, 3]
  check _ c := firstBad [(c.len != 1 || decide (7 < c.word 0), stBadParam)]
  run s c :=
    let hu := ascUser c
    let s := s.ascCancelTick hu.1 hu.2 (c.word 0)
    let fired := s.ascFired hu.1 hu.2 (c.word 0)
    (s.ascDisarm hu.1 hu.2 (c.word 0) stAborted).reply c 0x51 stOK (if fired then 1 else 0) []

end Sys2Proof.Machine
end

