-- ==== Sys2Proof/Machine/CmdAxis.lean ====
section
/-!
DEFINITION. Commands on axes (R312, R319 to R330) and services (R301, R302).
-/
namespace Sys2Proof.Machine

namespace State

/-! ### Moves (R320, R322, R324) -/

/-- Velocity and rates of a move are in range (R320); `i` is the word of the velocity. -/
def ratesOk (c : Cmd) (i : Nat) : Bool :=
  decide (1 ≤ c.word i ∧ c.word i ≤ 200000000) && decide (1 ≤ c.word (i + 1) ∧ c.word (i + 1) ≤ 4000000000) &&
  decide (1 ≤ c.word (i + 2) ∧ c.word (i + 2) ≤ 4000000000)

/-- `CLASS` is 0: only AXIS_STOP is served (R312). -/
def axOff (s : State) (n : Nat) : Bool := s.get (axsB n) F.AXS_CTRL_CLASS == 0

/-- The axis is idle (R319). -/
def axIsIdle (s : State) (n : Nat) : Bool := s.axSt n == 1

/-- The axis is moving (R319). -/
def axMoving (s : State) (n : Nat) : Bool := s.axSt n == 2 || s.axSt n == 3

/-- A move may play the shaping table: its segments, its clock's source, and the target it expects (R324, R325). -/
def profileOk (s : State) (n : Nat) (target : Int) (rel : Bool) : Bool :=
  match s.segOk n with
  | none => false
  | some k =>
    let e := s.segPos n (k - 1)
    !(s.on (axsB n) F.AXS_CTRL_PCLK && decide (s.get (halfB (n / 2) + 4 * (2 + n % 2)) F.ASC_TB_SEL_SRC ≤ 1)) &&
    target == (if rel then e else s.get (axsB n) F.AXS_POS_POS + e)

/-- The absolute target of a move; a relative one counts from the nearest integer to r. -/
def moveTarget (s : State) (c : Cmd) : Int := wrap48 (if bitN (c.word 5) 0 then s.axNear c.ix + c.s48 0 else c.s48 0)

/-! ### Groups (R326) -/

/-- The members of an AXIS_GROUP payload and their absolute or relative targets. -/
def groupTargets (c : Cmd) : List (Nat × Int) :=
  let l := (List.range 4).filter (bitN (c.word 0))
  (l.zip (List.range 4)).map fun x => (x.1, c.s48 (5 + 2 * x.2))

/-- Each member's move: its target minus its count at the start. -/
def groupMoves (s : State) (c : Cmd) : List (Nat × Int) :=
  (groupTargets c).map fun x => (x.1, if bitN (c.word 4) 0 then x.2 + s.axNear x.1 - s.get (axsB x.1) F.AXS_POS_POS
    else x.2 - s.get (axsB x.1) F.AXS_POS_POS)

/-- L: the largest move. -/
def groupLen (ds : List (Nat × Int)) : Int := ds.foldl (fun m d => max m (if d.2 < 0 then -d.2 else d.2)) 0

/-- The shaping table of the lowest member fits the path (R326, R324, R325). -/
def groupTableOk (s : State) (n : Nat) (l : Int) : Bool :=
  match s.segOk n with
  | none => false
  | some k => !(s.on (axsB n) F.AXS_CTRL_PCLK && decide (s.get (halfB (n / 2) + 4 * (2 + n % 2)) F.ASC_TB_SEL_SRC ≤ 1)) && s.segPos n (k - 1) == l

/-- The payload of AXIS_GROUP is well formed: one to four members that are present, rates, flags and one target per member. With the shaping table
the velocity and the acceleration are ignored (R324). Bits of the members' and the flags' words that Table PK-9 gives no meaning must be 0
(DESIGN CHOICE, log entry 69). -/
def groupOkPay (s : State) (c : Cmd) : Bool :=
  let l := (List.range 4).filter (bitN (c.word 0))
  decide (c.word 0 < 16) && !l.isEmpty && l.all s.stnPresent && c.len == 5 + 2 * l.length &&
  (if bitN (c.word 4) 1 then decide (1 ≤ c.word 3 ∧ c.word 3 ≤ 4000000000) else ratesOk c 1) && decide (c.word 4 < 4) &&
  (List.range l.length).all (fun i => c.s48Ok (5 + 2 * i))

/-- The members of a group command whose half is down make it REGION_DOWN. -/
def groupDown (s : State) (c : Cmd) : Bool :=
  decide (1 ≤ c.len) && decide (c.word 0 < 16) && (List.range 4).any fun n => bitN (c.word 0) n && s.stnPresent n && s.halfDown (n / 2)

end State

open State

/-- AXIS_MOVE (R320, R324). Flags without a meaning must be 0 (DESIGN CHOICE, log entry 69). -/
def opAxisMove : OpSpec where
  code := 0x30
  scopes := [3]
  check s c :=
    let n := c.ix
    let flags := c.word 5
    let table := decide (6 ≤ c.len) && decide (flags < 4) && bitN flags 1
    firstBad [(s.axOff n || !(s.axIsIdle n || s.axMoving n) || (table && !s.axIsIdle n), stState),
      (c.len != 6 || !c.s48Ok 0 || decide (3 < flags) ||
        (if bitN flags 1 then !decide (1 ≤ c.word 4 ∧ c.word 4 ≤ 4000000000) || !s.profileOk n (c.s48 0) (bitN flags 0) else !ratesOk c 2), stBadParam)]
  run s c :=
    let n := c.ix
    let s := s.axComplete n stAborted
    let t := if bitN (c.word 5) 1 then s.axProfile n ((s.segOk n).getD 0) (c.word 4 : Nat)
      else s.axMove n (s.moveTarget c) (c.word 2 : Nat) (c.word 3 : Nat) (c.word 4 : Nat)
    t.start c 0x30 n 0 []

/-- AXIS_RETARGET (R322); a relative target is added to the target in force. Flags without a meaning must be 0 (DESIGN CHOICE, log entry 69). -/
def opAxisRetarget : OpSpec where
  code := 0x31
  scopes := [3]
  check s c := firstBad [(s.axOff c.ix || !s.axMoving c.ix, stState),
    (c.len != 6 || !c.s48Ok 0 || decide (1 < c.word 5) || !ratesOk c 2, stBadParam)]
  run s c :=
    let n := c.ix
    let target := wrap48 (if bitN (c.word 5) 0 then s.get (axsB n) F.AXS_TARGET_TARGET + c.s48 0 else c.s48 0)
    (s.axMove n target (c.word 2 : Nat) (c.word 3 : Nat) (c.word 4 : Nat)).reply c 0x31 stOK 0 []

/-- AXIS_STOP (R330, R85): arrival in the same tick wins (R323); an idle axis answers OK. -/
def opAxisStop : OpSpec where
  code := 0x32
  scopes := [3]
  check _ c := firstBad [(c.len != 0, stBadParam)]
  run s c :=
    let s := s.axArrive c.ix
    let moving := [2, 3, 4, 5].contains (s.axSt c.ix)
    (if moving then s.axStop c.ix 1 stAborted else s).reply c 0x32 stOK 0 []

/-- AXIS_GROUP (R326). -/
def opAxisGroup : OpSpec where
  code := 0x33
  scopes := [0]
  down := groupDown
  check s c :=
    let l := (List.range 4).filter (bitN (c.word 0))
    let pay := s.groupOkPay c
    let ds := s.groupMoves c
    firstBad [(decide (5 + 2 * l.length ≤ c.len) && decide (c.word 0 < 16) && l.all s.stnPresent && l.any (fun n => s.axOff n || !s.axIsIdle n), stState),
      (!pay || (bitN (c.word 4) 1 && !s.groupTableOk ((ds.head?.map (·.1)).getD 0) (groupLen ds)), stBadParam)]
  run s c :=
    let ds := s.groupMoves c
    let l := groupLen ds
    let tab := if bitN (c.word 4) 1 then (ds.head?.map (·.1)).getD 0 + 1 else 0
    if l = 0 then (s.start c 0x33 (c.word 0) 0 []).completeAll 0x33 (c.word 0) stOK 0
    else (s.axGroup (c.word 0) ds l (c.word 1 : Nat) (c.word 2 : Nat) (c.word 3 : Nat) tab).start c 0x33 (c.word 0) 0 []

/-- AXIS_FOLLOW (R327). -/
def opAxisFollow : OpSpec where
  code := 0x34
  scopes := [3]
  check s c :=
    let n := c.ix
    firstBad [(s.axOff n || !s.axIsIdle n, stState),
      (c.len != 4 || decide (1 < c.word 0) || decide (3 < c.word 1) || c.word 3 == 0 ||
        (if c.word 0 = 0 then s.get (axsB n) F.AXS_CTRL_CLASS != 2 else c.word 1 / 2 != n / 2), stBadParam)]
  run s c := (s.axFollow c.ix (c.word 0) (c.word 1) (sgnN 32 (c.word 2)) (c.word 3 : Nat)).reply c 0x34 stOK 0 []

/-- SVC_START (R301): the lowest free handle. -/
def opSvcStart : OpSpec where
  code := 0x40
  scopes := [0]
  down := noToken
  check s c :=
    let v := c.word 0
    let w := c.word 1
    let l := svcPairs (c.wordsFrom 2)
    let shape := decide (2 ≤ c.len) && decide (1 ≤ v ∧ v ≤ 6) && s.svcBitmapOk v w
    let pairs := decide (c.len ≤ 254) && c.len % 2 == 0 && l.all (svcPairOk v)
    firstBad [((List.range 16).all s.svcLive || (shape && !s.svcStartState v w l), stState), (!(shape && pairs && s.svcStartParam v w l), stBadParam)]
  run s c :=
    let k := ((List.range 16).find? fun k => !s.svcLive k).getD 0
    (s.svcBegin k (c.word 0) (c.word 1) (svcPairs (c.wordsFrom 2))).start c 0x40 k 0 [k]

/-- A handle that no running service holds; one whose end waits is no longer running (R302). -/
def svcGone (s : State) (k : Nat) : Bool := decide (k < 16) && !(s.svcLive k && s.get (svcB k) F.SVC_STAT_STATE != 3)

/-- The value a parameter has once the waiting and the new pairs apply. -/
def svcWould (s : State) (k : Nat) (l : List (Nat × Nat)) (i : Nat) : Int :=
  let v := s.nat (svcB k) F.SVC_STAT_SERVICE
  svcGiven v l i (((s.svcNew.filter fun e => e.1 == k && e.2.1 == i).getLast?.map (·.2.2)).getD (s.svcParam k i))

/-- SVC_PARAM (R302). -/
def opSvcParam : OpSpec where
  code := 0x41
  scopes := [0]
  down := noToken
  check s c :=
    let k := c.word 0
    let v := s.nat (svcB k) F.SVC_STAT_SERVICE
    let l := svcPairs (c.wordsFrom 1)
    firstBad [(decide (3 ≤ c.len) && (svcGone s k || (decide (k < 16) && l.any fun e => svcStartOnly v e.1)), stState),
      (decide (c.len < 3) || decide (255 < c.len) || c.len % 2 == 0 || decide (15 < k) || !l.all (svcPairOk v) ||
        !svcRelation v (svcWould s k l), stBadParam)]
  run s c :=
    let k := c.word 0
    let v := s.nat (svcB k) F.SVC_STAT_SERVICE
    let l := svcPairs (c.wordsFrom 1)
    let new := l.filterMap fun e => ((svcParams v).find? fun p => p.ix == e.1).map fun p => (k, e.1, p.value e.2)
    { s with svcNew := s.svcNew ++ new }.reply c 0x41 stOK 0 []

/-- SVC_STOP (R302, R85). -/
def opSvcStop : OpSpec where
  code := 0x42
  scopes := [0]
  down := noToken
  check s c := firstBad [(decide (2 ≤ c.len) && svcGone s (c.word 0), stState),
    (c.len != 2 || decide (15 < c.word 0) || decide (3 < c.word 1), stBadParam)]
  run s c := (s.begin c 0x42 (c.word 0)).svcStop (c.word 0) (c.word 1)

end Sys2Proof.Machine
end

