-- ==== Sys2Proof/Machine/CmdCan.lean ====
section
/-!
DEFINITION. Commands on CAN controllers (Table PK-10, chapter 16).
-/
namespace Sys2Proof.Machine

namespace State

/-! ### CAN_CFG (R338) -/

/-- The words of the filters in a CAN_CFG payload. -/
def cfgFilters (c : Cmd) : List Nat := c.wordsFrom 10

/-- The registers that a CAN_CFG payload names, with their new words. -/
def cfgHits (s : State) (c : Cmd) : List (Nat × Nat × Nat × Hit) :=
  s.writeHits (canB c.ix) 0 ((c.wordsFrom 0).take 9) ++ s.writeHits (canB c.ix + 0x100) 0 (cfgFilters c)

/-- The payload has the length that NFLT gives. -/
def cfgLenOk (c : Cmd) : Bool := decide (10 ≤ c.len) && decide (c.word 9 ≤ 32) && c.len == 10 + 2 * c.word 9

/-- A value of the block is out of range, or breaks a relation of R337. -/
def cfgBad (s : State) (c : Cmd) : Bool :=
  let hs := s.cfgHits c
  let t := s.candidate hs
  hs.any fun e => t.paramBad e.2.2.2 (wholeIn hs e.2.2.2)

/-- The block is written: timing, partitions and identifiers, the filters with all higher-numbered ones off, and `CAN_CTRL` last. -/
def canConfigure (s : State) (c : Cmd) : State :=
  let a := canB c.ix
  let s := (s.writeWords (a + 4) ((c.wordsFrom 1).take 8) 0).writeWords (a + 0x100) (cfgFilters c) 0
  let s := s.each ((List.range 32).filter fun f => decide (c.word 9 ≤ f)) fun f s => s.put (a + 8 * f) F.CAN_FLT_ACT 0
  s.writeWords a [c.word 0] 0

/-! ### CAN_SEND (R343, R86) -/

/-- The frame of a CAN_SEND payload. -/
def sendFrame (c : Cmd) : CanFrame :=
  let w := c.word 0
  let fd := bitN w 30
  let d := c.word 1 % 16
  { id := BitVec.ofNat 29 w, ide := bitN w 29, fdf := fd, brs := fd && bitN w 31, esi := false, dlc := Fin.ofNat 16 d,
    data := (((c.wordsFrom 2).flatMap wordBytes).map (BitVec.ofNat 8)).take (dlcLen fd d) }

/-- A CAN_SEND payload that is refused: too short for its DLC, reserved bits, an 11-bit identifier beyond 11 bits, or a CAN FD frame with
`FD_EN` = 0. -/
def sendBad (s : State) (c : Cmd) : Bool :=
  let w := c.word 0
  decide (c.len < 2) || decide (15 < c.word 1) || decide (4 * (c.len - 2) < dlcLen (bitN w 30) (c.word 1)) ||
  (!bitN w 29 && decide (2048 ≤ w % 2 ^ 29)) || (bitN w 30 && !s.on (canB c.ix) F.CAN_CTRL_FD_EN)

/-- CAN_SEND is refused in the present state (Table PK-10, R339, R343, R344). -/
def sendShut (s : State) (k : Nat) : Bool := !s.canSends k || !s.on (canB k) F.CAN_CTRL_EN || s.on (canB k) F.CAN_CTRL_LBK || (s.txFree k).isEmpty

/-- An entry number of the host partition (R342). -/
def hostEntry (s : State) (k i : Nat) : Bool := decide (s.nat (canB k) F.CAN_PART_RX_SVC ≤ i ∧ i ≤ 63)

end State

open State

/-- CAN_CFG (R338). -/
def opCanCfg : OpSpec where
  code := 0x60
  scopes := [5]
  check s c := firstBad [(s.on (canB c.ix) F.CAN_CTRL_EN, stState), (!cfgLenOk c || s.cfgBad c, stBadParam)]
  run s c := (s.canConfigure c).reply c 0x60 stOK 0 []

/-- CAN_RECOVER (R344). -/
def opCanRecover : OpSpec where
  code := 0x61
  scopes := [5]
  check s c := firstBad [(s.get (canB c.ix) F.CAN_STAT_ERRSTATE != 2, stState), (c.len != 0, stBadParam)]
  run s c := (s.begin c 0x61 c.ix).canRecover c.ix

/-- TIME_MASTER (R350). -/
def opTimeMaster : OpSpec where
  code := 0x62
  scopes := [5]
  check s c := firstBad [(!s.on (canB c.ix) F.CAN_CTRL_EN, stState),
    (c.len != 3 || decide (2 < c.word 0) || decide (7 < c.word 1) || !decide (1000 ≤ c.word 2 ∧ c.word 2 ≤ 1000000) ||
      (c.word 0 != 0 && !s.on (canB c.ix) F.CAN_CTRL_TM_EN), stBadParam)]
  run s c := (s.timeMaster c.ix (c.word 0) (c.word 1) (c.word 2)).reply c 0x62 stOK 0 []

/-- CAN_SEND (R343). -/
def opCanSend : OpSpec where
  code := 0x63
  scopes := [5]
  check s c := firstBad [(s.sendShut c.ix, stState), (s.sendBad c, stBadParam)]
  run s c :=
    let e := ((s.txFree c.ix).head?).getD 0
    (s.canQueue c.ix e (sendFrame c)).start c 0x63 (sendArg c.ix e) 0 [e]

/-- CAN_FETCH (R86, R342). -/
def opCanFetch : OpSpec where
  code := 0x64
  scopes := [5]
  check s c := firstBad [(c.len != 2 || !s.hostEntry c.ix (c.word 0) || !decide (1 ≤ c.word 1 ∧ c.word 1 ≤ 12), stBadParam)]
  run s c :=
    let l := s.canFetch c.ix (c.word 0) (c.word 1)
    s.reply c 0x64 stOK 0 (l.length :: l.flatMap RxEnt.words)

/-- CAN_ACK (R86, R342). -/
def opCanAck : OpSpec where
  code := 0x65
  scopes := [5]
  check s c := firstBad [(c.len != 2 || !s.hostEntry c.ix (c.word 0) || !decide (1 ≤ c.word 1 ∧ c.word 1 ≤ (s.partOf c.ix true).2) ||
    !((s.hostWalk c.ix (c.word 0) (c.word 1)).all fun i => (s.canq c.ix).rx.any (·.ix == i)), stBadParam)]
  run s c := (s.canAck c.ix (c.word 0) (c.word 1)).reply c 0x65 stOK 0 []

end Sys2Proof.Machine
end

