-- ==== Sys2Proof/Machine/Accept.lean ====
section
/-!
DEFINITION. The acceptance of a command (Table PK-4), forwarding (R72) and the host watchdog (R81).
-/
namespace Sys2Proof.Machine

/-- The opcodes of Tables PK-6 to PK-10. -/
def opTable : List OpSpec :=
  [opEcho, opIdentify, opReadReg, opWriteReg, opModifyReg, opSnapshot, opSleep, opResetRegion, opCfgRead, opCfgStage, opCfgCommit, opCfgSeal,
   opTableLoad] ++
  [opStnArm, opStnRun, opStnSetpoint, opStnStop, opStnDiag, opStnSizing, opBankSwap] ++
  [opAxisMove, opAxisRetarget, opAxisStop, opAxisGroup, opAxisFollow, opSvcStart, opSvcParam, opSvcStop, opShareCfg, opEvtArm, opEvtCancel,
   opRecRead, opRecTriggerCfg] ++
  [opCanCfg, opCanRecover, opTimeMaster, opCanSend, opCanFetch, opCanAck, opMbxPost, opMbxFetch, opDblRing, opFaultRead, opFaultClear,
   opMastership, opTestmux, opSelftest]

/-- The opcode of a code; none where the code is not assigned. -/
def opOf (code : Nat) : Option OpSpec := opTable.find? (·.code == code)

/-- Header and payload of a packet's words as a command from `tr`. -/
def cmdOf (tr : Transport) (ws : List Nat) : Cmd :=
  let w0 := ws.getD 0 0
  let w1 := ws.getD 1 0
  { tr := tr, tag := BitVec.ofNat 6 (w0 / 2 ^ 26), want := bitN w0 15, snap := bitN w0 14, scope := BitVec.ofNat 4 (w1 / 2 ^ 28),
    index := BitVec.ofNat 4 (w1 / 2 ^ 24), rsv := BitVec.ofNat 24 w1, payload := ((ws.drop 2).take (w0 % 4096 / 4)).map (BitVec.ofNat 32) }

/-- Opcode, class and LENGTH of a packet's first word (Table PK-1). -/
def opcodeOf (w0 : Nat) : Nat := bitsN w0 16 8
def classOf (w0 : Nat) : Nat := bitsN w0 24 2
def lengthOf (w0 : Nat) : Nat := w0 % 4096

/-- The CRC word of a whole packet matches (R68). -/
def crcOk (ws : List Nat) : Bool :=
  let n := 2 + lengthOf (ws.getD 0 0) / 4
  ws.getD n 0 == crcWords (ws.take n)

end Sys2Proof.Machine

namespace Sys2Proof
open Machine

/-- What an outer command echoes in the packets that answer it. -/
def Cmd.outer (c : Cmd) (op : Nat) : OuterHdr := { tag := c.tag, op := BitVec.ofNat 8 op, want := c.want, snap := c.snap, index := c.index }

/-- The words of a command packet as it goes to another ring position. -/
def Cmd.packet (c : Cmd) (op : Nat) : List Nat :=
  Packet.words { cls := 0, tag := c.tag.toNat, opcode := op, want := c.want, snap := c.snap, scope := c.scope.toNat, index := c.index.toNat,
                 status := 0, detail := 0, payload := c.payload.map BitVec.toNat }

end Sys2Proof

namespace Sys2Proof.Machine

namespace State

/-! ### The host watchdog (R81) -/

/-- The bit of `MIL_HOST_WD.SOURCE` of a transport. -/
def wdBit : Transport → Option Nat
  | .spi => some 0
  | .uart => some 1
  | .can _ => some 2
  | _ => none

/-- A command that has passed Steps 1 and 2 refreshes the watchdog when its transport is selected: `HOST_LOST` clears, and the interval of an
armed watchdog starts again. -/
def refresh (s : State) (tr : Transport) : State :=
  match wdBit tr with
  | none => s
  | some i =>
    if bitN (s.nat 0 F.MIL_HOST_WD_SOURCE) i then
      let s := s.put 0 F.MIL_STAT_HOST_LOST 0
      if s.on 0 F.MIL_HOST_WD_TIMEOUT_MS then (s.put 0 H.wdStart s.time).withMil fun m => { m with wdArmed := true } else s
    else s

/-- HOST_WATCHDOG_EXPIRY: the interval has passed without a refresh; one that arrives in the same clock counts (R80). -/
def hostLost (s : State) : State :=
  if !s.alive || !s.shRun || !s.mil.wdArmed || !s.on 0 F.MIL_HOST_WD_TIMEOUT_MS || s.get 0 H.wdStart == s.time then s
  else
    let s := (s.puts 0 [(F.MIL_STAT_HOST_LOST, 1), (F.MIL_STAT_HOST_LOST_SEEN, 1)]).withMil fun m => { m with wdArmed := false }
    let s := (s.notice 3 [s.nat 0 F.MIL_HOST_WD_TIMEOUT_MS + 65536 * s.nat 0 F.MIL_HOST_WD_SOURCE]).trigger 0 7 0
    s.each (s.stations.filter fun n => !s.halfDown (n / 2)) fun n s => s.fallback n

/-! ### Forwarding (R72) -/

/-- No path to another position can exist. -/
def noPath (s : State) : Bool := !s.hatOn || s.get 0 F.HBD_PUB_MBX_WIN == 0

/-- The chip answers the restricted command set only (R51). -/
def restricted (s : State) : Bool := s.chip.phase == .restricted

/-- The outer tag is busy for a command forwarded to `p`; `arg` 1 once an inner ACCEPTED has come back. -/
def occupyFwd (s : State) (c : Cmd) (op p : Nat) : State :=
  (s.occupy c op 0).withMil fun m => { m with busy := m.busy.map fun b => if b.tag == c.tag.toNat then { b with fwd := some p } else b }

/-- An inner packet whose LENGTH is right: Steps 2 and 3 of Table PK-4, then what `run` does with its opcode and command. -/
def innerPacket (s : State) (run : State → Nat → Cmd → State) (tr : Transport) (ws : List Nat) : State :=
  let c := cmdOf tr ws
  let op := opcodeOf (ws.getD 0 0)
  if !crcOk ws then (s.bump 0 F.MIL_ERR_CNT_CRC).refuse c op stBadCrc 0
  else if classOf (ws.getD 0 0) ≠ 0 then s.refuse c op stBadOpcode 0
  else run s op c

/-- A command with `SCOPE` 7. `run` executes the inner command of the chip's own position. -/
def forwardCmd (s : State) (run : State → Nat → Cmd → State) (op : OpSpec) (c : Cmd) : State :=
  let p := c.ix
  let own := p == s.ownPos
  let ws := c.wordsFrom 0
  if c.rsv ≠ 0 ∨ 8 ≤ p ∨ (own = false ∧ s.ringN ≤ p) then s.refuse c op.code stBadTarget 0
  else if (s.restricted && !op.startup) || (!own && s.noPath) then s.refuse c op.code stState 0
  else if c.len < 3 ∨ 4 * c.len ≠ 12 + lengthOf (ws.getD 0 0) then s.refuse c op.code stBadParam 0
  else if own then (s.occupyFwd c op.code p).innerPacket run (.own (c.outer op.code)) ws
  else
    let s := s.occupyFwd c op.code p
    if !s.reaches p then s.fwdEnd c.tag.toNat
    else { s with hat := { s.hat with fwdOut := s.hat.fwdOut ++ [(p, c.packet op.code)] } }

/-! ### Acceptance (Table PK-4) -/

/-- Steps 6 to 11 for a target on this chip, and the command's effect. `SNAP` captures when it has taken effect; BANK_SWAP takes effect
at its boundary. -/
def runOp (s : State) (op : OpSpec) (c : Cmd) : State :=
  if !op.scopes.contains c.scope.toNat || !s.targetOk c || op.absent s c then s.refuse c op.code stBadTarget 0
  else if op.down s c then s.refuse c op.code stRegionDown 0
  else if s.restricted && !op.startup then s.refuse c op.code stState 0
  else match op.check s c with
    | some (st, d) => s.refuse c op.code st d
    | none =>
      let t := op.run s c
      if c.snap && op.code != 0x28 then t.capture c.tag.toNat op.code else t

/-- Step 4 on, for an assigned opcode. -/
def acceptOp (s : State) (run : State → Nat → Cmd → State) (op : OpSpec) (c : Cmd) : State :=
  if s.tagBusy c.tag.toNat then s.refuse c op.code stTagBusy 0
  else if c.scope = 7 then s.forwardCmd run op c
  else s.runOp op c

/-- Step 4 on, for any opcode. An inner command is shorter than its outer command by three words, so the depth is bounded. -/
def acceptAt : Nat → State → Nat → Cmd → State
  | 0, s, _, _ => s
  | f + 1, s, code, c =>
    match opOf code with
    | some op => s.acceptOp (acceptAt f) op c
    | none => s.refuse c code (if s.tagBusy c.tag.toNat then stTagBusy else stBadOpcode) 0

/-- Step 4 on, for a command that has arrived whole. -/
def accept (s : State) (code : Nat) (c : Cmd) : State := acceptAt 100 s code c

/-- The transport takes commands in the present state (Table PK-15, R71, R72): an inner command of the own position arrives with its outer
command. -/
def takes (s : State) (tr : Transport) : Bool :=
  s.alive && s.shRun &&
  match tr with
  | .spi => (s.on 0 F.MIL_PORT_CFG_SPI_EN || s.on 0 H.enHoldSpi) && !s.oos .spi
  | .uart => (s.on 0 F.MIL_PORT_CFG_UART_EN || s.on 0 H.enHoldUart) && !s.oos .uart
  | .can k => s.canPresent k.val && s.canOn k.val && s.on (canB k.val) F.CAN_CTRL_TUN_EN
  | .ring _ _ => s.hatOn
  | .own _ => false

/-- Packets of the transport reach the receiver: it takes commands, and the UART does not resynchronise (R70). -/
def hears (s : State) (tr : Transport) : Bool := s.takes tr && !(tr == .uart && s.mil.uartBad)

/-- After BAD_LENGTH the UART's receiver ignores bytes until the line has been idle (R70). -/
def badLength (s : State) (tr : Transport) : State :=
  (if tr = .uart then s.withMil fun m => { m with uartBad := true } else s).bump 0 F.MIL_ERR_CNT_LEN

/-- A command of a known opcode arrives whole on its transport: Steps 1 to 3 are passed, unless its payload is longer than a packet's. -/
def deliver (s : State) (op : OpSpec) (c : Cmd) : State :=
  if !s.hears c.tr then s
  else if 255 < c.len then (s.badLength c.tr).refuse c op.code stBadLength 0
  else (s.refresh c.tr).acceptOp (acceptAt 100) op c

end State

end Sys2Proof.Machine
end

