-- ==== Sys2Proof/Machine/Transports.lean ====
section
/-!
DEFINITION. Packets on the four transports (R69 to R72), replies that come back over the hatband, and the limits of completions (R75).
-/
namespace Sys2Proof.Machine

/-- The bytes of a packet as words, whole words only. -/
def wordsOf (bs : List Byte) : List Nat := (bytesWords (bs.map BitVec.toNat)).take (bs.length / 4)

namespace State

/-! ### Inbound (R73) -/

/-- The packet bytes of one message on a transport: header complete, LENGTH, CRC, class, then the command (Steps 1 to 3 of
Table PK-4). -/
def packetIn (s : State) (tr : Transport) (bs : List Byte) : State :=
  let ws := wordsOf bs
  let w0 := ws.getD 0 0
  let n := lengthOf w0
  let c := cmdOf tr ws
  if bs.length < 8 then s.bump 0 F.MIL_ERR_CNT_RUNT
  else if n % 4 ≠ 0 ∨ 1020 < n ∨ bs.length < 12 + n then
    (s.badLength tr).refuse { c with payload := [] } (opcodeOf w0) stBadLength 0
  else if !crcOk ws then (s.bump 0 F.MIL_ERR_CNT_CRC).refuse c (opcodeOf w0) stBadCrc 0
  else
    let s := s.refresh tr
    if classOf w0 ≠ 0 then s.refuse c (opcodeOf w0) stBadOpcode 0 else s.accept (opcodeOf w0) c

/-! ### Outbound (R69, R70, R78) -/

/-- Ports send while SH runs, and while sleep entry is in progress (R57). -/
def portsUp (s : State) : Bool := (s.alive || s.chip.phase == .sleepEntry) && s.shRun

/-- A packet has left a port: the transport whose enable its command cleared closes (Table PK-15). -/
def packetLeft (s : State) (i : Nat) (p : Packet) : State :=
  let own := p.cls == 1 && (p.opcode == 0x04 || p.opcode == 0x05)
  if i = 0 ∧ own = true ∧ s.get 0 H.enHoldSpi = p.tag + 1 then s.put 0 H.enHoldSpi 0
  else if i = 1 ∧ own = true ∧ s.get 0 H.enHoldUart = p.tag + 1 then s.put 0 H.enHoldUart 0
  else s

/-- HS_IRQ_N is asserted (R69). -/
def hsIrq (s : State) : Bool := s.portsUp && !(s.port 0).out.isEmpty

/-- SPI_WINDOW: the bytes of MOSI. The oldest packet goes out from the first byte and leaves the queue when all of it has been clocked out;
0xFF follows. Then the command, if any, is received (R69). -/
def spiWindow (s : State) (mosi : List Byte) : State :=
  if !s.portsUp || s.oos .spi then s.withMil fun m => { m with miso := [] }
  else
    let s := s.markHead 0
    let s := match (s.port 0).out with
      | [] => s.withMil fun m => { m with miso := List.replicate mosi.length 0xFF }
      | (_, p) :: r =>
        let bs := p.bytes
        let s := s.withMil fun m => { m with miso := (bs ++ List.replicate mosi.length 0xFF).take mosi.length }
        if bs.length ≤ mosi.length then (s.withPort 0 fun q => { q with out := r }).packetLeft 0 p else s
    let fetch := decide (4 ≤ mosi.length) && (mosi.take 4).all (· == 0)
    (if fetch || !s.takes .spi then s else s.packetIn .spi mosi).shResetCheck

/-- UART_PACKET_RECEIVED: the bytes after a sync word; none is taken while the receiver resynchronises (R70). -/
def uartIn (s : State) (bs : List Byte) : State := if !s.hears .uart then s else s.packetIn .uart bs

/-- UART_GAP_TIMEOUT: a gap after the bytes received so far ends the packet (R70). -/
def uartGap (s : State) (bs : List Byte) : State :=
  if !s.hears .uart then s
  else if bs.length < 8 then s.bump 0 F.MIL_ERR_CNT_RUNT
  else
    let ws := wordsOf bs
    (s.badLength .uart).refuse { cmdOf .uart ws with payload := [] } (opcodeOf (ws.getD 0 0)) stBadLength 0

/-- UART_IDLE_RESYNC. -/
def uartIdle (s : State) : State := s.withMil fun m => { m with uartBad := false }

/-- UART_PACKET_SEND: the oldest outbound packet with its sync word (R70). -/
def uartSend (s : State) : State :=
  if !s.portsUp || s.oos .uart then s
  else
    let s := s.markHead 1
    match (s.port 1).out with
    | [] => s
    | (_, p) :: r =>
      (((s.withMil fun m => { m with uartTx := 0x3C :: 0x5A :: p.bytes }).withPort 1 fun q => { q with out := r }).packetLeft 1 p).shResetCheck

/-! ### The tunnel (R71) -/

/-- The message under assembly on a controller. -/
def tunAsm (s : State) (k : Nat) : Option TunAsm := s.mil.tun.toList.getD k none

/-- Set it. -/
def putTun (s : State) (k : Nat) (a : Option TunAsm) : State := s.withMil fun m => { m with tun := m.tun.setIfInBounds k a }

/-- A message has been discarded: what still comes of it, up to its last segment, is ignored. -/
def tunDead (s : State) (k tag : Nat) (isLast : Bool) : State :=
  s.putTun k (if isLast then none else some { segTag := tag, next := 0, bytes := [], dead := true })

/-- A message discarded without a reply, and counted once. -/
def tunDrop (s : State) (k tag : Nat) (isLast : Bool) : State := (s.tunDead k tag isLast).bump 0 F.MIL_TUN_STAT_TUN_DISC

/-- A message discarded for its LENGTH or its LAST flag. -/
def tunBadLength (s : State) (k : Fin 4) (a : TunAsm) (isLast : Bool) (bs : List Byte) : State :=
  let ws := wordsOf bs
  ((s.tunDead k.val a.segTag isLast).bump 0 F.MIL_ERR_CNT_LEN).refuse { cmdOf (.can k) ws with payload := [] } (opcodeOf (ws.getD 0 0)) stBadLength 0

/-- A segment that continues the assembly `a`, with its packet bytes `part`: the message so far is checked against its LENGTH, and a
whole one is received. -/
def tunTake (s : State) (k : Fin 4) (a : TunAsm) (isLast : Bool) (part : List Byte) : State :=
  let bs := a.bytes ++ part
  let n := lengthOf ((wordsOf (bs.take 4)).getD 0 0)
  if bs.length < 8 then (s.putTun k.val none).bump 0 F.MIL_ERR_CNT_RUNT
  else if n % 4 ≠ 0 ∨ 1020 < n ∨ (isLast = true ∧ bs.length < 12 + n) ∨ (isLast = false ∧ 12 + n ≤ bs.length) then s.tunBadLength k a isLast bs
  else if isLast then (s.putTun k.val none).packetIn (.can k) (bs.take (12 + n))
  else s.putTun k.val (some { a with next := a.next + 1, bytes := bs })

/-- The controller receives the tunnel's frames. -/
def tunHears (s : State) (k : Fin 4) : Bool :=
  s.canPresent k.val && (s.canOn k.val || s.get (canB k.val) H.cnFin == 2) && s.on (canB k.val) F.CAN_CTRL_TUN_EN

/-- TUNNEL_SEGMENT_RECEIVED: a frame on the tunnel's command identifier; `fd` says that it is a CAN FD frame. A frame with no room for the
segment header counts as a discarded message (DESIGN CHOICE, log entry 79). The controller counts the frame whether or not Milliner runs
(R344). -/
def tunnelIn (s : State) (k : Fin 4) (fd : Bool) (d : List Byte) : State :=
  let s := if s.tunHears k then s.recDown k.val else s
  if !(s.alive && s.shRun && s.tunHears k) then s
  else
    let h := (d.getD 0 0).toNat
    let tag := (d.getD 1 0).toNat % 64
    let seg := h % 64
    let isLast := bitN h 6
    let bad := !fd || (!isLast && decide (d.length < 64))
    if d.length < 2 then
      match s.tunAsm k.val with
      | none => s.bump 0 F.MIL_TUN_STAT_TUN_DISC
      | some a => if a.dead then s else s.tunDrop k.val a.segTag false
    else if bitN h 7 then
      let s := if (s.tunAsm k.val).any (!·.dead) then s.bump 0 F.MIL_TUN_STAT_TUN_DISC else s
      if seg ≠ 0 ∨ bad = true then s.tunDrop k.val tag isLast else s.tunTake k { segTag := tag, next := 0, bytes := [] } isLast (d.drop 2)
    else match s.tunAsm k.val with
      | none => s.tunDrop k.val tag isLast
      | some a =>
        if a.dead then (if tag = a.segTag then (if isLast then s.putTun k.val none else s) else s.tunDrop k.val tag isLast)
        else if tag ≠ a.segTag then s.tunDrop k.val a.segTag false
        else if seg ≠ a.next ∨ bad = true then s.tunDrop k.val tag isLast
        else s.tunTake k a isLast (d.drop 2)

/-- TUNNEL_SEGMENT_TIMEOUT: more than 10 ms between two segments. -/
def tunnelTimeout (s : State) (k : Nat) : State :=
  match s.tunAsm k with
  | none => s
  | some a => if a.dead then s else s.tunDrop k a.segTag false

/-- The first segment of an outbound packet is about to be sent. -/
def tunMark (s : State) (k : Nat) : State := if (s.canq k).tunSent = 0 then s.markHead (2 + k) else s

/-! ### The hatband (R72) -/

/-- FORWARDED_COMMAND: the words of the outer packet that position `pos` has forwarded. -/
def forwardedIn (s : State) (pos : Fin 8) (ws : List Nat) : State :=
  let c := cmdOf (.ring pos { tag := 0, op := 0, want := false, snap := false, index := 0 }) ws
  let tr : Transport := .ring pos (c.outer (opcodeOf (ws.getD 0 0)))
  let inner := c.wordsFrom 0
  if !s.takes tr then s
  else if c.len < 3 ∨ 4 * c.len ≠ 12 + lengthOf (inner.getD 0 0) then
    (s.bump 0 F.MIL_ERR_CNT_LEN).refuse { cmdOf tr inner with payload := [] } (opcodeOf (inner.getD 0 0)) stBadLength 0
  else s.innerPacket (acceptAt 100) tr inner

/-- The packet that a list of words is. -/
def packetOf (ws : List Nat) : Packet :=
  let w0 := ws.getD 0 0
  let w1 := ws.getD 1 0
  { cls := classOf w0, tag := w0 / 2 ^ 26 % 64, opcode := opcodeOf w0, want := bitN w0 15, snap := bitN w0 14, scope := bitsN w1 28 4,
    index := bitsN w1 24 4, status := bitsN w1 16 8, detail := w1 % 65536, payload := (ws.drop 2).take (lengthOf w0 / 4) }

/-- FORWARDED_REPLY_RECEIVED: an outer packet has come back from position `pos`. It goes out on the transport of its command, whose tag
ends with the inner final reply. -/
def forwardReply (s : State) (pos : Nat) (ws : List Nat) : State :=
  let p := packetOf ws
  if !s.alive || !s.shRun || !crcOk ws then s
  else match s.mil.busy.find? (fun b => b.tag == p.tag && b.fwd == some pos) with
    | none => s
    | some b => if b.late.any Packet.final then s else s.fwdAnswer b p

/-- FORWARD_TIMEOUT: no inner reply within `FWD_TIMEOUT`, or the target, which is not the chip itself, has left `REACH`. A command whose final
reply waits for its turn (R76) has had its replies. -/
def forwardTimeout (s : State) (tag : Nat) : State :=
  match s.mil.busy.find? (fun b => b.tag == tag && b.fwd.isSome) with
  | none => s
  | some b =>
    let p := b.fwd.getD 0
    if b.late.any Packet.final ∨ ((b.arg = 1 ∨ b.late ≠ []) ∧ (p = s.ownPos ∨ s.reaches p = true)) then s
    else s.fwdEnd tag

/-! ### Completion limits (R75) -/

/-- COMPLETION_TIMEOUT: the completion of a busy command has not arrived within the limit of its table; its work is abandoned. Commands
without a limit never time out. -/
def completionTimeout (s : State) (tag : Nat) : State :=
  match s.mil.busy.find? (fun b => b.tag == tag && b.fwd == none) with
  | none => s
  | some b =>
    if b.op = 0x09 ∨ b.op = 0x23 ∨ b.op = 0x42 then s.completeB b stTimeout 0 []
    else if b.op = 0x12 ∨ b.op = 0x13 then s.commitEnd stTimeout 0
    else if b.op = 0x20 then (s.puts (stnB b.arg) [(H.arming, 0), (H.armItems, 0)]).completeB b stTimeout 0 []
    else if b.op = 0x24 then ((s.put (stnB b.arg) H.armItems 0).setMode b.arg mOff).completeB b stTimeout 0 []
    else if b.op = 0x25 then (((s.turnOff b.arg).endSequences b.arg).setMode b.arg mOff).completeB b stTimeout 0 []
    else if b.op = 0xF1 then (s.stopTest tag).completeB b stTimeout 0 []
    else s

end State

end Sys2Proof.Machine
end

