-- ==== Sys2Proof/Machine/Events.lean ====
section
/-!
DEFINITION. What the rows of the table share: where an event finds its unit running, and the rows that two operations make up. An event
of a unit that is held in reset, absent or out of service does not occur and changes nothing (R1, R17, R368, R372).
-/
namespace Sys2Proof.Machine

/-- Words as numbers. -/
def natsOf (ws : List Word) : List Nat := ws.map (·.toNat)

namespace State

/-- An event of the blocks that a station's steaming occupies (R368); after PLAUS that is the current sense alone (R168). -/
def onStn (s : State) (n : Nat) (t : State) : State :=
  if s.stnLive n && (!s.oos (.stn (Fin.ofNat 4 n)) || s.on (stnB n) H.csOut) then t else s

/-- An event of a station's mode or gate pins, which its steaming does not stop. -/
def onGate (s : State) (n : Nat) (t : State) : State := if s.stnLive n then t else s

/-- An event of a half. -/
def onHalf (s : State) (h : Nat) (t : State) : State := if s.halfRun h then t else s

/-- An event of the region SH. -/
def onSh (s t : State) : State := if s.shRun then t else s

/-- An event of an axis. -/
def onAxs (s : State) (n : Nat) (t : State) : State := if s.halfRun (n / 2) && !s.oos (.axs (Fin.ofNat 4 n)) then t else s

/-- An event of a CAN controller. -/
def onCan (s : State) (c : Nat) (t : State) : State := if s.halfRun (c % 2) && !s.oos (.can (Fin.ofNat 4 c)) then t else s

/-- A direct write of some bits of a register, the others at their present values. -/
def fieldWrite (s : State) (a mask v : Nat) : State := s.regWrite a [mergeWord (s.rdWord a) mask v]

/-- The chip timebase runs: from Step 4 of Table PW-5, on a fallback oscillator too, until the arbiter is in reset (R22, R48, R49, R57). -/
def ticking (s : State) : Bool :=
  match s.chip.phase with
  | .starting | .restricted | .running | .sleepEntry | .resetFlush => true
  | .shutdown => s.log.flush.isSome
  | .off | .reset | .asleep => false

/-- A step on an empty queue: while the timebase runs, the arbiter's count advances by one tick (R22, DESIGN CHOICE, log entry 5). -/
def idle (s : State) : State := if s.ticking then { s with time := (s.time + 1) % 2 ^ 64 } else s

/-- BANK_SWAP_BOUNDARY: the swap takes effect, and so `SNAP` of its BANK_SWAP (R79). -/
def swapSnap (s : State) (h g t : Nat) : State :=
  let l := (s.owed 0x28 (swapId h g)).filter fun b => b.snap && s.halfRun h && bitN (s.nat (halfB h) F.LEN_SWAP_PENDING) g
  (s.swapBoundary h g t).each l fun b s => s.capture b.tag 0x28

/-- SHARE_CYCLE_START: the frame leaves with what the forward queue holds at its head (R271, R72). -/
def launch (s : State) (t : Nat) : State := (s.cycleStart t).shResetCheck

/-- A received frame: one on the tunnel's identifier goes to the tunnel (R340, R347); a CAN FD frame without `FD_EN` is a form error
(Table CN-4). -/
def canTake (s : State) (c : Fin 4) (t : Nat) (rtr : Bool) (f : CanFrame) : State :=
  if f.fdf && !s.on (canB c) F.CAN_CTRL_FD_EN then s.canError c 2 false false
  else if rtr then s.canRemote c
  else if s.isTunnel c f then (s.advance t).tunnelIn c f.fdf f.data
  else s.canReceive c t f

/-- TUNNEL_SEGMENT_RECEIVED: the arrival of a tunnel frame on the bus (R347), after which a controller with `EN` = 0 leaves (R339). -/
def tunArrive (s : State) (c : Fin 4) (fd : Bool) (d : List Byte) : State :=
  if s.canOn c && !s.on (canB c) F.CAN_CTRL_LBK then (s.tunnelIn c fd d).canFinish c else s

/-- CAN_FRAME_RECEIVED. In internal loopback the receiver hears its own transmitter alone (R339, DEDUCED, log entry 103). With `EN` = 0 the
controller still finishes a frame whose start preceded that write, and leaves (R339; DEDUCED, log entry 111). -/
def canArrive (s : State) (c : Fin 4) (t : Nat) (rtr : Bool) (f : CanFrame) : State :=
  let b := canB c
  let begun := decide ((t : Int) ≤ s.get b H.cnOffT)
  if s.on b F.CAN_CTRL_LBK then s
  else if s.on b F.CAN_CTRL_EN then (if s.canOn c then s.canTake c t rtr f else s)
  else if s.get b H.cnFin = 1 then (if begun then s.canTake c t rtr f else s).canFinish c
  else if s.get b H.cnFin = 2 && begun then (s.canTake c t rtr f).canOff c
  else s

/-- The latest frame sent loops to the receiver with `LBK` = 1 (R339); the sender's own reference message is no other node's (R350). -/
def canLoop (s : State) (c : Fin 4) : State :=
  if s.on (canB c) F.CAN_CTRL_LBK then
    match (s.canq c).lastTx with
    | some f => if s.isTunnel c f then s.tunnelIn c f.fdf f.data else s.canFilter c f s.time
    | none => s
  else s

/-- TIME_REFERENCE_SEND, with the loopback of R339. -/
def refAttempt (s : State) (c : Fin 4) (t : Nat) : State := if s.refGoes c then (s.timeSend c t).canLoop c else s

/-- TIME_REFERENCE_RECEIVED: the arrival of a frame that is a reference message of the controller's network (R351). -/
def refArrive (s : State) (c : Fin 4) (t : Nat) (f : CanFrame) : State :=
  if (s.refPrio c f).isSome then s.canArrive c t false f else s

/-- CAN_FRAME_SENT: one attempt of the winning TX entry (R343). With `EN` = 0 the controller then leaves; after a lost arbitration it may still
finish the reception (R339; DEDUCED, log entry 111). -/
def canAttempt (s : State) (c : Fin 4) (acked : Bool) : State :=
  let t := (s.tunMark c).canSent c acked
  let t := if acked && (s.txNext c).isSome then t.canLoop c else t
  (if t.get (canB c) H.cnFin = 1 then (t.canLeave c).put (canB c) H.cnFin (if acked then 0 else 2) else t).shResetCheck

end State

end Sys2Proof.Machine
end

