-- ==== Sys2Proof/Machine/RowAxis.lean ====
section
/-!
DEFINITION. Events of the auxiliary axes.
-/
namespace Sys2Proof.Machine

/-- PLANNER_TICK (R321). -/
def execPlannerTick (h : Fin 2) (t : BitVec 64) (s : State) : Host.Outcome State Fault Refusal := .next (s.plannerTick h t.toNat)

/-- AXIS_STEP (R313). -/
def execAxisStep (n : Fin 4) (t : BitVec 64) (s : State) : Host.Outcome State Fault Refusal := .next (s.onAxs n (s.axStep n t.toNat))

/-- AXIS_GROUP_START (R326). -/
def execAxisGroupStart (g : BitVec 4) (t : BitVec 64) (s : State) : Host.Outcome State Fault Refusal :=
  .next (s.axGroupStart g.toNat t.toNat)

/-- AXIS_CHOPPER_CYCLE (R316). -/
def execAxisChopperCycle (n : Fin 4) (coilB : Bool) (s : State) : Host.Outcome State Fault Refusal := .next (s.onAxs n (s.axChop n coilB))

/-- AXIS_CHOPPER_NOREACH (R316). -/
def execAxisChopperNoreach (n : Fin 4) (coilB : Bool) (s : State) : Host.Outcome State Fault Refusal :=
  .next (s.onAxs n (s.axNoReach n coilB))

/-- AXOC (R317). -/
def execAxoc (n : Fin 4) (s : State) : Host.Outcome State Fault Refusal := .next (s.onAxs n (s.axOc n))

/-- AXIS_STANDBY (R318). -/
def execAxisStandby (n : Fin 4) (s : State) : Host.Outcome State Fault Refusal := .next (s.onAxs n (s.axStandbyEv n))

/-- AXIS_ENERGISED (R318). -/
def execAxisEnergised (n : Fin 4) (t : BitVec 64) (s : State) : Host.Outcome State Fault Refusal :=
  .next (s.onAxs n (s.axEnergised n t.toNat))

/-- AXIS_STEP_INPUT_EDGE (R328). -/
def execAxisStepInputEdge (n : Fin 4) (t : BitVec 64) (dir : Bool) (s : State) : Host.Outcome State Fault Refusal :=
  .next (s.onAxs n (s.axEdge n t.toNat dir))

end Sys2Proof.Machine
end

