-- ==== Sys2Proof/Machine/RowCan.lean ====
section
/-!
DEFINITION. Events of the CAN controllers.
-/
namespace Sys2Proof.Machine

/-- CAN_FRAME_RECEIVED (R340). -/
def execCanFrameReceived (c : Fin 4) (t : BitVec 64) (rtr : Bool) (f : CanFrame) (s : State) : Host.Outcome State Fault Refusal :=
  .next (s.onCan c (s.canArrive c t.toNat rtr f))

/-- CAN_RX_NOTICE_DELAY (R342). -/
def execCanRxNoticeDelay (c : Fin 4) (s : State) : Host.Outcome State Fault Refusal := .next (s.onCan c (s.canRxDelay c))

/-- CAN_FRAME_SENT (R343). -/
def execCanFrameSent (c : Fin 4) (ack : Bool) (s : State) : Host.Outcome State Fault Refusal := .next (s.onCan c (s.canAttempt c ack))

/-- CAN_TX_TIMEOUT (R343). -/
def execCanTxTimeout (c : Fin 4) (ix : Fin 32) (s : State) : Host.Outcome State Fault Refusal := .next (s.onCan c (s.canTxTimeout c ix))

/-- CAN_RECOVERY_COMPLETE (R344). -/
def execCanRecoveryComplete (c : Fin 4) (s : State) : Host.Outcome State Fault Refusal := .next (s.onCan c (s.canRecovered c))

/-- TXD_DOMINANT_TIMEOUT (R336). -/
def execTxdDominantTimeout (c : Fin 4) (s : State) : Host.Outcome State Fault Refusal := .next (s.txdTimeout c)

/-- TIME_REFERENCE_SEND (R349). -/
def execTimeReferenceSend (c : Fin 4) (t : BitVec 64) (s : State) : Host.Outcome State Fault Refusal :=
  .next (s.onCan c (s.refAttempt c t.toNat))

/-- TIME_REFERENCE_RECEIVED (R351). -/
def execTimeReferenceReceived (c : Fin 4) (t : BitVec 64) (f : CanFrame) (s : State) : Host.Outcome State Fault Refusal :=
  .next (s.onCan c (s.refArrive c t.toNat f))

/-- TIME_BACKUP_ACTIVATE (R350). -/
def execTimeBackupActivate (c : Fin 4) (s : State) : Host.Outcome State Fault Refusal := .next (s.onCan c (s.timeBackup c))

/-- NTLOSS (R351). -/
def execNtloss (c : Fin 4) (s : State) : Host.Outcome State Fault Refusal := .next (s.onCan c (s.ntLoss c))

/-- CAN_BUS_INTEGRATED (R339). -/
def execCanBusIntegrated (c : Fin 4) (s : State) : Host.Outcome State Fault Refusal := .next (s.onCan c (s.canIntegrated c))

/-- CAN_ERROR_DETECTED (R344). -/
def execCanErrorDetected (c : Fin 4) (lec : Fin 8) (tx : Bool) (heavy : Bool) (s : State) : Host.Outcome State Fault Refusal :=
  .next (s.onCan c (s.canError c lec tx heavy))

end Sys2Proof.Machine
end

