-- ==== Sys2Proof/Machine/RowChip.lean ====
section
/-!
DEFINITION. Power, reset, clocks, sleep, the presence key and the configuration commit.
-/
namespace Sys2Proof.Machine

/-- VGD_SETTLED (R44). -/
def execVgdSettled (s : State) : Host.Outcome State Fault Refusal := .next s.vgdSettled

/-- POWER_ON (R49). -/
def execPowerOn (b : Boot) (s : State) : Host.Outcome State Fault Refusal := .next (s.powerOn b)

/-- START_UP_COMPLETE (R49). -/
def execStartUpComplete (s : State) : Host.Outcome State Fault Refusal := .next s.startUp

/-- START_NO_REFERENCE (R49). -/
def execStartNoReference (s : State) : Host.Outcome State Fault Refusal := .next s.startNoRef

/-- RESET_N (R48). -/
def execResetN (s : State) : Host.Outcome State Fault Refusal := .next s.resetPin

/-- RESET_N_RELEASE (R49). -/
def execResetNRelease (b : Boot) (s : State) : Host.Outcome State Fault Refusal := .next (s.resetRelease b)

/-- BROWNOUT (R54). -/
def execBrownout (s : State) : Host.Outcome State Fault Refusal := .next s.brownout

/-- POWER_FAIL_WARNING (R52). -/
def execPowerFailWarning (s : State) : Host.Outcome State Fault Refusal := .next s.powerFail

/-- POWER_FAIL_RECOVERY (R53). -/
def execPowerFailRecovery (s : State) : Host.Outcome State Fault Refusal := .next s.powerBack

/-- FLUSH_COMPLETE (R394). -/
def execFlushComplete (s : State) : Host.Outcome State Fault Refusal := .next s.flushComplete

/-- VIN_OVERVOLTAGE (R38). -/
def execVinOvervoltage (above : Bool) (s : State) : Host.Outcome State Fault Refusal := .next (s.vinOver above)

/-- BUCK_BOOST_CURRENT_LIMIT (R43). -/
def execBuckBoostCurrentLimit (out : Bool) (s : State) : Host.Outcome State Fault Refusal := .next (s.buckLimit out)

/-- VGD_UV (R43). -/
def execVgdUv (s : State) : Host.Outcome State Fault Refusal := .next s.vgdUv

/-- VGD_COLLAPSE (R43). -/
def execVgdCollapse (s : State) : Host.Outcome State Fault Refusal := .next s.vgdCollapse

/-- SHUTDOWN_LATCH_CLEAR (R55). -/
def execShutdownLatchClear (s : State) : Host.Outcome State Fault Refusal := .next s.latchClear

/-- REFERENCE_LOSS (R46). -/
def execReferenceLoss (r : Fin 3) (s : State) : Host.Outcome State Fault Refusal := .next (s.refLoss r)

/-- REFERENCE_RETURN (R47). -/
def execReferenceReturn (r : Fin 3) (s : State) : Host.Outcome State Fault Refusal := .next (s.refReturn r)

/-- SLEEP_ENTRY_COMPLETE (R57). -/
def execSleepEntryComplete (s : State) : Host.Outcome State Fault Refusal := .next s.sleepDone

/-- WAKE (R59). -/
def execWake (w : WakeCause) (b : Boot) (s : State) : Host.Outcome State Fault Refusal := .next (s.wake w b)

/-- PRESENCE_KEY_VALID (R95). -/
def execPresenceKeyValid (full : Bool) (s : State) : Host.Outcome State Fault Refusal := .next (s.keyValid full)

/-- PRESENCE_KEY_RELEASE (R95). -/
def execPresenceKeyRelease (full : Bool) (s : State) : Host.Outcome State Fault Refusal := .next (s.keyRelease full)

/-- COMMIT_FINISH (R98). -/
def execCommitFinish (ok : Bool) (s : State) : Host.Outcome State Fault Refusal := .next (s.commitFinish ok)

end Sys2Proof.Machine
end

