-- ==== Sys2Proof/Machine/RowCommands.lean ====
section
/-!
DEFINITION. The Milliner commands (Tables PK-6 to PK-14): each row delivers its packet to its operation.
-/
namespace Sys2Proof.Machine

/-- ECHO (R82). -/
def execEcho (c : Cmd) (s : State) : Host.Outcome State Fault Refusal := .next (s.deliver opEcho c)

/-- IDENTIFY (R82). -/
def execIdentify (c : Cmd) (s : State) : Host.Outcome State Fault Refusal := .next (s.deliver opIdentify c)

/-- READ_REG (R83). -/
def execReadReg (c : Cmd) (s : State) : Host.Outcome State Fault Refusal := .next (s.deliver opReadReg c)

/-- WRITE_REG (R83). -/
def execWriteReg (c : Cmd) (s : State) : Host.Outcome State Fault Refusal := .next (s.deliver opWriteReg c)

/-- MODIFY_REG (R83). -/
def execModifyReg (c : Cmd) (s : State) : Host.Outcome State Fault Refusal := .next (s.deliver opModifyReg c)

/-- STATUS_SNAPSHOT (R83). -/
def execStatusSnapshot (c : Cmd) (s : State) : Host.Outcome State Fault Refusal := .next (s.deliver opSnapshot c)

/-- SLEEP (R57). -/
def execSleep (c : Cmd) (s : State) : Host.Outcome State Fault Refusal := .next (s.deliver opSleep c)

/-- RESET_REGION (R373). -/
def execResetRegion (c : Cmd) (s : State) : Host.Outcome State Fault Refusal := .next (s.deliver opResetRegion c)

/-- CFG_READ (R89). -/
def execCfgRead (c : Cmd) (s : State) : Host.Outcome State Fault Refusal := .next (s.deliver opCfgRead c)

/-- CFG_STAGE (R89). -/
def execCfgStage (c : Cmd) (s : State) : Host.Outcome State Fault Refusal := .next (s.deliver opCfgStage c)

/-- CFG_COMMIT (R98). -/
def execCfgCommit (c : Cmd) (s : State) : Host.Outcome State Fault Refusal := .next (s.deliver opCfgCommit c)

/-- CFG_SEAL (R102). -/
def execCfgSeal (c : Cmd) (s : State) : Host.Outcome State Fault Refusal := .next (s.deliver opCfgSeal c)

/-- TABLE_LOAD (R94). -/
def execTableLoad (c : Cmd) (s : State) : Host.Outcome State Fault Refusal := .next (s.deliver opTableLoad c)

/-- STN_ARM (R188). -/
def execStnArm (c : Cmd) (s : State) : Host.Outcome State Fault Refusal := .next (s.deliver opStnArm c)

/-- STN_RUN (R242). -/
def execStnRun (c : Cmd) (s : State) : Host.Outcome State Fault Refusal := .next (s.deliver opStnRun c)

/-- STN_SETPOINT (R242). -/
def execStnSetpoint (c : Cmd) (s : State) : Host.Outcome State Fault Refusal := .next (s.deliver opStnSetpoint c)

/-- STN_STOP (R84). -/
def execStnStop (c : Cmd) (s : State) : Host.Outcome State Fault Refusal := .next (s.deliver opStnStop c)

/-- STN_DIAG (R186). -/
def execStnDiag (c : Cmd) (s : State) : Host.Outcome State Fault Refusal := .next (s.deliver opStnDiag c)

/-- STN_SIZING (R128). -/
def execStnSizing (c : Cmd) (s : State) : Host.Outcome State Fault Refusal := .next (s.deliver opStnSizing c)

/-- BANK_SWAP (R256). -/
def execBankSwap (c : Cmd) (s : State) : Host.Outcome State Fault Refusal := .next (s.deliver opBankSwap c)

/-- AXIS_MOVE (R320). -/
def execAxisMove (c : Cmd) (s : State) : Host.Outcome State Fault Refusal := .next (s.deliver opAxisMove c)

/-- AXIS_RETARGET (R322). -/
def execAxisRetarget (c : Cmd) (s : State) : Host.Outcome State Fault Refusal := .next (s.deliver opAxisRetarget c)

/-- AXIS_STOP (R330). -/
def execAxisStop (c : Cmd) (s : State) : Host.Outcome State Fault Refusal := .next (s.deliver opAxisStop c)

/-- AXIS_GROUP (R326). -/
def execAxisGroup (c : Cmd) (s : State) : Host.Outcome State Fault Refusal := .next (s.deliver opAxisGroup c)

/-- AXIS_FOLLOW (R327). -/
def execAxisFollow (c : Cmd) (s : State) : Host.Outcome State Fault Refusal := .next (s.deliver opAxisFollow c)

/-- SVC_START (R301). -/
def execSvcStart (c : Cmd) (s : State) : Host.Outcome State Fault Refusal := .next (s.deliver opSvcStart c)

/-- SVC_PARAM (R302). -/
def execSvcParam (c : Cmd) (s : State) : Host.Outcome State Fault Refusal := .next (s.deliver opSvcParam c)

/-- SVC_STOP (R302). -/
def execSvcStop (c : Cmd) (s : State) : Host.Outcome State Fault Refusal := .next (s.deliver opSvcStop c)

/-- SHARE_CFG (R283). -/
def execShareCfg (c : Cmd) (s : State) : Host.Outcome State Fault Refusal := .next (s.deliver opShareCfg c)

/-- EVT_ARM (R134). -/
def execEvtArm (c : Cmd) (s : State) : Host.Outcome State Fault Refusal := .next (s.deliver opEvtArm c)

/-- EVT_CANCEL (R85). -/
def execEvtCancel (c : Cmd) (s : State) : Host.Outcome State Fault Refusal := .next (s.deliver opEvtCancel c)

/-- REC_READ (R398). -/
def execRecRead (c : Cmd) (s : State) : Host.Outcome State Fault Refusal := .next (s.deliver opRecRead c)

/-- REC_TRIGGER_CFG (R388). -/
def execRecTriggerCfg (c : Cmd) (s : State) : Host.Outcome State Fault Refusal := .next (s.deliver opRecTriggerCfg c)

/-- CAN_CFG (R338). -/
def execCanCfg (c : Cmd) (s : State) : Host.Outcome State Fault Refusal := .next (s.deliver opCanCfg c)

/-- CAN_RECOVER (R344). -/
def execCanRecover (c : Cmd) (s : State) : Host.Outcome State Fault Refusal := .next (s.deliver opCanRecover c)

/-- TIME_MASTER (R350). -/
def execTimeMaster (c : Cmd) (s : State) : Host.Outcome State Fault Refusal := .next (s.deliver opTimeMaster c)

/-- CAN_SEND (R343). -/
def execCanSend (c : Cmd) (s : State) : Host.Outcome State Fault Refusal := .next (s.deliver opCanSend c)

/-- CAN_FETCH (R342). -/
def execCanFetch (c : Cmd) (s : State) : Host.Outcome State Fault Refusal := .next (s.deliver opCanFetch c)

/-- CAN_ACK (R86). -/
def execCanAck (c : Cmd) (s : State) : Host.Outcome State Fault Refusal := .next (s.deliver opCanAck c)

/-- MBX_POST (R356). -/
def execMbxPost (c : Cmd) (s : State) : Host.Outcome State Fault Refusal := .next (s.deliver opMbxPost c)

/-- MBX_FETCH (R357). -/
def execMbxFetch (c : Cmd) (s : State) : Host.Outcome State Fault Refusal := .next (s.deliver opMbxFetch c)

/-- DBL_RING (R361). -/
def execDblRing (c : Cmd) (s : State) : Host.Outcome State Fault Refusal := .next (s.deliver opDblRing c)

/-- FAULT_READ (R375). -/
def execFaultRead (c : Cmd) (s : State) : Host.Outcome State Fault Refusal := .next (s.deliver opFaultRead c)

/-- FAULT_CLEAR (R377). -/
def execFaultClear (c : Cmd) (s : State) : Host.Outcome State Fault Refusal := .next (s.deliver opFaultClear c)

/-- MASTERSHIP (R381). -/
def execMastership (c : Cmd) (s : State) : Host.Outcome State Fault Refusal := .next (s.deliver opMastership c)

/-- TESTMUX_SEL (R430). -/
def execTestmuxSel (c : Cmd) (s : State) : Host.Outcome State Fault Refusal := .next (s.deliver opTestmux c)

/-- SELFTEST (R371). -/
def execSelftest (c : Cmd) (s : State) : Host.Outcome State Fault Refusal := .next (s.deliver opSelftest c)

end Sys2Proof.Machine
end

