-- ==== Sys2Proof/Machine/RowHalf.lean ====
section
/-!
DEFINITION. Events of one half: serial position, scheduler, safe torque off, bus guard, temperature, loop engine and set-point port.
-/
namespace Sys2Proof.Machine

/-- PS_FRAME_TRIGGER (R122). -/
def execPsFrameTrigger (h : Fin 2) (t : BitVec 64) (s : State) : Host.Outcome State Fault Refusal :=
  .next (s.onHalf h (s.psTrigger h t.toNat))

/-- PS_FRAME_END (R125). -/
def execPsFrameEnd (h : Fin 2) (t : BitVec 64) (slo : Bool) (start : Bool) (dly : BitVec 16) (bits : BitVec 64) (ne : Bool) (nw : Bool)
    (crc : BitVec 16) (s : State) : Host.Outcome State Fault Refusal :=
  .next (s.onHalf h (s.psEnd h t.toNat slo start dly.toNat bits.toNat ne nw crc.toNat))

/-- REPEATER_EDGE_EMIT (R126). -/
def execRepeaterEdgeEmit (h : Fin 2) (t : BitVec 64) (s : State) : Host.Outcome State Fault Refusal :=
  .next (s.onHalf h (s.rpEmit h t.toNat))

/-- SCHEDULER_TICK (R132). -/
def execSchedulerTick (h : Fin 2) (t : BitVec 64) (s : State) : Host.Outcome State Fault Refusal := .next (s.schedTick h t.toNat)

/-- STO_ACTIVE (R197). -/
def execStoActive (h : Fin 2) (ch1 : Bool) (ch2 : Bool) (s : State) : Host.Outcome State Fault Refusal := .next (s.stoActive h ch1 ch2)

/-- STO_RELEASE (R198). -/
def execStoRelease (h : Fin 2) (s : State) : Host.Outcome State Fault Refusal := .next (s.stoRelease h)

/-- STO_DISCREPANCY (R197). -/
def execStoDiscrepancy (h : Fin 2) (s : State) : Host.Outcome State Fault Refusal := .next (s.stoDisc h)

/-- BUS_SAMPLE (R201). -/
def execBusSample (h : Fin 2) (t : BitVec 64) (v : BitVec 16) (chi : BitVec 16) (s : State) : Host.Outcome State Fault Refusal :=
  .next (s.busSample h t.toNat v.toNat chi.toNat)

/-- BUSUV (R202). -/
def execBusuv (h : Fin 2) (s : State) : Host.Outcome State Fault Refusal := .next (s.busUv h)

/-- CHNOFB (R206). -/
def execChnofb (h : Fin 2) (s : State) : Host.Outcome State Fault Refusal := .next (s.chNoFb h)

/-- CHOC (R206). -/
def execChoc (h : Fin 2) (desat : Bool) (s : State) : Host.Outcome State Fault Refusal := .next (s.chOc h desat)

/-- CHSTUCK (R206). -/
def execChstuck (h : Fin 2) (s : State) : Host.Outcome State Fault Refusal := .next (s.chStuck h)

/-- PRECHARGE_DONE (R210). -/
def execPrechargeDone (h : Fin 2) (s : State) : Host.Outcome State Fault Refusal := .next (s.preDone h)

/-- PRECHG (R210). -/
def execPrechg (h : Fin 2) (s : State) : Host.Outcome State Fault Refusal := .next (s.preFail h)

/-- TEMPERATURE_CONVERSION (R214). -/
def execTemperatureConversion (r : Fin 3) (rd : List (BitVec 16)) (s : State) : Host.Outcome State Fault Refusal :=
  .next (s.temperature r (rd.map (·.toInt)))

/-- EXT_TEMPERATURE_CONVERSION (R215). -/
def execExtTemperatureConversion (x : Fin 4) (code : BitVec 12) (s : State) : Host.Outcome State Fault Refusal :=
  .next (s.extConvert x code.toNat)

/-- LOOP_SLOT_UPDATE (R244). -/
def execLoopSlotUpdate (h : Fin 2) (m : Fin 48) (t : BitVec 64) (s : State) : Host.Outcome State Fault Refusal :=
  .next (s.slotUpdate h m t.toNat)

/-- BANK_SWAP_BOUNDARY (R256). -/
def execBankSwapBoundary (h : Fin 2) (g : Fin 16) (t : BitVec 64) (s : State) : Host.Outcome State Fault Refusal :=
  .next (s.swapSnap h g t.toNat)

/-- SETPOINT_CONVERSION (R257). -/
def execSetpointConversion (h : Fin 2) (t : BitVec 64) (code : BitVec 16) (s : State) : Host.Outcome State Fault Refusal :=
  .next (s.portConv h t.toNat code.toInt)

/-- SETPOINT_PULSE_EDGE (R257). -/
def execSetpointPulseEdge (h : Fin 2) (t : BitVec 64) (rising : Bool) (s : State) : Host.Outcome State Fault Refusal :=
  .next (s.portEdge h t.toNat rising)

/-- SPLOS (R259). -/
def execSplos (h : Fin 2) (pulse : Bool) (s : State) : Host.Outcome State Fault Refusal := .next (s.splos h pulse)

/-- SLOTERR (R262). -/
def execSloterr (h : Fin 2) (m : Fin 48) (s : State) : Host.Outcome State Fault Refusal := .next (s.slotErrEv h m)

/-- LENERR (R262). -/
def execLenerr (h : Fin 2) (s : State) : Host.Outcome State Fault Refusal := .next (s.lenErr h)

end Sys2Proof.Machine
end

