-- ==== Sys2Proof/Machine/RowHost.lean ====
section
/-!
DEFINITION. The host transports and the watchdogs of Milliner (R69 to R75, R81).
-/
namespace Sys2Proof.Machine

/-- SPI_WINDOW (R69). -/
def execSpiWindow (mosi : List Byte) (s : State) : Host.Outcome State Fault Refusal := .next (s.spiWindow mosi)

/-- UART_PACKET_RECEIVED (R70). -/
def execUartPacketReceived (bs : List Byte) (s : State) : Host.Outcome State Fault Refusal := .next (s.uartIn bs)

/-- UART_GAP_TIMEOUT (R70). -/
def execUartGapTimeout (bs : List Byte) (s : State) : Host.Outcome State Fault Refusal := .next (s.uartGap bs)

/-- UART_PACKET_SEND (R70). -/
def execUartPacketSend (s : State) : Host.Outcome State Fault Refusal := .next s.uartSend

/-- TUNNEL_SEGMENT_RECEIVED (R71). -/
def execTunnelSegmentReceived (c : Fin 4) (fd : Bool) (d : List Byte) (s : State) : Host.Outcome State Fault Refusal :=
  .next (s.onCan c (s.tunArrive c fd d))

/-- TUNNEL_SEGMENT_TIMEOUT (R71). -/
def execTunnelSegmentTimeout (c : Fin 4) (s : State) : Host.Outcome State Fault Refusal := .next (s.onSh (s.tunnelTimeout c))

/-- FORWARDED_COMMAND (R72). -/
def execForwardedCommand (p : Fin 8) (ws : List Word) (s : State) : Host.Outcome State Fault Refusal :=
  .next (s.forwardedIn p (natsOf ws))

/-- FORWARD_TIMEOUT (R72). -/
def execForwardTimeout (tag : BitVec 6) (s : State) : Host.Outcome State Fault Refusal := .next (s.onSh (s.forwardTimeout tag.toNat))

/-- COMPLETION_TIMEOUT (R75). -/
def execCompletionTimeout (tag : BitVec 6) (s : State) : Host.Outcome State Fault Refusal :=
  .next (s.onSh (s.completionTimeout tag.toNat))

/-- HOST_WATCHDOG_EXPIRY (R81). -/
def execHostWatchdogExpiry (s : State) : Host.Outcome State Fault Refusal := .next s.hostLost

/-- UART_IDLE_RESYNC (R70). -/
def execUartIdleResync (s : State) : Host.Outcome State Fault Refusal := .next s.uartIdle

/-- FORWARDED_REPLY_RECEIVED (R72). -/
def execForwardedReplyReceived (p : Fin 8) (ws : List Word) (s : State) : Host.Outcome State Fault Refusal :=
  .next (s.forwardReply p (natsOf ws))

end Sys2Proof.Machine
end

