-- ==== Sys2Proof/Machine/RowRing.lean ====
section
/-!
DEFINITION. The hatband, sharing and the services.
-/
namespace Sys2Proof.Machine

/-- LINK_UP (R266). -/
def execLinkUp (l : Link) (x : Ident) (s : State) : Host.Outcome State Fault Refusal := .next (s.linkUp l x)

/-- LINK_DELAY_MEASURE (R266). -/
def execLinkDelayMeasure (l : Link) (d : BitVec 20) (s : State) : Host.Outcome State Fault Refusal := .next (s.linkDelay l d.toNat)

/-- LNKLOSS (R267). -/
def execLnkloss (l : Link) (s : State) : Host.Outcome State Fault Refusal := .next (s.lnkLoss l)

/-- LNKLATE (R267). -/
def execLnklate (l : Link) (s : State) : Host.Outcome State Fault Refusal := .next (s.lnkLate l)

/-- LNKID (R267). -/
def execLnkid (l : Link) (x : Ident) (s : State) : Host.Outcome State Fault Refusal := .next (s.lnkId l x)

/-- LNKFLAP (R267). -/
def execLnkflap (l : Link) (s : State) : Host.Outcome State Fault Refusal := .next (s.lnkFlap l)

/-- LINK_RETRAIN (R267). -/
def execLinkRetrain (l : Link) (s : State) : Host.Outcome State Fault Refusal := .next (s.linkRetrain l)

/-- SHARE_CYCLE_START (R271). -/
def execShareCycleStart (t : BitVec 64) (s : State) : Host.Outcome State Fault Refusal := .next (s.launch t.toNat)

/-- HATBAND_FRAME_RECEIVED (R274). -/
def execHatbandFrameReceived (l : Link) (ws : List Word) (e : FrameEnd) (err : Bool) (rx : BitVec 68) (t : BitVec 64) (path : BitVec 20)
    (res : BitVec 20) (s : State) : Host.Outcome State Fault Refusal :=
  .next (s.frameIn l (natsOf ws) e err rx.toNat t.toNat path.toNat res.toNat)

/-- SHARE_CYCLE_USE (R276). -/
def execShareCycleUse (t : BitVec 64) (s : State) : Host.Outcome State Fault Refusal := .next (s.cycleUse t.toNat)

/-- ALLOCLOSS (R286). -/
def execAllocloss (n : Fin 4) (s : State) : Host.Outcome State Fault Refusal := .next (s.onStn n (s.allocLoss n))

/-- ROOT_TIMEOUT (R278). -/
def execRootTimeout (s : State) : Host.Outcome State Fault Refusal := .next s.rootTimeout

/-- ALONE (R280). -/
def execAlone (s : State) : Host.Outcome State Fault Refusal := .next s.aloneEv

/-- NOSYNC (R288). -/
def execNosync (s : State) : Host.Outcome State Fault Refusal := .next s.noSync

/-- SERVICE_TICK (R300). -/
def execServiceTick (t : BitVec 64) (s : State) : Host.Outcome State Fault Refusal := .next (s.svcTick t.toNat)

/-- SPOOLDEV (R306). -/
def execSpooldev (k : Fin 16) (s : State) : Host.Outcome State Fault Refusal := .next (s.onSh (s.spoolDev k))

/-- HEAVELOSS (R307). -/
def execHeaveloss (k : Fin 16) (s : State) : Host.Outcome State Fault Refusal := .next (s.onSh (s.heaveLoss k))

/-- PMSLOSS (R308). -/
def execPmsloss (k : Fin 16) (s : State) : Host.Outcome State Fault Refusal := .next (s.onSh (s.pmsLoss k))

/-- SHED_KEEP_END (R309). -/
def execShedKeepEnd (k : Fin 16) (s : State) : Host.Outcome State Fault Refusal := .next (s.onSh (s.shedKeepEnd k))

/-- SERVICE_TOKEN_TIMEOUT (R303). -/
def execServiceTokenTimeout (s : State) : Host.Outcome State Fault Refusal := .next (s.onSh s.tokenTimeout)

end Sys2Proof.Machine
end

