-- ==== Sys2Proof/Machine/RowSafety.lean ====
section
/-!
DEFINITION. Errors, steaming, restarts, heartbeats, the recorder and the test port.
-/
namespace Sys2Proof.Machine

/-- ISOLATION_ENTRY (R378). -/
def execIsolationEntry (h : Fin 2) (s : State) : Host.Outcome State Fault Refusal := .next (s.isolationEntry h)

/-- ISOLATION_END (R378). -/
def execIsolationEnd (h : Fin 2) (s : State) : Host.Outcome State Fault Refusal := .next (s.isolationEnd h)

/-- CELL_ERROR (R367). -/
def execCellError (x : Cell) (s : State) : Host.Outcome State Fault Refusal := .next (s.cellError x)

/-- BLOCK_ERROR (R368). -/
def execBlockError (b : Block) (s : State) : Host.Outcome State Fault Refusal := .next (s.blockError b)

/-- STEAMING_END (R368). -/
def execSteamingEnd (x : Steamed) (ok : Bool) (s : State) : Host.Outcome State Fault Refusal := .next (s.steamingEnd x ok)

/-- RAM_SCRUB (R366). -/
def execRamScrub (k : BitVec 16) (s : State) : Host.Outcome State Fault Refusal := .next (s.ramScrub k.toNat)

/-- REGION_ERROR (R372). -/
def execRegionError (r : Fin 3) (ram : Bool) (s : State) : Host.Outcome State Fault Refusal := .next (s.regionError r ram)

/-- REGION_RESTART_COMPLETE (R372). -/
def execRegionRestartComplete (r : Fin 3) (s : State) : Host.Outcome State Fault Refusal := .next (s.restartDone r)

/-- ARBERR (R374). -/
def execArberr (s : State) : Host.Outcome State Fault Refusal := .next s.arbError

/-- HEARTBEAT_SEND (R379). -/
def execHeartbeatSend (h : Fin 2) (s : State) : Host.Outcome State Fault Refusal := .next (s.heartSend h)

/-- HEARTBEAT_RECEIVED (R379). -/
def execHeartbeatReceived (h : Fin 2) (s : State) : Host.Outcome State Fault Refusal := .next (s.heartReceived h)

/-- HEARTBEAT_MISS (R379). -/
def execHeartbeatMiss (h : Fin 2) (s : State) : Host.Outcome State Fault Refusal := .next (s.heartMiss h)

/-- RECORD_CAPTURE (R389). -/
def execRecordCapture (s : State) : Host.Outcome State Fault Refusal := .next s.recCapture

/-- RECORD_NVA_WRITE (R393). -/
def execRecordNvaWrite (s : State) : Host.Outcome State Fault Refusal := .next s.recWrite

/-- RECORDER_BUCKET_REFILL (R393). -/
def execRecorderBucketRefill (s : State) : Host.Outcome State Fault Refusal := .next s.recRefill

/-- TAP_UPDATE_IR (R428). -/
def execTapUpdateIr (ir : BitVec 8) (s : State) : Host.Outcome State Fault Refusal := .next (s.tapIr ir.toNat)

/-- TAP_RESET (R426). -/
def execTapReset (s : State) : Host.Outcome State Fault Refusal := .next s.tapReset

end Sys2Proof.Machine
end

