-- ==== Sys2Proof/Machine/RowStation.lean ====
section
/-!
DEFINITION. Events of one station: position, current loop, gate drive, starting and stopping.
-/
namespace Sys2Proof.Machine

/-- POSITION_COARSE_EDGE (R111). -/
def execPositionCoarseEdge (n : Fin 4) (t : BitVec 64) (la : Bool) (lb : Bool) (hold : BitVec 16) (s : State) : Host.Outcome State Fault Refusal :=
  .next (s.onStn n (s.coarseEdge n t.toNat la lb hold.toNat))

/-- POSITION_FINE_SAMPLE (R111). -/
def execPositionFineSample (n : Fin 4) (t : BitVec 64) (rs : BitVec 16) (rc : BitVec 16) (ph : BitVec 16) (neg : Bool)
    (s : State) : Host.Outcome State Fault Refusal :=
  .next (s.onStn n (s.fineSample n t.toNat rs.toInt rc.toInt ph.toNat neg))

/-- ACQUISITION_TIMEOUT (R115). -/
def execAcquisitionTimeout (n : Fin 4) (s : State) : Host.Outcome State Fault Refusal := .next (s.onStn n (s.acqTimeout n))

/-- SIZING_COMPLETE (R128). -/
def execSizingComplete (n : Fin 4) (t : BitVec 64) (still : Bool) (s : State) : Host.Outcome State Fault Refusal :=
  .next (s.onStn n (s.sizingEnd n t.toNat still))

/-- CURRENT_LOOP_UPDATE (R161). -/
def execCurrentLoopUpdate (n : Fin 4) (t : BitVec 64) (i : CurIn) (s : State) : Host.Outcome State Fault Refusal :=
  .next (s.onStn n (s.currentLoop n t.toNat i))

/-- PWM_SYNC_LOAD (R158). -/
def execPwmSyncLoad (n : Fin 4) (t : BitVec 64) (s : State) : Host.Outcome State Fault Refusal := .next (s.onStn n (s.syncLoad n t.toNat))

/-- PWM_SYNC_END (R158). -/
def execPwmSyncEnd (n : Fin 4) (s : State) : Host.Outcome State Fault Refusal := .next (s.onStn n (s.syncEnd n))

/-- SDSTUCK (R166). -/
def execSdstuck (n : Fin 4) (s : State) : Host.Outcome State Fault Refusal := .next (s.onStn n (s.sdStuck n))

/-- ALIGN_STEP (R171). -/
def execAlignStep (n : Fin 4) (t : BitVec 64) (s : State) : Host.Outcome State Fault Refusal := .next (s.onStn n (s.alignStep n t.toNat))

/-- BOOTSTRAP_UNDERVOLTAGE (R183). -/
def execBootstrapUndervoltage (n : Fin 4) (leg : Fin 3) (v : BitVec 8) (s : State) : Host.Outcome State Fault Refusal :=
  .next (s.onStn n (s.bsUv n leg v.toNat))

/-- BOOTSTRAP_REFRESH_PULSE (R183). -/
def execBootstrapRefreshPulse (n : Fin 4) (leg : Fin 3) (v : BitVec 8) (s : State) : Host.Outcome State Fault Refusal :=
  .next (s.onStn n (s.bsRefresh n leg v.toNat))

/-- ARM_COMPLETE (R188). -/
def execArmComplete (n : Fin 4) (legs : BitVec 3) (low : BitVec 3) (s : State) : Host.Outcome State Fault Refusal :=
  .next (s.onStn n (s.armEnd n legs.toNat low.toNat))

/-- DIAG_COMPLETE (R187). -/
def execDiagComplete (n : Fin 4) (gu : BitVec 16) (gv : BitVec 16) (gw : BitVec 16) (ku : BitVec 16) (kv : BitVec 16) (kw : BitVec 16)
    (op : BitVec 3) (bs : BitVec 3) (s : State) : Host.Outcome State Fault Refusal :=
  .next (s.onStn n (s.diagEnd n (gu.toNat, gv.toNat, gw.toNat, ku.toNat, kv.toNat, kw.toNat) op.toNat bs.toNat))

/-- VDS_TRIP (R189). -/
def execVdsTrip (n : Fin 4) (legs : BitVec 3) (high : Bool) (hard : Bool) (s : State) : Host.Outcome State Fault Refusal :=
  .next (s.onStn n (s.vdsTrip n legs.toNat high hard))

/-- GATE_FOLLOW_FAIL (R189). -/
def execGateFollowFail (n : Fin 4) (legs : BitVec 3) (s : State) : Host.Outcome State Fault Refusal :=
  .next (s.onStn n (s.gateFollow n legs.toNat))

/-- OC_SOFT_TRIP (R190). -/
def execOcSoftTrip (n : Fin 4) (legs : BitVec 3) (again : Bool) (s : State) : Host.Outcome State Fault Refusal :=
  .next (s.onStn n (s.ocSoft n legs.toNat again))

/-- OCHARD (R190). -/
def execOchard (n : Fin 4) (legs : BitVec 3) (s : State) : Host.Outcome State Fault Refusal := .next (s.onStn n (s.ocHard n legs.toNat))

/-- LFLT (R185). -/
def execLflt (n : Fin 4) (low : Bool) (s : State) : Host.Outcome State Fault Refusal := .next (s.onGate n (s.lflt n low))

/-- LRDY (R185). -/
def execLrdy (n : Fin 4) (high : Bool) (s : State) : Host.Outcome State Fault Refusal := .next (s.onGate n (s.lrdy n high))

/-- TURNOFF_MID_HOLD_END (R193). -/
def execTurnoffMidHoldEnd (n : Fin 4) (s : State) : Host.Outcome State Fault Refusal := .next (s.onGate n (s.midEnd n))

/-- TURNOFF_COMPLETE (R193). -/
def execTurnoffComplete (n : Fin 4) (s : State) : Host.Outcome State Fault Refusal := .next (s.onGate n (s.offDone n))

/-- ZERO_VECTOR_BRAKING_END (R207). -/
def execZeroVectorBrakingEnd (n : Fin 4) (s : State) : Host.Outcome State Fault Refusal := .next (s.onGate n (s.zvbEnd n))

/-- OBSERVER_OPEN_EVAL (R221). -/
def execObserverOpenEval (n : Fin 4) (t : BitVec 64) (u : BitVec 16) (v : BitVec 16) (w : BitVec 16) (s : State) : Host.Outcome State Fault Refusal :=
  .next (s.onStn n (s.openEval n t.toNat u.toNat v.toNat w.toNat))

/-- ROTATION_CHECK (R225). -/
def execRotationCheck (n : Fin 4) (s : State) : Host.Outcome State Fault Refusal := .next (s.onStn n (s.rotCheckEv n))

/-- REVERSE_WAIT_TIMEOUT (R225). -/
def execReverseWaitTimeout (n : Fin 4) (s : State) : Host.Outcome State Fault Refusal := .next (s.onStn n (s.revTimeout n))

/-- START_ALIGN_END (R227). -/
def execStartAlignEnd (n : Fin 4) (s : State) : Host.Outcome State Fault Refusal := .next (s.onStn n (s.startAlignEnd n))

/-- START_HANDOVER_TIMEOUT (R227). -/
def execStartHandoverTimeout (n : Fin 4) (s : State) : Host.Outcome State Fault Refusal := .next (s.onStn n (s.handTimeout n))

/-- CATCH_STOPPED (R235). -/
def execCatchStopped (n : Fin 4) (s : State) : Host.Outcome State Fault Refusal := .next (s.onStn n (s.catchStopped n))

/-- CATCH_TIMEOUT (R235). -/
def execCatchTimeout (n : Fin 4) (s : State) : Host.Outcome State Fault Refusal := .next (s.onStn n (s.catchTimeout n))

/-- BRAKE_RELEASE_DELAY_END (R291). -/
def execBrakeReleaseDelayEnd (n : Fin 4) (s : State) : Host.Outcome State Fault Refusal := .next (s.onGate n (s.brakeDelayEnd n))

/-- STOP_DWELL_END (R292). -/
def execStopDwellEnd (n : Fin 4) (s : State) : Host.Outcome State Fault Refusal := .next (s.onGate n (s.dwellEnd n))

/-- HOLD_BRAKE_UNLOAD (R293). -/
def execHoldBrakeUnload (n : Fin 4) (s : State) : Host.Outcome State Fault Refusal := .next (s.onGate n (s.holdUnload n))

/-- HOLD_BRAKE_END (R293). -/
def execHoldBrakeEnd (n : Fin 4) (s : State) : Host.Outcome State Fault Refusal := .next (s.onGate n (s.holdEnd n))

/-- STOPTO (R295). -/
def execStopto (n : Fin 4) (s : State) : Host.Outcome State Fault Refusal := .next (s.onGate n (s.stopTo n))

/-- POSITION_SPEED_UPDATE (R119). -/
def execPositionSpeedUpdate (n : Fin 4) (t : BitVec 64) (s : State) : Host.Outcome State Fault Refusal :=
  .next (s.onStn n (s.speedTick n t.toNat))

/-- LINK_PULSE_INPUT_EDGE (R177). -/
def execLinkPulseInputEdge (n : Fin 4) (leg : Fin 3) (t : BitVec 64) (level : Bool) (en : Bool) (s : State) : Host.Outcome State Fault Refusal :=
  .next (s.onStn n (s.linkEdge n leg t.toNat level en))

/-- PWM_CARRIER_EDGE (R176). -/
def execPwmCarrierEdge (n : Fin 4) (leg : Fin 3) (t : BitVec 64) (s : State) : Host.Outcome State Fault Refusal :=
  .next (s.onStn n (s.carrierEdge n leg t.toNat))

end Sys2Proof.Machine
end

