-- ==== Sys2Proof/Machine/RowWrites.lean ====
section
/-!
DEFINITION. Writes of registers that start something, as rows of their own: each is a direct write of its register, with every check of R83.
-/
namespace Sys2Proof.Machine

/-- REGISTER_WRITE (R5). -/
def execRegisterWrite (a : Word) (v : Word) (s : State) : Host.Outcome State Fault Refusal := .next (s.regWrite a.toNat [v.toNat])

/-- PF_POS_WRITE (R117). -/
def execPfPosWrite (n : Fin 4) (v : BitVec 64) (s : State) : Host.Outcome State Fault Refusal :=
  .next (s.regWrite (stnB n + 0x5028) (u64Words v.toNat))

/-- PF_CTRL_SOURCE_CHANGE (R107). -/
def execPfCtrlSourceChange (n : Fin 4) (v : Word) (s : State) : Host.Outcome State Fault Refusal :=
  .next (s.regWrite (stnB n + 0x5000) [v.toNat])

/-- AXS_POS_WRITE (R319). -/
def execAxsPosWrite (n : Fin 4) (v : BitVec 64) (s : State) : Host.Outcome State Fault Refusal :=
  .next (s.regWrite (axsB n + 0x28) (u64Words v.toNat))

/-- COM_OFS_WRITE (R147). -/
def execComOfsWrite (n : Fin 4) (v : Word) (s : State) : Host.Outcome State Fault Refusal :=
  .next (s.regWrite (stnB n + 0x1008) [v.toNat])

/-- PWM_HPER_WRITE (R157). -/
def execPwmHperWrite (n : Fin 4) (v : Word) (p : Word) (s : State) : Host.Outcome State Fault Refusal :=
  .next (s.regWrite (stnB n + 0x2004) [v.toNat, p.toNat])

/-- VGD_SET_CHANGE (R44). -/
def execVgdSetChange (v : BitVec 4) (s : State) : Host.Outcome State Fault Refusal := .next (s.fieldWrite 0x60000 15 v.toNat)

/-- HOST_WATCHDOG_ARM (R81). -/
def execHostWatchdogArm (v : Word) (s : State) : Host.Outcome State Fault Refusal := .next (s.regWrite 0x10004 [v.toNat])

/-- LEN_CFG_WRITE (R261). -/
def execLenCfgWrite (h : Fin 2) (m : Fin 48) (v : Word) (s : State) : Host.Outcome State Fault Refusal :=
  .next (s.regWrite (slotB h m + 0x11000) [v.toNat])

/-- LEN_ACC_WRITE (R255). -/
def execLenAccWrite (h : Fin 2) (m : Fin 48) (v : BitVec 64) (s : State) : Host.Outcome State Fault Refusal :=
  .next (s.regWrite (slotB h m + 0x11030) (u64Words v.toNat))

/-- CAN_ENABLE (R339). -/
def execCanEnable (c : Fin 4) (s : State) : Host.Outcome State Fault Refusal := .next (s.fieldWrite (canB c) 1 1)

/-- CAN_DISABLE (R339). -/
def execCanDisable (c : Fin 4) (s : State) : Host.Outcome State Fault Refusal := .next (s.fieldWrite (canB c) 1 0)

/-- HATBAND_ENABLE (R266). -/
def execHatbandEnable (v : Bool) (s : State) : Host.Outcome State Fault Refusal := .next (s.fieldWrite 0x50000 1 v.toNat)

/-- REC_SOFT_WRITE (R387). -/
def execRecSoftWrite (v : Word) (s : State) : Host.Outcome State Fault Refusal := .next (s.regWrite 0x3000C [v.toNat])

end Sys2Proof.Machine
end

