-- ==== Sys2Proof/Machine/Dispatch.lean ====
section
/-! DEFINITION. One arm per row of the table, each a call of its meaning. -/

namespace Sys2Proof.Machine

def exec (i : Instr) (s : State) : Host.Outcome State Fault Refusal :=
  match i with
  | .echo c => Sys2Proof.Machine.execEcho c s
  | .identify c => Sys2Proof.Machine.execIdentify c s
  | .readReg c => Sys2Proof.Machine.execReadReg c s
  | .writeReg c => Sys2Proof.Machine.execWriteReg c s
  | .modifyReg c => Sys2Proof.Machine.execModifyReg c s
  | .statusSnapshot c => Sys2Proof.Machine.execStatusSnapshot c s
  | .sleep c => Sys2Proof.Machine.execSleep c s
  | .resetRegion c => Sys2Proof.Machine.execResetRegion c s
  | .cfgRead c => Sys2Proof.Machine.execCfgRead c s
  | .cfgStage c => Sys2Proof.Machine.execCfgStage c s
  | .cfgCommit c => Sys2Proof.Machine.execCfgCommit c s
  | .cfgSeal c => Sys2Proof.Machine.execCfgSeal c s
  | .tableLoad c => Sys2Proof.Machine.execTableLoad c s
  | .stnArm c => Sys2Proof.Machine.execStnArm c s
  | .stnRun c => Sys2Proof.Machine.execStnRun c s
  | .stnSetpoint c => Sys2Proof.Machine.execStnSetpoint c s
  | .stnStop c => Sys2Proof.Machine.execStnStop c s
  | .stnDiag c => Sys2Proof.Machine.execStnDiag c s
  | .stnSizing c => Sys2Proof.Machine.execStnSizing c s
  | .bankSwap c => Sys2Proof.Machine.execBankSwap c s
  | .axisMove c => Sys2Proof.Machine.execAxisMove c s
  | .axisRetarget c => Sys2Proof.Machine.execAxisRetarget c s
  | .axisStop c => Sys2Proof.Machine.execAxisStop c s
  | .axisGroup c => Sys2Proof.Machine.execAxisGroup c s
  | .axisFollow c => Sys2Proof.Machine.execAxisFollow c s
  | .svcStart c => Sys2Proof.Machine.execSvcStart c s
  | .svcParam c => Sys2Proof.Machine.execSvcParam c s
  | .svcStop c => Sys2Proof.Machine.execSvcStop c s
  | .shareCfg c => Sys2Proof.Machine.execShareCfg c s
  | .evtArm c => Sys2Proof.Machine.execEvtArm c s
  | .evtCancel c => Sys2Proof.Machine.execEvtCancel c s
  | .recRead c => Sys2Proof.Machine.execRecRead c s
  | .recTriggerCfg c => Sys2Proof.Machine.execRecTriggerCfg c s
  | .canCfg c => Sys2Proof.Machine.execCanCfg c s
  | .canRecover c => Sys2Proof.Machine.execCanRecover c s
  | .timeMaster c => Sys2Proof.Machine.execTimeMaster c s
  | .canSend c => Sys2Proof.Machine.execCanSend c s
  | .canFetch c => Sys2Proof.Machine.execCanFetch c s
  | .canAck c => Sys2Proof.Machine.execCanAck c s
  | .mbxPost c => Sys2Proof.Machine.execMbxPost c s
  | .mbxFetch c => Sys2Proof.Machine.execMbxFetch c s
  | .dblRing c => Sys2Proof.Machine.execDblRing c s
  | .faultRead c => Sys2Proof.Machine.execFaultRead c s
  | .faultClear c => Sys2Proof.Machine.execFaultClear c s
  | .mastership c => Sys2Proof.Machine.execMastership c s
  | .testmuxSel c => Sys2Proof.Machine.execTestmuxSel c s
  | .selftest c => Sys2Proof.Machine.execSelftest c s
  | .registerWrite a v => Sys2Proof.Machine.execRegisterWrite a v s
  | .pfPosWrite n v => Sys2Proof.Machine.execPfPosWrite n v s
  | .pfCtrlSourceChange n v => Sys2Proof.Machine.execPfCtrlSourceChange n v s
  | .axsPosWrite n v => Sys2Proof.Machine.execAxsPosWrite n v s
  | .comOfsWrite n v => Sys2Proof.Machine.execComOfsWrite n v s
  | .pwmHperWrite n v p => Sys2Proof.Machine.execPwmHperWrite n v p s
  | .vgdSetChange v => Sys2Proof.Machine.execVgdSetChange v s
  | .vgdSettled => Sys2Proof.Machine.execVgdSettled s
  | .hostWatchdogArm v => Sys2Proof.Machine.execHostWatchdogArm v s
  | .lenCfgWrite h m v => Sys2Proof.Machine.execLenCfgWrite h m v s
  | .lenAccWrite h m v => Sys2Proof.Machine.execLenAccWrite h m v s
  | .canEnable c => Sys2Proof.Machine.execCanEnable c s
  | .canDisable c => Sys2Proof.Machine.execCanDisable c s
  | .hatbandEnable v => Sys2Proof.Machine.execHatbandEnable v s
  | .recSoftWrite v => Sys2Proof.Machine.execRecSoftWrite v s
  | .spiWindow mosi => Sys2Proof.Machine.execSpiWindow mosi s
  | .uartPacketReceived bs => Sys2Proof.Machine.execUartPacketReceived bs s
  | .uartGapTimeout bs => Sys2Proof.Machine.execUartGapTimeout bs s
  | .uartPacketSend => Sys2Proof.Machine.execUartPacketSend s
  | .tunnelSegmentReceived c fd d => Sys2Proof.Machine.execTunnelSegmentReceived c fd d s
  | .tunnelSegmentTimeout c => Sys2Proof.Machine.execTunnelSegmentTimeout c s
  | .forwardedCommand p ws => Sys2Proof.Machine.execForwardedCommand p ws s
  | .forwardTimeout tag => Sys2Proof.Machine.execForwardTimeout tag s
  | .completionTimeout tag => Sys2Proof.Machine.execCompletionTimeout tag s
  | .hostWatchdogExpiry => Sys2Proof.Machine.execHostWatchdogExpiry s
  | .powerOn b => Sys2Proof.Machine.execPowerOn b s
  | .startUpComplete => Sys2Proof.Machine.execStartUpComplete s
  | .startNoReference => Sys2Proof.Machine.execStartNoReference s
  | .resetN => Sys2Proof.Machine.execResetN s
  | .resetNRelease b => Sys2Proof.Machine.execResetNRelease b s
  | .brownout => Sys2Proof.Machine.execBrownout s
  | .powerFailWarning => Sys2Proof.Machine.execPowerFailWarning s
  | .powerFailRecovery => Sys2Proof.Machine.execPowerFailRecovery s
  | .flushComplete => Sys2Proof.Machine.execFlushComplete s
  | .vinOvervoltage above => Sys2Proof.Machine.execVinOvervoltage above s
  | .buckBoostCurrentLimit out => Sys2Proof.Machine.execBuckBoostCurrentLimit out s
  | .vgdUv => Sys2Proof.Machine.execVgdUv s
  | .vgdCollapse => Sys2Proof.Machine.execVgdCollapse s
  | .shutdownLatchClear => Sys2Proof.Machine.execShutdownLatchClear s
  | .referenceLoss r => Sys2Proof.Machine.execReferenceLoss r s
  | .referenceReturn r => Sys2Proof.Machine.execReferenceReturn r s
  | .sleepEntryComplete => Sys2Proof.Machine.execSleepEntryComplete s
  | .wake w b => Sys2Proof.Machine.execWake w b s
  | .presenceKeyValid full => Sys2Proof.Machine.execPresenceKeyValid full s
  | .presenceKeyRelease full => Sys2Proof.Machine.execPresenceKeyRelease full s
  | .commitFinish ok => Sys2Proof.Machine.execCommitFinish ok s
  | .positionCoarseEdge n t la lb hold => Sys2Proof.Machine.execPositionCoarseEdge n t la lb hold s
  | .positionFineSample n t rs rc ph neg => Sys2Proof.Machine.execPositionFineSample n t rs rc ph neg s
  | .acquisitionTimeout n => Sys2Proof.Machine.execAcquisitionTimeout n s
  | .psFrameTrigger h t => Sys2Proof.Machine.execPsFrameTrigger h t s
  | .psFrameEnd h t slo start dly bits ne nw crc => Sys2Proof.Machine.execPsFrameEnd h t slo start dly bits ne nw crc s
  | .repeaterEdgeEmit h t => Sys2Proof.Machine.execRepeaterEdgeEmit h t s
  | .sizingComplete n t still => Sys2Proof.Machine.execSizingComplete n t still s
  | .schedulerTick h t => Sys2Proof.Machine.execSchedulerTick h t s
  | .currentLoopUpdate n t c => Sys2Proof.Machine.execCurrentLoopUpdate n t c s
  | .pwmSyncLoad n t => Sys2Proof.Machine.execPwmSyncLoad n t s
  | .pwmSyncEnd n => Sys2Proof.Machine.execPwmSyncEnd n s
  | .sdstuck n => Sys2Proof.Machine.execSdstuck n s
  | .alignStep n t => Sys2Proof.Machine.execAlignStep n t s
  | .bootstrapUndervoltage n leg v => Sys2Proof.Machine.execBootstrapUndervoltage n leg v s
  | .bootstrapRefreshPulse n leg v => Sys2Proof.Machine.execBootstrapRefreshPulse n leg v s
  | .armComplete n legs low => Sys2Proof.Machine.execArmComplete n legs low s
  | .diagComplete n gu gv gw ku kv kw op bs => Sys2Proof.Machine.execDiagComplete n gu gv gw ku kv kw op bs s
  | .vdsTrip n legs high hard => Sys2Proof.Machine.execVdsTrip n legs high hard s
  | .gateFollowFail n legs => Sys2Proof.Machine.execGateFollowFail n legs s
  | .ocSoftTrip n legs again => Sys2Proof.Machine.execOcSoftTrip n legs again s
  | .ochard n legs => Sys2Proof.Machine.execOchard n legs s
  | .lflt n low => Sys2Proof.Machine.execLflt n low s
  | .lrdy n high => Sys2Proof.Machine.execLrdy n high s
  | .turnoffMidHoldEnd n => Sys2Proof.Machine.execTurnoffMidHoldEnd n s
  | .turnoffComplete n => Sys2Proof.Machine.execTurnoffComplete n s
  | .stoActive h ch1 ch2 => Sys2Proof.Machine.execStoActive h ch1 ch2 s
  | .stoRelease h => Sys2Proof.Machine.execStoRelease h s
  | .stoDiscrepancy h => Sys2Proof.Machine.execStoDiscrepancy h s
  | .busSample h t v chi => Sys2Proof.Machine.execBusSample h t v chi s
  | .busuv h => Sys2Proof.Machine.execBusuv h s
  | .chnofb h => Sys2Proof.Machine.execChnofb h s
  | .choc h desat => Sys2Proof.Machine.execChoc h desat s
  | .chstuck h => Sys2Proof.Machine.execChstuck h s
  | .zeroVectorBrakingEnd n => Sys2Proof.Machine.execZeroVectorBrakingEnd n s
  | .prechargeDone h => Sys2Proof.Machine.execPrechargeDone h s
  | .prechg h => Sys2Proof.Machine.execPrechg h s
  | .temperatureConversion r rd => Sys2Proof.Machine.execTemperatureConversion r rd s
  | .extTemperatureConversion x code => Sys2Proof.Machine.execExtTemperatureConversion x code s
  | .observerOpenEval n t u v w => Sys2Proof.Machine.execObserverOpenEval n t u v w s
  | .rotationCheck n => Sys2Proof.Machine.execRotationCheck n s
  | .reverseWaitTimeout n => Sys2Proof.Machine.execReverseWaitTimeout n s
  | .startAlignEnd n => Sys2Proof.Machine.execStartAlignEnd n s
  | .startHandoverTimeout n => Sys2Proof.Machine.execStartHandoverTimeout n s
  | .catchStopped n => Sys2Proof.Machine.execCatchStopped n s
  | .catchTimeout n => Sys2Proof.Machine.execCatchTimeout n s
  | .loopSlotUpdate h m t => Sys2Proof.Machine.execLoopSlotUpdate h m t s
  | .bankSwapBoundary h g t => Sys2Proof.Machine.execBankSwapBoundary h g t s
  | .setpointConversion h t code => Sys2Proof.Machine.execSetpointConversion h t code s
  | .setpointPulseEdge h t rising => Sys2Proof.Machine.execSetpointPulseEdge h t rising s
  | .splos h pulse => Sys2Proof.Machine.execSplos h pulse s
  | .sloterr h m => Sys2Proof.Machine.execSloterr h m s
  | .lenerr h => Sys2Proof.Machine.execLenerr h s
  | .linkUp l x => Sys2Proof.Machine.execLinkUp l x s
  | .linkDelayMeasure l d => Sys2Proof.Machine.execLinkDelayMeasure l d s
  | .lnkloss l => Sys2Proof.Machine.execLnkloss l s
  | .lnklate l => Sys2Proof.Machine.execLnklate l s
  | .lnkid l x => Sys2Proof.Machine.execLnkid l x s
  | .lnkflap l => Sys2Proof.Machine.execLnkflap l s
  | .linkRetrain l => Sys2Proof.Machine.execLinkRetrain l s
  | .shareCycleStart t => Sys2Proof.Machine.execShareCycleStart t s
  | .hatbandFrameReceived l ws e err rx t path res => Sys2Proof.Machine.execHatbandFrameReceived l ws e err rx t path res s
  | .shareCycleUse t => Sys2Proof.Machine.execShareCycleUse t s
  | .allocloss n => Sys2Proof.Machine.execAllocloss n s
  | .rootTimeout => Sys2Proof.Machine.execRootTimeout s
  | .alone => Sys2Proof.Machine.execAlone s
  | .nosync => Sys2Proof.Machine.execNosync s
  | .serviceTick t => Sys2Proof.Machine.execServiceTick t s
  | .spooldev k => Sys2Proof.Machine.execSpooldev k s
  | .heaveloss k => Sys2Proof.Machine.execHeaveloss k s
  | .pmsloss k => Sys2Proof.Machine.execPmsloss k s
  | .shedKeepEnd k => Sys2Proof.Machine.execShedKeepEnd k s
  | .serviceTokenTimeout => Sys2Proof.Machine.execServiceTokenTimeout s
  | .brakeReleaseDelayEnd n => Sys2Proof.Machine.execBrakeReleaseDelayEnd n s
  | .stopDwellEnd n => Sys2Proof.Machine.execStopDwellEnd n s
  | .holdBrakeUnload n => Sys2Proof.Machine.execHoldBrakeUnload n s
  | .holdBrakeEnd n => Sys2Proof.Machine.execHoldBrakeEnd n s
  | .stopto n => Sys2Proof.Machine.execStopto n s
  | .isolationEntry h => Sys2Proof.Machine.execIsolationEntry h s
  | .isolationEnd h => Sys2Proof.Machine.execIsolationEnd h s
  | .plannerTick h t => Sys2Proof.Machine.execPlannerTick h t s
  | .axisStep n t => Sys2Proof.Machine.execAxisStep n t s
  | .axisGroupStart g t => Sys2Proof.Machine.execAxisGroupStart g t s
  | .axisChopperCycle n coilB => Sys2Proof.Machine.execAxisChopperCycle n coilB s
  | .axisChopperNoreach n coilB => Sys2Proof.Machine.execAxisChopperNoreach n coilB s
  | .axoc n => Sys2Proof.Machine.execAxoc n s
  | .axisStandby n => Sys2Proof.Machine.execAxisStandby n s
  | .axisEnergised n t => Sys2Proof.Machine.execAxisEnergised n t s
  | .axisStepInputEdge n t dir => Sys2Proof.Machine.execAxisStepInputEdge n t dir s
  | .canFrameReceived c t rtr f => Sys2Proof.Machine.execCanFrameReceived c t rtr f s
  | .canRxNoticeDelay c => Sys2Proof.Machine.execCanRxNoticeDelay c s
  | .canFrameSent c ack => Sys2Proof.Machine.execCanFrameSent c ack s
  | .canTxTimeout c ix => Sys2Proof.Machine.execCanTxTimeout c ix s
  | .canRecoveryComplete c => Sys2Proof.Machine.execCanRecoveryComplete c s
  | .txdDominantTimeout c => Sys2Proof.Machine.execTxdDominantTimeout c s
  | .timeReferenceSend c t => Sys2Proof.Machine.execTimeReferenceSend c t s
  | .timeReferenceReceived c t f => Sys2Proof.Machine.execTimeReferenceReceived c t f s
  | .timeBackupActivate c => Sys2Proof.Machine.execTimeBackupActivate c s
  | .ntloss c => Sys2Proof.Machine.execNtloss c s
  | .cellError x => Sys2Proof.Machine.execCellError x s
  | .blockError b => Sys2Proof.Machine.execBlockError b s
  | .steamingEnd x ok => Sys2Proof.Machine.execSteamingEnd x ok s
  | .ramScrub k => Sys2Proof.Machine.execRamScrub k s
  | .regionError r ram => Sys2Proof.Machine.execRegionError r ram s
  | .regionRestartComplete r => Sys2Proof.Machine.execRegionRestartComplete r s
  | .arberr => Sys2Proof.Machine.execArberr s
  | .heartbeatSend h => Sys2Proof.Machine.execHeartbeatSend h s
  | .heartbeatReceived h => Sys2Proof.Machine.execHeartbeatReceived h s
  | .heartbeatMiss h => Sys2Proof.Machine.execHeartbeatMiss h s
  | .recordCapture => Sys2Proof.Machine.execRecordCapture s
  | .recordNvaWrite => Sys2Proof.Machine.execRecordNvaWrite s
  | .recorderBucketRefill => Sys2Proof.Machine.execRecorderBucketRefill s
  | .tapUpdateIr ir => Sys2Proof.Machine.execTapUpdateIr ir s
  | .tapReset => Sys2Proof.Machine.execTapReset s
  | .positionSpeedUpdate n t => Sys2Proof.Machine.execPositionSpeedUpdate n t s
  | .uartIdleResync => Sys2Proof.Machine.execUartIdleResync s
  | .forwardedReplyReceived p ws => Sys2Proof.Machine.execForwardedReplyReceived p ws s
  | .canBusIntegrated c => Sys2Proof.Machine.execCanBusIntegrated c s
  | .canErrorDetected c lec tx heavy => Sys2Proof.Machine.execCanErrorDetected c lec tx heavy s
  | .linkPulseInputEdge n leg t level en => Sys2Proof.Machine.execLinkPulseInputEdge n leg t level en s
  | .pwmCarrierEdge n leg t => Sys2Proof.Machine.execPwmCarrierEdge n leg t s

end Sys2Proof.Machine
end

