-- ==== Sys2Proof/Machine/Pins.lean ====
section
/-!
DEFINITION. The levels of the output pins (Tables PN-4, PN-6, PN-8, PN-10 and PW-8): what the state of the block that owns a pin makes of it,
and its reset state wherever that block does not drive it (R30). A pin is a view of State and holds nothing of its own.
-/
namespace Sys2Proof.Machine

/-- What an output pin shows, with the codes of the tables of chapter 2. -/
inductive PinLevel where
  /-- Driven low. -/
  | low
  /-- Driven high. -/
  | high
  /-- High impedance. -/
  | z
  /-- High impedance with the internal pull-down. -/
  | pulledDown
  /-- An integrated CAN transceiver in standby, or at its low-power bias in sleep. -/
  | standby
  /-- An integrated CAN transceiver that is on: recessive between its frames. -/
  | recessive
  /-- The pin carries the block's own waveform: a clock, PWM, an excitation, a frame, an analogue value. -/
  | waveform
  deriving DecidableEq, Repr

/-- The output pins. A leg is 0, 1 or 2 for U, V and W; a coil is A or B, its line 1 or 2, `can` for the bus pins of C0 or C1 and
`canTxd` for the TXD of C2 or C3. -/
inductive OutPin where
  | gateHigh (n leg : Nat) | gateLow (n leg : Nat) | sdck (n : Nat) | link (n leg : Nat) | linkEn (n leg : Nat) | mbrk (n : Nat)
  | step (n : Nat) | dir (n : Nat) | coil (n : Nat) (coilB line2 : Bool) | axEn (n : Nat)
  | exc (n : Nat) | can (h : Nat) | canTxd (h : Nat) | burden (h : Nat) | chg (h : Nat) | pre (h : Nat) | psMa (h : Nat)
  | rpA (h : Nat) | rpB (h : Nat) | rpZ (h : Nat)
  | hat (l : Link) | spiMiso | hsIrq | uaTxd | uaDe | faultN | ready | tma (i : Fin 4) | tmd (i : Fin 8) | tdo
  deriving DecidableEq, Repr

namespace State

/-- A driven level. -/
def drive (v : Bool) : PinLevel := if v then .high else .low

/-- A block that drives its pins: its half runs and it is in service (R30). -/
def stnDrives (s : State) (n : Nat) : Bool := s.halfRun (n / 2) && !s.oos (.stn (Fin.ofNat 4 n))
def axsDrives (s : State) (n : Nat) : Bool := s.halfRun (n / 2) && !s.oos (.axs (Fin.ofNat 4 n))

/-- A gate of a station in direct mode (R176, R184). -/
def gatePin (s : State) (n leg : Nat) (on : Int) : PinLevel :=
  drive (s.stnDrives n && s.direct n && s.get (stnB n) (swF leg) == on)

/-- A link output: alive in link mode only, and low during a turn-off and outside the modes of R185. -/
def linkPin (s : State) (n : Nat) (on : Bool) : PinLevel :=
  if s.stnDrives n && !s.direct n then drive (on && !s.on (stnB n) F.GC_STAT_TURNOFF && (s.runLike n || s.mode n == mArmed)) else .pulledDown

/-- STEP and DIR of an axis: outputs in pulse class, inputs otherwise (Table AX-1). -/
def axisPin (s : State) (n : Nat) (on : Bool) : PinLevel :=
  if s.axsDrives n && s.get (axsB n) F.AXS_CTRL_CLASS == 1 then drive on else .pulledDown

/-- A line of a coil: high where the chopper drives it (R316), low in standby, off and slow decay (R318, Table AX-1). -/
def coilPin (s : State) (n : Nat) (coilB line2 : Bool) : PinLevel :=
  drive (s.axsDrives n && s.axPhase n coilB == (if line2 then -1 else 1))

/-- A line of a half's repeater. No rule names the block that owns its pins, nor that of a serial port's MA, so they follow their half alone (R30;
DESIGN CHOICE, log entry 114). It is at high impedance at a position fault with `FLT_MODE` 1 (R127), frozen with 0, low while it is off. -/
def rpPin (s : State) (h : Nat) (v : Bool) : PinLevel :=
  let b := serB h
  if !s.halfRun h || !s.on b F.RP_CTRL_EN then .low
  else if s.on b F.RP_STAT_SRC_FLT && s.on b F.RP_CTRL_FLT_MODE then .z
  else drive v

/-- The bus pins of an integrated transceiver, and the TXD of the others (R336, Table PN-8). -/
def canPin (s : State) (h : Nat) : PinLevel :=
  if s.halfRun h && !s.oos (.can (Fin.ofNat 4 h)) && s.on (canB h) H.cnXcv then .recessive else .standby

/-- A transmitter of the hatband drives while its link is in use and the links have a bit clock (R264, R268). -/
def hatPin (s : State) (l : Link) : PinLevel :=
  if s.hatOn && s.ringClock && s.lnkUsed l && !s.oos (match l with | .west => .lnkW | .east => .lnkE) then .waveform else .z

/-- The selects of the test multiplexer (Table PT-6). -/
def tmaSel (i : Fin 4) : Fld := [F.TST_SEL_A_TMA0, F.TST_SEL_A_TMA1, F.TST_SEL_A_TMA2, F.TST_SEL_A_TMA3].getD i.val F.TST_SEL_A_TMA0
def tmdSel (i : Fin 8) : Fld :=
  [F.TST_SEL_D0_TMD0, F.TST_SEL_D0_TMD1, F.TST_SEL_D0_TMD2, F.TST_SEL_D0_TMD3, F.TST_SEL_D1_TMD4, F.TST_SEL_D1_TMD5, F.TST_SEL_D1_TMD6,
   F.TST_SEL_D1_TMD7].getD i.val F.TST_SEL_D0_TMD0

/-- The region of the signal that a TMA code selects (Table PT-5): a station's half, or SH. -/
def tmaRegion (v : Nat) : Nat := if 0x10 ≤ v then v % 16 / 4 / 2 + 1 else 0

/-- A TMA output: high impedance when off and while the signal's region is in reset (R430). -/
def tmaPin (s : State) (v : Nat) : PinLevel := if v ≠ 0 ∧ s.regionRun (tmaRegion v) = true then .waveform else .z

/-- The region of the signal that a TMD code selects (Table PT-5). -/
def tmdRegion (v : Nat) : Nat :=
  if v = 2 ∨ v = 3 then v - 1
  else if 0x08 ≤ v ∧ v < 0x1C then v % 8 / 2 + 1
  else if 0x28 ≤ v then v - 0x28 + 1
  else 0

/-- A TMD output: low when off and while the signal's region is in reset; `GC_STAT.TURNOFF` shows as its level, the others as pulses (R430). -/
def tmdPin (s : State) (v : Nat) : PinLevel :=
  if v = 0 || !s.regionRun (tmdRegion v) then .low
  else if 0x18 ≤ v && v < 0x1C then drive (s.on (stnB (v - 0x18)) F.GC_STAT_TURNOFF)
  else .waveform

/-- The output pins of a chip with supply. -/
def pinOn (s : State) : OutPin → PinLevel
  | .gateHigh n leg => s.gatePin n leg 1
  | .gateLow n leg => s.gatePin n leg 2
  | .sdck n => if s.stnDrives n && s.on (stnB n) F.CS_CTRL_MODE then .waveform else .low
  | .link n leg => s.linkPin n (s.on (stnB n) (lvlF leg))
  | .linkEn n leg => s.linkPin n (s.on (stnB n) (swF leg))
  | .mbrk n => drive (s.stnDrives n && s.on (stnB n) F.STN_STAT_MBRK)
  | .step n => s.axisPin n (s.on (axsB n) H.axLast && decide (s.time < s.nat (axsB n) H.axLast + s.nat (axsB n) F.AXS_PULSE_PW))
  | .dir n => s.axisPin n (s.on (axsB n) H.axDirL != decide (s.time < s.nat (axsB n) H.axDirT))
  | .coil n k l => s.coilPin n k l
  | .axEn n => drive (s.axsDrives n && s.on (axsB n) H.axEn)
  | .exc n =>
    if s.stnDrives n && !s.on (stnB n) F.PF_CTRL_SRC && s.get (stnB n) F.PF_CTRL_MODE == 2 && s.on (stnB n) F.PF_EXC_EXC_AMP then .waveform
    else .z
  | .can h => s.canPin h
  | .canTxd _ => .high
  | .burden h => drive (s.halfRun h && !s.oos (.spt (Fin.ofNat 2 h)) && s.get (halfB h) F.SPT_CTRL_AMODE == 3)
  | .chg h => drive (s.halfRun h && !s.oos (.bgd (Fin.ofNat 2 h)) && s.on (halfB h) F.BGD_STAT_CHOP_ON)
  | .pre h => drive (s.halfRun h && !s.oos (.bgd (Fin.ofNat 2 h)) && s.on (halfB h) F.BGD_STAT_PRE_DONE)
  | .psMa h => if s.halfRun h && s.on (serB h) H.psRun then .waveform else .high
  | .rpA h => s.rpPin h (s.rpLines h).1
  | .rpB h => s.rpPin h (s.rpLines h).2
  | .rpZ h => s.rpPin h (s.rpIndex h)
  | .hat l => s.hatPin l
  | .spiMiso => .z
  | .hsIrq => if s.hsIrq && !s.oos .spi then .low else .z
  | .uaTxd => .high
  | .uaDe => .low
  | .faultN => if s.faultSum || !s.shRun then .low else .z
  | .ready => drive s.chip.ready
  | .tma i => s.tmaPin (s.nat 0 (tmaSel i))
  | .tmd i => s.tmdPin (s.nat 0 (tmdSel i))
  | .tdo => .z

/-- The output pins without supply and in sleep (Table PW-8): gates and brakes low, the CAN transceivers at low-power bias, every other pin at
high impedance. -/
def pinOff : OutPin → PinLevel
  | .gateHigh _ _ | .gateLow _ _ | .mbrk _ => .low
  | .can _ => .standby
  | _ => .z

end State

end Sys2Proof.Machine
end

