-- ==== Sys2Proof/Machine/TestPort.lean ====
section
/-!
DEFINITION. The test access port as a scan sees it (R426 to R429): the registers that its instructions select, IDCODE, the boundary register
with its cells in order, and what a pin shows while the boundary cells hold it. With that, the level of every output pin.
-/
namespace Sys2Proof.Machine

/-! ### Registers of the port (R426, R427) -/

/-- The data register that a scan goes through. -/
inductive TapReg where
  | idcode | boundary | bypass
  deriving DecidableEq, Repr

/-- The register of an instruction: CLAMP and HIGHZ pass through BYPASS, as IEEE 1149.1 has it (R426). -/
def TapInstr.reg : TapInstr → TapReg
  | .idcode => .idcode
  | .samplePreload | .extest => .boundary
  | .clamp | .highz | .bypass => .bypass

/-- What the instruction register captures (R427). -/
def irCapture : BitVec 8 := 0b00000001#8

/-! ### Boundary cells (R429) -/

/-- The input pins with cells. -/
inductive InPin where
  | hatRx (l : Link) | canRxd (h : Nat) | spiSck | spiCsN | spiMosi | uaRxd | psSlo (h : Nat) | sd (n leg : Nat) | lfltN (n : Nat) | lrdy (n : Nat)
  | spPin (h : Nat) | sto (h ch : Nat) | resetN | wakeN | presN | id (i : Nat)
  deriving DecidableEq, Repr

/-- The cells of a pin. An output has data and enable, a bidirectional pin input, data and enable; an observe-only pin and a pair have one. -/
inductive CellKind where
  | input | observe | output | bidir | pair
  deriving DecidableEq, Repr

/-- How many cells a kind has. -/
def CellKind.count : CellKind → Nat
  | .input | .observe | .pair => 1
  | .output => 2
  | .bidir => 3

/-- Where the data cell of a driven pin stands among its cells; its enable cell follows. -/
def CellKind.dataAt : CellKind → Nat
  | .bidir => 1
  | _ => 0

/-- A pin of the boundary register. -/
structure ScanPin where
  pin  : OutPin ⊕ InPin
  kind : CellKind
  deriving DecidableEq, Repr

/-- An entry of the boundary register. -/
def scanOut (p : OutPin) (k : CellKind) : ScanPin := ⟨.inl p, k⟩
def scanIn (p : InPin) : ScanPin := ⟨.inr p, .input⟩

/-- The cells of a station port in the order of Table PN-4; analogue pins have none. -/
def stnScan (n : Nat) : List ScanPin :=
  [0, 1, 2].map (fun x => scanOut (.gateHigh n x) .observe) ++ [0, 1, 2].map (fun x => scanOut (.gateLow n x) .observe) ++
  [0, 1, 2].map (fun x => scanIn (.sd n x)) ++ [scanOut (.sdck n) .output] ++
  [0, 1, 2].map (fun x => scanOut (.link n x) .bidir) ++ [0, 1, 2].map (fun x => scanOut (.linkEn n x) .bidir) ++
  [scanIn (.lfltN n), scanIn (.lrdy n), scanOut (.mbrk n) .observe]

/-- The cells of an axis port in the order of Table PN-6. -/
def axsScan (n : Nat) : List ScanPin :=
  [scanOut (.step n) .bidir, scanOut (.dir n) .bidir, scanOut (.coil n false false) .output, scanOut (.coil n false true) .output,
   scanOut (.coil n true false) .output, scanOut (.coil n true true) .output, scanOut (.axEn n) .observe]

/-- The cells of a port in the order of its table (Tables PN-4, PN-6, PN-8 and PN-10). The pins of the test port itself have none (IEEE 1149.1). -/
def portScan (p : Nat) : List ScanPin :=
  if p = 2 ∨ p = 3 then [scanOut (.canTxd (p - 2)) .output, scanIn (.canRxd (p - 2))]
  else if p = 4 then [scanOut (.hat .west) .pair, ⟨.inr (.hatRx .west), .pair⟩]
  else if p = 5 then [scanOut (.hat .east) .pair, ⟨.inr (.hatRx .east), .pair⟩]
  else if p = 6 then [scanIn .spiSck, scanIn .spiCsN, scanIn .spiMosi, scanOut .spiMiso .output, scanOut .hsIrq .output]
  else if p = 7 then [scanOut .uaTxd .output, scanIn .uaRxd, scanOut .uaDe .output]
  else if p = 12 ∨ p = 13 then [scanOut (.psMa (p - 12)) .output, scanIn (.psSlo (p - 12))]
  else if p = 14 ∨ p = 15 then [scanOut (.rpA (p - 14)) .output, scanOut (.rpB (p - 14)) .output, scanOut (.rpZ (p - 14)) .output]
  else if 16 ≤ p ∧ p < 20 then stnScan (p - 16)
  else if 20 ≤ p ∧ p < 24 then axsScan (p - 20)
  else if p = 24 ∨ p = 25 then [scanIn (.spPin (p - 24))]
  else if p = 26 ∨ p = 27 then [scanOut (.chg (p - 26)) .observe, scanOut (.pre (p - 26)) .observe]
  else if p = 28 ∨ p = 29 then [scanIn (.sto (p - 28) 0), scanIn (.sto (p - 28) 1)]
  else if p = 31 then (List.finRange 8).map fun i => scanOut (.tmd i) .output
  else []

/-- The control pins in the order of Table PN-10. -/
def controlScan : List ScanPin :=
  [scanIn .resetN, scanIn .wakeN, scanIn .presN, scanOut .faultN .output, scanOut .ready .output, scanIn (.id 0), scanIn (.id 1), scanIn (.id 2)]

/-- The ports of Half B, which 289-ball parts do not bond (Table PN-2). -/
def halfBPorts : List Nat := [1, 3, 10, 11, 13, 15, 18, 19, 22, 23, 25, 27, 29]

/-- The boundary register from TDI to TDO: ports in ascending order, then the control pins; absent ports have no cells (R429). -/
def scanChain (two : Bool) : List ScanPin :=
  ((List.range 32).filter fun p => two || !halfBPorts.contains p).flatMap portScan ++ controlScan

/-- The number of a pin's first cell and its kind, from a list of pins whose first cell has number `i`. -/
def scanFind (p : OutPin) : Nat → List ScanPin → Option (Nat × CellKind)
  | _, [] => none
  | i, x :: r => if x.pin == .inl p then some (i, x.kind) else scanFind p (i + x.kind.count) r

namespace State

/-- Both halves are bonded. A part whose fuses name none is taken as one of 484 balls (DESIGN CHOICE, log entry 113). -/
def bothHalves (s : State) : Bool :=
  match s.fusePart with
  | some (p, _) => (partBits p).2.1 == 1
  | none => true

/-- `CHIP_ID.PART` as fused, with the reduced set under R28; of a part whose fuses name none, an open value (DESIGN CHOICE, log entry 113). -/
def idPart (s : State) : Nat :=
  match s.fusePart with
  | some (p, _) => (partBits p).1
  | none => Config.blankPart % 65536

/-- IDCODE (R426). -/
def idcode (s : State) : Nat := 0x2 * 2 ^ 28 + s.idPart * 2 ^ 12 + 0x4E3 * 2 + 1

/-- The boundary cells have control of the pins: an intrusive instruction holds the chip, the flush is over and every region is in reset (R428). -/
def scanned (s : State) : Bool :=
  s.chip.tapHold && s.log.flush.isNone && (s.chip.phase == .reset || s.chip.phase == .shutdown) && (List.range 3).all fun r => !s.regionRun r

/-- A latch of the boundary register. -/
def latch (s : State) (i : Nat) : Bool := bitN s.chip.latches i

/-- An open-drain output (Table PN-10). -/
def openDrain (p : OutPin) : Bool := p == .hsIrq || p == .faultN

/-- A pin with a pull-down that nothing drives keeps it (Tables PN-4 and PN-6). -/
def undriven : OutPin → PinLevel
  | .link _ _ | .linkEn _ _ | .step _ | .dir _ => .pulledDown
  | _ => .z

/-- Gates and brakes stay low whatever the port does (R31). -/
def staysLow : OutPin → Bool
  | .gateHigh _ _ | .gateLow _ _ | .mbrk _ => true
  | _ => false

/-- A pin that HIGHZ floats. -/
def floated (p : OutPin) : PinLevel := if staysLow p then .low else undriven p

/-- An output pin under the control of its boundary cells (R429): the latches of a full cell, enable 1 driving, or the one of a pair; an observe-only
pin, and one with no cell, in its reset state. HIGHZ floats every pin with a cell but the gates and brakes (DEDUCED, log entry 113). -/
def scanLevel (s : State) (p : OutPin) : PinLevel :=
  match scanFind p 0 (scanChain s.bothHalves) with
  | none => s.pinOn p
  | some (i, k) =>
    if s.chip.ir == .highz then floated p
    else match k with
      | .output | .bidir =>
        let d := s.latch (i + k.dataAt)
        if s.latch (i + k.dataAt + 1) && !(openDrain p && d) then drive d else undriven p
      | .pair => drive (s.latch i)
      | .input | .observe => s.pinOn p

/-- An output pin (R30). Between two commands the serial lines idle: MISO and TDO float, UA_TXD and the TXD of C2 and C3 stand high, UA_DE low,
since a row carries a whole frame or window (DESIGN CHOICE, log entry 85). In brown-out above the loss of the supply the pins show the states of
Table PW-8, as without supply (R54; DESIGN CHOICE, log entry 114). -/
def pin (s : State) (p : OutPin) : PinLevel := if !s.supplied then pinOff p else if s.scanned then s.scanLevel p else s.pinOn p

end State

end Sys2Proof.Machine
end

