-- ==== Sys2Proof/Safety.lean ====
section
/-!
DEFINITION. What the claims call safe, and the invariant that every step keeps. A run is safe when no step of it stops; a station is
without torque when its gates hold off or are turning off.
-/
namespace Sys2Proof.Machine

/-- An outcome is a next state. -/
def Completes (o : Host.Outcome State Fault Refusal) : Prop := ∃ s, o = .next s

/-- A row answers a next state, of which `P` holds. -/
def After (i : Instr) (s : State) (P : State → Prop) : Prop := ∃ t, exec i s = .next t ∧ P t

/-- `t` is `s` but for the named register fields, each with the base address of its instance: every other field reads as before, and
everything that is no register is the same, but for the notes of which W1C bits and RC counts this very clock has touched (log entry 99). -/
structure State.Only (s t : State) (w : List (Nat × Fld)) : Prop where
  regs : ∀ k, k ∉ w.map (fun p => p.2.key p.1) → t.regs.get k = s.regs.get k
  rest : { t with regs := s.regs, marks := s.marks } = s

/-- A field counted up by one, saturating at its largest value (R7). -/
def State.counted (s : State) (b : Nat) (f : Fld) : Int := f.wrap (min (2 ^ f.w - 1) (s.get b f + 1))

/-- `t` is `s` with the named register fields at the given values, and nothing else changed. -/
def State.Sets (s t : State) (w : List (Nat × Fld × Int)) : Prop :=
  (∀ x ∈ w, t.get x.1 x.2.1 = x.2.2) ∧ s.Only t (w.map fun x => (x.1, x.2.1))

/-- A row sets the named fields and nothing else. -/
def SetsOnly (i : Instr) (s : State) (w : List (Nat × Fld × Int)) : Prop := After i s fun t => s.Sets t w

/-- A row that happens at tick `n` sets the named fields and nothing else but the time. -/
def SetsAt (i : Instr) (s : State) (n : Nat) (w : List (Nat × Fld × Int)) : Prop := After i s fun t => (s.advance n).Sets t w

/-- Every command row with its opcode. -/
def commandRows : List ((Cmd → Instr) × OpSpec) :=
  [(.echo, opEcho), (.identify, opIdentify), (.readReg, opReadReg), (.writeReg, opWriteReg), (.modifyReg, opModifyReg),
   (.statusSnapshot, opSnapshot), (.sleep, opSleep), (.resetRegion, opResetRegion), (.cfgRead, opCfgRead), (.cfgStage, opCfgStage),
   (.cfgCommit, opCfgCommit), (.cfgSeal, opCfgSeal), (.tableLoad, opTableLoad), (.stnArm, opStnArm), (.stnRun, opStnRun),
   (.stnSetpoint, opStnSetpoint), (.stnStop, opStnStop), (.stnDiag, opStnDiag), (.stnSizing, opStnSizing), (.bankSwap, opBankSwap),
   (.axisMove, opAxisMove), (.axisRetarget, opAxisRetarget), (.axisStop, opAxisStop), (.axisGroup, opAxisGroup),
   (.axisFollow, opAxisFollow), (.svcStart, opSvcStart), (.svcParam, opSvcParam), (.svcStop, opSvcStop), (.shareCfg, opShareCfg),
   (.evtArm, opEvtArm), (.evtCancel, opEvtCancel), (.recRead, opRecRead), (.recTriggerCfg, opRecTriggerCfg), (.canCfg, opCanCfg),
   (.canRecover, opCanRecover), (.timeMaster, opTimeMaster), (.canSend, opCanSend), (.canFetch, opCanFetch), (.canAck, opCanAck),
   (.mbxPost, opMbxPost), (.mbxFetch, opMbxFetch), (.dblRing, opDblRing), (.faultRead, opFaultRead), (.faultClear, opFaultClear),
   (.mastership, opMastership), (.testmuxSel, opTestmux), (.selftest, opSelftest)]

/-- The first failing check of Steps 4 to 11 of Table PK-4 for a command with a target on this chip: its status and `DETAIL`. -/
def State.firstFail (s : State) (op : OpSpec) (c : Cmd) : Option (Nat × Nat) :=
  if s.tagBusy c.tag.toNat then some (0x15, 0)
  else if !op.scopes.contains c.scope.toNat || !s.targetOk c || op.absent s c then some (0x13, 0)
  else if op.down s c then some (0x40, 0)
  else if s.restricted && !op.startup then some (0x22, 0)
  else op.check s c

/-- The reply packet that rejects a command (R73). -/
def rejection (c : Cmd) (op st d : Nat) : Packet :=
  { cls := 1, tag := c.tag.toNat, opcode := op, want := c.want, snap := c.snap, scope := c.scope.toNat, index := c.index.toNat,
    status := st, detail := d, payload := [] }

/-- One bit into a CRC-32 register that shifts toward its most significant bit: the generator polynomial 0x04C1_1DB7 (R68). -/
def crcShift (c : BitVec 32) (b : Bool) : BitVec 32 := if c.msb = b then c <<< 1 else (c <<< 1) ^^^ 0x04C11DB7#32

/-- The CRC-32 of R68 from its parameters: initial value 0xFFFF_FFFF, each byte's bits taken lowest first, the result's bits in reverse
order, final XOR 0xFFFF_FFFF. -/
def crcOfBits (bs : List Nat) : Nat :=
  (((bs.flatMap fun b => (List.range 8).map fun i => b.testBit i).foldl crcShift 0xFFFFFFFF#32).reverse ^^^ 0xFFFFFFFF#32).toNat

/-- A command passes every check of Table PK-4 on a transport that takes it, so that its effect follows. -/
def State.admits (s : State) (op : OpSpec) (c : Cmd) : Bool :=
  let r := s.refresh c.tr
  s.hears c.tr && decide (c.len ≤ 255) && !r.tagBusy c.tag.toNat && c.scope != 7 && op.scopes.contains c.scope.toNat && r.targetOk c &&
  !op.absent r c && !op.down r c && (op.startup || !r.restricted) && (op.check r c).isNone

/-- `SNAP` captures the snapshot set once the command has taken effect (R79). -/
def State.snapped (s : State) (c : Cmd) (op : Nat) : State := if c.snap then s.capture c.tag.toNat op else s

/-- A command that passes the checks leads to `t`, with the snapshot that `SNAP` asks for. -/
def State.Does (s : State) (op : OpSpec) (c : Cmd) (i : Instr) (t : State) : Prop :=
  s.admits op c = true → exec i s = .next (t.snapped c op.code)

/-- The outbound queue of a host transport (R78). -/
def PortOf (tr : Transport) (i : Nat) : Prop :=
  match tr with | .spi => i = 0 | .uart => i = 1 | .can k => i = 2 + k.val | _ => False

/-- A station is present, its half runs and its block is in service. -/
def State.stnServes (s : State) (n : Fin 4) : Prop := s.stnLive n.val = true ∧ s.oos (.stn n) = false

/-- An axis's half runs and its block is in service. -/
def State.axsServes (s : State) (n : Fin 4) : Prop := s.halfRun (n.val / 2) = true ∧ s.oos (.axs n) = false

/-- A CAN controller's half runs and its block is in service. -/
def State.canServes (s : State) (c : Fin 4) : Prop := s.halfRun (c.val % 2) = true ∧ s.oos (.can c) = false

/-- Every register of `t` is at its reset value but for the fields that show levels at input pins, which are those of `s` (R30, R36). -/
structure State.PinsOnly (s t : State) : Prop where
  chip  : ∀ f ∈ State.pinFields, t.get 0 f = f.wrap (s.get 0 f)
  stns  : ∀ n : Fin 4, ∀ f ∈ State.stnPins, t.get (stnB n.val) f = f.wrap (s.get (stnB n.val) f)
  other : ∀ k, k ∉ State.pinFields.map (·.key 0) → (∀ n : Fin 4, k ∉ State.stnPins.map (·.key (stnB n.val))) → t.regs.get k = 0

/-- The output pins of a half are in their reset states (R30, Tables PN-4, PN-6 and PN-8). -/
def State.HalfQuiet (s : State) (h : Nat) : Prop :=
  (∀ n leg, n / 2 = h → s.pin (.gateHigh n leg) = .low ∧ s.pin (.gateLow n leg) = .low ∧ s.pin (.sdck n) = .low ∧
    s.pin (.link n leg) = .pulledDown ∧ s.pin (.linkEn n leg) = .pulledDown ∧ s.pin (.mbrk n) = .low ∧ s.pin (.exc n) = .z ∧
    s.pin (.step n) = .pulledDown ∧ s.pin (.dir n) = .pulledDown ∧ (∀ k l, s.pin (.coil n k l) = .low) ∧ s.pin (.axEn n) = .low) ∧
  s.pin (.can h) = .standby ∧ s.pin (.canTxd h) = .high ∧ s.pin (.burden h) = .low ∧ s.pin (.chg h) = .low ∧ s.pin (.pre h) = .low ∧
  s.pin (.psMa h) = .high ∧ s.pin (.rpA h) = .low ∧ s.pin (.rpB h) = .low ∧ s.pin (.rpZ h) = .low

/-- `t` is `s` without supply, in the given phase: nothing runs, every register and table is at its reset value but for the levels of input
pins, no packet and no command is held; what the NVA holds stays (R48, R54). -/
structure State.Unpowered (s t : State) (p : Phase) : Prop where
  phase   : t.chip.phase = p
  ready   : t.chip.ready = false
  regions : ∀ r, t.regionRun r = false
  regs    : s.PinsOnly t
  tabs    : t.tabs = []
  busy    : t.mil.busy = []
  ports   : ∀ i, (t.port i).out = []
  faults  : t.flt.list = []
  slots   : t.cfg.slots = s.cfg.slots
  sealed  : t.cfg.sealMark = s.cfg.sealMark
  felt    : t.log.felt = s.log.felt

/-- `t` is out of reset for a part with its fuses' copies agreeing or not, at chip time 0: the identity is loaded, and the restricted command
set follows at once with a reference, else after START_NO_REFERENCE (R28, R34, R49). -/
structure State.Started (t : State) (b : Boot) (p : Part) (alt : Bool) : Prop where
  time  : t.time = 0
  phase : t.chip.phase = if b.reference then .restricted else .starting
  part  : t.get 0 F.CHIP_ID_PART = (State.partBits p).1
  halfB : t.get 0 F.CHIP_ID_HALF_B = (State.partBits p).2.1
  law   : t.get 0 F.CHIP_ID_G_LAW = (State.partBits p).2.2
  alt   : t.get 0 F.CHIP_PINS_FUSE_ALT = b2i alt
  strap : t.get 0 F.CHIP_PINS_ID_STRAP = (((b.id0 &&& b.id1) ||| (b.id0 &&& b.id2) ||| (b.id1 &&& b.id2)).toNat : Nat)

/-- Every register of the map (chapter tables). -/
def registerMap : List RegD := R.chipRegs ++ R.halfRegs ++ R.stnRegs ++ R.serialRegs ++ R.axisRegs ++ R.canRegs

/-- `k` steps from a state stop nowhere. -/
def RunsOn (k : Nat) (s : State) : Prop := ∃ t, Host.Core.run Sys2Proof.core k s = .next t

/-- A station's stage takes no switching command: turning off, or turned off. -/
def State.torqueOff (s : State) (n : Nat) : Bool := s.on (stnB n) F.GC_STAT_TURNOFF || s.on (stnB n) F.GC_STAT_OFF_CONF

/-- A port holds no more rejections and notices than its queues have places (R78). -/
def Port.Bounded (p : Port) : Prop := p.level .reject ≤ 16 ∧ p.level .notice ≤ 32

/-- The images of the configuration store are in canonical form: both slots, the image in force, the staging area, and the image that
a commit is writing. -/
structure CfgStore.Canonical (c : CfgStore) : Prop where
  slots   : ∀ m ∈ c.slots.toList, m.wf
  inForce : c.inForce.wf
  staging : c.staging.wf
  commit  : ∀ j, c.commit = some j → j.image.wf

/-- The invariant: registers, tables and images in canonical form, the chip time a 64-bit count (R22), the queues of rejections and
notices within their places (R78), the recorder's write bucket within its 64 tokens (R393). -/
structure State.Sound (s : State) : Prop where
  regs   : s.regs.wf
  tabs   : s.tabs.wf
  cfg    : s.cfg.Canonical
  time   : s.time < 2 ^ 64
  ports  : ∀ p ∈ s.mil.ports.toList, p.Bounded
  bucket : s.log.bucket ≤ 64

/-- What no step takes back: the seal (R102), the fuses (R28), the felt records in the NVA (R396). -/
structure State.Lasts (s t : State) : Prop where
  sealed : s.cfg.sealMark = true → t.cfg.sealMark = true
  fuseA  : t.chip.fuseA = s.chip.fuseA
  fuseB  : t.chip.fuseB = s.chip.fuseB
  grade  : t.chip.grade = s.chip.grade
  felt   : s.log.felt <+: t.log.felt

end Sys2Proof.Machine
end

