-- ==== Sys2Proof/Certificates/Slice0/Obligations.lean ====
section
/-!
DEFINITION. What the provers are to prove of the block.
-/

open Sys2Proof Sys2Proof.Machine

/-! ### The machine -/

/-- A step takes the command at the front of the queue and runs it on the state with the queue's rest. -/
def Obligations.StepRunsFront : Prop :=
  ∀ (i : Instr) (rest : List Instr) (s : State), s.pending = i :: rest → step s = exec i { s with pending := rest }

/-- With no command waiting the block idles; while the arbiter's timebase runs the chip time goes on by one tick (the model's own choice, log
entry 5). -/
def Obligations.StepIdles : Prop :=
  ∀ s : State, s.pending = [] → step s = .next (
    if s.chip.phase ∈ [.starting, .restricted, .running, .sleepEntry, .resetFlush] ∨ (s.chip.phase = .shutdown ∧ s.log.flush.isSome = true)
    then { s with time := (s.time + 1) % 2 ^ 64 } else s)

/-- The state before the first supply: every register field at its reset value, chip time 0, no region running, nothing stored, nothing queued.
Where the specification gives no reset value, and for what NVA and fuses hold, the values are the model's (log entries 3 and 4). -/
def Obligations.ResetLeaves : Prop :=
  (∀ b f, State.reset.get b f = f.dflt) ∧ (∀ o, State.reset.tabs.get o = 0) ∧ State.reset.time = 0 ∧ State.reset.chip.phase = .off ∧
  State.reset.chip.ready = false ∧ (∀ r, State.reset.regionRun r = false) ∧ State.reset.flt.list = [] ∧ State.reset.mil.busy = [] ∧
  (∀ i, (State.reset.port i).out = []) ∧ State.reset.log.fifo = [] ∧ State.reset.log.staging = [] ∧ State.reset.pending = [] ∧
  ∀ x ∈ [(0, F.CHIP_PWR_CTRL_VGD_SET, (4 : Int)), (0, F.MIL_PORT_CFG_SPI_EN, 1), (0, F.MIL_PORT_CFG_BAUD_DIV, 430), (stnB 0, F.PF_CTRL_FLT_N, 1),
      (stnB 0, F.COM_MOTOR_FMAX, 3000), (stnB 0, F.PWM_HPER_HPER, 10000), (stnB 0, F.GC_VDS_BLANK, 400), (halfB 0, F.SUP_STO_STAT_ACTIVE, 1),
      (halfB 0, F.BGD_VTRIP_V_TRIP, 950), (stnB 0, F.OBS_RES_RES_TH, 2802), (halfB 0, F.SPT_FFS_F_FS, 10000), (0, F.HBD_CYC_T_SC, 100),
      (stnB 0, F.STN_RAMP_DEC_Q, 500), (axsB 0, F.AXS_FACC_FACC, 100000), (canB 0, F.CAN_TM_PER_PER, 100000), (0, F.FLT_CFG_REG_MAX, 3)],
    State.reset.get x.1 x.2.1 = x.2.2

/-- The invariant holds before the first supply. -/
def Obligations.ResetSound : Prop := State.reset.Sound

/-- No step breaks the invariant: registers, tables and images stay in canonical form, the chip time stays a 64-bit count, no queue of rejections
or notices outgrows its places, and the write bucket never holds more than 64 tokens. -/
def Obligations.StepKeepsSound : Prop := ∀ s t : State, s.Sound → step s = .next t → t.Sound

/-- No step takes back the seal mark, changes the fuses, or removes or alters a felt record. -/
def Obligations.StepKeepsLasting : Prop := ∀ s t : State, step s = .next t → s.Lasts t

/-- Every command and event has an outcome: no row stops. A row leaves the queue of waiting commands as it is, so that a run of k steps with k
commands waiting runs each of them once, in order, and stops nowhere. -/
def Obligations.QueueRuns : Prop :=
  (∀ (i : Instr) (s : State), Completes (exec i s)) ∧
  ((∀ (i : Instr) (s t : State), exec i s = .next t → t.pending = s.pending) ∧
   (∀ (k : Nat) (s : State), RunsOn k s) ∧
   (∀ (l : List Instr) (s : State), s.pending = l → ∀ t, Host.Core.run Sys2Proof.core l.length s = .next t → t.pending = []))

/-- A latched die shutdown outlasts every row but SHUTDOWN_LATCH_CLEAR, which clears it with the supply's loss; while it is latched, a rising
supply leaves the chip shut down. -/
def Obligations.DieShutdownLatched : Prop :=
  (∀ (i : Instr) (s t : State), s.chip.dieLatch = true → i ≠ .shutdownLatchClear → exec i s = .next t → t.chip.dieLatch = true) ∧
  (∀ s : State, After .shutdownLatchClear s fun t => t.chip.dieLatch = false ∧ t.chip.phase = .off) ∧
  (∀ (s : State) (b : Boot), s.chip.phase = .off → s.chip.dieLatch = true →
    exec (.powerOn b) s = .next { s with chip := { s.chip with phase := .shutdown } })

/-- The chip time never falls, but that it begins at 0 again where a row starts the chip anew: power-on, a wake, the end of a sleep entry or of a
flush, the end of RESET_N, and the test port. That it begins at 0 alike for all of these is the model's own reading (log entry 8). -/
def Obligations.TimeNeverFalls : Prop :=
  (∀ (i : Instr) (s t : State), exec i s = .next t →
    (match i with
      | .powerOn _ | .wake _ _ | .sleepEntryComplete | .flushComplete | .resetNRelease _ | .tapUpdateIr _ | .tapReset => s.time ≤ t.time ∨ t.time = 0
      | _ => s.time ≤ t.time)) ∧
  (∀ (s : State) (b : Boot), s.chip.phase = .off → s.chip.dieLatch = false → s.chip.resetLow = false → s.chip.tapHold = false →
    s.chip.fuseA.isSome = true → After (.powerOn b) s fun t => t.time = 0)

/-! ### Packets, checks and replies -/

/-- The CRC word of a packet is the CRC-32 of R68 over its header and payload bytes in sending order, and a packet is sent as its words with that
one behind them, each least significant byte first. -/
def Obligations.PacketCrc : Prop :=
  crcOfBits [0x31, 0x32, 0x33, 0x34, 0x35, 0x36, 0x37, 0x38, 0x39] = 0xCBF43926 ∧
  (∀ p : Packet, ∃ w0 w1 : Nat,
    p.words = (w0 :: w1 :: p.payload) ++ [crcOfBits ((w0 :: w1 :: p.payload).flatMap wordBytes)] ∧
    p.bytes = ((w0 :: w1 :: p.payload).flatMap wordBytes ++
      wordBytes (crcOfBits ((w0 :: w1 :: p.payload).flatMap wordBytes))).map (BitVec.ofNat 8)) ∧
  (∀ ws : List Nat, 2 + lengthOf (ws.getD 0 0) / 4 < ws.length →
    (crcOk ws = true ↔
      ws.getD (2 + lengthOf (ws.getD 0 0) / 4) 0 = crcOfBits ((ws.take (2 + lengthOf (ws.getD 0 0) / 4)).flatMap wordBytes)))

/-- A command that fails a check of Table PK-4 is answered with the status of the first one that fails, in the order of its steps, and has no
effect of its own; one longer than a packet can be is counted as well, and the UART then resynchronises; one whose transport takes none, or that
comes while the UART resynchronises, is not seen. -/
def Obligations.FirstFailureAnswers : Prop :=
  ∀ p ∈ commandRows, ∀ (c : Cmd) (s : State),
    (s.hears c.tr = false → exec (p.1 c) s = .next s) ∧
    (s.hears c.tr = true → 255 < c.len → exec (p.1 c) s = .next
      ((({ s with mil := { s.mil with uartBad := c.tr == Transport.uart || s.mil.uartBad } }).bump 0 F.MIL_ERR_CNT_LEN).refuse c p.2.code 0x11 0)) ∧
    (∀ st d, s.hears c.tr = true → c.len ≤ 255 → (c.scope ≠ 7 ∨ (s.refresh c.tr).tagBusy c.tag.toNat = true) →
      (s.refresh c.tr).firstFail p.2 c = some (st, d) → exec (p.1 c) s = .next ((s.refresh c.tr).refuse c p.2.code st d))

/-- A reply joins its transport's outbound queue and changes nothing else. A rejection goes into the rejection queue of the command's own
transport while that holds fewer than 16, else it is counted as lost and marks the next; it changes nothing else. A notice whose type is not
enabled, or that comes while SH does not run, is not sent; a queue takes up to 32, numbered in turn, and a full one drops the next, counts it and
marks it. -/
def Obligations.OutboundPackets : Prop :=
  (∀ (s : State) (c : Cmd) (op st d i : Nat) (pay : List Nat),
     PortOf c.tr i →
     s.reply c op st d pay = s.withPort i fun q => { q with out := q.out ++ [(.reply, { rejection c op st d with payload := pay })] }) ∧
  (∀ (c : Cmd) (s : State) (op st d i : Nat),
     PortOf c.tr i →
     ((s.port i).level .reject < 16 →
       s.refuse c op st d = s.withPort i fun q => { q with out := q.out ++ [(.reject, rejection c op st d)] }) ∧
     (16 ≤ (s.port i).level .reject →
       (s.withPort i fun q => { q with rejLost := true }).Sets (s.refuse c op st d)
         [(0, F.MIL_REJ_CNT_REJ_LOST, s.counted 0 F.MIL_REJ_CNT_REJ_LOST)])) ∧
  ((∀ (s : State) (ty : Nat) (body : List Nat), s.shRun = false ∨ bitN (s.nat 0 F.MIL_EVT_CFG_TYPE_EN) ty = false → s.notice ty body = s) ∧
   (∀ (s : State) (i ty : Nat) (body : List Nat), i < 7 → (s.port i).level .notice < 32 →
     ∃ p : Packet, p.cls = 3 ∧ p.tag = (s.port i).count ∧ p.opcode = ty ∧ p.payload = body ∧
       s.queueNotice i ty body = s.withPort i fun q => { q with count := (q.count + 1) % 64, out := q.out ++ [(.notice, p)] }) ∧
   (∀ (s : State) (i ty : Nat) (body : List Nat), i < 7 → 32 ≤ (s.port i).level .notice →
     (s.withPort i fun q => { q with evtLost := true }).Sets (s.queueNotice i ty body)
       [(0, F.MIL_ERR_CNT_EVT_LOST, s.counted 0 F.MIL_ERR_CNT_EVT_LOST), (0, F.MIL_STAT_EVT_LOST_SEEN, 1)]))

/-- The tag of an accepted command is busy until its final reply: ACCEPTED makes it busy, the completion frees it, and both go to the transport
of the command. -/
def Obligations.TagLifetime : Prop :=
  ∀ (s : State) (c : Cmd) (op arg st d i : Nat) (pay : List Nat),
    PortOf c.tr i → s.tagBusy c.tag.toNat = false →
    ((s.begin c op arg).tagBusy c.tag.toNat = true ∧
      ((s.begin c op arg).port i).out = (s.port i).out ++ [(.reply, { rejection c op 1 0 with payload := [] })]) ∧
    ∀ b ∈ (s.begin c op arg).mil.busy, b.tag = c.tag.toNat →
      ((s.begin c op arg).completeB b st d pay).tagBusy c.tag.toNat = false ∧
      (((s.begin c op arg).completeB b st d pay).port i).out =
        (s.port i).out ++ [(.reply, rejection c op 1 0), (.reply, { rejection c op st d with cls := 2, payload := pay })]

/-- A command for another ring position that the chip reaches is sent on as it came, and its tag is busy until the answer; a target outside the
ring is refused with BAD_TARGET, a ring that the chip has not joined with STATE, an inner packet of the wrong length with BAD_PARAM. A position of
the joined ring that the chip does not reach ends the command with TIMEOUT at once, counted, with its reply sent unless an earlier command to that
position still owes one. For the chip's own position the inner packet runs here, the outer tag busy for it, whatever the ring's state. -/
def Obligations.ForwardedCommands : Prop :=
  ∀ p ∈ commandRows, ∀ (c : Cmd) (s : State), s.hears c.tr = true → c.len ≤ 255 → c.scope = 7 →
    (s.refresh c.tr).tagBusy c.tag.toNat = false →
    let r := s.refresh c.tr
    let whole : Prop := 3 ≤ c.len ∧ 4 * c.len = 12 + lengthOf ((c.wordsFrom 0).getD 0 0)
    (c.rsv ≠ 0 ∨ 8 ≤ c.ix ∨ (c.ix ≠ r.ownPos ∧ r.ringN ≤ c.ix) → exec (p.1 c) s = .next (r.refuse c p.2.code 0x13 0)) ∧
    (c.rsv = 0 → c.ix < 8 → c.ix < r.ringN → c.ix ≠ r.ownPos → r.restricted = false →
      (r.noPath = true → exec (p.1 c) s = .next (r.refuse c p.2.code 0x22 0)) ∧
      (r.noPath = false →
        (¬whole → exec (p.1 c) s = .next (r.refuse c p.2.code 0x14 0)) ∧
        (whole → r.reaches c.ix = true →
          After (p.1 c) s fun t => t.tagBusy c.tag.toNat = true ∧ t.hat.fwdOut = r.hat.fwdOut ++ [(c.ix, c.packet p.2.code)] ∧
            t.regs = r.regs ∧ t.mil.ports = r.mil.ports) ∧
        (whole → r.reaches c.ix = false →
          After (p.1 c) s fun t => t.get 0 F.MIL_TUN_STAT_FWD_TO = r.counted 0 F.MIL_TUN_STAT_FWD_TO ∧
            ∀ i, PortOf c.tr i → (∀ b ∈ r.mil.busy, b.index ≠ c.index.toNat ∨ b.fwd = none) →
              (t.port i).out = (r.port i).out ++ [(.reply, rejection c p.2.code 0x31 0)] ∧ t.tagBusy c.tag.toNat = false))) ∧
    (c.rsv = 0 → c.ix < 8 → c.ix = r.ownPos → r.restricted = false →
      (¬whole → exec (p.1 c) s = .next (r.refuse c p.2.code 0x14 0)) ∧
      (whole →
        exec (p.1 c) s = .next ((r.occupyFwd c p.2.code c.ix).innerPacket (State.acceptAt 100) (.own (c.outer p.2.code)) (c.wordsFrom 0)) ∧
        (r.occupyFwd c p.2.code c.ix).tagBusy c.tag.toNat = true ∧ (r.occupyFwd c p.2.code c.ix).regs = r.regs))

/-- What the reading commands answer. READ_REG clears the RC fields that it reads and captures the quantities of R9; the others change nothing
that they read. On a free tag, with the target and the payload that Tables PK-6 to PK-10 ask for, each of them answers OK on its own transport with
what it has read, and its tag is free again. -/
def Obligations.ReadingCommands : Prop :=
  (∀ (c : Cmd) (s : State),
    let r := s.refresh c.tr
    let slot (k : Nat) : Sparse := r.cfg.slots.toList.getD k []
    s.Does opEcho c (.echo c) (r.reply c 0x01 0 0 (c.wordsFrom 0)) ∧
    s.Does opIdentify c (.identify c) (r.reply c 0x02 0 0
      ([r.rdWord 0x0, r.rdWord 0x4, Config.romVersion % 2 ^ 32, r.rdWord 0x18, r.rdWord 0x8] ++ u64Words r.time)) ∧
    s.Does opReadReg c (.readReg c) ((((r.occupy c 0x03 0).readWords (c.word 0) (c.word 1)).2.freeTag c.tag.toNat).reply c 0x03 0 0
      ((r.occupy c 0x03 0).readWords (c.word 0) (c.word 1)).1) ∧
    (c.word 0 = 0 → s.Does opSnapshot c (.statusSnapshot c)
      (r.reply c 0x06 0 0 (u64Words r.time ++ [r.regionBits] ++ (r.occupy c 0x06 0).sample (c.wordsFrom 1)))) ∧
    (c.word 0 = 1 → ∀ p, r.mil.snap = some p → s.Does opSnapshot c (.statusSnapshot c)
      (r.reply c 0x06 0 0 (u64Words p.1 ++ [p.2.1 + 2 ^ 16 * p.2.2.1 + 2 ^ 24 * p.2.2.2.1] ++ p.2.2.2.2))) ∧
    s.Does opCfgRead c (.cfgRead c) (r.reply c 0x10 0 0 (imgWords (
      if c.word 0 = 2 then r.cfg.staging
      else if r.on 0 F.CHIP_STATUS_CFG_VALID = false then slot (c.word 0)
      else if c.word 0 = 0 then r.cfg.inForce
      else slot (1 - r.nat 0 F.CFG_STAT_SLOT)) (c.word 1) (c.word 2))) ∧
    s.Does opRecRead c (.recRead c) (r.reply c 0x58 0 0 (r.recRead (c.word 0) (c.word 1) (c.word 2))) ∧
    s.Does opFaultRead c (.faultRead c) (r.reply c 0x70 0 0 ((r.faultsOf (State.unitOf c)).length ::
      (((r.faultsOf (State.unitOf c)).drop (c.word 0)).take (c.word 1)).flatMap fun e => [e.code + 65536 * e.occ, 0] ++ u64Words e.tick)) ∧
    s.Does opCanFetch c (.canFetch c) (r.reply c 0x64 0 0 ((r.canFetch c.ix (c.word 0) (c.word 1)).length ::
      (r.canFetch c.ix (c.word 0) (c.word 1)).flatMap RxEnt.words)) ∧
    s.Does opMbxFetch c (.mbxFetch c) ((r.mbxFetch (c.word 0) (c.word 1)).2.2.reply c 0x69 0 0
      (((r.mbxFetch (c.word 0) (c.word 1)).1.length + (if (r.mbxFetch (c.word 0) (c.word 1)).2.1 then 65536 else 0)) ::
        (r.mbxFetch (c.word 0) (c.word 1)).1))) ∧
  ∀ (c : Cmd) (s : State) (i : Nat), PortOf c.tr i → s.hears c.tr = true → c.len ≤ 255 → c.rsv = 0 →
    (s.refresh c.tr).tagBusy c.tag.toNat = false →
    let r := s.refresh c.tr
    let answers (j : Instr) (op : Nat) (q : State) (pay : List Nat) : Prop := After j s fun t =>
      (t.port i).out = (q.port i).out ++ [(.reply, { rejection c op 0 0 with payload := pay })] ∧ t.tagBusy c.tag.toNat = false ∧
      t.regs = q.regs ∧ t.time = s.time
    let inMaps (l : List Nat) : Prop := ∀ a ∈ l, a % 4 = 0 ∧ (regionAt a).isSome = true
    (c.scope = 0 → c.ix = 0 →
      answers (.echo c) 0x01 r (c.wordsFrom 0) ∧
      (c.len = 0 → answers (.identify c) 0x02 r
        ([r.rdWord 0x0, r.rdWord 0x4, Config.romVersion % 2 ^ 32, r.rdWord 0x18, r.rdWord 0x8] ++ u64Words r.time)) ∧
      (c.len = 2 → 1 ≤ c.word 1 → c.word 1 ≤ 255 → inMaps (State.addrsFrom (c.word 0) (c.word 1)) →
        (∀ a ∈ State.addrsFrom (c.word 0) (c.word 1), s.addrRuns a = true) →
        let q := (r.occupy c 0x03 0).readWords (c.word 0) (c.word 1)
        answers (.readReg c) 0x03 q.2 q.1 ∧ q.1.length = c.word 1 ∧ q.1.head? = some ((r.occupy c 0x03 0).readWord (c.word 0)).1) ∧
      (c.word 0 = 0 → 2 ≤ c.len → c.len ≤ 253 → inMaps (c.wordsFrom 1) →
        answers (.statusSnapshot c) 0x06 r (u64Words r.time ++ [r.regionBits] ++ (r.occupy c 0x06 0).sample (c.wordsFrom 1))) ∧
      (∀ p, c.word 0 = 1 → c.len = 1 → r.mil.snap = some p →
        answers (.statusSnapshot c) 0x06 r (u64Words p.1 ++ [p.2.1 + 2 ^ 16 * p.2.2.1 + 2 ^ 24 * p.2.2.2.1] ++ p.2.2.2.2)) ∧
      (s.restricted = false → c.len = 3 → c.word 0 ≤ 1 → 1 ≤ c.word 2 → c.word 2 ≤ 7 →
        answers (.recRead c) 0x58 r (r.recRead (c.word 0) (c.word 1) (c.word 2))) ∧
      (s.restricted = false → c.len = 2 → c.word 0 < 8 → c.word 0 < s.ringN →
        c.word 0 = s.ownPos ∨ (s.hatOn = true ∧ s.get 0 F.HBD_PUB_MBX_WIN ≠ 0) → 1 ≤ c.word 1 → c.word 1 ≤ 254 →
        let q := r.mbxFetch (c.word 0) (c.word 1)
        answers (.mbxFetch c) 0x69 q.2.2 ((q.1.length + (if q.2.1 then 65536 else 0)) :: q.1))) ∧
    (c.scope = 5 → s.canPresent c.ix = true → s.halfDown (c.ix % 2) = false → s.restricted = false → c.len = 2 →
      s.nat (canB c.ix) F.CAN_PART_RX_SVC ≤ c.word 0 → c.word 0 ≤ 63 → 1 ≤ c.word 1 → c.word 1 ≤ 12 →
      answers (.canFetch c) 0x64 r ((r.canFetch c.ix (c.word 0) (c.word 1)).length ::
        (r.canFetch c.ix (c.word 0) (c.word 1)).flatMap RxEnt.words)) ∧
    (c.scope.toNat ≤ 5 → s.targetOk c = true → s.ownerDown c = false → c.len = 2 → 1 ≤ c.word 1 → c.word 1 ≤ 63 →
      answers (.faultRead c) 0x70 r ((r.faultsOf (State.unitOf c)).length ::
        (((r.faultsOf (State.unitOf c)).drop (c.word 0)).take (c.word 1)).flatMap fun e => [e.code + 65536 * e.occ, 0] ++ u64Words e.tick))

/-! ### Registers and configuration -/

/-- A write stores what the access types say: an RW, WK or WS field takes its bits of the word, a W1C field loses the bits at which the word has 1,
but for those that the chip has set in the same clock, RO and RC fields stay; no field of another register or instance changes. The low word of a
two-word quantity is held, and nothing takes effect; the high word then sets the whole value at once. -/
def Obligations.RegisterWrites : Prop :=
  (∀ (s : State) (x : Hit) (w w1 : Nat), x.d ∈ registerMap → x.d.words = 1 →
     (∀ d ∈ x.d.flds, d.acc = .rw ∨ d.acc = .wk ∨ d.acc = .ws → (s.storeWord x w w1).get x.b d.f = d.f.wrap (bitsN w d.f.lo d.f.w)) ∧
     (∀ d ∈ x.d.flds, d.acc = .ro ∨ d.acc = .rc → (s.storeWord x w w1).get x.b d.f = s.get x.b d.f) ∧
     (∀ d ∈ x.d.flds, d.acc = .w1c →
       let now := s.marks.bits s.time (d.f.key x.b) % 2 ^ d.f.w
       (s.storeWord x w w1).get x.b d.f = d.f.wrap (clrI (s.get x.b d.f) (bitsN w1 d.f.lo d.f.w &&& ((2 ^ d.f.w - 1) ^^^ now)))) ∧
     s.Only (s.storeWord x w w1) (x.d.flds.map fun d => (x.b, d.f))) ∧
  (∀ (s : State) (x : Hit) (d : FD) (lo hi : Nat), x.d.words = 2 → x.d.flds = [d] → (d.acc = .rw ∨ d.acc = .wk ∨ d.acc = .ws) →
     s.obsAcc x.b d.f = false → lo < 2 ^ 32 →
     let t := s.storeWord { x with j := 0 } lo lo
     t.regs = s.regs ∧
     (t.storeWord { x with j := 1 } hi hi).get x.b d.f = d.f.wrap (lo + 2 ^ 32 * hi) ∧
     t.Only { t.storeWord { x with j := 1 } hi hi with held := t.held } [(x.b, d.f)])

/-- The rows that name one register write take the word through the checks of WRITE_REG: a refused write, or one of a region that does not run,
changes nothing; an accepted one takes effect. A register of SH whose write starts nothing holds the written word's fields; the others hold
what was written, and start what their rows are named for. That a controller with a frame of its own under way still ends it after CAN_DISABLE is
told from its waiting frame, which is the model's own reading (log entry 111). -/
def Obligations.WriteRows : Prop :=
  (∀ (i : Instr) (a : Nat) (ws : List Nat) (s : State),
    (match i with
      | .registerWrite x v => a = x.toNat ∧ ws = [v.toNat]
      | .pfPosWrite n v => a = stnB n.val + 0x5028 ∧ ws = u64Words v.toNat
      | .pfCtrlSourceChange n v => a = stnB n.val + 0x5000 ∧ ws = [v.toNat]
      | .axsPosWrite n v => a = axsB n.val + 0x28 ∧ ws = u64Words v.toNat
      | .comOfsWrite n v => a = stnB n.val + 0x1008 ∧ ws = [v.toNat]
      | .pwmHperWrite n v p => a = stnB n.val + 0x2004 ∧ ws = [v.toNat, p.toNat]
      | .vgdSetChange v => a = 0x60000 ∧ ws = [State.mergeWord (s.rdWord 0x60000) 15 v.toNat]
      | .hostWatchdogArm v => a = 0x10004 ∧ ws = [v.toNat]
      | .lenCfgWrite h m v => a = slotB h.val m.val + 0x11000 ∧ ws = [v.toNat]
      | .lenAccWrite h m v => a = slotB h.val m.val + 0x11030 ∧ ws = u64Words v.toNat
      | .canEnable c => a = canB c.val ∧ ws = [State.mergeWord (s.rdWord (canB c.val)) 1 1]
      | .canDisable c => a = canB c.val ∧ ws = [State.mergeWord (s.rdWord (canB c.val)) 1 0]
      | .hatbandEnable v => a = 0x50000 ∧ ws = [State.mergeWord (s.rdWord 0x50000) 1 v.toNat]
      | .recSoftWrite v => a = 0x3000C ∧ ws = [v.toNat]
      | _ => False) →
    ((regionAt a).isSome = true → s.addrRuns a = true → s.writeCheck a ws = none → exec i s = .next (s.writeWords a ws 0)) ∧
    ((regionAt a).isNone = true ∨ s.addrRuns a = false ∨ (s.writeCheck a ws).isSome = true → exec i s = .next s)) ∧
  ∀ s : State,
    let shOpen : Prop := s.shRun = true
    let stnOpen (n : Fin 4) : Prop := s.stnPresent n.val = true ∧ s.regionRun (n.val / 2 + 1) = true
    let halfOpen (h : Fin 2) : Prop := s.halfPresent h.val = true ∧ s.regionRun (h.val + 1) = true
    (∀ (a v : Word) (x : Hit), findReg a.toNat = some x → x.d.area = .abs → x.d.words = 1 →
      x.d.off ∉ [0x10004, 0x3000C, 0x50000, 0x50004, 0x50008, 0x5000C, 0x60000, 0x60110] → (regionAt a.toNat).isSome = true →
      s.addrRuns a.toNat = true → s.writeCheck a.toNat [v.toNat] = none → s.cfg.sealMark = false →
      After (.registerWrite a v) s fun t =>
        (∀ d ∈ x.d.flds, d.acc = .rw ∨ d.acc = .wk ∨ d.acc = .ws → t.get x.b d.f = d.f.wrap (bitsN v.toNat d.f.lo d.f.w)) ∧
        (∀ d ∈ x.d.flds, d.acc = .w1c →
          let now := s.marks.bits s.time (d.f.key x.b) % 2 ^ d.f.w
          t.get x.b d.f = d.f.wrap (clrI (s.get x.b d.f) (bitsN v.toNat d.f.lo d.f.w &&& ((2 ^ d.f.w - 1) ^^^ now)))) ∧
        s.Only t (x.d.flds.map fun d => (x.b, d.f))) ∧
    (∀ (n : Fin 4) (v : BitVec 64), stnOpen n → s.mode n.val ∈ [0, 1, 2] →
      let p := F.PF_POS_POS.wrap (v.toNat : Nat)
      s.get (stnB n) F.PF_LIM_LO_LIM_LO ≤ p → p ≤ s.get (stnB n) F.PF_LIM_HI_LIM_HI →
      After (.pfPosWrite n v) s fun t => t.get (stnB n) F.PF_POS_POS = p) ∧
    (∀ (n : Fin 4) (v : Word), stnOpen n → s.writeCheck (stnB n.val + 0x5000) [v.toNat] = none →
      After (.pfCtrlSourceChange n v) s fun t =>
        t.get (stnB n) F.PF_CTRL_SRC = bitsN v.toNat F.PF_CTRL_SRC.lo 1 ∧
        (t.get (stnB n) F.PF_CTRL_SRC ≠ s.get (stnB n) F.PF_CTRL_SRC → t.get (stnB n) F.PF_CTRL_SRC = 1 ∨ t.get (stnB n) F.PF_CTRL_MODE ≠ 3 →
          t.get (stnB n) F.PF_STAT_VALID = 0)) ∧
    (∀ (n : Fin 4) (v : BitVec 64), stnOpen n → s.axSt n.val = 1 → After (.axsPosWrite n v) s fun t =>
      t.get (axsB n) F.AXS_POS_POS = F.AXS_POS_POS.wrap (v.toNat : Nat) ∧
      t.get (axsB n) H.axR = H.axR.wrap (F.AXS_POS_POS.wrap (v.toNat : Nat) * State.q40)) ∧
    (∀ (n : Fin 4) (v : Word), stnOpen n → s.mode n.val ∈ [0, 1, 2] → After (.comOfsWrite n v) s fun t =>
      t.get (stnB n) F.COM_OFS_OFS = F.COM_OFS_OFS.wrap (v.toNat : Nat) ∧ t.get (stnB n) F.COM_STAT_OFS_VALID = 1) ∧
    (∀ (n : Fin 4) (v p : Word), stnOpen n → s.writeCheck (stnB n.val + 0x2004) [v.toNat, p.toNat] = none →
      After (.pwmHperWrite n v p) s fun t =>
        t.get (stnB n) F.PWM_HPER_HPER = bitsN v.toNat F.PWM_HPER_HPER.lo F.PWM_HPER_HPER.w ∧
        t.get (stnB n) F.PWM_PHASE_PHASE = bitsN p.toNat F.PWM_PHASE_PHASE.lo F.PWM_PHASE_PHASE.w) ∧
    (∀ v : BitVec 4, shOpen → s.writeCheck 0x60000 [State.mergeWord (s.rdWord 0x60000) 15 v.toNat] = none →
      After (.vgdSetChange v) s fun t => t.get 0 F.CHIP_PWR_CTRL_VGD_SET = v.toNat ∧
        (s.get 0 F.CHIP_PWR_CTRL_VGD_SET ≠ v.toNat → t.get 0 F.CHIP_PWR_STAT_VGD_OK = 0)) ∧
    (∀ v : Word, shOpen → s.writeCheck 0x10004 [v.toNat] = none → After (.hostWatchdogArm v) s fun t =>
      t.get 0 F.MIL_HOST_WD_TIMEOUT_MS = bitsN v.toNat F.MIL_HOST_WD_TIMEOUT_MS.lo F.MIL_HOST_WD_TIMEOUT_MS.w ∧
      t.get 0 F.MIL_HOST_WD_SOURCE = bitsN v.toNat F.MIL_HOST_WD_SOURCE.lo F.MIL_HOST_WD_SOURCE.w ∧
      t.mil.wdArmed = t.on 0 F.MIL_HOST_WD_TIMEOUT_MS ∧ (t.mil.wdArmed = true → t.get 0 H.wdStart = H.wdStart.wrap (s.time : Nat))) ∧
    (∀ (h : Fin 2) (m : Fin 48) (v : Word), halfOpen h → s.writeCheck (slotB h.val m.val + 0x11000) [v.toNat] = none →
      After (.lenCfgWrite h m v) s fun t => ∀ f ∈ [F.LEN_CFG_TYPE, F.LEN_CFG_TRIG, F.LEN_CFG_TPARAM, F.LEN_CFG_GROUP, F.LEN_CFG_OWNER],
        t.get (slotB h m) f = f.wrap (bitsN v.toNat f.lo f.w : Nat)) ∧
    (∀ (h : Fin 2) (m : Fin 48) (v : BitVec 64), halfOpen h → s.obsAcc (slotB h.val m.val) F.LEN_ACC_ACC = false →
      s.writeCheck (slotB h.val m.val + 0x11030) (u64Words v.toNat) = none →
      After (.lenAccWrite h m v) s fun t => t.get (slotB h m) F.LEN_ACC_ACC = F.LEN_ACC_ACC.wrap (v.toNat : Nat)) ∧
    (∀ c : Fin 4, s.canPresent c.val = true → s.regionRun (c.val % 2 + 1) = true → s.on (canB c) F.CAN_CTRL_EN = false →
      s.writeCheck (canB c.val) [State.mergeWord (s.rdWord (canB c.val)) 1 1] = none →
      After (.canEnable c) s fun t => t.get (canB c) F.CAN_CTRL_EN = 1 ∧ t.get (canB c) F.CAN_STAT_ACT = 0 ∧
        t.get (canB c) F.CAN_STAT_ERRSTATE = 3 ∧ t.get (canB c) H.cnXcv = b2i (decide (c.val < 2))) ∧
    (∀ c : Fin 4, s.canPresent c.val = true → s.regionRun (c.val % 2 + 1) = true → s.on (canB c) F.CAN_CTRL_EN = true →
      s.writeCheck (canB c.val) [State.mergeWord (s.rdWord (canB c.val)) 1 0] = none →
      After (.canDisable c) s fun t => t.get (canB c) F.CAN_CTRL_EN = 0 ∧
        (s.txNext c.val = none → t.get (canB c) F.CAN_STAT_ACT = 0 ∧ t.get (canB c) F.CAN_STAT_ERRSTATE = 3 ∧ t.get (canB c) H.cnXcv = 0 ∧
          (t.canq c.val).tx = []) ∧
        ((s.txNext c.val).isSome = true → t.get (canB c) H.cnFin = 1 ∧ t.get (canB c) F.CAN_STAT_ACT = s.get (canB c) F.CAN_STAT_ACT ∧
          t.canq c.val = s.canq c.val ∧ t.canOn c.val = s.canOn c.val)) ∧
    (∀ v : Bool, shOpen → s.writeCheck 0x50000 [State.mergeWord (s.rdWord 0x50000) 1 v.toNat] = none →
      After (.hatbandEnable v) s fun t => t.get 0 F.HBD_CTRL_EN = v.toNat ∧
        (v = false → s.on 0 F.HBD_CTRL_EN = true → t.get 0 F.HBD_STAT_SYNC_OK = 0 ∧ t.get 0 F.HBD_STAT_GSIG_OK = 0)) ∧
    (∀ v : Word, shOpen → s.trigOn 15 = true → s.log.flush = none → s.log.fifo.length < 32 →
      s.log.staging.any (State.repeats 15 0 (bitsN v.toNat F.REC_SOFT_SOFT.lo F.REC_SOFT_SOFT.w)) = false →
      After (.recSoftWrite v) s fun t => t.nat 0 F.REC_SOFT_SOFT = bitsN v.toNat F.REC_SOFT_SOFT.lo F.REC_SOFT_SOFT.w ∧
        ∃ x : Trig, t.log.fifo = s.log.fifo ++ [x] ∧ x.trig = 15 ∧ x.region = 0 ∧ x.tick = s.time ∧ x.code = t.nat 0 F.REC_SOFT_SOFT)

/-- A write to `ASC_TB_SEL` of a user that has an armed slot is refused with STATE, whatever its words, and changes nothing. -/
def Obligations.ArmedTimebaseKept : Prop :=
  ∀ (s : State) (h : Fin 2) (u : Fin 4) (i : Fin 8) (v : Word), s.alive = true → s.halfRun h.val = true → s.halfPresent h.val = true →
    s.on (State.ascB h.val u.val i.val) F.ASC_SST_ARMED = true →
    let a := halfB h.val + 0xA0000 + 4 * u.val
    exec (.registerWrite (BitVec.ofNat 32 a) v) s = .next s ∧
    (∀ c : Cmd, c.len = 2 → c.word 0 = a → opWriteReg.check s c = some (0x22, 0)) ∧
    (∀ c : Cmd, c.len = 3 → c.word 0 = a → opModifyReg.check s c = some (0x22, 0))

/-- While a commit or seal runs, a second one and every CFG_STAGE is answered with STATE, and CFG_READ of the slot being written answers with
that slot's words as they stand. -/
def Obligations.CommitRunning : Prop :=
  ∀ (c : Cmd) (s : State) (j : Commit), s.cfg.commit = some j → s.hears c.tr = true → c.len ≤ 255 →
    let r := s.refresh c.tr
    (∀ p ∈ [(Instr.cfgCommit, opCfgCommit), (.cfgSeal, opCfgSeal), (.cfgStage, opCfgStage)],
      c.scope = 0 → r.targetOk c = true → r.tagBusy c.tag.toNat = false →
        exec (p.1 c) s = .next (r.refuse c p.2.code 0x22 0)) ∧
    (c.word 0 = (if r.on 0 F.CHIP_STATUS_CFG_VALID then 1 else 0) → j.target = r.commitTarget →
      s.Does opCfgRead c (.cfgRead c) (r.reply c 0x10 0 0 (imgWords (r.cfg.slots.toList.getD j.target []) (c.word 1) (c.word 2))))

/-- CFG_STAGE puts its words into the staging area; no other word of it, no register, table, slot and no copy in force changes. TABLE_LOAD puts
its words into the table in force and into the staging area; no other table word and no register changes, and its tag is free again, to a loop
engine once no earlier command to that engine is at work. -/
def Obligations.StagedAndLoadedWords : Prop :=
  (∀ (c : Cmd) (s : State), s.admits opCfgStage c = true →
     After (.cfgStage c) s fun t =>
       (∀ k, k + 1 < c.len → imgGet t.cfg.staging (c.word 0 + 4 * k) = c.word (k + 1)) ∧
       (∀ o, o % 4 = 0 → (o < c.word 0 ∨ c.word 0 + 4 * (c.len - 1) ≤ o) → imgGet t.cfg.staging o = imgGet s.cfg.staging o) ∧
       t.regs = (s.refresh c.tr).regs ∧ t.tabs = s.tabs ∧ t.cfg.inForce = s.cfg.inForce ∧ t.cfg.slots = s.cfg.slots) ∧
  (∀ (c : Cmd) (s : State) (kind inst : Nat) (b : TableAt), s.admits opTableLoad c = true → State.loadTable c = some (kind, inst, b) →
     After (.tableLoad c) s fun t =>
       (∀ k, k + 2 < c.len → t.tabWord (b.off + 4 * (c.word 1 + k)) = c.word (k + 2) ∧
         imgGet t.cfg.staging (b.off + 4 * (c.word 1 + k)) = c.word (k + 2)) ∧
       (∀ o, o % 4 = 0 → (o < b.off + 4 * c.word 1 ∨ b.off + 4 * (c.word 1 + (c.len - 2)) ≤ o) → t.tabWord o = s.tabWord o) ∧
       t.regs = (s.refresh c.tr).regs ∧
       (c.scope ≠ 6 ∨ ((s.refresh c.tr).mil.busy.any fun e => e.scope == 6 && e.index == c.ix && e.fwd == none) = false →
         t.tagBusy c.tag.toNat = false))

/-- An admitted CFG_COMMIT or CFG_SEAL captures the staging area for the slot not in force; its tag is busy. COMMIT_FINISH: an image that fails
Step 2 ends the commit with BAD_PARAM and where it fails; a read-back that fails leaves the copy in force and the seal mark. An image that passes
becomes the copy in force and the content of its slot, with its sequence number, and a seal sets the seal mark. While the felt record of a commit
cannot be written (the recorder block is out of service, or a record ahead of it waits for a token), COMMIT_FINISH changes nothing: the model's own
reading (log entry 104). -/
def Obligations.CommitAndSeal : Prop :=
  (∀ (c : Cmd) (s : State),
     (s.admits opCfgCommit c = true → After (.cfgCommit c) s fun t => t.tagBusy c.tag.toNat = true ∧
       ∃ j, t.cfg.commit = some j ∧ j.image = s.cfg.staging ∧ j.sealing = false ∧ j.tag = c.tag.toNat ∧
         j.target = (s.refresh c.tr).commitTarget) ∧
     (s.admits opCfgSeal c = true → s.cfg.sealMark = false ∧ After (.cfgSeal c) s fun t => t.tagBusy c.tag.toNat = true ∧
       t.cfg.sealMark = false ∧
       ∃ j, t.cfg.commit = some j ∧ j.image = s.cfg.staging ∧ j.sealing = true ∧ j.keyed = true ∧ j.tag = c.tag.toNat)) ∧
  (∀ (s : State) (j : Commit) (ok : Bool), s.cfg.commit = some j →
     (∀ d, s.commitFault j.image = some d → exec (.commitFinish ok) s = .next (s.commitEnd 0x14 d)) ∧
     (s.commitFault j.image = none → ok = false →
       After (.commitFinish ok) s fun t => t.cfg.commit = none ∧ t.cfg.inForce = s.cfg.inForce ∧ t.cfg.sealMark = s.cfg.sealMark) ∧
     (s.commitFault j.image = none → ok = true → j.felt = true → s.feltWaits = true → exec (.commitFinish ok) s = .next s) ∧
     (s.commitFault j.image = none → ok = true → j.felt = false ∨ s.feltWaits = false → j.target < 2 →
       After (.commitFinish ok) s fun t => t.cfg.commit = none ∧ t.cfg.slots.toList[j.target]? = some t.cfg.inForce ∧
         imgGet t.cfg.inForce 8 = j.seq % 2 ^ 32 ∧ (∀ o, 0x40 ≤ o → imgGet t.cfg.inForce o = imgGet j.image o) ∧
         t.cfg.sealMark = (s.cfg.sealMark || j.sealing) ∧ t.on 0 F.CHIP_STATUS_CFG_VALID = true))

/-- What the writing, resetting and testing commands of the chip lead to. -/
def Obligations.ChipCommands : Prop :=
  ∀ (c : Cmd) (s : State),
    let r := s.refresh c.tr
    s.Does opWriteReg c (.writeReg c)
      (((r.writeWords (c.word 0) (c.wordsFrom 1) (r.writeSrc c)).holdEnable r c).reply c 0x04 0 0 []) ∧
    s.Does opModifyReg c (.modifyReg c)
      (let t := (r.modifyWord (c.word 0) (c.word 1) (c.word 2) (r.writeSrc c)).holdEnable r c
       t.reply c 0x05 0 0 [(r.occupy c 0x05 0).rdWord (c.word 0), (t.occupy c 0x05 0).rdWord (c.word 0)]) ∧
    (c.ix = 0 → s.Does opResetRegion c (.resetRegion c) (((r.reply c 0x09 0 0 []).put 0 H.shRst 1).shResetCheck)) ∧
    (∀ h, c.ix = h + 1 → s.Does opResetRegion c (.resetRegion c) ((r.takeDown (h + 1) .restarting 0x30).begin c 0x09 (h + 1))) ∧
    s.Does opSelftest c (.selftest c) ((r.begin c 0xF1 (16 * c.scope.toNat + c.ix)).selfTest c.tag.toNat (State.testBlocks c)) ∧
    s.Does opFaultClear c (.faultClear c) ((r.faultClear (State.unitOf c) (c.word 0)).reply c 0x71 0
      (r.clearable (State.unitOf c) (c.word 0)).length []) ∧
    (c.word 0 = 0 → s.Does opMastership c (.mastership c) (r.reply c 0x78 0 0 [r.master, r.nat 0 F.CHIP_EPOCH_EPOCH])) ∧
    (c.word 0 = 1 → s.Does opMastership c (.mastership c)
      (r.handOver.reply c 0x78 0 0 [r.handOver.master, r.handOver.nat 0 F.CHIP_EPOCH_EPOCH])) ∧
    (∀ ms, State.shareMembers c = some ms → ∀ t, r.shareRestage (c.word 0) (c.word 1) ms = some t →
      s.Does opShareCfg c (.shareCfg c) ((t.putGroup (c.word 0) (c.word 1) ms).reply c 0x48 0 0 [])) ∧
    (∀ t, r.trigRestage (c.word 0) (c.word 1 % 2) (c.word 1 / 2) (c.wordsFrom 3) = some t →
      s.Does opRecTriggerCfg c (.recTriggerCfg c)
        ((t.putTrig (c.word 0) (c.word 1 % 2) (c.word 1 / 2) (c.wordsFrom 3)).reply c 0x59 0 0 [])) ∧
    s.Does opMbxPost c (.mbxPost c) ((r.mbxPost (c.word 0) (c.wordsFrom 1)).reply c 0x68 0 0 []) ∧
    (c.word 0 = r.ownPos → s.Does opDblRing c (.dblRing c) ((r.dblRing (c.word 1)).reply c 0x6A 0 0 [])) ∧
    (c.word 0 ≠ r.ownPos → s.Does opDblRing c (.dblRing c)
      ((r.withPeer (c.word 0) fun q => { q with bell := q.bell ||| c.word 1 }).reply c 0x6A 0 0 []))

/-- SLEEP answers OK and starts the entry: READY low, the mode and the wake frames kept, the flush begun. TESTMUX_SEL gives each output its byte
of the payload and changes no other register. -/
def Obligations.SleepAndTestOutputs : Prop :=
  (∀ (c : Cmd) (s : State), s.admits opSleep c = true →
     After (.sleep c) s fun t => t.chip.phase = .sleepEntry ∧ t.chip.ready = false ∧ t.chip.selective = (c.word 0 == 1) ∧
       t.chip.wakeFrame = c.wordsFrom 1 ∧ t.log.flush = some .sleep ∧ t.tagBusy c.tag.toNat = s.tagBusy c.tag.toNat) ∧
  (∀ (c : Cmd) (s : State), s.admits opTestmux c = true →
     let r := s.refresh c.tr
     After (.testmuxSel c) s fun t => { r with mil := t.mil }.Sets t
       ((([F.TST_SEL_A_TMA0, F.TST_SEL_A_TMA1, F.TST_SEL_A_TMA2, F.TST_SEL_A_TMA3].zip (wordBytes (c.word 0))) ++
         ([F.TST_SEL_D0_TMD0, F.TST_SEL_D0_TMD1, F.TST_SEL_D0_TMD2, F.TST_SEL_D0_TMD3].zip (wordBytes (c.word 1))) ++
         ([F.TST_SEL_D1_TMD4, F.TST_SEL_D1_TMD5, F.TST_SEL_D1_TMD6, F.TST_SEL_D1_TMD7].zip (wordBytes (c.word 2)))).map
           fun (x : Fld × Nat) => (0, x.1, (x.2 : Int))))

/-! ### Station, axis, service and CAN commands -/

/-- When the commands of a station are allowed, beside a well-formed packet: STN_ARM and STN_STOP exactly, the others in which modes only. An admitted
STN_ARM starts the arming sequence of a station in OFF: its tag is busy, and no register but those of the sequence and `STN_STAT.FB_ACTIVE` changes.
-/
def Obligations.StationStates : Prop :=
  (∀ (c : Cmd) (s : State),
     (opStnArm.check s c = none ↔ s.mode c.ix = 0 ∧ s.on (stnB c.ix) H.arming = false ∧
       s.on (halfB (c.ix / 2)) F.SUP_STO_STAT_ACTIVE = false ∧
       (s.on (halfB (c.ix / 2)) F.BGD_CTRL_PRE_EN = true → s.on (halfB (c.ix / 2)) F.BGD_STAT_PRE_DONE = true) ∧
       ¬(s.on (stnB c.ix) F.OBS_CTRL_ARM_GUARD = true ∧ s.direct c.ix = true ∧ s.rotating c.ix = true) ∧ c.len = 0) ∧
     (opStnStop.check s c = none ↔ s.mode c.ix ∈ [0, 2, 3, 4, 5] ∧ c.len = 1 ∧ c.word 0 ≤ 3) ∧
     (opStnStop.check s c = none ∨ opStnStop.check s c = some (0x22, 0) ∨ opStnStop.check s c = some (0x14, 0)) ∧
     (opStnDiag.check s c = none → s.mode c.ix = 0) ∧ (opStnSizing.check s c = none → s.mode c.ix = 0) ∧
     (opStnRun.check s c = none → s.mode c.ix = 2) ∧
     (opStnSetpoint.check s c = none → s.mode c.ix = 2 ∨
       (s.mode c.ix = 3 ∧ s.get (stnB c.ix) F.STN_STAT_SOURCE = 0 ∧ s.nat (stnB c.ix) F.STN_STAT_KIND = c.word 0))) ∧
  (∀ (c : Cmd) (s : State), s.admits opStnArm c = true →
     s.mode c.ix = 0 ∧ s.on (halfB (c.ix / 2)) F.SUP_STO_STAT_ACTIVE = false ∧
     After (.stnArm c) s fun t => t.mode c.ix = 0 ∧ t.on (stnB c.ix) H.arming = true ∧ t.tagBusy c.tag.toNat = true ∧
       { s.refresh c.tr with mil := t.mil }.Only t [(stnB c.ix, H.arming), (stnB c.ix, H.armItems), (stnB c.ix, F.STN_STAT_FB_ACTIVE),
         (stnB c.ix, H.chgN), (stnB c.ix, H.chgNV), (stnB c.ix, H.chgNW), (stnB c.ix, H.bsChgT), (stnB c.ix, H.bsChg0)])

/-- STN_SETPOINT of a running station: the limited value becomes its command, DETAIL bit 0 says whether the limits changed it, and the host is
back. Of a station in ARMED it changes no command. The limits of STN_SETPOINT: the command never leaves them. Which limits bound which KIND, and that
the set-point of a station in ARMED reaches no command, is the model's own reading (log entry 11). -/
def Obligations.SetpointTaken : Prop :=
  (∀ (c : Cmd) (s : State), s.admits opStnSetpoint c = true →
     let r := s.refresh c.tr
     let v := r.setLimited c.ix (c.word 0) (r.setValue c (c.word 0))
     let d := if v = r.setValue c (c.word 0) then 0 else 1
     (r.mode c.ix = 3 → After (.stnSetpoint c) s fun t =>
       { r with mil := t.mil }.Sets t [(stnB c.ix, F.STN_STAT_FB_ACTIVE, 0), (stnB c.ix, H.hostCmd, H.hostCmd.wrap v)]) ∧
     (r.mode c.ix = 2 → After (.stnSetpoint c) s fun t => { r with mil := t.mil }.Sets t [(stnB c.ix, F.STN_STAT_FB_ACTIVE, 0)]) ∧
     (∀ i, PortOf c.tr i → After (.stnSetpoint c) s fun t =>
       (t.port i).out = (r.port i).out ++ [(.reply, rejection c 0x22 (if c.want then 1 else 0) d)] ∧ t.tagBusy c.tag.toNat = c.want)) ∧
  (∀ (s : State) (n : Nat) (v : Int),
     let i := 2048 * s.get (halfB (n / 2)) (if n % 2 = 0 then F.BGD_ILIM_ILIM0 else F.BGD_ILIM_ILIM1)
     let w := 2048 * s.get (stnB n) F.STN_WMAX_W_MAX
     let lo := s.get (stnB n) F.PF_LIM_LO_LIM_LO
     let hi := s.get (stnB n) F.PF_LIM_HI_LIM_HI
     (0 ≤ i → -i ≤ s.setLimited n 0 v ∧ s.setLimited n 0 v ≤ i ∧ (-i ≤ v → v ≤ i → s.setLimited n 0 v = v)) ∧
     (0 ≤ w → -w ≤ s.setLimited n 1 v ∧ s.setLimited n 1 v ≤ w ∧ (-w ≤ v → v ≤ w → s.setLimited n 1 v = v)) ∧
     (lo ≤ hi → lo ≤ s.setLimited n 2 v ∧ s.setLimited n 2 v ≤ hi ∧ (lo ≤ v → v ≤ hi → s.setLimited n 2 v = v)))

/-- STN_STOP in OFF answers OK and ends FB_ACTIVE (R297), nothing else; elsewhere its stop begins. STN_RUN takes a station from ARMED to RUN with its
source and kind, which a station whose pulses come from the pins does not take, STN_DIAG from OFF to DIAG; STN_SIZING begins its items. BANK_SWAP
marks its group as pending, with no answer yet. EVT_ARM sets a scheduler slot, and EVT_CANCEL clears one after the tick in which it falls. The model's
own readings: EVT_CANCEL at a tick (log entry 70), STN_RUN of a station whose pulses come from the pins (87), STN_SIZING without items (37). -/
def Obligations.StationCommands : Prop :=
  ∀ (c : Cmd) (s : State),
    let r := s.refresh c.tr
    (r.mode c.ix = 0 → s.Does opStnStop c (.stnStop c) ((r.put (stnB c.ix) F.STN_STAT_FB_ACTIVE 0).reply c 0x23 0 0 [])) ∧
    (r.mode c.ix ≠ 0 → s.Does opStnStop c (.stnStop c) ((r.begin c 0x23 c.ix).hostStop c.ix (c.word 0))) ∧
    s.Does opStnRun c (.stnRun c) ((r.enterRun c.ix (c.word 0 % 8) (c.word 0 / 16 % 8)).reply c 0x21 0 0 []) ∧
    (s.admits opStnRun c = true → r.mode c.ix = 2 ∧ After (.stnRun c) s fun t => t.mode c.ix = 3 ∧
      (s.get (stnB c.ix) F.GC_CTRL_PSRC = 0 →
        t.get (stnB c.ix) F.STN_STAT_SOURCE = c.word 0 % 8 ∧ t.get (stnB c.ix) F.STN_STAT_KIND = c.word 0 / 16 % 8) ∧
      (s.get (stnB c.ix) F.GC_CTRL_PSRC = 1 → t.nat (stnB c.ix) F.STN_STAT_SOURCE = s.nat (stnB c.ix) F.STN_STAT_SOURCE ∧
        t.nat (stnB c.ix) F.STN_STAT_KIND = s.nat (stnB c.ix) F.STN_STAT_KIND)) ∧
    s.Does opStnDiag c (.stnDiag c) (((r.begin c 0x24 c.ix).setMode c.ix 1).puts (stnB c.ix)
        ([(H.armItems, (r.diagItems c.ix (c.word 0) : Int)), (F.STN_STAT_FB_ACTIVE, 0)] ++ State.noCharge)) ∧
    (s.admits opStnDiag c = true → r.mode c.ix = 0 ∧ After (.stnDiag c) s fun t => t.mode c.ix = 1 ∧ t.tagBusy c.tag.toNat = true) ∧
    (c.word 0 ≠ 0 → s.Does opStnSizing c (.stnSizing c) ((r.begin c 0x25 c.ix).sizingBegin c.ix (c.word 0))) ∧
    (c.word 0 = 0 → s.Does opStnSizing c (.stnSizing c) ((r.begin c 0x25 c.ix).completeAll 0x25 c.ix 0 0 [0, 0])) ∧
    (s.admits opBankSwap c = true →
      exec (.bankSwap c) s = .next ((r.occupy c 0x28 (State.swapId (c.ix - 1) (c.word 0))).setBit (halfB (c.ix - 1)) F.LEN_SWAP_PENDING (c.word 0)
        true)) ∧
    (let hu := State.ascUser c
     s.Does opEvtArm c (.evtArm c) ((r.evtArm hu.1 hu.2 (c.word 0) (c.s48 1) (c.word 3 % 8) (c.word 3 / 256) (c.word 4 % 4)
        (c.word 4 / 4 == 1)).start c 0x50 (64 + State.ascId hu.1 hu.2 (c.word 0)) 0 []) ∧
     let a := r.ascCancelTick hu.1 hu.2 (c.word 0)
     s.Does opEvtCancel c (.evtCancel c) ((a.ascDisarm hu.1 hu.2 (c.word 0) 0x30).reply c 0x51 0
        (if a.ascFired hu.1 hu.2 (c.word 0) then 1 else 0) []))

/-- What the axis commands lead to; a move in progress that AXIS_MOVE replaces ends with ABORTED. A plain AXIS_MOVE or AXIS_RETARGET leaves the
axis in MOVE toward its target. -/
def Obligations.AxisCommands : Prop :=
  (∀ (c : Cmd) (s : State),
     let r := s.refresh c.tr
     (bitN (c.word 5) 1 = false → s.Does opAxisMove c (.axisMove c)
       (((r.axComplete c.ix 0x30).axMove c.ix ((r.axComplete c.ix 0x30).moveTarget c) (c.word 2 : Nat) (c.word 3 : Nat) (c.word 4 : Nat)).start
         c 0x30 c.ix 0 [])) ∧
     (∀ k, bitN (c.word 5) 1 = true → (r.axComplete c.ix 0x30).segOk c.ix = some k → s.Does opAxisMove c (.axisMove c)
       (((r.axComplete c.ix 0x30).axProfile c.ix k (c.word 4 : Nat)).start c 0x30 c.ix 0 [])) ∧
     s.Does opAxisRetarget c (.axisRetarget c) ((r.axMove c.ix
       (wrap48 (if bitN (c.word 5) 0 then r.get (axsB c.ix) F.AXS_TARGET_TARGET + c.s48 0 else c.s48 0)) (c.word 2 : Nat) (c.word 3 : Nat)
       (c.word 4 : Nat)).reply c 0x31 0 0 []) ∧
     (let a := r.axArrive c.ix
      (a.axSt c.ix ∈ [2, 3, 4, 5] → s.Does opAxisStop c (.axisStop c) ((a.axStop c.ix 1 0x30).reply c 0x32 0 0 [])) ∧
      (a.axSt c.ix ∉ [2, 3, 4, 5] → s.Does opAxisStop c (.axisStop c) (a.reply c 0x32 0 0 []))) ∧
     (let ds := r.groupMoves c
      let tab := if bitN (c.word 4) 1 then (ds.head?.map (·.1)).getD 0 + 1 else 0
      (State.groupLen ds ≠ 0 → s.Does opAxisGroup c (.axisGroup c)
         ((r.axGroup (c.word 0) ds (State.groupLen ds) (c.word 1 : Nat) (c.word 2 : Nat) (c.word 3 : Nat) tab).start c 0x33 (c.word 0) 0 [])) ∧
      (State.groupLen ds = 0 → s.Does opAxisGroup c (.axisGroup c) ((r.start c 0x33 (c.word 0) 0 []).completeAll 0x33 (c.word 0) 0 0))) ∧
     s.Does opAxisFollow c (.axisFollow c)
       ((r.axFollow c.ix (c.word 0) (c.word 1) (sgnN 32 (c.word 2)) (c.word 3 : Nat)).reply c 0x34 0 0 [])) ∧
  (∀ (c : Cmd) (s : State),
     (s.admits opAxisMove c = true → bitN (c.word 5) 1 = false → bitN (c.word 5) 0 = false → After (.axisMove c) s fun t =>
       t.axSt c.ix = 2 ∧ t.get (axsB c.ix) F.AXS_TARGET_TARGET = wrap48 (c.s48 0)) ∧
     (s.admits opAxisRetarget c = true → bitN (c.word 5) 0 = false → After (.axisRetarget c) s fun t =>
       t.axSt c.ix = 2 ∧ t.get (axsB c.ix) F.AXS_TARGET_TARGET = wrap48 (c.s48 0)))

/-- SVC_START takes the lowest free handle and answers with it; the values of SVC_PARAM wait for the next service tick; SVC_STOP begins a stop.
-/
def Obligations.ServiceCommands : Prop :=
  ∀ (c : Cmd) (s : State),
    let r := s.refresh c.tr
    (∀ k, k < 16 → r.svcLive k = false → (∀ j, j < k → r.svcLive j = true) →
      s.Does opSvcStart c (.svcStart c) ((r.svcBegin k (c.word 0) (c.word 1) (svcPairs (c.wordsFrom 2))).start c 0x40 k 0 [k])) ∧
    s.Does opSvcParam c (.svcParam c) ({ r with svcNew := r.svcNew ++ (svcPairs (c.wordsFrom 1)).filterMap fun (e : Nat × Nat) =>
      ((svcParams (r.nat (svcB (c.word 0)) F.SVC_STAT_SERVICE)).find? fun (p : SvcP) => p.ix == e.1).map fun (p : SvcP) => (c.word 0, e.1, p.value e.2)
      }.reply c 0x41 0 0 []) ∧
    s.Does opSvcStop c (.svcStop c) ((r.begin c 0x42 (c.word 0)).svcStop (c.word 0) (c.word 1))

/-- What the commands of a CAN controller lead to. CAN_SEND takes the lowest free TX entry and answers with its number; CAN_ACK returns the named
entries and no others. -/
def Obligations.CanCommands : Prop :=
  ∀ (c : Cmd) (s : State),
    let r := s.refresh c.tr
    let b := canB c.ix
    s.Does opCanCfg c (.canCfg c) ((r.canConfigure c).reply c 0x60 0 0 []) ∧
    (s.admits opCanRecover c = true → After (.canRecover c) s fun t => t.tagBusy c.tag.toNat = true ∧
      { r with mil := t.mil }.Sets t [(b, F.CAN_STAT_RECOVERING, 1)]) ∧
    (s.admits opTimeMaster c = true → c.word 0 ≠ 1 → After (.timeMaster c) s fun t => { r with mil := t.mil }.Sets t
      [(b, F.CAN_TM_ROLE, c.word 0), (b, F.CAN_TM_PRIO, c.word 1), (b, F.CAN_TM_PER_PER, c.word 2), (b, F.CAN_TM_SENDING, 0), (b, H.tmDup, 0),
       (b, H.tmSofOk, 0), (b, H.tmHave, 0), (b, H.tmWas, 0)]) ∧
    (s.admits opTimeMaster c = true → c.word 0 = 1 → After (.timeMaster c) s fun t => { r with mil := t.mil }.Sets t
      [(b, F.CAN_TM_ROLE, 1), (b, F.CAN_TM_PRIO, c.word 1), (b, F.CAN_TM_PER_PER, c.word 2), (b, F.CAN_TM_SENDING, 1), (b, H.tmDup, 0),
       (b, H.tmSofOk, 0), (b, H.tmHave, 0), (b, H.tmWas, 0), (b, F.CAN_NT_OFS_OFS, F.CAN_NT_OFS_OFS.wrap (r.get 0 F.HBD_OFS_OFS))]) ∧
    (∀ e l, r.txFree c.ix = e :: l → s.Does opCanSend c (.canSend c)
      ((r.withCan c.ix fun q => { q with tx := q.tx ++ [{ ix := e, fr := State.sendFrame c }] }).start c 0x63 (State.sendArg c.ix e) 0 [e])) ∧
    (s.admits opCanAck c = true → After (.canAck c) s fun t =>
      (t.canq c.ix).rx = (r.canq c.ix).rx.filter fun e => !(r.hostWalk c.ix (c.word 0) (c.word 1)).contains e.ix) ∧
    s.Does opCanAck c (.canAck c) ((r.canFree c.ix (r.hostWalk c.ix (c.word 0) (c.word 1))).reply c 0x65 0 0 [])

/-! ### Supply, start, reset and sleep -/

/-- The supply's, the buck-boost's and the presence key's levels reach their bits (what the rows carry of them: log entry 64), and nothing else
changes. Brown-out, a collapsed gate supply and a supply below the shutdown-latch threshold leave the chip without supply, with no flush; the last of
them clears the latch. -/
def Obligations.SupplyEvents : Prop :=
  (∀ (s : State) (above : Bool),
     (s.chip.phase ≠ .off → s.chip.phase ≠ .asleep → SetsOnly .vgdSettled s [(0, F.CHIP_PWR_STAT_VGD_OK, 1), (0, H.vgdLow, 0)]) ∧
     (s.alive = true → SetsOnly (.buckBoostCurrentLimit true) s [(0, F.CHIP_PWR_STAT_BB_ILIM_SEEN, 1), (0, F.CHIP_PWR_STAT_VGD_OK, 0)] ∧
       SetsOnly (.buckBoostCurrentLimit false) s [(0, F.CHIP_PWR_STAT_BB_ILIM_SEEN, 1)]) ∧
     (s.chip.phase ≠ .off → s.chip.phase ≠ .asleep → SetsOnly (.vinOvervoltage above) s [(0, F.CHIP_PWR_STAT_VIN_OV, b2i above),
       (0, F.CHIP_PWR_STAT_VIN_OV_SEEN, if above && !s.on 0 F.CHIP_PWR_STAT_VIN_OV then 1 else s.get 0 F.CHIP_PWR_STAT_VIN_OV_SEEN)]) ∧
     SetsOnly .powerFailRecovery s [(0, F.CHIP_PWR_STAT_PFW, 0)] ∧
     SetsOnly (.presenceKeyValid false) s [(0, F.CHIP_PINS_PRES_LOW, 1)] ∧ SetsOnly (.presenceKeyRelease false) s [(0, F.CHIP_PINS_PRES_LOW, 0)] ∧
     (s.alive = true → s.shRun = true → SetsOnly (.presenceKeyValid true) s [(0, F.CHIP_PINS_PRES_LOW, 1), (0, F.CHIP_PINS_PRES_VALID, 1)]) ∧
     (s.alive = true → (∀ j, s.cfg.commit = some j → j.keyed = false) →
       SetsOnly (.presenceKeyRelease true) s [(0, F.CHIP_PINS_PRES_LOW, 0), (0, F.CHIP_PINS_PRES_VALID, 0)]) ∧
     (∀ j, s.alive = true → s.cfg.commit = some j → j.keyed = true → exec (.presenceKeyRelease true) s =
       .next ((s.puts 0 [(F.CHIP_PINS_PRES_LOW, 0), (F.CHIP_PINS_PRES_VALID, 0)]).commitEnd 0x20 0))) ∧
  (∀ s : State,
     (s.chip.phase ≠ .off → After .brownout s fun t => s.Unpowered t .off) ∧
     (s.chip.phase ∈ [.starting, .restricted, .running, .sleepEntry, .reset, .resetFlush] → After .vgdCollapse s fun t => s.Unpowered t .off) ∧
     (s.chip.phase ≠ .off → After .shutdownLatchClear s fun t => s.Unpowered t .off ∧ t.chip.dieLatch = false) ∧
     (s.chip.phase = .off → exec .shutdownLatchClear s = .next { s with chip := { s.chip with dieLatch := false, vinLost := true } }))

/-- POWER_ON, WAKE, the release of RESET_N and of the test port start a chip that nothing holds, with its fuses' part, at chip time 0, with the
cause shown: power-on or brown-out, a wake and its path; the end of a chip-wide reset's flush shows the RESET_N pin or the arbiter, starts a chip that
nothing holds, and a later release keeps what it showed. That the time is 0 alike after each is the model's own reading (log entry 8), and so are the
straps that a start without a new sampling takes, those sampled last (28). -/
def Obligations.StartBegins : Prop :=
  ∀ (s : State) (b : Boot) (p : Part) (alt : Bool), s.fusePart = some (p, alt) →
    (s.chip.phase = .off → s.chip.dieLatch = false → s.chip.resetLow = false → s.chip.tapHold = false → After (.powerOn b) s fun t =>
      t.Started b p alt ∧ t.get 0 (if s.chip.vinLost then F.CHIP_RST_CAUSE_POR else F.CHIP_RST_CAUSE_BROWNOUT) = 1) ∧
    (∀ w, s.chip.phase = .asleep → s.wakeArmed w = true → s.chip.resetLow = false → s.chip.tapHold = false → After (.wake w b) s fun t =>
      t.Started b p alt ∧ t.get 0 F.CHIP_RST_CAUSE_WAKE = 1 ∧ t.get 0 (State.wakeField w) = 1) ∧
    (let kept (t : State) : Prop := ∀ f ∈ [F.CHIP_RST_CAUSE_POR, F.CHIP_RST_CAUSE_RESET_PIN, F.CHIP_RST_CAUSE_BROWNOUT, F.CHIP_RST_CAUSE_ARBITER,
       F.CHIP_RST_CAUSE_WAKE], t.get 0 f = s.get 0 f
     s.chip.phase = .reset →
       (s.chip.resetLow = true → s.chip.tapHold = false → After (.resetNRelease b) s fun t => t.Started b p alt ∧ kept t) ∧
       (s.chip.resetLow = false → After .tapReset s fun t => t.Started s.chip.boot p alt ∧ t.chip.ir = .idcode ∧ kept t) ∧
       (∀ ir : BitVec 8, ir ∉ [3, 4, 5] → s.chip.resetLow = false → After (.tapUpdateIr ir) s fun t => t.Started s.chip.boot p alt ∧ kept t)) ∧
    (s.log.flush = some .reset → After .flushComplete s fun t =>
      t.get 0 (if s.chip.arbPend then F.CHIP_RST_CAUSE_ARBITER else F.CHIP_RST_CAUSE_RESET_PIN) = 1 ∧
      (s.chip.resetLow = true ∨ s.chip.tapHold = true → t.chip.phase = .reset) ∧
      (s.chip.resetLow = false → s.chip.tapHold = false → t.Started s.chip.boot p alt))

/-- A chip whose two fuse copies both give no valid part stays in reset at POWER_ON, and so does one that RESET_N or the test port holds; a wake event
during sleep entry waits, of several the first (log entry 67), and one that is not armed changes nothing but the level of its pin. START_NO_REFERENCE
opens the restricted command set with every present region on its fallback oscillator; START_UP_COMPLETE raises READY. -/
def Obligations.StartProceeds : Prop :=
  (∀ (s : State) (b : Boot),
     (s.chip.phase = .off → s.chip.dieLatch = false → (s.chip.resetLow = true ∨ s.chip.tapHold = true ∨
         (s.chip.fuseA = none ∧ s.chip.fuseB = none)) →
       After (.powerOn b) s fun t => t.chip.phase = .reset ∧ t.chip.regions = s.chip.regions ∧ t.chip.ready = s.chip.ready) ∧
     (∀ w, let u := match w with | .pin low => s.put 0 F.CHIP_PINS_WAKE_LOW (b2i low) | _ => s
       (s.chip.phase = .sleepEntry → s.wakeArmed w = true → exec (.wake w b) s =
         .next { u with chip := { s.chip with boot := b, wakePend := some (s.chip.wakePend.getD w) } }) ∧
       (s.chip.phase ∉ [.asleep, .sleepEntry] ∨ s.wakeArmed w = false → exec (.wake w b) s = .next u))) ∧
  (∀ s : State,
     (s.chip.phase = .starting → After .startNoReference s fun t => t.chip.phase = .restricted ∧ t.regionRun 0 = true ∧ t.regionRun 1 = true ∧
       (s.dual = true → t.regionRun 2 = true) ∧ t.get 0 F.CHIP_STATUS_CLK_FB = s.regionMask ∧ t.get 0 F.CHIP_STATUS_TB_SRC = 0) ∧
     (s.chip.phase = .restricted → After .startUpComplete s fun t => t.chip.phase = .running ∧ t.chip.ready = true))

/-- The two fuse copies: with two valid copies that differ in a field the part that enables fewer functions is used and FUSE_ALT is set; with one
valid copy that one, and FUSE_ALT is set; with none no part. -/
def Obligations.FuseCopies : Prop :=
  ∀ (s : State) (a b : Part),
    (s.chip.fuseA = some a → s.chip.fuseB = some b →
      ∃ p, s.fusePart = some (p, a != b || s.chip.grade.1 != s.chip.grade.2) ∧ (p = a ∨ p = b) ∧
      (State.partBits p).2.1 = min (State.partBits a).2.1 (State.partBits b).2.1 ∧
      ((State.partBits a).2.1 = (State.partBits b).2.1 → (State.partBits p).2.2 = min (State.partBits a).2.2 (State.partBits b).2.2)) ∧
    (s.chip.fuseA = some a → s.chip.fuseB = none → s.fusePart = some (a, true)) ∧
    (s.chip.fuseA = none → s.chip.fuseB = some b → s.fusePart = some (b, true)) ∧
    (s.chip.fuseA = none → s.chip.fuseB = none → s.fusePart = none)

/-- RESET_N while the chip is out of reset, an intrusive test instruction and an arbiter error begin the chip-wide reset: ports and tags stop, every
region is in reset with its outputs in their reset states, READY is low and the flush runs. RESET_N otherwise only holds the chip; a test instruction
that is not intrusive holds nothing. -/
def Obligations.ResetBegins : Prop :=
  ∀ s : State,
    let down (t : State) : Prop := t.chip.phase = .resetFlush ∧ t.chip.ready = false ∧ (∀ r, t.regionRun r = false) ∧ t.mil.busy = [] ∧
      (∀ i, (t.port i).out = []) ∧ t.log.flush = some .reset ∧ ∀ h, t.HalfQuiet h
    (s.chip.phase ∈ [.starting, .restricted, .running, .sleepEntry] →
      (After .resetN s fun t => down t ∧ t.chip.resetLow = true) ∧
      (∀ ir : BitVec 8, ir ∈ [3, 4, 5] → After (.tapUpdateIr ir) s fun t => down t ∧ t.chip.ir = State.tapInstr ir.toNat ∧ t.chip.tapHold = true)) ∧
    (s.chip.phase ∉ [.starting, .restricted, .running, .sleepEntry] →
      exec .resetN s = .next { s with chip := { s.chip with resetLow := true } }) ∧
    (s.chip.phase ∈ [.starting, .restricted, .running, .sleepEntry] → After .arberr s fun t => down t ∧ t.chip.arbPend = true) ∧
    (∀ ir : BitVec 8, ir ∉ [3, 4, 5] → s.chip.phase ∉ [.off, .asleep, .reset] →
      exec (.tapUpdateIr ir) s = .next { s with chip := { s.chip with ir := State.tapInstr ir.toNat, tapOff := false, tapHold := false } })

/-- A power-fail warning of a running chip is reported, ends a commit, and starts the flush; the stops of stations and axes follow where PFW_STOP asks
for them, and where it does not stations and axes keep their modes. The end of a flush: none runs any more; a power-fail flush is reported done, a die
shutdown is complete, a reset that is still held waits; SLEEP_ENTRY_COMPLETE leaves the chip asleep with every register in reset but for the levels of
input pins, and its gates and brakes low. -/
def Obligations.PowerFailAndFlush : Prop :=
  (∀ s : State, s.chip.phase = .running → s.on 0 F.CHIP_PWR_STAT_PFW = false → s.log.flush = none →
     let n := s.puts 0 [(F.CHIP_PWR_STAT_PFW, 1), (F.CHIP_PWR_STAT_PFW_SEEN, 1), (F.CHIP_PWR_STAT_FLUSH_DONE, 0)]
     let m := n.notice 7 [n.rdWord 0x60004]
     let t := ((m.ownTrigger 8 (m.rdWord 0x60004 % 65536)).startFlush .powerFail).commitEnd 0x30 0
     t.get 0 F.CHIP_PWR_STAT_PFW = 1 ∧ t.get 0 F.CHIP_PWR_STAT_PFW_SEEN = 1 ∧ t.get 0 F.CHIP_PWR_STAT_FLUSH_DONE = 0 ∧
       t.log.flush = some .powerFail ∧ t.cfg.commit = none ∧ (∀ n, t.mode n = s.mode n) ∧ (∀ n, t.axSt n = s.axSt n) ∧
       (s.on 0 F.CHIP_PWR_CTRL_PFW_STOP = false → exec .powerFailWarning s = .next t) ∧
       (s.on 0 F.CHIP_PWR_CTRL_PFW_STOP = true →
         let u := t.each (t.stations.filter fun n => t.halfRun (n / 2)) fun n u =>
           if u.mode n = 0 then u
           else if u.mode n = 6 then (u.put (stnB n) F.STN_STAT_MBRK 0).stnRaise n (State.stnCode n 2 0xDA)
           else u.faultStop n (State.stnCode n 2 0xDA) true
         exec .powerFailWarning s = .next (u.each (u.axes.filter fun n => u.halfRun (n / 2)) fun n v => v.axPowerFail n))) ∧
  (∀ s : State,
     (s.log.flush = some .powerFail → After .flushComplete s fun t => t.log.flush = none ∧ t.log.fifo = [] ∧
       (s.oos .recorder = false → t.log.staging = []) ∧ t.get 0 F.CHIP_PWR_STAT_FLUSH_DONE = 1) ∧
     (s.log.flush = some .shutdown → After .flushComplete s fun t => t.log.flush = none ∧ t.chip.phase = .shutdown ∧ s.PinsOnly t) ∧
     (s.log.flush = some .sleep → After .flushComplete s fun t => t.log.flush = none ∧ t.log.fifo = [] ∧
       (s.oos .recorder = false → t.log.staging = []) ∧ t.chip = s.chip) ∧
     (s.log.flush = some .reset → s.chip.resetLow = true → After .flushComplete s fun t => t.log.flush = none ∧ t.chip.phase = .reset) ∧
     (s.chip.phase = .sleepEntry → s.chip.wakePend = none → After .sleepEntryComplete s fun t => t.chip.phase = .asleep ∧ s.PinsOnly t ∧
       (∀ n leg, t.pin (.gateHigh n leg) = .low ∧ t.pin (.gateLow n leg) = .low ∧ t.pin (.mbrk n) = .low ∧
         t.pin .faultN = .z) ∧ t.tabs = [] ∧ (∀ r, t.regionRun r = false) ∧ t.log.flush = none))

/-- Losing the reference counts, once until it returns, and moves a region to its fallback oscillator through 100 µs of holdover; its return is shown
and, where FB_RETURN asks for it, moves the region back; a gate supply below its limit is shown and trips each station of the running halves. That a
region already on its fallback oscillator counts a loss, once until its return, is the model's own reading (log entry 30); so are the length of the
holdover and XTAL_OK as the state of all regions (66). -/
def Obligations.ClockAndGateSupply : Prop :=
  ∀ (s : State) (r : Fin 3), s.alive = true → (r = 0 ∨ s.halfPresent (r.val - 1) = true) →
    (bitN (s.nat 0 H.refBad) r.val = false →
      let l := [(0, H.refBad, H.refBad.wrap (orI (s.get 0 H.refBad) (2 ^ r.val))), (0, F.CHIP_CLK_STAT_XTAL_LOST, 1),
        (0, F.CHIP_CLK_STAT_XTAL_OK, 0), (0, F.CHIP_CLK_STAT_XTAL_LOSS_CNT, s.counted 0 F.CHIP_CLK_STAT_XTAL_LOSS_CNT)]
      (bitN (s.nat 0 F.CHIP_STATUS_CLK_FB) r.val = true → SetsOnly (.referenceLoss r) s l) ∧
      (bitN (s.nat 0 F.CHIP_STATUS_CLK_FB) r.val = false → ∃ u : State,
        s.Sets u (l ++ [(0, F.CHIP_STATUS_CLK_FB, F.CHIP_STATUS_CLK_FB.wrap (orI (s.get 0 F.CHIP_STATUS_CLK_FB) (2 ^ r.val))),
          (8 * r.val, H.holdEnd, H.holdEnd.wrap (s.time + 40000 : Nat))]) ∧
        exec (.referenceLoss r) s = .next
          (u.each (State.halfCans r.val) fun c v => if v.halfRun (c % 2) then v.canClkOff c else v).linksFollow)) ∧
    (bitN (s.nat 0 H.refBad) r.val = true → exec (.referenceLoss r) s = .next s) ∧
    (bitN (s.nat 0 F.CHIP_STATUS_CLK_FB) r.val = true →
      let bad := H.refBad.wrap (clrI (s.get 0 H.refBad) (2 ^ r.val))
      let l := [(0, H.refBad, bad), (0, F.CHIP_CLK_STAT_XTAL_OK, b2i (decide (bad = 0)))]
      (s.on 0 F.CHIP_CLK_CTRL_FB_RETURN = false ∨ s.chip.phase = .restricted → SetsOnly (.referenceReturn r) s l) ∧
      (s.on 0 F.CHIP_CLK_CTRL_FB_RETURN = true → s.chip.phase ≠ .restricted → ∃ u : State,
        s.Sets u (l ++ [(0, F.CHIP_STATUS_CLK_FB, F.CHIP_STATUS_CLK_FB.wrap (clrI (s.get 0 F.CHIP_STATUS_CLK_FB) (2 ^ r.val))),
          (8 * r.val, H.holdEnd, H.holdEnd.wrap (s.time + 40000 : Nat))]) ∧
        let t := u.each (State.halfCans r.val) fun c v => if v.halfRun (c % 2) then v.canClkOn c else v
        (s.ringClock = true → exec (.referenceReturn r) s = .next t) ∧
        (s.ringClock = false → exec (.referenceReturn r) s = .next (t.each [Link.west, Link.east] fun l v => v.linkRetrain l)))) ∧
    (bitN (s.nat 0 F.CHIP_STATUS_CLK_FB) r.val = false → exec (.referenceReturn r) s = .next s) ∧
    exec .vgdUv s = .next ((s.puts 0 [(F.CHIP_PWR_STAT_VGD_UV_SEEN, 1), (F.CHIP_PWR_STAT_VGD_OK, 0), (H.vgdLow, 1)]).each
      ((s.puts 0 [(F.CHIP_PWR_STAT_VGD_UV_SEEN, 1), (F.CHIP_PWR_STAT_VGD_OK, 0), (H.vgdLow, 1)]).stations.filter fun n => s.halfRun (n / 2))
      fun n u => u.supplyTrip n)

/-! ### Host transports -/

/-- What arrives on SPI, UART or a tunnel, and what they send. The checks of a whole packet before its tag is looked at: LENGTH, then CRC, then
CLASS; a packet without a complete header is counted and not answered. -/
def Obligations.PacketsArrive : Prop :=
  (∀ (s : State),
     (∀ bs : List Byte, s.portsUp = true → s.oos .spi = false →
       let q := s.markHead 0
       let sent (bs p : List Byte) : List Byte := (p ++ List.replicate bs.length 0xFF).take bs.length
       let fetch : Prop := 4 ≤ bs.length ∧ (bs.take 4).all (· == 0) = true
       (∀ k p l, (q.port 0).out = (k, p) :: l → fetch →
         (p.bytes.length ≤ bs.length → exec (.spiWindow bs) s = .next
           ((((q.withMil fun m => { m with miso := sent bs p.bytes }).withPort 0 fun x => { x with out := l }).packetLeft 0 p).shResetCheck)) ∧
         (bs.length < p.bytes.length → exec (.spiWindow bs) s =
           .next ((q.withMil fun m => { m with miso := sent bs p.bytes }).shResetCheck))) ∧
       ((q.port 0).out = [] → ¬fetch → q.takes .spi = true → exec (.spiWindow bs) s =
         .next (((q.withMil fun m => { m with miso := List.replicate bs.length 0xFF }).packetIn .spi bs).shResetCheck))) ∧
     (∀ bs : List Byte, s.takes .uart = true → s.mil.uartBad = false → exec (.uartPacketReceived bs) s = .next (s.packetIn .uart bs)) ∧
     (∀ bs : List Byte, s.takes .uart = true → s.mil.uartBad = false → bs.length < 8 →
       SetsOnly (.uartGapTimeout bs) s [(0, F.MIL_ERR_CNT_RUNT, s.counted 0 F.MIL_ERR_CNT_RUNT)]) ∧
     (∀ bs : List Byte, s.takes .uart = true → s.mil.uartBad = false → 8 ≤ bs.length → After (.uartGapTimeout bs) s fun t =>
       t.mil.uartBad = true ∧ t.get 0 F.MIL_ERR_CNT_LEN = s.counted 0 F.MIL_ERR_CNT_LEN) ∧
     exec .uartIdleResync s = .next { s with mil := { s.mil with uartBad := false } } ∧
     (∀ k p l, s.portsUp = true → s.oos .uart = false → s.on 0 H.shRst = false → ((s.markHead 1).port 1).out = (k, p) :: l →
       After .uartPacketSend s fun t => t.mil.uartTx = 0x3C :: 0x5A :: p.bytes ∧ (t.port 1).out = l) ∧
     (∀ (k : Fin 4) (fd : Bool) (d : List Byte), s.canServes k →
       (s.canOn k.val = true → s.on (canB k) F.CAN_CTRL_LBK = false → s.get (canB k) H.cnFin ≠ 1 →
         exec (.tunnelSegmentReceived k fd d) s = .next (s.tunnelIn k fd d)) ∧
       (s.canOn k.val = false ∨ s.on (canB k) F.CAN_CTRL_LBK = true → exec (.tunnelSegmentReceived k fd d) s = .next s)) ∧
     (∀ (k : Fin 4) (d : List Byte), s.takes (.can k) = true → 2 ≤ d.length → s.tunAsm k.val = none →
       s.tunnelIn k false d = (s.recDown k.val).tunDrop k.val ((d.getD 1 0).toNat % 64) (bitN (d.getD 0 0).toNat 6)) ∧
     (∀ (k : Fin 4) (tag : Nat) (isLast : Bool), (s.tunDrop k.val tag isLast).get 0 F.MIL_TUN_STAT_TUN_DISC =
       s.counted 0 F.MIL_TUN_STAT_TUN_DISC ∧ (s.tunDrop k.val tag isLast).mil.ports = s.mil.ports) ∧
     (∀ (k : Fin 4) (a : TunAsm), s.shRun = true → s.tunAsm k.val = some a →
       (a.dead = false → exec (.tunnelSegmentTimeout k) s = .next (s.tunDrop k.val a.segTag false)) ∧
       (a.dead = true → exec (.tunnelSegmentTimeout k) s = .next s))) ∧
  (∀ (s : State) (tr : Transport) (bs : List Byte),
     (bs.length < 8 → s.packetIn tr bs = s.bump 0 F.MIL_ERR_CNT_RUNT) ∧
     (8 ≤ bs.length →
       let ws := wordsOf bs
       let n := lengthOf (ws.getD 0 0)
       let c := cmdOf tr ws
       (n % 4 ≠ 0 ∨ 1020 < n ∨ bs.length < 12 + n → ∃ t : State,
         s.packetIn tr bs = (t.refuse { c with payload := [] } (opcodeOf (ws.getD 0 0)) 0x11 0) ∧
         ({ s with mil := { s.mil with uartBad := tr == Transport.uart || s.mil.uartBad } }).Sets t [(0, F.MIL_ERR_CNT_LEN, s.counted 0 F.MIL_ERR_CNT_LEN)]) ∧
       (n % 4 = 0 → n ≤ 1020 → 12 + n ≤ bs.length → crcOk ws = false →
         s.packetIn tr bs = (s.bump 0 F.MIL_ERR_CNT_CRC).refuse c (opcodeOf (ws.getD 0 0)) 0x12 0) ∧
       (n % 4 = 0 → n ≤ 1020 → 12 + n ≤ bs.length → crcOk ws = true → classOf (ws.getD 0 0) ≠ 0 →
         s.packetIn tr bs = (s.refresh tr).refuse c (opcodeOf (ws.getD 0 0)) 0x10 0) ∧
       (n % 4 = 0 → n ≤ 1020 → 12 + n ≤ bs.length → crcOk ws = true → classOf (ws.getD 0 0) = 0 →
         s.packetIn tr bs = (s.refresh tr).accept (opcodeOf (ws.getD 0 0)) c)))

/-- A completion that is late ends with TIMEOUT and its work is abandoned, of each opcode as the model reads it (log entry 20); a forwarded command
without an answer likewise, one that has its ACCEPTED only once its target leaves REACH (the same entry); what the other chip of
a forwarded command sends back goes to the command's own transport. A command that another chip forwards runs as one from the hatband; the expiry
of the host watchdog is reported and sends every station of a half that is not down to its fallback. -/
def Obligations.WaitsAndHosts : Prop :=
  (∀ (s : State) (tag : BitVec 6) (b : Busy), s.shRun = true →
     (s.mil.busy.find? (fun x => x.tag == tag.toNat && x.fwd == none) = some b →
       (b.op ∈ [0x09, 0x23, 0x42] → exec (.completionTimeout tag) s = .next (s.completeB b 0x31 0 [])) ∧
       (b.op ∈ [0x12, 0x13] → exec (.completionTimeout tag) s = .next (s.commitEnd 0x31 0)) ∧
       (b.op = 0x20 → exec (.completionTimeout tag) s = .next ((s.puts (stnB b.arg) [(H.arming, 0), (H.armItems, 0)]).completeB b 0x31 0 [])) ∧
       (b.op = 0x24 → exec (.completionTimeout tag) s = .next (((s.put (stnB b.arg) H.armItems 0).setMode b.arg 0).completeB b 0x31 0 [])) ∧
       (b.op = 0x25 → exec (.completionTimeout tag) s =
         .next ((((s.turnOff b.arg).endSequences b.arg).setMode b.arg 0).completeB b 0x31 0 [])) ∧
       (b.op = 0xF1 → exec (.completionTimeout tag) s = .next ((s.stopTest tag.toNat).completeB b 0x31 0 []))) ∧
     (s.mil.busy.find? (fun x => x.tag == tag.toNat && x.fwd == none) = none → exec (.completionTimeout tag) s = .next s) ∧
     (∀ p : Nat, s.mil.busy.find? (fun x => x.tag == tag.toNat && x.fwd.isSome) = some b → b.fwd = some p →
       let replied : Prop := b.late.any Packet.final = true ∨ ((b.arg = 1 ∨ b.late ≠ []) ∧ (p = s.ownPos ∨ s.reaches p = true))
       (replied → exec (.forwardTimeout tag) s = .next s) ∧
       (¬replied → After (.forwardTimeout tag) s fun t => t.get 0 F.MIL_TUN_STAT_FWD_TO = s.counted 0 F.MIL_TUN_STAT_FWD_TO ∧
         (b.arg = 1 → t.tagBusy b.tag = false) ∧ (∀ x ∈ t.hat.fwdOut, x.1 = p → x.2.getD 0 0 / 2 ^ 26 % 64 ≠ b.tag))) ∧
     (∀ (p : Fin 8) (ws : List Word), s.alive = true → crcOk (natsOf ws) = true →
       let q := State.packetOf (natsOf ws)
       s.mil.busy.find? (fun x => x.tag == q.tag && x.fwd == some p.val) = some b →
       (b.late.any Packet.final = true → exec (.forwardedReplyReceived p ws) s = .next s) ∧
       (b.late.any Packet.final = false → b.arg = 1 → q.cls ≠ 1 ∨ q.status ≠ 1 →
         exec (.forwardedReplyReceived p ws) s = .next ((s.freeTag q.tag).answer b.tr q)) ∧
       (b.late.any Packet.final = false → b.arg = 1 → q.cls = 1 → q.status = 1 →
         exec (.forwardedReplyReceived p ws) s = .next (s.answer b.tr q)) ∧
       (q.cls = 1 → q.status = 1 → After (.forwardedReplyReceived p ws) s fun t => t.tagBusy q.tag = true ∧ t.regs = s.regs)) ∧
     (∀ (p : Fin 8) (ws : List Word), crcOk (natsOf ws) = false → exec (.forwardedReplyReceived p ws) s = .next s)) ∧
  ((∀ (s : State) (p : Fin 8) (ws : List Word),
     let c := cmdOf (.ring p { tag := 0, op := 0, want := false, snap := false, index := 0 }) (natsOf ws)
     let tr : Transport := .ring p (c.outer (opcodeOf ((natsOf ws).getD 0 0)))
     (s.hatOn = true → s.alive = true → s.shRun = true → 3 ≤ c.len → 4 * c.len = 12 + lengthOf ((c.wordsFrom 0).getD 0 0) →
       exec (.forwardedCommand p ws) s = .next (s.innerPacket (State.acceptAt 100) tr (c.wordsFrom 0)))) ∧
   (∀ s : State, s.alive = true → s.shRun = true → s.mil.wdArmed = true → s.on 0 F.MIL_HOST_WD_TIMEOUT_MS = true →
     s.get 0 H.wdStart ≠ (s.time : Int) →
     let u := ((((s.puts 0 [(F.MIL_STAT_HOST_LOST, 1), (F.MIL_STAT_HOST_LOST_SEEN, 1)]).withMil fun m => { m with wdArmed := false }).notice 3
       [s.nat 0 F.MIL_HOST_WD_TIMEOUT_MS + 65536 * s.nat 0 F.MIL_HOST_WD_SOURCE]).trigger 0 7 0)
     exec .hostWatchdogExpiry s = .next (u.each (u.stations.filter fun n => !u.halfDown (n / 2)) fun n v => v.fallback n)) ∧
   (∀ s : State, s.mil.wdArmed = false ∨ s.get 0 H.wdStart = (s.time : Int) → exec .hostWatchdogExpiry s = .next s))

/-! ### Stations: position and current loop -/

/-- The count follows the coarse edges of a configured encoder that have held for their line's filter's clocks, and the fine samples refine it; the
radius follows every pair of samples, which a resolver gives only at its carrier's delayed peaks, where its tracking loop takes it in; edges and
crossings that come too fast and an acquisition that finds nothing are position faults; what does not belong to the configured source changes nothing
but the input levels. A position fault clears VALID, shows its cause and moves no count, whatever the station's mode. The model's own readings: a
resolver's speed judged by its crossings and its loop as an open function (log entry 75), one interval of successive edges as the edge rate (91), the
radius as the integer part of its root (93). -/
def Obligations.PositionRows : Prop :=
  (∀ (s : State) (n : Fin 4) (t : BitVec 64), s.stnServes n →
     let b := stnB n.val
     let a := s.advance t.toNat
     (∀ (la lb : Bool) (hold : BitVec 16),
       let k := s.nat b F.PF_CTRL_FLT_N
       let u := (s.lineLevel n.val H.pfRA H.pfTA la t.toNat).lineLevel n.val H.pfRB H.pfTB lb t.toNat
       let ta := u.nat b H.pfTA + 4 * k
       let tb := u.nat b H.pfTB + 4 * k
       let passA : Prop := s.on b H.pfA ≠ la ∧ ta ≤ t.toNat + 4 * hold.toNat
       let passB : Prop := s.on b H.pfLB ≠ lb ∧ tb ≤ t.toNat + 4 * hold.toNat
       (¬passA → ¬passB → exec (.positionCoarseEdge n t la lb hold) s = .next (u.advance t.toNat)) ∧
       (passA → ¬passB → exec (.positionCoarseEdge n t la lb hold) s = .next (u.linesPass n.val ta la (s.on b H.pfLB))) ∧
       (¬passA → passB → exec (.positionCoarseEdge n t la lb hold) s = .next (u.linesPass n.val tb (s.on b H.pfA) lb)) ∧
       (passA → passB → ta = tb → exec (.positionCoarseEdge n t la lb hold) s = .next (u.linesPass n.val ta la lb)) ∧
       (s.on b H.pfRA = s.on b H.pfA → s.on b H.pfRB = s.on b H.pfLB → hold.toNat < k → la ≠ s.on b H.pfA → lb = s.on b H.pfLB →
         SetsAt (.positionCoarseEdge n t la lb hold) s t.toNat [(b, H.pfRA, b2i la), (b, H.pfTA, H.pfTA.wrap t.toNat)]) ∧
       (s.get b F.PF_CTRL_SRC = 0 → s.get b F.PF_CTRL_MODE ∈ [1, 3] → s.linesPass n.val t.toNat la lb =
         ((s.advance t.toNat).puts b [(H.pfA, b2i la), (H.pfLB, b2i lb)]).coarseStep n.val t.toNat
           (if s.on b F.PF_CTRL_DIR_INV then State.quadrant lb la else State.quadrant la lb)) ∧
       (s.get b F.PF_CTRL_SRC ≠ 0 ∨ s.get b F.PF_CTRL_MODE ∉ [1, 3] → s.linesPass n.val t.toNat la lb =
         (s.advance t.toNat).puts b [(H.pfA, b2i la), (H.pfLB, b2i lb)])) ∧
     (∀ (rs rc ph : BitVec 16) (neg : Bool),
       let w := (a.psTake n.val).sizPhase n.val
       let go := exec (.positionFineSample n t rs rc ph neg) s
       let pair : Prop := s.get b F.PF_CTRL_MODE = 1 ∨ ph.toNat = (s.nat b F.PF_RES_RES_PHASE + if neg then 32768 else 0) % 65536
       let sg : Int := if s.get b F.PF_CTRL_MODE = 2 ∧ neg = true then -1 else 1
       let sn := State.corr (sg * rs.toInt) (s.get b F.PF_CAL_SIN_OFS) (s.get b F.PF_CAL_SIN_GAIN)
       let cs := State.corr (sg * rc.toInt) (s.get b F.PF_CAL_COS_OFS) (s.get b F.PF_CAL_COS_GAIN)
       let r : Int := isqrt (sn * sn + cs * cs).toNat
       let bad : Prop := r * 100 < s.get b F.PF_AMP_CHK_RAD_LO * 24576 ∨ r * 100 > s.get b F.PF_AMP_CHK_RAD_HI * 24576
       (s.get b F.PF_CTRL_SRC ≠ 0 → go = .next w) ∧
       (s.get b F.PF_CTRL_SRC = 0 → s.get b F.PF_CTRL_MODE ∉ [1, 2] → go = .next (w.coarseRelease n.val t.toNat)) ∧
       (s.get b F.PF_CTRL_SRC = 0 → s.get b F.PF_CTRL_MODE ∈ [1, 2] → After (.positionFineSample n t rs rc ph neg) s fun x =>
         (pair → x.get b F.PF_RADIUS_RAD_NOW = F.PF_RADIUS_RAD_NOW.wrap r) ∧
         (¬pair → x.get b F.PF_RADIUS_RAD_NOW = s.get b F.PF_RADIUS_RAD_NOW) ∧
         (pair → s.get b F.PF_CTRL_MODE = 2 →
           let k := Config.trackLoop (s.nat b F.PF_RES_TRK_BW) (s.nat b H.trkTh) (s.get b H.trkW) sn cs
           x.get b H.trkTh = H.trkTh.wrap (k.1 : Nat) ∧ x.get b H.trkW = H.trkW.wrap k.2)) ∧
       (s.get b F.PF_CTRL_SRC = 0 → s.get b F.PF_CTRL_MODE = 1 → s.mode n.val ≠ 1 →
         s.on b H.pfFlt = true ∨ (s.on b F.PF_STAT_VALID = false ∧ s.on b H.pfAcq = false) → s.on b H.psNew = false →
         SetsAt (.positionFineSample n t rs rc ph neg) s t.toNat
           [(b, H.fnS, rs.toInt), (b, H.fnC, rc.toInt), (b, F.PF_RADIUS_RAD_NOW, F.PF_RADIUS_RAD_NOW.wrap r),
            (b, H.pfRadN, if r * 100 < s.get b F.PF_AMP_CHK_RAD_LO * 24576 ∨ r * 100 > s.get b F.PF_AMP_CHK_RAD_HI * 24576
              then s.counted b H.pfRadN else 0)]) ∧
       (s.get b F.PF_CTRL_SRC = 0 → s.get b F.PF_CTRL_MODE = 1 → s.mode n.val ≠ 1 → s.on b H.pfFlt = false → s.on b F.PF_STAT_VALID = true →
         s.on b F.PF_STAT_COARSE_ONLY = false → ¬bad → 1 ≤ s.get b F.PF_AMP_CHK_RAD_N → go =
           .next (((w.puts b [(H.fnS, rs.toInt), (H.fnC, rc.toInt)]).puts b [(F.PF_RADIUS_RAD_NOW, r), (H.pfRadN, 0)]).finePart n.val
             (if s.on b F.PF_CTRL_DIR_INV then (2 ^ 14 - State.fineAngle sn cs) % 2 ^ 14 else State.fineAngle sn cs)))) ∧
     (s.on b H.pfFlt = false →
       let dt := (t.toNat : Int) - s.get b H.pfLast
       let u := s.speedEdge n.val t.toNat (s.get b H.pfELast)
       (s.get b F.PF_CTRL_MODE ∈ [1, 3] → 0 < dt → dt < 200 → u.get b F.PF_STAT_VALID = 0 ∧ u.get b F.PF_STAT_CAUSE = 0x32) ∧
       (s.get b F.PF_CTRL_MODE ∈ [1, 3] → 200 ≤ dt → dt < 400 → u.get b F.PF_STAT_COARSE_ONLY = 1) ∧
       (s.get b F.PF_CTRL_MODE = 2 → 0 < dt → dt < 2000 * s.get b F.PF_EXC_EXC_DIV →
         u.get b F.PF_STAT_VALID = 0 ∧ u.get b F.PF_STAT_CAUSE = 0x32)) ∧
     (s.on b H.pfAcq = true → s.on b F.PF_STAT_VALID = false → exec (.acquisitionTimeout n) s = .next (s.positionFault n.val 0x34)) ∧
     (s.on b H.pfAcq = false ∨ s.on b F.PF_STAT_VALID = true → exec (.acquisitionTimeout n) s = .next s) ∧
     exec (.positionSpeedUpdate n t) s = .next (a.speedUpdate n.val t.toNat)) ∧
  (∀ (s : State) (n : Fin 4) (cause : Nat), cause < 64 →
     (s.positionFault n.val cause).get (stnB n.val) F.PF_STAT_VALID = 0 ∧
     (s.positionFault n.val cause).get (stnB n.val) F.PF_STAT_CAUSE = (cause : Int) ∧
     (s.positionFault n.val cause).get (stnB n.val) F.PF_POS_POS = s.get (stnB n.val) F.PF_POS_POS)

/-- One current-loop update, from its sampling instant, in the order of Table AR-10: without a command of its own the loops' flags clear and the
voltage command is zero (the model's own reading, log entry 32), the sink slots that RUNGATE does not bind update all the same; with one the duties
are computed. A half-period that is no update of the station changes nothing. -/
def Obligations.CurrentLoop : Prop :=
  ∀ (s : State) (n : Fin 4) (t : BitVec 64) (i : CurIn), s.stnServes n →
    let b := stnB n.val
    let finish (u : State) : State := (((((u.lockedRotor n.val).advanceOl n.val).posReact n.val).boundary n.val).setReached n.val).runRequests n.val
    let quiet (u : State) : State := (u.runSinks n.val t.toNat).puts b [(H.ovrRun, 0), (F.COM_STAT_VSAT, 0), (F.COM_STAT_MINON, 0),
      (F.COM_STAT_SOFTING, 0), (F.COM_VDQ_VD, 0), (F.COM_VDQ_VQ, 0), (H.clamped, 0), (H.vA, 0), (H.vB, 0)]
    let r := ((s.advance t.toNat).rephaseStep n.val t.toNat i.valley).put b H.vdcT0 (s.get (halfB (n.val / 2)) H.vdcf)
    let q := ((((r.idleSources n.val).sense n.val i).psTake n.val).speedUpdate n.val t.toNat).formAngle n.val
    let m := (((q.put b F.COM_ADV_ADV (q.advance16 n.val (q.srcSpeed n.val))).transform n.val).alignUpdate n.val).zvbStart n.val
    (s.isUpdate n.val i.valley = false → exec (.currentLoopUpdate n t i) s = .next s) ∧
    (s.isUpdate n.val i.valley = true → m.runLike n.val = false → m.mode n.val ≠ 5 → m.driving n.val = false →
      exec (.currentLoopUpdate n t i) s = .next (finish (quiet m))) ∧
    (s.isUpdate n.val i.valley = true → m.get b F.GC_CTRL_PSRC = 0 → m.runLike n.val = false → m.mode n.val ≠ 5 → m.driving n.val = true →
      exec (.currentLoopUpdate n t i) s = .next (finish (m.conduct n.val t.toNat i.late))) ∧
    (let y := m.obsLossCheck n.val
     let x := if y.on b H.zvb then y else y.startUpdate n.val (y.tUpd n.val)
     s.isUpdate n.val i.valley = true → m.get b F.GC_CTRL_PSRC = 0 → (m.runLike n.val = true ∨ m.mode n.val = 5) →
      (x.runLike n.val = true → x.on b H.rotChk = false → x.on b H.revWait = false →
        exec (.currentLoopUpdate n t i) s = .next (finish (x.conduct n.val t.toNat i.late))) ∧
      (x.driving n.val = false → x.get b F.GC_CTRL_PSRC = 0 → (x.runLike n.val = false ∨ x.on b H.rotChk = true ∨ x.on b H.revWait = true) →
        exec (.currentLoopUpdate n t i) s = .next (finish (quiet x)))) ∧
    (s.isUpdate n.val i.valley = true → m.get b F.GC_CTRL_PSRC = 1 → m.runLike n.val = true →
      let v := (quiet m).stepIstar n.val ((quiet m).tUpd n.val)
      exec (.currentLoopUpdate n t i) s = .next (finish (v.put b H.istarOut (v.get b H.istar))))

/-- The synchronisation of the carrier, the alignment, and a stuck bitstream. -/
def Obligations.CarrierAndAlignment : Prop :=
  ∀ (s : State) (n : Fin 4) (t : BitVec 64), s.stnServes n →
    let b := stnB n.val
    (s.on b F.CS_CTRL_MODE = true → exec (.sdstuck n) s = .next (s.comFault n.val 1 0x45)) ∧
    (s.on b F.CS_CTRL_MODE = false → exec (.sdstuck n) s = .next s) ∧
    (s.on b H.syncPend = false → exec (.pwmSyncLoad n t) s = .next (s.advance t.toNat)) ∧
    (s.on b H.syncPend = true →
      let per : Int := s.period n.val
      let e0 : Int := (t.toNat : Int) - s.get b H.syncT
      let e := if 2 * e0 ≤ per then e0 else e0 - per
      let tt := s.get b H.syncP
      let p := clampI (max 4000 (7 * tt / 8)) (min 200000 (9 * tt / 8)) (tt - e)
      SetsAt (.pwmSyncLoad n t) s t.toNat [(b, H.syncPend, 0), (b, H.carV, H.carV.wrap t.toNat),
        (b, F.PWM_PER_NOW_PER, F.PWM_PER_NOW_PER.wrap (p / 2 * 2)),
        (b, F.PWM_STAT_SYNCED, b2i (decide (-40 ≤ e ∧ e ≤ 40))), (b, F.PWM_STAT_REPHASE, 0)]) ∧
    SetsOnly (.pwmSyncEnd n) s [(b, F.PWM_STAT_SYNCED, 0), (b, H.syncPend, 0), (b, H.syncP, 0), (b, F.PWM_STAT_REPHASE, 1)] ∧
    (s.on b F.COM_STAT_ALIGNING = false → exec (.alignStep n t) s = .next (s.advance t.toNat)) ∧
    (s.on b F.COM_STAT_ALIGNING = true → s.get b H.alStep = 1 → SetsAt (.alignStep n t) s t.toNat
      [(b, H.alTh1, H.alTh1.wrap (s.get b F.PF_ANGLE_THETA_M)), (b, H.alStep, 2), (b, H.thetaOl, 0),
       (b, H.startT, H.startT.wrap (max s.time (t.toNat % 2 ^ 64) : Nat))]) ∧
    (s.on b F.COM_STAT_ALIGNING = true → s.get b H.alStep ≠ 1 →
      let pp := s.get b F.COM_MOTOR_PP
      let th2 := s.get b F.PF_ANGLE_THETA_M
      let d := wrap32 ((th2 - s.get b H.alTh1) * pp)
      let st := wrap32 (th2 * pp - s.get b H.alTh2)
      (-(2 ^ 28) ≤ d + 2 ^ 30 → d + 2 ^ 30 ≤ 2 ^ 28 → -(2 ^ 26) ≤ st → st ≤ 2 ^ 26 → exec (.alignStep n t) s =
        .next (((s.advance t.toNat).puts b [(F.COM_OFS_OFS, -(th2 * pp)), (F.COM_STAT_OFS_VALID, 1), (F.COM_STAT_ALIGNING, 0),
          (H.alStep, 0)]).releaseBrake n.val)) ∧
      (d + 2 ^ 30 < -(2 ^ 28) ∨ 2 ^ 28 < d + 2 ^ 30 ∨ st < -(2 ^ 26) ∨ 2 ^ 26 < st → exec (.alignStep n t) s =
        .next ((s.advance t.toNat).comFault n.val 1 0x41)))

/-! ### Stations: gates, trips and turn-off -/

/-- What a trip of the gate drive does: in the modes that trip it, and for an overcurrent in arming once a charge pulse has been sent, it is a fault
stop that shows its legs; in FAULT it joins the record: in the record's own clock as one of its causes, of which the highest shows, later, until the
turn-off ends, with its legs alone; elsewhere it does nothing. The rows that report a trip, with the cause of Table GD-9 that each carries. When
arming trips is the model's own reading (log entry 73). -/
def Obligations.GateTrips : Prop :=
  (∀ (s : State) (n : Fin 4) (cause legs : Nat) (side : Bool),
     let b := stnB n
     let live : Prop := s.mode n.val ∈ [1, 2, 3, 4, 5, 7] ∨
       ((cause = 0x52 ∨ cause = 0x53) ∧ s.on b H.arming = true ∧ s.on b H.bsChgT = true)
     let t := s.gateTrip n.val cause legs side
     (live → t = (s.faultTrip n.val (State.stnCode n.val 1 cause)).puts b
       [(F.GC_FAULT_LEGS, ((legs % 8 : Nat) : Int)), (F.GC_FAULT_SIDE, b2i side)]) ∧
     (¬live → s.mode n.val = 6 →
       (s.get b H.gcT ≠ (s.time : Int) + 1 → s.on b F.GC_STAT_TURNOFF = true →
          s.Sets t [(b, F.GC_FAULT_LEGS2, F.GC_FAULT_LEGS2.wrap (orI (s.get b F.GC_FAULT_LEGS2) (legs % 8)))]) ∧
       (s.get b H.gcT = (s.time : Int) + 1 →
         t.get b F.GC_FAULT_LEGS = F.GC_FAULT_LEGS.wrap (orI (s.get b F.GC_FAULT_LEGS) (legs % 8)) ∧
         t.get b F.GC_FAULT_CAUSE = (if s.nat b F.GC_FAULT_CAUSE + 64 < cause then F.GC_FAULT_CAUSE.wrap ((cause % 64 : Nat) : Int)
           else s.get b F.GC_FAULT_CAUSE) ∧
         s.Only { t with flt := s.flt, log := s.log, mil := s.mil } [(b, F.GC_FAULT_LEGS), (b, F.GC_FAULT_CAUSE), (b, F.GC_FAULT_SIDE)])) ∧
     (¬live → s.mode n.val ≠ 6 ∨ (s.on b F.GC_STAT_TURNOFF = false ∧ s.get b H.gcT ≠ (s.time : Int) + 1) → t = s)) ∧
  (∀ (s : State) (n : Fin 4) (legs : BitVec 3) (high hard again low : Bool), s.stnServes n →
     let b := stnB n
     let live : Prop := s.mode n.val ∈ [1, 2, 3, 4, 5, 7]
     let liveOc : Prop := s.mode n.val ∈ [1, 2, 3, 4, 5, 7] ∨ (s.on b H.arming = true ∧ s.on b H.bsChgT = true)
     let now : Prop := s.mode n.val = 6 ∧ s.get b H.gcT = (s.time : Int) + 1
     (s.direct n.val = true →
       let v := s.orBits b F.GC_STAT_VDS_SEEN (legs.toNat % 8)
       (hard = false → exec (.vdsTrip n legs high hard) s = .next (v.gateTrip n.val 0x50 legs.toNat high)) ∧
       (hard = true → live → exec (.vdsTrip n legs high hard) s = .next (v.gateTrip n.val 0x51 legs.toNat high)) ∧
       (hard = true → ¬live → exec (.vdsTrip n legs high hard) s =
         .next ((v.put b F.GC_STAT_HARD_SEEN 1).gateTrip n.val 0x51 legs.toNat high)) ∧
       exec (.gateFollowFail n legs) s = .next (s.gateTrip n.val 0x55 legs.toNat false)) ∧
     (s.direct n.val = false → exec (.vdsTrip n legs high hard) s = .next s ∧ exec (.gateFollowFail n legs) s = .next s) ∧
     (liveOc → exec (.ochard n legs) s = .next (s.gateTrip n.val 0x53 legs.toNat false)) ∧
     (¬liveOc → exec (.ochard n legs) s = .next ((s.put b F.GC_STAT_HARD_SEEN 1).gateTrip n.val 0x53 legs.toNat false)) ∧
     (let v := s.orBits b F.GC_STAT_OC_SEEN (legs.toNat % 8)
      (¬liveOc → ¬now → exec (.ocSoftTrip n legs again) s = .next (v.gateTrip n.val 0x52 legs.toNat false)) ∧
      (liveOc ∨ now →
        let run := min 15 ((if again then s.get b H.ocRun else 0) + 1)
        let u := (v.bump b F.GC_CNT_OC_PER).put b H.ocRun run
        (s.get b F.GC_OC_OC_N ≤ H.ocRun.wrap run → exec (.ocSoftTrip n legs again) s =
          .next ((u.put b H.ocRun 0).gateTrip n.val 0x52 legs.toNat false)) ∧
        (H.ocRun.wrap run < s.get b F.GC_OC_OC_N → exec (.ocSoftTrip n legs again) s = .next u))) ∧
     (s.direct n.val = true ∨ low = false → SetsOnly (.lflt n low) s [(b, F.GC_STAT_LFLT, b2i low)]) ∧
     (s.direct n.val = false → ¬now → exec (.lflt n true) s = .next ((s.put b F.GC_STAT_LFLT 1).faultTrip n.val (State.stnCode n.val 1 0x56))) ∧
     (s.direct n.val = false → now → exec (.lflt n true) s = .next ((s.put b F.GC_STAT_LFLT 1).gcSame n.val 0x56 0 false)) ∧
     (high = true ∨ s.on b F.GC_STAT_LRDY = false ∨ s.direct n.val = true → SetsOnly (.lrdy n high) s [(b, F.GC_STAT_LRDY, b2i high)]) ∧
     (s.on b F.GC_STAT_LRDY = true → s.direct n.val = false → s.on b F.GC_LINK_LRDY_REQ = true → s.mode n.val ∈ [2, 3, 4, 7] →
       exec (.lrdy n false) s = .next ((s.put b F.GC_STAT_LRDY 0).faultTrip n.val (State.stnCode n.val 1 0x57))) ∧
     (s.on b F.GC_STAT_LRDY = true → s.direct n.val = false → s.on b F.GC_LINK_LRDY_REQ = true → now →
       exec (.lrdy n false) s = .next ((s.put b F.GC_STAT_LRDY 0).gcSame n.val 0x57 0 false)))

/-- The turn-off drops every enable of the station at once, takes every gate output low, and every link output that the test port does not hold, and
leaves it turning off or off; no other station's enables change. Its steps: the end of the mid-level hold, and the end that confirms OFF. The end of
zero-vector braking is the fault stop that it delayed. -/
def Obligations.TurnOff : Prop :=
  ∀ (s : State) (n : Fin 4),
    let b := stnB n.val
    (s.turnOff n.val).get b H.enab = 0 ∧ (∀ k : Fin 3, (s.turnOff n.val).get (b + 4 * k.val) F.PWM_CMP_EN = 0) ∧
    (s.turnOff n.val).torqueOff n.val = true ∧
    (∀ k : Fin 3, (s.turnOff n.val).pin (.gateHigh n.val k.val) = .low ∧ (s.turnOff n.val).pin (.gateLow n.val k.val) = .low ∧
      (s.scanned = false → (s.turnOff n.val).pin (.link n.val k.val) ≠ .high ∧ (s.turnOff n.val).pin (.linkEn n.val k.val) ≠ .high)) ∧
    (∀ m : Fin 4, m ≠ n → (s.turnOff n.val).get (stnB m.val) H.enab = s.get (stnB m.val) H.enab) ∧
    (s.stnLive n.val = true → s.on b F.GC_STAT_TURNOFF = true →
      (s.get b H.toPhase = 1 → SetsOnly (.turnoffMidHoldEnd n) s [(b, H.toPhase, 2)]) ∧
      (After (.turnoffComplete n) s fun t => t.get b F.GC_STAT_TURNOFF = 0 ∧ t.get b F.GC_STAT_OFF_CONF = 1 ∧ t.get b H.toPhase = 0)) ∧
    (s.stnLive n.val = true → s.on b F.GC_STAT_TURNOFF = false → exec (.turnoffComplete n) s = .next s) ∧
    (s.stnLive n.val = true → s.on b H.zvb = true → exec (.zeroVectorBrakingEnd n) s = .next (s.faultTrip n.val (s.nat b H.zvbCode))) ∧
    (s.stnLive n.val = true → s.on b H.zvb = false → exec (.zeroVectorBrakingEnd n) s = .next s)

/-- The bootstrap supplies: an undervoltage and a refresh pulse show their voltage, the pulse comes where a charge or a refresh is due, and the third
failed refresh in a row is a trip. The edges of the carrier or of the pulse inputs at the gates, and the switches that a leg's pulse level calls
for (Table GD-3). -/
def Obligations.GateSupplyAndEdges : Prop :=
  (∀ (s : State) (n : Fin 4) (leg : Fin 3) (v : BitVec 8) (t : BitVec 64) (level en : Bool), s.stnServes n →
    let b := stnB n
    let mask : Nat := 2 ^ leg.val
    let now : Int := s.time + 1
    (s.direct n.val = true → SetsOnly (.bootstrapUndervoltage n leg v) s
      [(b, F.GC_STAT_BSUV_SEEN, F.GC_STAT_BSUV_SEEN.wrap (orI (s.get b F.GC_STAT_BSUV_SEEN) mask)),
       (b, H.bsLow, H.bsLow.wrap (orI (s.get b H.bsLow) mask)), (b, State.bsvF leg.val, v.toNat),
       (b, State.bsvT leg.val, (State.bsvT leg.val).wrap now)]) ∧
    (s.direct n.val = false → exec (.bootstrapUndervoltage n leg v) s = .next s ∧ exec (.bootstrapRefreshPulse n leg v) s = .next s) ∧
    (s.direct n.val = true → s.on b F.GC_STAT_TURNOFF = false → s.barred n.val = false →
      (if s.charging n.val then s.chargeDue n.val leg.val else s.refreshDue n.val leg.val) = true →
      let l := (if s.charging n.val then [(b, State.chgF leg.val, (State.chgF leg.val).wrap (s.get b (State.chgF leg.val) + 1)),
        (b, H.bsChgT, H.bsChgT.wrap now), (b, H.bsChg0, if s.on b H.bsChg0 then s.get b H.bsChg0 else H.bsChg0.wrap now)] else []) ++
        [(b, F.GC_CNT_REFR_CNT, s.counted b F.GC_CNT_REFR_CNT), (b, State.bsvF leg.val, (v.toNat : Int)),
        (b, State.bsvT leg.val, (State.bsvT leg.val).wrap now), (b, H.pulseT, H.pulseT.wrap now)]
      (s.bsRise n.val < (v.toNat : Int) → SetsOnly (.bootstrapRefreshPulse n leg v) s
        (l ++ [(b, H.bsLow, H.bsLow.wrap (clrI (s.get b H.bsLow) mask)), (b, State.bsFailF leg.val, 0), (b, State.bsFailT leg.val, 0)])) ∧
      ((v.toNat : Int) ≤ s.bsRise n.val → s.charging n.val = true → SetsOnly (.bootstrapRefreshPulse n leg v) s l) ∧
      ((v.toNat : Int) ≤ s.bsRise n.val → s.charging n.val = false →
        (s.bsFollows n.val leg.val = false → SetsOnly (.bootstrapRefreshPulse n leg v) s
          (l ++ [(b, State.bsFailF leg.val, 1), (b, State.bsFailT leg.val, (State.bsFailT leg.val).wrap now)])) ∧
        (s.bsFollows n.val leg.val = true → s.get b (State.bsFailF leg.val) = 2 →
          ∃ u : State, s.Sets u (l ++ [(b, State.bsFailF leg.val, 0), (b, State.bsFailT leg.val, 0)]) ∧
            exec (.bootstrapRefreshPulse n leg v) s = .next (u.gateTrip n.val 0x54 mask false)))) ∧
    ((if s.charging n.val then s.chargeDue n.val leg.val else s.refreshDue n.val leg.val) = false →
      exec (.bootstrapRefreshPulse n leg v) s = .next s) ∧
    (s.get b F.GC_CTRL_PSRC ≠ 1 → exec (.pwmCarrierEdge n leg t) s = .next (
      let u := (s.advance t.toNat).carrierTo n.val (s.advance t.toNat).time
      u.switchLeg n.val leg.val (u.pulseOf n.val leg.val u.time))) ∧
    (s.get b F.GC_CTRL_PSRC = 1 → exec (.pwmCarrierEdge n leg t) s = .next (s.advance t.toNat)) ∧
    (s.get b F.GC_CTRL_PSRC ≠ 1 → exec (.linkPulseInputEdge n leg t level en) s = .next (s.advance t.toNat)) ∧
    (s.get b F.GC_CTRL_PSRC = 1 →
      let u := (s.advance t.toNat).setBit b H.extEn leg.val en
      (s.mode n.val ≠ 3 → exec (.linkPulseInputEdge n leg t level en) s = .next (u.switchLeg n.val leg.val level)) ∧
      (s.mode n.val = 3 → exec (.linkPulseInputEdge n leg t level en) s =
        .next ((u.setBit b H.enab leg.val en).switchLeg n.val leg.val level)))) ∧
  (∀ (s : State) (n : Fin 4) (leg : Fin 3) (level : Bool), s.direct n.val = true →
    let b := stnB n
    let e := if s.get b (State.lvlF leg.val) = b2i level then s.get b (State.edgeF leg.val) else (State.edgeF leg.val).wrap (s.time : Nat)
    (s.switchLeg n.val leg.val level).get b (State.swF leg.val) =
      if s.enOf n.val leg.val = true ∧ s.on b F.GC_STAT_TURNOFF = false ∧ s.on 0 H.vgdLow = false ∧
        s.on (halfB (n.val / 2)) F.SUP_STO_STAT_ACTIVE = false ∧ e + s.get b F.PWM_DT_DT ≤ (s.time : Int) then (if level then 1 else 2) else 0)

/-- The ends of arming, diagnostics and sizing: ARMED when every item passed, every leg is charged (none named by the event, none left at or below the
rising level by its latest pulse) and the position is valid; a fault stop with the failed legs when not; OFF after diagnostics and sizing; and every
command that waited for the sequence has its tag back. -/
def Obligations.SequencesEnd : Prop :=
  ∀ (s : State) (n : Fin 4), s.stnServes n →
    let b := stnB n.val
    (∀ legs low : BitVec 3, s.on b H.arming = true → s.mode n.val = 0 →
      let u := s.puts b [(H.arming, 0), (H.armItems, 0)]
      let pos : Prop := s.get b F.COM_CTRL_ASRC ≠ 0 ∨ s.get b F.GC_CTRL_PSRC ≠ 0 ∨ s.on b F.PF_STAT_VALID = true
      let left : Nat := s.uncharged n.val low.toNat
      let pass : Prop := s.nat b H.armItems = 0 ∨ (if s.direct n.val then legs = 0 else s.linkOk n.val = true)
      (¬pass →
        let l := if s.direct n.val then legs.toNat else 8
        exec (.armComplete n legs low) s = .next ((u.faultStop n.val (State.stnCode n.val 2 0x58) true l).gcFault n.val l false)) ∧
      (low ≠ 0 ∨ (∃ leg : Fin 3, s.on b (State.chgF leg.val) = true ∧ s.legCharged n.val leg.val = false) ↔ left ≠ 0) ∧
      (pass → s.direct n.val = true → left ≠ 0 → exec (.armComplete n legs low) s =
        .next ((u.faultStop n.val (State.stnCode n.val 1 0x54) true left).gcFault n.val left false)) ∧
      (pass → s.direct n.val = false ∨ left = 0 → ¬pos → exec (.armComplete n legs low) s = .next (u.faultStop n.val
        (State.stnCode n.val 1 (if s.nat b F.PF_STAT_CAUSE = 0 then 0x34 else s.nat b F.PF_STAT_CAUSE)) true 0)) ∧
      (pass → s.direct n.val = false ∨ left = 0 → pos → After (.armComplete n legs low) s fun t =>
        t.mode n.val = 2 ∧ t.on b H.arming = false ∧ ∀ x ∈ s.owed 0x20 n.val, t.tagBusy x.tag = false)) ∧
    (∀ (gu gv gw ku kv kw : BitVec 16) (o f : BitVec 3), s.mode n.val = 1 → s.get b H.armItems ≠ 0 →
      After (.diagComplete n gu gv gw ku kv kw o f) s fun t => t.mode n.val = 0 ∧ t.get b H.armItems = 0 ∧
        ∀ x ∈ s.owed 0x24 n.val, t.tagBusy x.tag = false) ∧
    (∀ (t : BitVec 64) (still : Bool), s.nat b H.sizItems ≠ 0 → s.mode n.val = 1 → After (.sizingComplete n t still) s fun u =>
        u.mode n.val = 0 ∧ u.get b H.sizItems = 0 ∧ u.torqueOff n.val = true ∧ ∀ x ∈ s.owed 0x25 n.val, u.tagBusy x.tag = false)

/-- The events of starting and stopping a station. -/
def Obligations.StartAndStopRows : Prop :=
  ∀ (s : State) (n : Fin 4) (t : BitVec 64) (u v w : BitVec 16), s.stnServes n →
    let b := stnB n.val
    (let a := s.advance t.toNat
     let open_ : Prop := s.on b F.OBS_CTRL_OBS_EN = true ∧ s.get b H.enab = 0 ∧ s.on b F.GC_STAT_TURNOFF = false ∧
       a.sampleSkipped n.val t.toNat = false
     (open_ → exec (.observerOpenEval n t u v w) s = .next (a.obsOpen n.val u.toNat v.toNat w.toNat)) ∧
     (¬open_ → exec (.observerOpenEval n t u v w) s = .next a)) ∧
    (s.mode n.val = 3 → s.on b H.rotChk = true → exec (.rotationCheck n) s = .next (s.rotationCheck n.val)) ∧
    (s.mode n.val = 3 → s.on b H.rotChk = false → s.on b H.revWait = true → s.rotating n.val = false → exec (.rotationCheck n) s =
      .next (s.startStill n.val)) ∧
    (s.mode n.val = 3 → s.on b H.revWait = true → exec (.reverseWaitTimeout n) s = .next (s.obsFault n.val 2 0x4A)) ∧
    (s.get b F.OBS_STAT_STARTING = 2 → SetsOnly (.startAlignEnd n) s [(b, F.OBS_STAT_STARTING, 3),
      (b, H.idRef, H.idRef.wrap (s.get b F.COM_OL_I_OL)), (b, H.startT, H.startT.wrap (s.time : Nat))]) ∧
    (s.get b F.OBS_STAT_STARTING = 4 → exec (.startHandoverTimeout n) s = .next (s.obsFault n.val 2 0x48)) ∧
    (s.mode n.val = 5 → s.on b F.OBS_STAT_LOCKED = false →
      (s.get b F.OBS_EMFV_MAG < s.get b F.OBS_EMF_EMF_MIN → SetsOnly (.catchStopped n) s [(b, H.catchStop, 1)]) ∧
      (s.on b H.catchStop = false → exec (.catchTimeout n) s = .next (s.obsFault n.val 2 0x49))) ∧
    SetsOnly (.brakeReleaseDelayEnd n) s [(b, H.brkWait, 0)] ∧
    (s.mode n.val = 4 →
      (s.on b H.zvb = false → s.get b H.stopSeq = 0 → s.on b H.stopRamp = false →
        (if s.speedW n.val < 0 then -s.speedW n.val else s.speedW n.val) * 100 ≤ s.get b F.STN_BRAKE_W_STOP * 2 ^ 18 →
        (s.get b F.STN_STAT_STOP ∈ [0, 1] → exec (.stopDwellEnd n) s = .next (s.endStop n.val)) ∧
        (s.get b F.STN_STAT_STOP = 3 → SetsOnly (.stopDwellEnd n) s [(b, H.stopSeq, 1), (b, H.tZ, H.tZ.wrap (s.time : Nat)),
          (b, H.istarZ, H.istarZ.wrap (s.get b H.istar)), (b, F.STN_STAT_MBRK, 0)])) ∧
      (s.get b H.stopSeq = 1 → SetsOnly (.holdBrakeUnload n) s [(b, H.stopSeq, 2), (b, H.unlT, H.unlT.wrap (s.time : Nat)),
        (b, H.unlI, H.unlI.wrap (s.get b H.istar))]) ∧
      (s.get b H.stopSeq = 2 → exec (.holdBrakeEnd n) s = .next (s.endStop n.val)) ∧
      (s.get b H.stopSeq ≠ 3 → s.on b H.zvb = false → exec (.stopto n) s = .next (s.faultTrip n.val (State.stnCode n.val 2 0xA0)))) ∧
    (s.mode n.val ≠ 4 → exec (.stopDwellEnd n) s = .next s ∧ exec (.holdBrakeUnload n) s = .next s ∧ exec (.holdBrakeEnd n) s = .next s ∧
      exec (.stopto n) s = .next s)

/-- A stop ends with the station in OFF, its gates off or turning off, its brake applied where the stop was quick, and every waiting STN_STOP
answered. A fault stop leaves the station in FAULT with its gates off or turning off, its brake applied where the cause calls for it. -/
def Obligations.StopsEnd : Prop :=
  (∀ (s : State) (n : Fin 4),
     (s.endStop n.val).mode n.val = 0 ∧ (s.endStop n.val).torqueOff n.val = true ∧
     (s.mode n.val = 4 → s.get (stnB n.val) F.STN_STAT_STOP = 1 → (s.endStop n.val).get (stnB n.val) F.STN_STAT_MBRK = 0) ∧
     ∀ x ∈ s.owed 0x23 n.val, (s.endStop n.val).tagBusy x.tag = false) ∧
  (∀ (s : State) (n : Fin 4) (code : Nat) (brake : Bool),
     (s.faultStop n.val code brake).mode n.val = 6 ∧ (s.faultStop n.val code brake).torqueOff n.val = true ∧
     (brake = true → (s.faultStop n.val code brake).get (stnB n.val) F.STN_STAT_MBRK = 0))

/-! ### Halves: serial port, scheduler, STO, bus guard, temperatures, loop engine, set-point port -/

/-- The serial port and the repeater of a running half: an SSI frame, in binary or Gray code, and a BiSS C frame are checked, a jump from the frame
before included, and discarded or used, and the value waits for the next fine sample time; a run of ERR_MAX discarded frames is a position fault of
the stations on the port. The repeater sends one edge at a time toward its source's angle, its index is high in the quadrant at ZPOS while both lines
are, and with FLT_MODE its outputs go to high impedance at a position fault. That a trigger within TOUT counts as skipped is the model's own reading
(log entry 98), and so is that a unit out of service does nothing (9). A scheduler tick latches every timebase of the half, and then serves the armed
slots in user order and slot order. -/
def Obligations.SerialAndScheduler : Prop :=
  (∀ (s : State) (h : Fin 2) (t : BitVec 64), s.halfRun h.val = true →
     let b := serB h.val
     (s.on b F.PS_CTRL_PROTO = false → exec (.psFrameTrigger h t) s = .next (s.advance t.toNat)) ∧
     (s.on b F.PS_CTRL_PROTO = true → s.on b H.psRun = true ∨ (s.advance t.toNat).psReady h.val = false →
       SetsAt (.psFrameTrigger h t) s t.toNat [(b, F.PS_STAT_SKIP, s.counted b F.PS_STAT_SKIP)]) ∧
     (s.on b F.PS_CTRL_PROTO = true → s.on b H.psRun = false → (s.advance t.toNat).psReady h.val = true →
        SetsAt (.psFrameTrigger h t) s t.toNat [(b, H.psRun, 1)]) ∧
     (∀ (slo start ne nw : Bool) (dly crc : BitVec 16) (bits : BitVec 64),
       let z := (s.advance t.toNat).puts b [(H.psRun, 0), (H.psEndT, ((s.advance t.toNat).time : Int) + 1)]
       let go := exec (.psFrameEnd h t slo start dly bits ne nw crc) s
       let st := s.nat b F.PS_FMT_ST_BITS
       let wd := st + s.nat b F.PS_FMT_MT_BITS
       let raw := bits.toNat % 2 ^ wd
       let biss : Prop := s.get b F.PS_CTRL_PROTO = 1
       let v := if s.get b F.PS_CTRL_PROTO ≠ 1 ∧ s.on b F.PS_CTRL_GRAY = true then State.grayBin raw (wd - 1) else raw
       let delay := dly.toNat + s.nat b F.PS_CTRL_SLO_FLT_N
       let begun : Prop := start = true ∧ delay ≤ 500
       let bad : Prop := slo = false ∨ (biss ∧ (¬begun ∨ ne = false ∨
         crc.toNat % 64 ≠ 63 - State.crc6Bit (State.crc6Bit (State.crc6 raw wd 0) ne) nw))
       let d := wrapS wd ((v : Int) - s.get b H.psPrev)
       let jump : Prop := s.on b H.psHave = true ∧ s.get b F.PS_FMT_JUMP ≠ 0 ∧ s.get b F.PS_FMT_JUMP * 2 ^ st < (if d < 0 then -d else d) * 1024
       let uses (y : State) : State :=
         let u := (y.each [2 * h.val, 2 * h.val + 1] fun n w => w.psTake n).puts b [(F.PS_RAW_RAW, raw), (H.psPt, s.get b H.psPrevT),
           (H.psFirst, b2i (!s.on b H.psHave)), (H.psD, d), (H.psPrev, v), (H.psPrevT, t.toNat), (H.psHave, 1), (H.psBad, 0),
           (H.psTheta, (v % 2 ^ st) * 2 ^ (32 - st))]
         (u.each [2 * h.val, 2 * h.val + 1] fun n w => w.put (stnB n) H.psNew (b2i (w.on (stnB n) F.PF_CTRL_SRC))).rpFollow h.val
       (s.on b H.psRun = false → go = .next (s.advance t.toNat)) ∧
       (s.on b H.psRun = true → ¬biss → (bad ∨ jump → go = .next (z.psDiscard h.val)) ∧ (¬bad → ¬jump → go = .next (uses z))) ∧
       (s.on b H.psRun = true → biss →
         let y := (if start = true ∧ delay ≤ 500 then z.put b F.PS_STAT_LINE_DLY delay else z)
         let x := if start = true ∧ delay ≤ 500 ∧ nw = false then y.put b F.PS_STAT_WARN 1 else y
         (bad ∨ jump → go = .next (x.psDiscard h.val)) ∧ (¬bad → ¬jump → go = .next (uses x)))) ∧
     ((s.counted b H.psBad < s.get b F.PS_CTRL_ERR_MAX →
         s.Sets (s.psDiscard h.val) [(b, F.PS_STAT_ERR, s.counted b F.PS_STAT_ERR), (b, H.psBad, s.counted b H.psBad)]) ∧
      (s.get b F.PS_CTRL_ERR_MAX ≤ s.counted b H.psBad → ∀ n : Fin 4, n.val / 2 = h.val → s.on (stnB n) F.PF_CTRL_SRC = true →
        s.on (stnB n) H.pfFlt = false → (s.psDiscard h.val).get (stnB n) F.PF_STAT_VALID = 0 ∧
          (s.psDiscard h.val).get (stnB n) F.PF_STAT_CAUSE = 0x33)) ∧
     (∀ n : Fin 4, s.on (stnB n) H.psNew = true → s.psTake n.val =
       (s.puts (stnB n) [(H.psNew, 0), (H.psUseT, s.get (serB (n.val / 2)) H.psPrevT)]).psUse n.val (s.nat (serB (n.val / 2)) H.psPrevT)
       (s.nat (serB (n.val / 2)) H.psPrev) (s.get (serB (n.val / 2)) H.psD) (s.on (serB (n.val / 2)) H.psFirst) (s.get (serB (n.val / 2)) H.psPt)) ∧
     (s.on b F.RP_CTRL_EN = false ∨ s.on b F.RP_STAT_SRC_FLT = true → exec (.repeaterEdgeEmit h t) s = .next (s.advance t.toNat)) ∧
     (s.on b F.RP_CTRL_EN = true → s.on b F.RP_STAT_SRC_FLT = false → s.on b F.RP_CTRL_RP_INV = false →
       let n4 := 4 * (s.get b F.RP_CTRL_RP_LINES + 1)
       let ang := H.rpAng.wrap (s.get b H.rpAng + wrapS 32 (s.rpTheta h.val - s.get b H.rpAng))
       let d := (s.get b H.rpAng + wrapS 32 (s.rpTheta h.val - s.get b H.rpAng)) * n4 / 2 ^ 32 - s.get b H.rpPos
       (d ≠ 0 → -1024 ≤ d → d ≤ 1024 → After (.repeaterEdgeEmit h t) s fun u =>
         let p := s.get b H.rpPos + sgnI d
         u.get b H.rpAng = ang ∧ u.get b H.rpPos = H.rpPos.wrap p ∧
         u.rpLines h.val = (decide (p % 4 = 0 ∨ p % 4 = 1), decide (p % 4 = 0 ∨ p % 4 = 3)) ∧
         (d = 1 ∨ d = -1 → (s.advance t.toNat).Only u [(b, H.rpAng), (b, H.rpPos)]) ∧
         (d ≠ 1 → d ≠ -1 → u.get b F.RP_STAT_OVR = 1)) ∧
       (d < -1024 ∨ 1024 < d → After (.repeaterEdgeEmit h t) s fun u => u.get b F.RP_STAT_LOST = 1 ∧
         u.get b H.rpPos = H.rpPos.wrap (s.get b H.rpPos + d))) ∧
     (s.on b F.RP_CTRL_EN = true → s.on b F.RP_STAT_SRC_FLT = true → s.on b F.RP_CTRL_FLT_MODE = true → s.chip.phase ∉ [.off, .asleep] →
       ∀ p ∈ [OutPin.rpA h.val, .rpB h.val, .rpZ h.val], s.pin p = .z) ∧
     (s.on b F.RP_CTRL_EN = true → s.on b F.RP_STAT_SRC_FLT = false → s.chip.phase ∉ [.off, .asleep] →
       let n4 := 4 * (s.get b F.RP_CTRL_RP_LINES + 1)
       (s.pin (.rpZ h.val) = .high ↔ (s.rpTheta h.val - s.get b F.RP_STAT_ZPOS * 65536) % 2 ^ 32 * n4 < 2 ^ 32 ∧
         s.pin (.rpA h.val) = .high ∧ s.pin (.rpB h.val) = .high))) ∧
  (∀ (s : State) (h : Fin 2) (t : BitVec 64),
     (s.halfRun h.val = false ∨ s.oos (.asc h) = true → exec (.schedulerTick h t) s = .next (s.advance t.toNat)) ∧
     (s.halfRun h.val = true → s.oos (.asc h) = false → exec (.schedulerTick h t) s = .next (
       ((s.advance t.toNat).each (List.range 4) fun u v =>
         (v.put (halfB h.val + 8 * u) F.ASC_TBV_TBV (v.ascX h.val u t.toNat)).setBit (halfB h.val) F.ASC_STAT_TB_HOLD u (v.ascHeld h.val u)).each
         (List.range 4) fun u v => v.each (List.range 8) fun i w => w.ascSlot h.val u i t.toNat)))

/-- A low channel of STO is shown, counted once and turns the half's stations off; both channels high release it, unless a latched discrepancy
still waits for both to have been low. -/
def Obligations.SafeTorqueOff : Prop :=
  (∀ (s : State) (h : Fin 2) (cause : Nat) (n : Fin 4), n.val / 2 = h.val → (s.stoStations h.val cause).torqueOff n.val = true) ∧
  ∀ (s : State) (h : Fin 2) (ch1 ch2 : Bool), s.halfPresent h.val = true →
    let g := halfB h.val
    ((ch1 && ch2) = true → exec (.stoActive h ch1 ch2) s = .next s) ∧
    ((ch1 && ch2) = false →
      let u := s.puts g [(F.SUP_STO_STAT_CH1, b2i ch1), (F.SUP_STO_STAT_CH2, b2i ch2)]
      let v := if !ch1 && !ch2 then u.put g H.stoBoth 1 else u
      (s.on g F.SUP_STO_STAT_ACTIVE = true → exec (.stoActive h ch1 ch2) s = .next v) ∧
      (s.on g F.SUP_STO_STAT_ACTIVE = false → exec (.stoActive h ch1 ch2) s =
        .next (((v.puts g [(F.SUP_STO_STAT_ACTIVE, 1), (F.SUP_STO_STAT_SEEN, 1)]).bump g F.SUP_STO_STAT_EVENTS).stoStations h.val 0x59))) ∧
    (s.on g F.SUP_STO_STAT_DISC = false ∨ s.on g H.stoBoth = true → SetsOnly (.stoRelease h) s [(g, F.SUP_STO_STAT_CH1, 1),
      (g, F.SUP_STO_STAT_CH2, 1), (g, F.SUP_STO_STAT_ACTIVE, 0), (g, F.SUP_STO_STAT_DISC, 0), (g, H.stoBoth, 0)]) ∧
    (s.on g F.SUP_STO_STAT_DISC = true → s.on g H.stoBoth = false →
      SetsOnly (.stoRelease h) s [(g, F.SUP_STO_STAT_CH1, 1), (g, F.SUP_STO_STAT_CH2, 1)]) ∧
    (s.get g F.SUP_STO_STAT_CH1 = s.get g F.SUP_STO_STAT_CH2 ∨ s.on g F.SUP_STO_STAT_DISC = true → exec (.stoDiscrepancy h) s = .next s) ∧
    (s.get g F.SUP_STO_STAT_CH1 ≠ s.get g F.SUP_STO_STAT_CH2 → s.on g F.SUP_STO_STAT_DISC = false → exec (.stoDiscrepancy h) s =
      .next ((s.puts g [(F.SUP_STO_STAT_DISC, 1), (H.stoBoth, 0)]).stoStations h.val 0x5A))

/-- The bus guard: samples, overvoltage of two samples in a row, undervoltage, chopper faults and precharge. A guard that is not in service does
nothing (the model's own reading, log entry 9). -/
def Obligations.BusGuard : Prop :=
  ∀ (s : State) (h : Fin 2),
    let g := halfB h.val
    (s.bgdOn h.val = false → exec (.busuv h) s = .next s ∧ exec (.chnofb h) s = .next s ∧ exec (.chstuck h) s = .next s ∧
      exec (.prechargeDone h) s = .next s ∧ exec (.prechg h) s = .next s ∧ (∀ d, exec (.choc h d) s = .next s) ∧
      ∀ t v c, exec (.busSample h t v c) s = .next s) ∧
    (s.bgdOn h.val = true →
      (∀ (t : BitVec 64) (v c : BitVec 16),
        let x : Int := asr (v.toNat * s.get g F.BGD_SCALE_VSCALE) 16
        let trip := s.get g F.BGD_VTRIP_V_TRIP
        let u := (s.advance t.toNat).puts g [(H.vdc4, s.get g H.vdc3), (H.vdc3, s.get g H.vdc2), (H.vdc2, s.get g H.vdc1), (H.vdc1, x),
          (H.vdcN, min 4 (s.get g H.vdcN + 1))]
        let w := (u.puts g [(H.vdcf, u.meanVdc h.val), (F.BGD_MEAS_VDC, u.meanVdc h.val), (F.BGD_MEAS_ICH, c.toNat)]).chopper h.val
        (x < trip ∨ s.get g H.vdc1 < trip ∨ s.get g H.vdcN < 1 → exec (.busSample h t v c) s = .next w) ∧
        (trip ≤ x → trip ≤ s.get g H.vdc1 → 1 ≤ s.get g H.vdcN → exec (.busSample h t v c) s =
          .next (w.busOv h.val !(decide (2 ≤ s.get g H.vdcN ∧ trip ≤ s.get g H.vdc2))))) ∧
      (s.get g H.vdcf < s.get g F.BGD_VTRIP_V_UV → s.on g F.BGD_STAT_PRE_DONE = true → exec (.busuv h) s =
        .next (((s.bgdRaise h.val 0x61).preLow h.val).bgdStop h.val 0x61)) ∧
      (s.get g F.BGD_VTRIP_V_UV ≤ s.get g H.vdcf → exec (.busuv h) s = .next s) ∧
      (s.on g F.BGD_STAT_CHOP_ON = true → exec (.chnofb h) s = .next (s.chopFault h.val 0x62) ∧
        (∀ d, exec (.choc h d) s = .next (s.chopFault h.val 0x63)) ∧ exec (.chstuck h) s = .next s) ∧
      (s.on g F.BGD_STAT_CHOP_ON = false → exec (.chnofb h) s = .next s ∧ exec (.choc h false) s = .next s ∧
        exec (.choc h true) s = .next (s.chopFault h.val 0x63) ∧
        exec (.chstuck h) s = .next (((((s.put g F.BGD_STAT_CHF_SEEN 1).bgdRaise h.val 0x64).preLow h.val).bgdStop h.val 0x64).each
          [2 * h.val, 2 * h.val + 1] fun n u => u.put (stnB n) F.STN_STAT_MBRK 0)) ∧
      (s.on g F.BGD_CTRL_PRE_EN = true → s.on g F.BGD_STAT_PRE_DONE = false → s.on g H.preStop = false →
        (s.get g F.BGD_PRE_V_PRE ≤ s.get g H.vdcf → SetsOnly (.prechargeDone h) s [(g, F.BGD_STAT_PRE_DONE, 1)]) ∧
        (s.get g H.vdcf < s.get g F.BGD_PRE_V_PRE → exec (.prechargeDone h) s = .next s) ∧
        exec (.prechg h) s = .next ((s.bgdRaise h.val 0x65).preLow h.val)))

/-- An internal conversion is judged and may shut the die down; an external one gives its temperature and its factor, and one whose code or
temperature is outside its range marks its input broken, once, with its fault; one of an input without a sensor gives nothing. That one with the
SH region out of service gives nothing is the model's own reading (log entry 9). -/
def Obligations.Temperatures : Prop :=
  ∀ s : State,
    (∀ (r : Fin 3) (rd : List (BitVec 16)), s.alive = true →
      let a := s.tempConvert r.val (rd.map (·.toInt))
      (a.2 = false → exec (.temperatureConversion r rd) s = .next a.1) ∧
      (a.2 = true → After (.temperatureConversion r rd) s fun t => t.chip.phase = .shutdown ∧ t.chip.ready = false ∧ t.chip.dieLatch = true ∧
        t.log.flush = some .shutdown)) ∧
    (∀ (x : Fin 4) (code : BitVec 12), s.shRun = false ∨ s.on (4 * x.val) F.THM_EXT_CFG_TYPE = false →
      exec (.extTemperatureConversion x code) s = .next s) ∧
    (∀ (x : Fin 4) (code : BitVec 12), s.shRun = true → s.on (4 * x.val) F.THM_EXT_CFG_TYPE = true →
      let v := s.curveTemp x.val code.toNat
      let sick : Prop := code.toNat < 8 ∨ 4087 < code.toNat ∨ State.plausible v = false
      let broken : Bool := bitN (s.nat 0 F.THM_SH_STAT_EXT_BROKEN) x.val
      let u := ((s.puts (8 * x.val) [(H.xK, clampI 0 32768 (tdiv ((s.get (4 * x.val) F.THM_EXT_CFG_T_X_ZERO - v) * 32768)
        (max 1 (s.get (4 * x.val) F.THM_EXT_CFG_T_X_ZERO - s.get (4 * x.val) F.THM_EXT_CFG_T_X_START)))), (H.xCode, code.toNat)]).put
        (4 * (x.val / 2)) (if x.val % 2 = 0 then F.THM_EXT_T_TXA else F.THM_EXT_T_TXB) v)
      let factors (y : State) : State := y.each (y.stations.filter fun n => y.halfRun (n / 2)) fun n w => w.putExt n
      (¬sick ∨ broken = true → exec (.extTemperatureConversion x code) s = .next (factors u)) ∧
      (sick → broken = false → exec (.extTemperatureConversion x code) s =
        .next (factors ((u.setBit 0 F.THM_SH_STAT_EXT_BROKEN x.val true).raise (.region 0) (fcode 1 0 0x70)))))

/-- The updates of a loop slot, served in the order of their trigger times and then of the slots' numbers, the boundary of a bank swap, the errors of
a slot and of the loop engine, and the inputs of the set-point port. That what a half out of service receives changes nothing is the model's own
reading (log entry 9). -/
def Obligations.LoopAndPort : Prop :=
  ∀ (s : State) (h : Fin 2) (m : Fin 48) (t : BitVec 64),
    let b := slotB h.val m.val
    let g := halfB h.val
    let a := s.advance t.toNat
    (∀ x, s.dueAt h.val m.val t.toNat = some x → s.halfRun h.val = true → s.isSink h.val m.val = false →
      (∀ k : Fin 48, k ≠ m → s.isSink h.val k.val = true ∨ (match s.dueAt h.val k.val t.toNat with
        | none => True
        | some y => x < y ∨ (x = y ∧ m < k))) →
      exec (.loopSlotUpdate h m t) s = .next ((a.settleSlot h.val m.val).serveSlot h.val m.val t.toNat)) ∧
    (s.slotLive h.val m.val = true → s.nat b F.LEN_CFG_TRIG ≠ 2 → s.on b H.slReq = true →
      s.dueAt h.val m.val t.toNat = some (s.nat b H.slReqT)) ∧
    (s.slotLive h.val m.val = true → s.nat b F.LEN_CFG_TRIG = 1 → s.on b H.slReq = false →
      let step := 400 * max 1 (s.nat b F.LEN_CFG_TPARAM)
      s.nat b H.slTrigT / step < t.toNat / step → s.dueAt h.val m.val t.toNat = some ((s.nat b H.slTrigT / step + 1) * step)) ∧
    (s.halfRun h.val = false ∨ s.isSink h.val m.val = true ∨ s.slotLive h.val m.val = false ∨
      (s.nat b F.LEN_CFG_TRIG ≠ 1 ∧ s.on b H.slReq = false) → exec (.loopSlotUpdate h m t) s = .next a) ∧
    (∀ k : Fin 16, exec (.bankSwapBoundary h k t) s = .next ((s.swapBoundary h.val k.val t.toNat).each
      ((s.owed 0x28 (State.swapId h.val k.val)).filter fun x => x.snap && s.halfRun h.val && bitN (s.nat g F.LEN_SWAP_PENDING) k.val)
      fun x u => u.capture x.tag 0x28)) ∧
    (s.halfRun h.val = true → exec (.sloterr h m) s = .next (
      (((s.settleSlot h.val m.val).put b F.LEN_SST_ERR 1).raise (.region (Fin.ofNat 3 (h.val + 1))) (fcode 1 (h.val + 1) 0x80)).each
        [2 * h.val, 2 * h.val + 1] fun n u =>
        if u.namesSlot n m.val && (u.mode n == 3 || u.mode n == 4 || u.mode n == 5 || u.mode n == 7) then
          u.faultTrip n (fcode 1 (h.val + 1) 0x80) else u)) ∧
    (s.halfRun h.val = true → exec (.lenerr h) s = .next ((((s.settleHalf h.val).put g F.LEN_STAT_IN_SERVICE 0).blockFail (.len h)
      (fcode 2 (h.val + 1) 0x81)).faultHalf h.val (fcode 2 (h.val + 1) 0x81))) ∧
    (s.halfRun h.val = true → s.oos (.spt h) = false →
      (∀ code : BitVec 16, s.get g F.SPT_CTRL_AMODE ∈ [1, 2] →
        exec (.setpointConversion h t code) s = .next (
          let u := a.puts g [(F.SPT_AIN_CODE, code.toInt), (F.SPT_XA_XA, tdiv (code.toInt * 2 ^ 24) 32000)]
          u.each (u.slotsOn h.val 3) fun k w => w.countReq h.val k)) ∧
      (s.on g F.SPT_CTRL_PMODE = true → SetsAt (.setpointPulseEdge h t false) s t.toNat
        [(g, H.curHigh, H.curHigh.wrap ((t.toNat : Int) - s.nat g H.lastEdge))]) ∧
      (s.on g F.SPT_CTRL_PMODE = true → s.get g F.SPT_CNT_CNT = 0 → s.on g F.SPT_STAT_LOS_P = false →
        SetsAt (.setpointPulseEdge h t true) s t.toNat [(g, F.SPT_CNT_CNT, F.SPT_CNT_CNT.wrap 1), (g, H.prevEdge, H.prevEdge.wrap (s.nat g H.lastEdge)),
          (g, H.lastEdge, H.lastEdge.wrap t.toNat)]) ∧
      (2 ≤ s.nat g F.SPT_CTRL_PMODE → s.on g F.SPT_STAT_LOS_P = false → exec (.splos h true) s = .next (s.spLos h.val true)) ∧
      (s.losDue h.val = true → exec (.splos h false) s = .next (s.spLos h.val false)) ∧
      (s.losDue h.val = false → exec (.splos h false) s = .next s))

/-! ### The ring, sharing and services -/

/-- The links of the hatband: up with the expected neighbour's identity, measured, lost, late, held by another identity, flapping and
retraining. That an event of a link that is not in the state it belongs to changes nothing is the model's own reading (log entry 9). -/
def Obligations.Links : Prop :=
  ∀ (s : State) (l : Link), s.hatOn = true →
    (∀ x : Ident,
      let nb : Nat := match l with | .west => (s.ownPos + s.ringN - 1) % s.ringN | .east => (s.ownPos + 1) % s.ringN
      let fits : Prop := x.ringNo.toNat = s.nat 0 F.HBD_RING_RING_NO ∧ x.pos.toNat = nb ∧ x.nchip.toNat = s.nat 0 F.HBD_RING_NCHIP_M1 ∧
        x.tSc.toNat = s.nat 0 F.HBD_CYC_T_SC ∧ x.lmax.toNat = s.nat 0 F.HBD_RING_LMAX ∧ x.topo = s.on 0 F.HBD_CTRL_TOPO
      (fits → s.ringClock = true → s.lnkUsed l = true → s.oos l.block = false → s.lnkSt l ∈ [0, 1] → exec (.linkUp l x) s =
        .next (((s.puts l.base [(F.HBD_LNK_LSTATE, 2), (F.HBD_LNK_NB_POS, nb)]).put 0 H.hbWasUp 1).hatState)) ∧
      (¬fits → exec (.linkUp l x) s = .next s) ∧
      (¬fits → s.lnkUsed l = true → s.lnkSt l ≠ 4 → exec (.lnkid l x) s = .next (((s.lnkHold l 0x93).lnkRaise 0x93).hatState)) ∧
      (fits ∨ s.lnkUsed l = false ∨ s.lnkSt l = 4 → exec (.lnkid l x) s = .next s)) ∧
    (∀ d : BitVec 20, s.lnkSt l ∈ [1, 2] → SetsOnly (.linkDelayMeasure l d) s [(l.base, F.HBD_LNK_DLY, F.HBD_LNK_DLY.wrap d.toNat)]) ∧
    (s.lnkUsed l = true → s.lnkSt l ∈ [1, 2] → exec (.lnkloss l) s = .next (s.lnkDown l 0 0x90)) ∧
    (s.lnkSt l ∉ [1, 2] → exec (.lnkloss l) s = .next s) ∧ (s.lnkSt l ≠ 2 → exec (.lnklate l) s = .next s) ∧
    (s.lnkSt l = 2 → s.get 0 F.HBD_CYC_LATE_MAX ≤ s.get 0 (State.lateF l).1 → exec (.lnklate l) s =
      .next ((s.put 0 (State.lateF l).1 0).lnkDown l 0 0x92)) ∧
    exec (.lnkflap l) s = .next ((s.flapCheck l).hatState) ∧
    (s.ringClock = true → s.lnkUsed l = true → s.lnkSt l = 0 → SetsOnly (.linkRetrain l) s [(l.base, F.HBD_LNK_LSTATE, 1)]) ∧
    (s.lnkSt l ≠ 0 → exec (.linkRetrain l) s = .next s)

/-- The share cycle: launch, reception of a copy, the use of what has arrived, and the losses. That a chip outside a ring joins with a root frame
of another cycle, one that hears nobody but itself too where it faces a segment or R278 prefers the sender, is the model's own reading (log entry
77). -/
def Obligations.ShareCycle : Prop :=
  ∀ (s : State) (t : BitVec 64),
    exec (.shareCycleStart t) s = .next ((s.cycleStart t.toNat).shResetCheck) ∧
    (∀ (l : Link) (ws : List Word) (e : FrameEnd) (err : Bool) (rx : BitVec 68) (path res : BitVec 20),
      let a := s.advance t.toNat
      let go := exec (.hatbandFrameReceived l ws e err rx t path res) s
      (s.hatOn = false ∨ s.lnkSt l ≠ 2 → go = .next a) ∧
      (s.hatOn = true → s.lnkSt l = 2 →
        (e = .abort → go = .next (a.forward l (natsOf ws) res.toNat .abort)) ∧
        (e ≠ .abort → err = true ∨ (natsOf ws).getLastD 0 ≠ crcWords (natsOf ws).dropLast →
          go = .next ((a.forward l (natsOf ws) res.toNat .abort).lnkCrc l)) ∧
        (e ≠ .abort → err = false → (natsOf ws).getLastD 0 = crcWords (natsOf ws).dropLast → ∀ f, readFrame (natsOf ws).dropLast = some f →
          (f.type ≠ 0xA5 ∨ f.ringNo ≠ s.nat 0 F.HBD_RING_RING_NO ∨ s.ringN ≤ f.origin →
            SetsAt (.hatbandFrameReceived l ws e err rx t path res) s t.toNat [(l.base, F.HBD_CNT_SEQ, s.counted l.base F.HBD_CNT_SEQ)]) ∧
          (f.type = 0xA5 → f.ringNo = s.nat 0 F.HBD_RING_RING_NO → f.origin < s.ringN → f.cycle ≠ s.nat 0 H.hbM → s.joins f = false →
            SetsAt (.hatbandFrameReceived l ws e err rx t path res) s t.toNat [(l.base, F.HBD_CNT_SEQ, s.counted l.base F.HBD_CNT_SEQ),
              (0, H.hbSeg, if s.hearsNobody = true ∧ f.root = false ∧ f.origin ≠ s.ownPos then 1 else s.get 0 H.hbSeg)]) ∧
          (f.type = 0xA5 → f.ringNo = s.nat 0 F.HBD_RING_RING_NO → f.origin < s.ringN → f.cycle ≠ s.nat 0 H.hbM → s.joins f = true →
            After (.hatbandFrameReceived l ws e err rx t path res) s fun u => u.nat 0 F.HBD_STAT_ROOT_POS = f.origin ∧
              u.on 0 F.HBD_STAT_ROOT = false ∧ u.on 0 H.hbJoin = true ∧ u.on 0 F.HBD_STAT_SYNC_OK = false ∧ u.hat.frames = s.hat.frames) ∧
          (f.type = 0xA5 → f.ringNo = s.nat 0 F.HBD_RING_RING_NO → f.origin < s.ringN → f.cycle = s.nat 0 H.hbM →
            a.ringTime t.toNat ≤ a.useTime t.toNat → s.on 0 H.hbUsed = false → s.hat.frames.all (fun x => x.origin ≠ f.origin) = true →
            After (.hatbandFrameReceived l ws e err rx t path res) s fun u => u.hat.frames = s.hat.frames ++ [f])))) ∧
    (s.hatOn = false ∨ s.on 0 H.hbUsed = true → exec (.shareCycleUse t) s = .next (s.advance t.toNat)) ∧
    (s.hatOn = true → s.on 0 H.hbUsed = false → After (.shareCycleUse t) s fun u => u.hat.inForce = s.hat.frames ∧ u.on 0 H.hbUsed = true) ∧
    (∀ n : Fin 4, s.stnServes n → s.mode n.val = 3 → s.get (stnB n.val) F.STN_STAT_SOURCE = 2 → s.on (8 * n.val) F.HBD_ALLOC1_FRESH = false →
      s.on (8 * n.val) F.HBD_ALLOC1_FALLBACK = false → exec (.allocloss n) s =
        .next (((s.put (8 * n.val) F.HBD_ALLOC1_FALLBACK 1).stnRaise n.val (State.stnCode n.val 2 0x99)).fallback n.val)) ∧
    (s.hatOn = true → s.on 0 F.HBD_STAT_ROOT = false → exec .rootTimeout s = .next ((s.putSync false).put 0 H.hbNext (s.ownPos + 1))) ∧
    (s.hatOn = true → s.lnkSt .west ≠ 2 → s.lnkSt .east ≠ 2 → exec .alone s =
      .next (((s.putSync false).puts 0 [(F.HBD_STAT_STATE, 4), (H.hbNext, s.ownPos + 1), (H.hbLone, 2)]).raise (.region 0) (fcode 2 0 0x96))) ∧
    (s.hatOn = true → s.on 0 F.HBD_STAT_SYNC_OK = false → s.lnkSt .west = 2 ∨ s.lnkSt .east = 2 →
      exec .nosync s = .next (s.raise (.region 0) (fcode 2 0 0x9A))) ∧
    (s.hatOn = true → s.on 0 F.HBD_STAT_SYNC_OK = true → exec .nosync s = .next s)

/-- The service tick and the losses of the services. -/
def Obligations.Services : Prop :=
  ∀ (s : State) (t : BitVec 64) (k : Fin 16),
    let b := svcB k.val
    let x := State.svcH k.val
    (s.shRun = false → exec (.serviceTick t) s = .next (s.advance t.toNat)) ∧
    (s.shRun = true → s.master = 0 → exec (.serviceTick t) s = .next (s.advance t.toNat).roleCheck) ∧
    (s.shRun = true → s.master ≠ 0 → s.halfRun (s.master - 1) = true → s.isolated (s.master - 1) = false →
      let a := (s.advance t.toNat).roleCheck
      let u := (a.svcHeard.svcHear.svcApply.each (List.range 16) fun j v => if v.svcLive j then v.svcRun j a.svcFrames else v)
      let w := u.each (u.cans.filter fun c => u.halfReached (c % 2)) fun c v => v.canConsume c
      exec (.serviceTick t) s = .next (w.each (w.halves.filter fun h => w.halfRun h) fun h v => v.putK h)) ∧
    (s.shRun = true →
      (s.get b F.SVC_STAT_SERVICE = 3 → s.get b F.SVC_STAT_STATE ≠ 3 →
        let d := s.nat x H.svDrum
        exec (.spooldev k) s = .next ((((((s.stnRaise d (State.stnCode d 2 0xA8)).svcDrop k.val d).stopStation d (s.svcU k.val 1)).put x
          H.svWait (2 ^ d)).svcEnd k.val 0x30))) ∧
      (s.get b F.SVC_STAT_SERVICE = 4 → s.get b F.SVC_STAT_STATE ≠ 3 → s.on x H.svLost = false → exec (.heaveloss k) s =
        .next (((s.puts x [(H.svLost, 1), (H.svLossN, s.svcFirst k.val)]).put b F.SVC_STAT_SUB 4).stnRaise (s.svcFirst k.val)
          (State.stnCode (s.svcFirst k.val) 2 0xA9))) ∧
      (s.get b F.SVC_STAT_SERVICE = 5 → s.get b F.SVC_STAT_STATE ≠ 3 → s.on x H.svLost = false → exec (.pmsloss k) s =
        .next ((s.puts x [(H.svLost, 1), (H.svLossN, s.svcFirst k.val)]).stnRaise (s.svcFirst k.val) (State.stnCode (s.svcFirst k.val) 2 0xAA))) ∧
      (s.get b F.SVC_STAT_SERVICE = 6 → SetsOnly (.shedKeepEnd k) s [(x, H.svKeep, 0)]) ∧
      (s.master = 0 → exec .serviceTokenTimeout s = .next s.svcAllDown) ∧ (s.master ≠ 0 → exec .serviceTokenTimeout s = .next s))

/-! ### Axes -/

/-- The events of an axis. A step moves the count by one toward the reference position and never sooner than the minimum gap, a changed direction goes
out before it, and an axis gone to standby meanwhile energises with it (the model's own reading, log entry 101); a chopper cycle takes its entry from
the table as loaded by its start; an edge of the step input moves its counter by one. That an axis of a half that does not run stands is the model's
own reading (log entry 9). The planner updates both axes of a running half once per tick; a group starts when all its members wait for it, energised,
and its tick has come. -/
def Obligations.AxisRows : Prop :=
  (∀ (s : State) (n : Fin 4) (t : BitVec 64), s.axsServes n →
     let b := axsB n.val
     let a := s.advance t.toNat
     let d := sgnI (wrap48 (s.axNear n.val - s.get b F.AXS_POS_POS))
     (s.get b F.AXS_CTRL_CLASS = 0 ∨ s.on b H.axEner = true ∨ d = 0 → exec (.axisStep n t) s = .next a) ∧
     let dir : Int := if (decide (d < 0)) != s.on b F.AXS_CTRL_DIR_INV then 1 else 0
     let early (gap : Nat) : Prop := s.nat b H.axLast ≠ 0 ∧ t.toNat < s.nat b H.axLast + gap
     let steps : Prop := After (.axisStep n t) s fun u => u.get b F.AXS_POS_POS = F.AXS_POS_POS.wrap (s.get b F.AXS_POS_POS + d) ∧
       (s.get b F.AXS_STAT_COIL ∈ [0, 3] → u.get b F.AXS_STAT_COIL ∈ [1, 2])
     (s.get b F.AXS_CTRL_CLASS = 2 → s.on b H.axEner = false → d ≠ 0 →
       (early 200 → SetsAt (.axisStep n t) s t.toNat [(b, F.AXS_STAT_BACKLOG_SEEN, 1)]) ∧ (¬early 200 → steps)) ∧
     (s.get b F.AXS_CTRL_CLASS = 1 → s.on b H.axEner = false → d ≠ 0 →
       let gap := max 200 (s.nat b F.AXS_PULSE_PW + 40)
       (s.get b H.axDirL ≠ dir → SetsAt (.axisStep n t) s t.toNat [(b, H.axDirL, dir), (b, H.axDirT, H.axDirT.wrap
         ((if t.toNat < s.nat b H.axDirT then 0
           else max t.toNat (if s.nat b H.axLast = 0 then t.toNat else s.nat b H.axLast + s.nat b F.AXS_PULSE_PW) : Nat) : Int))]) ∧
       (s.get b H.axDirL = dir → early gap → SetsAt (.axisStep n t) s t.toNat [(b, F.AXS_STAT_BACKLOG_SEEN, 1)]) ∧
       (s.get b H.axDirL = dir → ¬early gap → s.get b H.axDirT ≠ 0 → t.toNat < s.nat b H.axDirT + s.nat b F.AXS_PULSE_DIR_SU →
         exec (.axisStep n t) s = .next a) ∧
       (s.get b H.axDirL = dir → ¬early gap → (s.get b H.axDirT = 0 ∨ s.nat b H.axDirT + s.nat b F.AXS_PULSE_DIR_SU ≤ t.toNat) → steps)) ∧
     (∀ coilB : Bool,
       (s.axChops n.val = false → exec (.axisChopperCycle n coilB) s = .next s ∧ exec (.axisChopperNoreach n coilB) s = .next s) ∧
       (s.axChops n.val = true →
         let f := s.axFresh n.val coilB
         let v := f.axValue n.val coilB
         let i := if s.get b F.AXS_STAT_COIL = 2 then s.get b F.AXS_ISCALE_I_RUN else s.get b F.AXS_ISCALE_I_HOLD
         let th := asr ((if v < 0 then -v else v) * i) 15
         let sg := State.axSgF coilB
         After (.axisChopperCycle n coilB) s (fun u => f.Sets u [(b, sg, sgnI v), (b, State.axVthF coilB, (State.axVthF coilB).wrap th),
           (b, State.axC0F coilB, (State.axC0F coilB).wrap s.time), (b, State.axNrF coilB, 0)]) ∧
         (s.get b sg ≠ 0 → SetsOnly (.axisChopperNoreach n coilB) s
           [(b, F.AXS_CNT_NOREACH, s.counted b F.AXS_CNT_NOREACH), (b, State.axNrF coilB, 1)]) ∧
         (s.get b sg = 0 → exec (.axisChopperNoreach n coilB) s = .next s))) ∧
     (s.get b F.AXS_CTRL_CLASS = 2 → exec (.axoc n) s = .next (s.axFault n.val 0xB1 false true)) ∧
     (s.get b F.AXS_CTRL_CLASS ≠ 2 → exec (.axoc n) s = .next s) ∧
     (s.get b F.AXS_HOLD_T_HOLD ≠ 65535 → s.on b H.axEner = false → s.get b F.AXS_STAT_COIL ∈ [1, 2] →
       let c : Int := if s.on b F.AXS_CTRL_STBY && s.get b F.AXS_CTRL_CLASS == 2 then 3 else 0
       After (.axisStandby n) s fun u => u.get b F.AXS_STAT_COIL = c ∧ u.get b H.axEn = (if c = 0 then 0 else 1) ∧
         ((s.axFresh n.val false).axFresh n.val true).Only u [(b, F.AXS_STAT_COIL), (b, H.axEn), (b, H.axVthA), (b, H.axVthB)]) ∧
     (s.get b F.AXS_HOLD_T_HOLD = 65535 ∨ s.on b H.axEner = true ∨ s.get b F.AXS_STAT_COIL ∉ [1, 2] → exec (.axisStandby n) s = .next s) ∧
     (s.on b H.axEner = true → s.axSt n.val ≠ 3 → SetsAt (.axisEnergised n t) s t.toNat [(b, H.axEner, 0)]) ∧
     (s.on b H.axEner = true → s.axSt n.val = 3 → After (.axisEnergised n t) s fun u => u.on b H.axEner = false ∧
       u.get b H.axT0 = H.axT0.wrap t.toNat) ∧
     (∀ dir : Bool, s.get b F.AXS_CTRL_CLASS = 2 → After (.axisStepInputEdge n t dir) s fun u =>
       u.get b F.AXS_IN_IN = F.AXS_IN_IN.wrap (s.get b F.AXS_IN_IN + (if dir then 1 else -1)) ∧
       (s.advance t.toNat).Only u [(b, F.AXS_IN_IN), (b, H.axEdgeD), (b, H.axEdgeT), (b, H.axQi), (b, H.axRate)])) ∧
  (∀ (s : State) (t : BitVec 64),
     let a := s.advance t.toNat
     let plan (n : Nat) (u : State) : State := ((u.axInterp n).spoolCheck n).axTick n t.toNat
     (∀ h : Fin 2, s.halfRun h.val = true → exec (.plannerTick h t) s = .next (plan (2 * h.val + 1) (plan (2 * h.val) a))) ∧
     (∀ h : Fin 2, s.halfRun h.val = false → exec (.plannerTick h t) s = .next a) ∧
     (∀ g : BitVec 4,
       let ms := (List.range 4).filter (bitN g.toNat)
       let waits (m : Nat) : Bool := s.axSt m == 4 && s.nat (axsB m) H.axGrp == g.toNat && !s.on (axsB m) H.axGo && !s.on (axsB m) H.axEner &&
         decide (s.nat (axsB m) H.axT0 ≤ t.toNat)
       (ms.all waits = true → exec (.axisGroupStart g t) s = .next (a.each ms fun m u => u.puts (axsB m)
         [(H.axXs, u.ascTbv ((u.nat (axsB m) H.axTab - 1) / 2) (2 + (u.nat (axsB m) H.axTab - 1) % 2)), (H.axT0, t.toNat), (H.axGo, 1)])) ∧
       (ms.all waits = false → exec (.axisGroupStart g t) s = .next a)))

/-! ### CAN -/

/-- The events of a CAN controller: frames received and sent, limits, recovery, the time reference, integration and bus errors. The model's own
readings: the steps of the error counters (log entry 40), an FD frame without FD_EN as a form error (42), loopback and the place of a reference
message in arbitration (103), and the frame that a controller still ends after EN = 0 (111). -/
def Obligations.CanRows : Prop :=
  ∀ (s : State) (c : Fin 4) (t : BitVec 64), s.canServes c →
    let b := canB c.val
    (∀ (rtr : Bool) (f : CanFrame),
      let go := exec (.canFrameReceived c t rtr f) s
      let taken : State :=
        if f.fdf = true ∧ s.on b F.CAN_CTRL_FD_EN = false then s.canError c.val 2 false false
        else if rtr = true then s.canRemote c.val
        else if s.isTunnel c.val f = true then (s.advance t.toNat).tunnelIn c f.fdf f.data
        else s.canReceive c.val t.toNat f
      let begun : Prop := (t.toNat : Int) ≤ s.get b H.cnOffT
      (s.on b F.CAN_CTRL_LBK = true → go = .next s) ∧
      (s.on b F.CAN_CTRL_LBK = false → s.on b F.CAN_CTRL_EN = true →
        (s.canOn c.val = true → go = .next taken) ∧ (s.canOn c.val = false → go = .next s)) ∧
      (s.on b F.CAN_CTRL_LBK = false → s.on b F.CAN_CTRL_EN = false →
        (s.get b H.cnFin = 1 → (begun → go = .next (taken.canFinish c.val)) ∧ (¬begun → go = .next (s.canFinish c.val))) ∧
        (s.get b H.cnFin = 2 → (begun → go = .next (taken.canOff c.val)) ∧ (¬begun → go = .next s)) ∧
        (s.get b H.cnFin ∉ [1, 2] → go = .next s))) ∧
    (s.get b H.cnFin ≠ 1 → s.canFinish c.val = s) ∧
    (s.get b H.cnFin = 1 → let u := s.canFinish c.val
      u.get b F.CAN_STAT_ACT = 0 ∧ u.get b F.CAN_STAT_ERRSTATE = 3 ∧ u.get b H.cnXcv = 0 ∧ u.get b H.cnFin = 0 ∧ (u.canq c.val).tx = []) ∧
    (s.on b H.cnDefer = false → exec (.canRxNoticeDelay c) s = .next s) ∧
    (s.on b H.cnDefer = true →
      let u := s.notice 6 [c.val + 256 * (s.ownedIn c.val true).length]
      let took : Prop := ∃ i : Fin 6, (u.port i.val).level .notice ≠ (s.port i.val).level .notice
      (took → exec (.canRxNoticeDelay c) s = .next (u.puts b [(H.cnNote, 1), (H.cnNoteT, s.time), (H.cnDefer, 0)])) ∧
      (¬took → exec (.canRxNoticeDelay c) s = .next (u.put b H.cnDefer 0))) ∧
    (s.get b H.cnFin ≠ 1 →
      (∀ ack, s.on b F.CAN_CTRL_LBK = false → exec (.canFrameSent c ack) s = .next (((s.tunMark c.val).canSent c.val ack).shResetCheck)) ∧
      (s.on b F.CAN_CTRL_LBK = true → (s.txNext c.val).isSome = true →
        exec (.canFrameSent c true) s = .next ((((s.tunMark c.val).canSent c.val true).canLoop c).shResetCheck))) ∧
    (s.get b H.cnFin = 1 → ∀ ack, After (.canFrameSent c ack) s fun u => u.get b F.CAN_STAT_ACT = 0 ∧ u.get b F.CAN_STAT_ERRSTATE = 3 ∧
      u.get b H.cnXcv = 0 ∧ u.get b H.cnFin = (if ack then 0 else 2) ∧ (u.canq c.val).tx = []) ∧
    (∀ ix : Fin 32, (s.canq c.val).tx.any (fun e => e.ix == ix.val) = true → exec (.canTxTimeout c ix) s =
      .next ((s.txEnd c.val ix.val 0x31).canFinish c.val)) ∧
    (∀ ix : Fin 32, (s.canq c.val).tx.any (fun e => e.ix == ix.val) = false → exec (.canTxTimeout c ix) s = .next s) ∧
    (s.on b F.CAN_STAT_RECOVERING = true → After (.canRecoveryComplete c) s fun u => u.get b F.CAN_STAT_RECOVERING = 0 ∧
      u.get b F.CAN_STAT_ERRSTATE = 0 ∧ u.get b F.CAN_ERR_TEC = 0 ∧ u.get b F.CAN_ERR_REC = 0 ∧ u.get b F.CAN_STAT_ACT = 1 ∧
      ∀ x ∈ s.owed 0x61 c.val, u.tagBusy x.tag = false) ∧
    (s.on b F.CAN_STAT_RECOVERING = false → exec (.canRecoveryComplete c) s = .next s) ∧
    (c.val < 2 → SetsOnly (.txdDominantTimeout c) s [(b, H.cnRel, 1)]) ∧
    (s.on b F.CAN_CTRL_FD_EN = false ∨ s.on b F.CAN_CTRL_EN = false → exec (.timeReferenceSend c t) s = .next s) ∧
    (s.canSends c.val = true → s.on b F.CAN_CTRL_EN = true → s.on b F.CAN_CTRL_FD_EN = true → s.on b F.CAN_TM_SENDING = true →
      s.on b F.CAN_CTRL_LBK = false →
      (∀ e, s.txWinner c.val = some e → s.refFirst c.val e = true) → After (.timeReferenceSend c t) s fun u =>
      (∃ f, (u.canq c.val).lastTx = some f ∧ f.id = BitVec.ofNat 29 (s.nat b F.CAN_TM_ID_ID + s.nat b F.CAN_TM_PRIO) ∧ f.fdf = true ∧
        f.data.length = 12) ∧ u.get b H.tmSof = H.tmSof.wrap ((max s.time (t.toNat % 2 ^ 64) : Nat) + s.get b F.CAN_NT_OFS_OFS) ∧
      u.get b H.tmSeq = H.tmSeq.wrap (s.get b H.tmSeq + 1) ∧ u.get b F.CAN_ERR_TEC = max 0 (s.get b F.CAN_ERR_TEC - 1)) ∧
    (∀ e, s.txWinner c.val = some e → s.refFirst c.val e = false → exec (.timeReferenceSend c t) s = .next s) ∧
    (∀ f : CanFrame, (s.refPrio c.val f).isSome = true → exec (.timeReferenceReceived c t f) s = exec (.canFrameReceived c t false f) s) ∧
    (s.canOn c.val = true → s.get b F.CAN_TM_ROLE = 2 → s.on b F.CAN_TM_SENDING = false → s.on b H.tmDup = false →
      SetsOnly (.timeBackupActivate c) s [(b, F.CAN_TM_SENDING, 1), (b, H.tmSofOk, 0)]) ∧
    (s.on b F.CAN_TM_NT_OK = true → exec (.ntloss c) s =
      .next ((s.puts b [(F.CAN_TM_NT_OK, 0), (H.tmPrevOk, 0)]).raise (State.canU c.val) (State.canCode c.val 2 0xC4))) ∧
    (s.on b F.CAN_CTRL_EN = true → s.on b F.CAN_STAT_ACT = false → s.on b F.CAN_STAT_CLKOFF = false → s.get b F.CAN_STAT_ERRSTATE ≠ 2 →
      SetsOnly (.canBusIntegrated c) s [(b, F.CAN_STAT_ERRSTATE, 0), (b, F.CAN_ERR_TEC, 0), (b, F.CAN_ERR_REC, 0), (b, F.CAN_ERR_RP, 0),
        (b, F.CAN_STAT_ACT, 1), (b, H.cnRel, 0), (b, F.CAN_TM_SENDING, b2i (s.on b F.CAN_TM_SENDING || s.on b H.tmWas)), (b, H.tmWas, 0)]) ∧
    (∀ (lec : Fin 8) (tx heavy : Bool), s.canOn c.val = true → 1 ≤ lec.val → lec.val ≤ 6 →
      (tx = true → heavy = false → SetsOnly (.canErrorDetected c lec tx heavy) s [(b, F.CAN_STAT_LEC, lec.val)]) ∧
      (tx = true → heavy = true → 255 < s.get b F.CAN_ERR_TEC + 8 → exec (.canErrorDetected c lec tx heavy) s =
        .next ((((s.put b F.CAN_STAT_LEC lec.val).put b F.CAN_ERR_TEC 255).canBusOff c.val).canFinish c.val)) ∧
      (tx = true → heavy = true → s.get b F.CAN_ERR_TEC + 8 ≤ 255 → exec (.canErrorDetected c lec tx heavy) s =
        .next (((s.put b F.CAN_STAT_LEC lec.val).put b F.CAN_ERR_TEC (s.get b F.CAN_ERR_TEC + 8)).canErrState c.val)) ∧
      (tx = false → exec (.canErrorDetected c lec tx heavy) s =
        .next (((s.put b F.CAN_STAT_LEC lec.val).recUp c.val (if heavy then 8 else 1)).canErrState c.val)))

/-! ### Faults, mastership, recorder -/

/-- Raising a fault: an entry that is there counts one more occurrence; a new one joins the list while it has room, stamped with the time; else the
list is marked as overflowed and no entry changes. Cells, blocks, steaming and RAM: what an error takes out of service, and the counts. The model's
own readings: which cells' errors take their whole block out, and a position cell's as a position fault with the block's code (log entry 50), and that
an error of a block that does not run changes nothing (9). -/
def Obligations.FaultsAndBlocks : Prop :=
  (∀ (s : State) (u : FUnit) (code : Nat),
     (s.hasFault u code = true → (s.raise u code).flt.list =
       s.flt.list.map (fun e => if e.unit == u && e.code == code then { e with occ := min 0xFFFF (e.occ + 1), last := s.time } else e)) ∧
     (s.hasFault u code = false → (s.faultsOf u).length < u.cap → (s.raise u code).flt.list =
       s.flt.list ++ [{ unit := u, code := code, occ := 1, tick := s.time, last := s.time, lasting := false, out := [] }] ∧ (s.raise u code).hasFault u code = true) ∧
     (s.hasFault u code = false → u.cap ≤ (s.faultsOf u).length → (s.raise u code).flt.list = s.flt.list ∧ u ∈ (s.raise u code).flt.ovf)) ∧
  (∀ s : State,
     (∀ b : Block, s.blockLive b = true → exec (.blockError b) s = .next (((s.cover b b.error).blockOut b b.error).holdOut b)) ∧
     (∀ b : Block, s.blockLive b = false → exec (.blockError b) s = .next s) ∧
     (∀ (n : Fin 4) (leg : Fin 3), s.blockLive (.stn n) = true →
       exec (.cellError (.gate n leg)) s = exec (.blockError (.stn n)) s ∧ exec (.cellError (.pwm n leg)) s = exec (.blockError (.stn n)) s ∧
       exec (.cellError (.commutation n)) s = exec (.blockError (.stn n)) s ∧
       exec (.cellError (.adc n leg)) s = .next ((s.put (stnB n.val) F.CS_I_W_VALID 0).blockError (.stn n)) ∧
       exec (.cellError (.position n)) s = .next (s.positionFaultBy n.val (Block.error (.stn n)))) ∧
     (∀ (h : Fin 2) (m : Fin 48), s.alive = true → exec (.cellError (.slot h m)) s = exec (.sloterr h m) s) ∧
     (∀ (c : Fin 4) (ix : Fin 96), s.blockLive (.can c) = true → exec (.cellError (.canEntry c ix)) s = .next (s.entryError c ix)) ∧
     (∀ n : Fin 4, exec (.cellError (.axis n)) s = exec (.blockError (.axs n)) s) ∧
     (∀ ix : Nat, s.alive = true → ix < s.log.staging.length → After (.cellError (.record ix)) s fun t =>
       t.log.staging = s.log.staging.eraseIdx ix) ∧
     (∀ (b : Block) (ok : Bool), s.blockLive b = true → exec (.steamingEnd (.block b) ok) s = .next (s.blockSteamed b ok)) ∧
     (∀ (c : Fin 4) (ix : Fin 96) (ok : Bool), s.alive = true → s.halfRun (c.val % 2) = true →
       exec (.steamingEnd (.canEntry c ix) ok) s = .next (s.entrySteamed c ix ok)) ∧
     (∀ k : BitVec 16, s.alive = true → SetsOnly (.ramScrub k) s
       [(0, F.FLT_CNT_CORR, F.FLT_CNT_CORR.wrap (min (2 ^ F.FLT_CNT_CORR.w - 1) (s.get 0 F.FLT_CNT_CORR + k.toNat)))]))

/-- A region with an error restarts, or is held once it has restarted REG_MAX times within 60 s; its restart ends with the region running. Isolation,
its end, and the heartbeats: the second miss in a row, none of them in the clock of an arrival, deems the other half down, and a half in standby takes
the token from it. -/
def Obligations.RegionsAndMastership : Prop :=
  (∀ (s : State) (r : Fin 3), s.alive = true →
     (∀ ram : Bool, s.regionRun r.val = true →
       let past := s.flt.restart.filter fun e => e.1 == r.val && decide (s.time < e.2 + 24000000000)
       (past.length < s.nat 0 F.FLT_CFG_REG_MAX → After (.regionError r ram) s fun t => t.regionSt r.val = .restarting) ∧
       (s.nat 0 F.FLT_CFG_REG_MAX ≤ past.length → After (.regionError r ram) s fun t => t.regionSt r.val = .held)) ∧
     (∀ ram : Bool, s.regionRun r.val = false → exec (.regionError r ram) s = .next s) ∧
     (s.regionSt r.val = .restarting → After (.regionRestartComplete r) s fun t => t.regionRun r.val = true) ∧
     (s.regionSt r.val ≠ .restarting → exec (.regionRestartComplete r) s = .next s)) ∧
  (∀ (s : State) (h : Fin 2),
     let g := halfB h.val
     let o := halfB (1 - h.val)
     (s.alive = true → s.halfPresent h.val = true → s.halfRun h.val = true → s.isolated h.val = false →
       After (.isolationEntry h) s fun t => t.isolated h.val = true) ∧
     (s.alive = false ∨ s.halfRun h.val = false ∨ s.isolated h.val = true → exec (.isolationEntry h) s = .next s) ∧
     (s.halfPresent h.val = true → s.halfRun h.val = true → s.isolated h.val = true → s.shRun = true →
       After (.isolationEnd h) s fun t => t.isolated h.val = false) ∧
     (s.heartOn h.val = true → SetsOnly (.heartbeatSend h) s [(g, H.hbSeq, H.hbSeq.wrap (s.get g H.hbSeq + 1))]) ∧
     (s.heartOn h.val = true → s.heartOn (1 - h.val) = true → s.oos .abmbx = false → SetsOnly (.heartbeatReceived h) s
       [(g, F.SUP_HB_HB_RX, F.SUP_HB_HB_RX.wrap (s.get o H.hbSeq)), (g, F.SUP_MST_PEER_UP, 1), (g, H.hbRun, 0),
       (g, H.hbRx, H.hbRx.wrap (s.time + 1 : Nat))]) ∧
     (s.heartOn h.val = false ∨ s.get g H.hbRx = (s.time : Int) + 1 → exec (.heartbeatMiss h) s = .next s) ∧
     (s.heartOn h.val = true → s.get g H.hbRx ≠ (s.time : Int) + 1 → s.get g H.hbRun = 0 → SetsOnly (.heartbeatMiss h) s
       [(g, F.SUP_HB_HB_MISS, s.counted g F.SUP_HB_HB_MISS), (g, H.hbRun, 1)]) ∧
     (s.heartOn h.val = true → s.get g H.hbRx ≠ (s.time : Int) + 1 → s.get g H.hbRun = 1 →
       let u := ((((s.bump g F.SUP_HB_HB_MISS).put g H.hbRun 2).put g F.SUP_MST_PEER_UP 0).raiseBy (h.val + 1) (.region (Fin.ofNat 3 (2 - h.val)))
         (fcode 3 (2 - h.val) 0xD3))
       (u.get g F.SUP_MST_ROLE = 2 → u.master = 2 - h.val → u.on g H.tkLost = false → u.shRun = true →
         exec (.heartbeatMiss h) s = .next (u.takeToken h.val true)) ∧
       (u.get g F.SUP_MST_ROLE ≠ 2 ∨ u.on g H.tkLost = true → exec (.heartbeatMiss h) s = .next u)))

/-- The recorder: a capture moves the oldest trigger to the staging buffer, or counts it into REPEAT of the record it repeats, at its capture (the
model's own reading, log entry 52); a write moves the oldest staged record to the NVA, a felt one behind the others, a circulating one into its slot,
for a token outside a flush; a token comes back each millisecond. -/
def Obligations.RecorderRows : Prop :=
  ∀ s : State,
    (∀ x l, s.log.fifo = x :: l → s.log.staging.length < 64 → s.shRun = true ∨ s.log.flush.isSome = true →
      (s.log.staging.any (State.repeats x.trig x.region x.code) = false → After .recordCapture s fun t => t.log.fifo = l ∧
        ∃ r : Recd, r.tick = x.tick ∧ r.trig = x.trig ∧ r.region = x.region ∧ r.code = x.code ∧ t.log.staging = s.log.staging ++ [r]) ∧
      (s.log.staging.any (State.repeats x.trig x.region x.code) = true → After .recordCapture s fun t => t.log.fifo = l ∧
        t.log.staging = s.log.staging.map (fun r => if State.repeats x.trig x.region x.code r then { r with rep := min 0xFFFF (r.rep + 1) } else r) ∧
        t.regs = s.regs)) ∧
    (s.log.fifo = [] ∨ 64 ≤ s.log.staging.length → exec .recordCapture s = .next s) ∧
    (∀ r l, s.log.staging = r :: l → s.oos .recorder = false → s.chip.phase ∉ [.off, .asleep] →
      (r.felt = true → After .recordNvaWrite s fun t => t.log.felt = s.log.felt ++ [r] ∧ t.log.circ = s.log.circ) ∧
      (r.felt = false → s.log.flush.isSome = true ∨ 0 < s.log.bucket → After .recordNvaWrite s fun t => t.log.felt = s.log.felt ∧
        t.log.circ = (s.log.circ.filter fun x => x.seq % 2048 != r.seq % 2048) ++ [r]) ∧
      (r.felt = true ∨ s.log.flush.isSome = true → After .recordNvaWrite s fun t => t.log.staging = l ∧ t.log.bucket = s.log.bucket) ∧
      (r.felt = false → s.log.flush = none → 0 < s.log.bucket → After .recordNvaWrite s fun t => t.log.staging = l ∧
        t.log.bucket = s.log.bucket - 1 ∧ t.log.felt = s.log.felt) ∧
      (r.felt = false → s.log.flush = none → s.log.bucket = 0 → exec .recordNvaWrite s = .next s)) ∧
    (s.chip.phase ∉ [.off, .asleep] → exec .recorderBucketRefill s = .next { s with log := { s.log with bucket := min 64 (s.log.bucket + 1) } })
end

