-- ==== Sys2Proof/Laws/Sparse.lean ====
section
/-!
SUPPORT. The sparse map: reading after writing, and the canonical form that every operation keeps.
-/
namespace Sys2Proof.Machine

@[simp] theorem Sparse.get_nil (k : Nat) : Sparse.get [] k = 0 := rfl

theorem Sparse.get_insert_same (m : Sparse) (k : Nat) (v : Int) : (m.insert k v).get k = v := by
  induction m with
  | nil => simp [Sparse.insert, Sparse.get]
  | cons e r ih =>
    obtain ⟨k', v'⟩ := e
    by_cases h1 : k < k'
    · simp [Sparse.insert, h1, Sparse.get]
    · by_cases h2 : k = k'
      · simp [Sparse.insert, h2, Sparse.get]
      · have h3 : ¬ k' = k := fun h => h2 h.symm
        simp [Sparse.insert, h1, h2, h3, Sparse.get, ih]

theorem Sparse.get_insert_ne (m : Sparse) {k k2 : Nat} (v : Int) (h : k ≠ k2) : (m.insert k v).get k2 = m.get k2 := by
  induction m with
  | nil => simp [Sparse.insert, Sparse.get, h]
  | cons e r ih =>
    obtain ⟨k', v'⟩ := e
    by_cases h1 : k < k'
    · simp [Sparse.insert, h1, Sparse.get, h]
    · by_cases h2 : k = k'
      · subst h2; simp [Sparse.insert, Sparse.get, h]
      · simp [Sparse.insert, h1, h2, Sparse.get, ih]

theorem Sparse.get_erase_same (m : Sparse) (k : Nat) : (m.erase k).get k = 0 := by
  induction m with
  | nil => rfl
  | cons e r ih =>
    by_cases h : e.1 = k
    · simpa [Sparse.erase, h] using ih
    · simpa [Sparse.erase, h, Sparse.get] using ih

theorem Sparse.get_erase_ne (m : Sparse) {k k2 : Nat} (h : k ≠ k2) : (m.erase k).get k2 = m.get k2 := by
  induction m with
  | nil => rfl
  | cons e r ih =>
    obtain ⟨k', v'⟩ := e
    by_cases h1 : k' = k
    · subst h1; simpa [Sparse.erase, Sparse.get, h] using ih
    · simp only [Sparse.erase, bne_iff_ne, ne_eq, h1, not_false_eq_true, List.filter_cons_of_pos, Sparse.get] at ih ⊢
      split
      · rfl
      · exact ih

/-- A write is what is read back. -/
@[simp] theorem Sparse.get_set_same (m : Sparse) (k : Nat) (v : Int) : (m.set k v).get k = v := by
  unfold Sparse.set
  split
  · next h => rw [Sparse.get_erase_same, h]
  · exact Sparse.get_insert_same m k v

/-- A write leaves every other key alone. -/
theorem Sparse.get_set_ne (m : Sparse) {k k2 : Nat} (v : Int) (h : k ≠ k2) : (m.set k v).get k2 = m.get k2 := by
  unfold Sparse.set
  split
  · exact Sparse.get_erase_ne m h
  · exact Sparse.get_insert_ne m v h

theorem Sparse.wf_nil : Sparse.wf [] := ⟨List.Pairwise.nil, by simp⟩

theorem Sparse.wf_filter {m : Sparse} (p : Nat × Int → Bool) (h : m.wf) : Sparse.wf (m.filter p) :=
  ⟨h.1.filter p, fun e he => h.2 e (List.mem_filter.mp he).1⟩

theorem Sparse.wf_erase {m : Sparse} (k : Nat) (h : m.wf) : (m.erase k).wf := Sparse.wf_filter _ h

theorem Sparse.wf_clear {m : Sparse} (lo hi : Nat) (h : m.wf) : (m.clear lo hi).wf := Sparse.wf_filter _ h

theorem Sparse.mem_insert {m : Sparse} {k : Nat} {v : Int} {e : Nat × Int} (h : e ∈ m.insert k v) : e = (k, v) ∨ e ∈ m := by
  induction m with
  | nil => simpa [Sparse.insert] using h
  | cons a r ih =>
    obtain ⟨k', v'⟩ := a
    unfold Sparse.insert at h
    split at h
    · simpa using h
    · split at h
      · rcases List.mem_cons.mp h with h | h
        · exact .inl h
        · exact .inr (List.mem_cons_of_mem _ h)
      · rcases List.mem_cons.mp h with h | h
        · exact .inr (h ▸ List.mem_cons_self ..)
        · rcases ih h with h | h
          · exact .inl h
          · exact .inr (List.mem_cons_of_mem _ h)

theorem Sparse.wf_insert {m : Sparse} (k : Nat) {v : Int} (hv : v ≠ 0) (h : m.wf) : (m.insert k v).wf := by
  refine ⟨?_, fun e he => ?_⟩
  · obtain ⟨hp, -⟩ := h
    induction m with
    | nil => simp [Sparse.insert]
    | cons a r ih =>
      obtain ⟨k', v'⟩ := a
      rw [List.pairwise_cons] at hp
      unfold Sparse.insert
      split
      · next hlt =>
        refine List.pairwise_cons.mpr ⟨fun e he => ?_, List.pairwise_cons.mpr hp⟩
        rcases List.mem_cons.mp he with he | he
        · simpa [he] using hlt
        · exact Nat.lt_trans hlt (hp.1 e he)
      · split
        · next heq => subst heq; exact List.pairwise_cons.mpr hp
        · next h1 h2 =>
          refine List.pairwise_cons.mpr ⟨fun e he => ?_, ih hp.2⟩
          rcases Sparse.mem_insert he with he | he
          · subst he; show k' < k; omega
          · exact hp.1 e he
  · rcases Sparse.mem_insert he with he | he
    · simpa [he] using hv
    · exact h.2 e he

/-- Writing keeps the canonical form. -/
theorem Sparse.wf_set {m : Sparse} (k : Nat) (v : Int) (h : m.wf) : (m.set k v).wf := by
  unfold Sparse.set
  split
  · exact Sparse.wf_erase k h
  · next hv => exact Sparse.wf_insert k hv h

end Sys2Proof.Machine
end

