-- ==== Sys2Proof/Laws/State.lean ====
section
/-!
SUPPORT. What the updates of State do to each field, and reading register fields after writing them.
-/
namespace Sys2Proof.Machine.State

@[simp] theorem put_time (s : State) (b : Nat) (f : Fld) (v : Int) : (s.put b f v).time = s.time := rfl
@[simp] theorem put_tabs (s : State) (b : Nat) (f : Fld) (v : Int) : (s.put b f v).tabs = s.tabs := rfl
@[simp] theorem put_shadows (s : State) (b : Nat) (f : Fld) (v : Int) : (s.put b f v).shadows = s.shadows := rfl
@[simp] theorem put_held (s : State) (b : Nat) (f : Fld) (v : Int) : (s.put b f v).held = s.held := rfl
@[simp] theorem put_free (s : State) (b : Nat) (f : Fld) (v : Int) : (s.put b f v).free = s.free := rfl
@[simp] theorem put_chip (s : State) (b : Nat) (f : Fld) (v : Int) : (s.put b f v).chip = s.chip := rfl
@[simp] theorem put_mil (s : State) (b : Nat) (f : Fld) (v : Int) : (s.put b f v).mil = s.mil := rfl
@[simp] theorem put_hat (s : State) (b : Nat) (f : Fld) (v : Int) : (s.put b f v).hat = s.hat := rfl
@[simp] theorem put_mbx (s : State) (b : Nat) (f : Fld) (v : Int) : (s.put b f v).mbx = s.mbx := rfl
@[simp] theorem put_can (s : State) (b : Nat) (f : Fld) (v : Int) : (s.put b f v).can = s.can := rfl
@[simp] theorem put_svcNew (s : State) (b : Nat) (f : Fld) (v : Int) : (s.put b f v).svcNew = s.svcNew := rfl
@[simp] theorem put_axOld (s : State) (b : Nat) (f : Fld) (v : Int) : (s.put b f v).axOld = s.axOld := rfl
@[simp] theorem put_cfg (s : State) (b : Nat) (f : Fld) (v : Int) : (s.put b f v).cfg = s.cfg := rfl
@[simp] theorem put_log (s : State) (b : Nat) (f : Fld) (v : Int) : (s.put b f v).log = s.log := rfl
@[simp] theorem put_flt (s : State) (b : Nat) (f : Fld) (v : Int) : (s.put b f v).flt = s.flt := rfl
@[simp] theorem put_pending (s : State) (b : Nat) (f : Fld) (v : Int) : (s.put b f v).pending = s.pending := rfl

@[simp] theorem withChip_time (s : State) (g : Chip → Chip) : (s.withChip g).time = s.time := rfl
@[simp] theorem withChip_regs (s : State) (g : Chip → Chip) : (s.withChip g).regs = s.regs := rfl
@[simp] theorem withChip_tabs (s : State) (g : Chip → Chip) : (s.withChip g).tabs = s.tabs := rfl
@[simp] theorem withChip_shadows (s : State) (g : Chip → Chip) : (s.withChip g).shadows = s.shadows := rfl
@[simp] theorem withChip_held (s : State) (g : Chip → Chip) : (s.withChip g).held = s.held := rfl
@[simp] theorem withChip_free (s : State) (g : Chip → Chip) : (s.withChip g).free = s.free := rfl
@[simp] theorem withChip_mil (s : State) (g : Chip → Chip) : (s.withChip g).mil = s.mil := rfl
@[simp] theorem withChip_hat (s : State) (g : Chip → Chip) : (s.withChip g).hat = s.hat := rfl
@[simp] theorem withChip_mbx (s : State) (g : Chip → Chip) : (s.withChip g).mbx = s.mbx := rfl
@[simp] theorem withChip_can (s : State) (g : Chip → Chip) : (s.withChip g).can = s.can := rfl
@[simp] theorem withChip_svcNew (s : State) (g : Chip → Chip) : (s.withChip g).svcNew = s.svcNew := rfl
@[simp] theorem withChip_axOld (s : State) (g : Chip → Chip) : (s.withChip g).axOld = s.axOld := rfl
@[simp] theorem withChip_marks (s : State) (g : Chip → Chip) : (s.withChip g).marks = s.marks := rfl
@[simp] theorem withChip_cfg (s : State) (g : Chip → Chip) : (s.withChip g).cfg = s.cfg := rfl
@[simp] theorem withChip_log (s : State) (g : Chip → Chip) : (s.withChip g).log = s.log := rfl
@[simp] theorem withChip_flt (s : State) (g : Chip → Chip) : (s.withChip g).flt = s.flt := rfl
@[simp] theorem withChip_pending (s : State) (g : Chip → Chip) : (s.withChip g).pending = s.pending := rfl

@[simp] theorem withMil_time (s : State) (g : Mil → Mil) : (s.withMil g).time = s.time := rfl
@[simp] theorem withMil_regs (s : State) (g : Mil → Mil) : (s.withMil g).regs = s.regs := rfl
@[simp] theorem withMil_tabs (s : State) (g : Mil → Mil) : (s.withMil g).tabs = s.tabs := rfl
@[simp] theorem withMil_shadows (s : State) (g : Mil → Mil) : (s.withMil g).shadows = s.shadows := rfl
@[simp] theorem withMil_held (s : State) (g : Mil → Mil) : (s.withMil g).held = s.held := rfl
@[simp] theorem withMil_free (s : State) (g : Mil → Mil) : (s.withMil g).free = s.free := rfl
@[simp] theorem withMil_chip (s : State) (g : Mil → Mil) : (s.withMil g).chip = s.chip := rfl
@[simp] theorem withMil_hat (s : State) (g : Mil → Mil) : (s.withMil g).hat = s.hat := rfl
@[simp] theorem withMil_mbx (s : State) (g : Mil → Mil) : (s.withMil g).mbx = s.mbx := rfl
@[simp] theorem withMil_can (s : State) (g : Mil → Mil) : (s.withMil g).can = s.can := rfl
@[simp] theorem withMil_svcNew (s : State) (g : Mil → Mil) : (s.withMil g).svcNew = s.svcNew := rfl
@[simp] theorem withMil_axOld (s : State) (g : Mil → Mil) : (s.withMil g).axOld = s.axOld := rfl
@[simp] theorem withMil_marks (s : State) (g : Mil → Mil) : (s.withMil g).marks = s.marks := rfl
@[simp] theorem withMil_cfg (s : State) (g : Mil → Mil) : (s.withMil g).cfg = s.cfg := rfl
@[simp] theorem withMil_log (s : State) (g : Mil → Mil) : (s.withMil g).log = s.log := rfl
@[simp] theorem withMil_flt (s : State) (g : Mil → Mil) : (s.withMil g).flt = s.flt := rfl
@[simp] theorem withMil_pending (s : State) (g : Mil → Mil) : (s.withMil g).pending = s.pending := rfl

@[simp] theorem withCfg_time (s : State) (g : CfgStore → CfgStore) : (s.withCfg g).time = s.time := rfl
@[simp] theorem withCfg_regs (s : State) (g : CfgStore → CfgStore) : (s.withCfg g).regs = s.regs := rfl
@[simp] theorem withCfg_tabs (s : State) (g : CfgStore → CfgStore) : (s.withCfg g).tabs = s.tabs := rfl
@[simp] theorem withCfg_shadows (s : State) (g : CfgStore → CfgStore) : (s.withCfg g).shadows = s.shadows := rfl
@[simp] theorem withCfg_held (s : State) (g : CfgStore → CfgStore) : (s.withCfg g).held = s.held := rfl
@[simp] theorem withCfg_free (s : State) (g : CfgStore → CfgStore) : (s.withCfg g).free = s.free := rfl
@[simp] theorem withCfg_chip (s : State) (g : CfgStore → CfgStore) : (s.withCfg g).chip = s.chip := rfl
@[simp] theorem withCfg_mil (s : State) (g : CfgStore → CfgStore) : (s.withCfg g).mil = s.mil := rfl
@[simp] theorem withCfg_hat (s : State) (g : CfgStore → CfgStore) : (s.withCfg g).hat = s.hat := rfl
@[simp] theorem withCfg_mbx (s : State) (g : CfgStore → CfgStore) : (s.withCfg g).mbx = s.mbx := rfl
@[simp] theorem withCfg_can (s : State) (g : CfgStore → CfgStore) : (s.withCfg g).can = s.can := rfl
@[simp] theorem withCfg_svcNew (s : State) (g : CfgStore → CfgStore) : (s.withCfg g).svcNew = s.svcNew := rfl
@[simp] theorem withCfg_axOld (s : State) (g : CfgStore → CfgStore) : (s.withCfg g).axOld = s.axOld := rfl
@[simp] theorem withCfg_marks (s : State) (g : CfgStore → CfgStore) : (s.withCfg g).marks = s.marks := rfl
@[simp] theorem withCfg_log (s : State) (g : CfgStore → CfgStore) : (s.withCfg g).log = s.log := rfl
@[simp] theorem withCfg_flt (s : State) (g : CfgStore → CfgStore) : (s.withCfg g).flt = s.flt := rfl
@[simp] theorem withCfg_pending (s : State) (g : CfgStore → CfgStore) : (s.withCfg g).pending = s.pending := rfl

@[simp] theorem withLog_time (s : State) (g : Recorder → Recorder) : (s.withLog g).time = s.time := rfl
@[simp] theorem withLog_regs (s : State) (g : Recorder → Recorder) : (s.withLog g).regs = s.regs := rfl
@[simp] theorem withLog_tabs (s : State) (g : Recorder → Recorder) : (s.withLog g).tabs = s.tabs := rfl
@[simp] theorem withLog_shadows (s : State) (g : Recorder → Recorder) : (s.withLog g).shadows = s.shadows := rfl
@[simp] theorem withLog_held (s : State) (g : Recorder → Recorder) : (s.withLog g).held = s.held := rfl
@[simp] theorem withLog_free (s : State) (g : Recorder → Recorder) : (s.withLog g).free = s.free := rfl
@[simp] theorem withLog_chip (s : State) (g : Recorder → Recorder) : (s.withLog g).chip = s.chip := rfl
@[simp] theorem withLog_mil (s : State) (g : Recorder → Recorder) : (s.withLog g).mil = s.mil := rfl
@[simp] theorem withLog_hat (s : State) (g : Recorder → Recorder) : (s.withLog g).hat = s.hat := rfl
@[simp] theorem withLog_mbx (s : State) (g : Recorder → Recorder) : (s.withLog g).mbx = s.mbx := rfl
@[simp] theorem withLog_can (s : State) (g : Recorder → Recorder) : (s.withLog g).can = s.can := rfl
@[simp] theorem withLog_svcNew (s : State) (g : Recorder → Recorder) : (s.withLog g).svcNew = s.svcNew := rfl
@[simp] theorem withLog_axOld (s : State) (g : Recorder → Recorder) : (s.withLog g).axOld = s.axOld := rfl
@[simp] theorem withLog_marks (s : State) (g : Recorder → Recorder) : (s.withLog g).marks = s.marks := rfl
@[simp] theorem withLog_cfg (s : State) (g : Recorder → Recorder) : (s.withLog g).cfg = s.cfg := rfl
@[simp] theorem withLog_flt (s : State) (g : Recorder → Recorder) : (s.withLog g).flt = s.flt := rfl
@[simp] theorem withLog_pending (s : State) (g : Recorder → Recorder) : (s.withLog g).pending = s.pending := rfl

@[simp] theorem withFlt_time (s : State) (g : Faults → Faults) : (s.withFlt g).time = s.time := rfl
@[simp] theorem withFlt_regs (s : State) (g : Faults → Faults) : (s.withFlt g).regs = s.regs := rfl
@[simp] theorem withFlt_tabs (s : State) (g : Faults → Faults) : (s.withFlt g).tabs = s.tabs := rfl
@[simp] theorem withFlt_shadows (s : State) (g : Faults → Faults) : (s.withFlt g).shadows = s.shadows := rfl
@[simp] theorem withFlt_held (s : State) (g : Faults → Faults) : (s.withFlt g).held = s.held := rfl
@[simp] theorem withFlt_free (s : State) (g : Faults → Faults) : (s.withFlt g).free = s.free := rfl
@[simp] theorem withFlt_chip (s : State) (g : Faults → Faults) : (s.withFlt g).chip = s.chip := rfl
@[simp] theorem withFlt_mil (s : State) (g : Faults → Faults) : (s.withFlt g).mil = s.mil := rfl
@[simp] theorem withFlt_hat (s : State) (g : Faults → Faults) : (s.withFlt g).hat = s.hat := rfl
@[simp] theorem withFlt_mbx (s : State) (g : Faults → Faults) : (s.withFlt g).mbx = s.mbx := rfl
@[simp] theorem withFlt_can (s : State) (g : Faults → Faults) : (s.withFlt g).can = s.can := rfl
@[simp] theorem withFlt_svcNew (s : State) (g : Faults → Faults) : (s.withFlt g).svcNew = s.svcNew := rfl
@[simp] theorem withFlt_axOld (s : State) (g : Faults → Faults) : (s.withFlt g).axOld = s.axOld := rfl
@[simp] theorem withFlt_marks (s : State) (g : Faults → Faults) : (s.withFlt g).marks = s.marks := rfl
@[simp] theorem withFlt_cfg (s : State) (g : Faults → Faults) : (s.withFlt g).cfg = s.cfg := rfl
@[simp] theorem withFlt_log (s : State) (g : Faults → Faults) : (s.withFlt g).log = s.log := rfl
@[simp] theorem withFlt_pending (s : State) (g : Faults → Faults) : (s.withFlt g).pending = s.pending := rfl

@[simp] theorem advance_regs (s : State) (t : Nat) : (s.advance t).regs = s.regs := rfl
@[simp] theorem advance_tabs (s : State) (t : Nat) : (s.advance t).tabs = s.tabs := rfl
@[simp] theorem advance_shadows (s : State) (t : Nat) : (s.advance t).shadows = s.shadows := rfl
@[simp] theorem advance_held (s : State) (t : Nat) : (s.advance t).held = s.held := rfl
@[simp] theorem advance_free (s : State) (t : Nat) : (s.advance t).free = s.free := rfl
@[simp] theorem advance_chip (s : State) (t : Nat) : (s.advance t).chip = s.chip := rfl
@[simp] theorem advance_mil (s : State) (t : Nat) : (s.advance t).mil = s.mil := rfl
@[simp] theorem advance_hat (s : State) (t : Nat) : (s.advance t).hat = s.hat := rfl
@[simp] theorem advance_mbx (s : State) (t : Nat) : (s.advance t).mbx = s.mbx := rfl
@[simp] theorem advance_can (s : State) (t : Nat) : (s.advance t).can = s.can := rfl
@[simp] theorem advance_svcNew (s : State) (t : Nat) : (s.advance t).svcNew = s.svcNew := rfl
@[simp] theorem advance_axOld (s : State) (t : Nat) : (s.advance t).axOld = s.axOld := rfl
@[simp] theorem advance_marks (s : State) (t : Nat) : (s.advance t).marks = s.marks := rfl
@[simp] theorem advance_cfg (s : State) (t : Nat) : (s.advance t).cfg = s.cfg := rfl
@[simp] theorem advance_log (s : State) (t : Nat) : (s.advance t).log = s.log := rfl
@[simp] theorem advance_flt (s : State) (t : Nat) : (s.advance t).flt = s.flt := rfl
@[simp] theorem advance_pending (s : State) (t : Nat) : (s.advance t).pending = s.pending := rfl

@[simp] theorem withChip_chip (s : State) (g : Chip → Chip) : (s.withChip g).chip = g s.chip := rfl
@[simp] theorem withMil_mil (s : State) (g : Mil → Mil) : (s.withMil g).mil = g s.mil := rfl
@[simp] theorem withCfg_cfg (s : State) (g : CfgStore → CfgStore) : (s.withCfg g).cfg = g s.cfg := rfl
@[simp] theorem withLog_log (s : State) (g : Recorder → Recorder) : (s.withLog g).log = g s.log := rfl
@[simp] theorem withFlt_flt (s : State) (g : Faults → Faults) : (s.withFlt g).flt = g s.flt := rfl
@[simp] theorem advance_time (s : State) (t : Nat) : (s.advance t).time = max s.time (t % 2 ^ 64) := rfl

@[simp] theorem withChip_get (s : State) (g : Chip → Chip) (b : Nat) (f : Fld) : (s.withChip g).get b f = s.get b f := rfl
@[simp] theorem withMil_get (s : State) (g : Mil → Mil) (b : Nat) (f : Fld) : (s.withMil g).get b f = s.get b f := rfl
@[simp] theorem withCfg_get (s : State) (g : CfgStore → CfgStore) (b : Nat) (f : Fld) : (s.withCfg g).get b f = s.get b f := rfl
@[simp] theorem withLog_get (s : State) (g : Recorder → Recorder) (b : Nat) (f : Fld) : (s.withLog g).get b f = s.get b f := rfl
@[simp] theorem withFlt_get (s : State) (g : Faults → Faults) (b : Nat) (f : Fld) : (s.withFlt g).get b f = s.get b f := rfl
@[simp] theorem advance_get (s : State) (t : Nat) (b : Nat) (f : Fld) : (s.advance t).get b f = s.get b f := rfl

/-- A field reads what was written, reduced to its format. -/
@[simp] theorem get_put_same (s : State) (b : Nat) (f : Fld) (v : Int) : (s.put b f v).get b f = f.wrap v := by
  simp only [get, put, Sparse.get_set_same]; omega

/-- A count and a set bit are writes; the marks of R7 are no field of a register. -/
theorem bumpBy_get (s : State) (b : Nat) (f : Fld) (k : Int) (b' : Nat) (f' : Fld) :
    (s.bumpBy b f k).get b' f' = (s.put b f (min (2 ^ f.w - 1) (s.get b f + k))).get b' f' := rfl
theorem orBits_get (s : State) (b : Nat) (f : Fld) (m b' : Nat) (f' : Fld) :
    (s.orBits b f m).get b' f' = (s.put b f (orI (s.get b f) m)).get b' f' := rfl
theorem clrBits_get (s : State) (b : Nat) (f : Fld) (m b' : Nat) (f' : Fld) :
    (s.clrBits b f m).get b' f' = (s.put b f (clrI (s.get b f) m)).get b' f' := rfl

/-- A write to another key leaves a field alone. -/
theorem get_put_ne (s : State) {b b' : Nat} {f f' : Fld} (v : Int) (h : f.key b ≠ f'.key b') : (s.put b f v).get b' f' = s.get b' f' := by
  simp only [get, put, Sparse.get_set_ne _ _ h]

/-- A write to another field of the same unit leaves a field alone. -/
theorem get_put_fld (s : State) (b : Nat) {f f' : Fld} (v : Int) (h : 8 * f.off + f.lo ≠ 8 * f'.off + f'.lo) :
    (s.put b f v).get b f' = s.get b f' := get_put_ne s v (by unfold Fld.key; omega)

@[simp] theorem puts_nil (s : State) (b : Nat) : s.puts b [] = s := rfl
@[simp] theorem puts_cons (s : State) (b : Nat) (f : Fld) (v : Int) (l : List (Fld × Int)) :
    s.puts b ((f, v) :: l) = (s.put b f v).puts b l := rfl

@[simp] theorem each_nil {α : Type} (s : State) (g : α → State → State) : s.each [] g = s := rfl
@[simp] theorem each_cons {α : Type} (s : State) (a : α) (l : List α) (g : α → State → State) :
    s.each (a :: l) g = (g a s).each l g := rfl

/-- An unsigned field that is given a number in its range reads that number. -/
theorem wrap_unsigned {f : Fld} (hf : f.sgn = false) {v : Int} (h0 : 0 ≤ v) (h1 : v < 2 ^ f.w) : f.wrap v = v := by
  simp only [Fld.wrap, hf, Bool.false_eq_true, if_false, wrapU]
  exact Int.emod_eq_of_lt h0 h1

end Sys2Proof.Machine.State
end

