-- ==== Sys2Proof/Laws/Keeps.lean ====
section
/-!
SUPPORT. What every operation of the machine does to the whole state, said once: it keeps the invariant, takes back nothing that lasts,
leaves the queue alone and only uses free values up. Each file that follows has one lemma per operation, cited in place of its
definition.
-/
namespace Sys2Proof.Machine

/-- `t` comes from `s` by operations of the machine. With `lat` none of them clears the latch of the die shutdown (R55); with `tim` none of
them moves the chip time back (R22). -/
structure Keeps (lat tim : Bool) (s t : State) : Prop where
  sound   : s.Sound → t.Sound
  lasts   : s.Lasts t
  pending : t.pending = s.pending
  free    : s.free ≤ t.free
  latch   : lat = true → s.chip.dieLatch = true → t.chip.dieLatch = true
  time    : tim = true → s.time ≤ t.time

theorem State.Lasts.refl (s : State) : s.Lasts s := ⟨id, rfl, rfl, rfl, List.prefix_refl _⟩

theorem State.Lasts.trans {s t u : State} (h : s.Lasts t) (k : t.Lasts u) : s.Lasts u :=
  ⟨fun x => k.sealed (h.sealed x), k.fuseA.trans h.fuseA, k.fuseB.trans h.fuseB, k.grade.trans h.grade, h.felt.trans k.felt⟩

namespace Keeps

variable {lat tim : Bool} {s0 s t : State}

theorem refl (s : State) : Keeps lat tim s s := ⟨id, .refl s, rfl, Nat.le_refl _, fun _ => id, fun _ => Nat.le_refl _⟩

theorem trans {u : State} (h : Keeps lat tim s t) (k : Keeps lat tim t u) : Keeps lat tim s u :=
  ⟨fun x => k.sound (h.sound x), h.lasts.trans k.lasts, k.pending.trans h.pending, Nat.le_trans h.free k.free,
    fun e x => k.latch e (h.latch e x), fun e => Nat.le_trans (h.time e) (k.time e)⟩

theorem ite {c : Prop} [Decidable c] {a b : State} (ha : Keeps lat tim s0 a) (hb : Keeps lat tim s0 b) : Keeps lat tim s0 (if c then a else b) := by
  split <;> assumption

theorem ite_snd {α : Type} {c : Prop} [Decidable c] {a b : α × State} (ha : Keeps lat tim s0 a.2) (hb : Keeps lat tim s0 b.2) :
    Keeps lat tim s0 (if c then a else b).2 := by split <;> assumption

theorem ite_snd2 {α β : Type} {c : Prop} [Decidable c] {a b : α × β × State} (ha : Keeps lat tim s0 a.2.2) (hb : Keeps lat tim s0 b.2.2) :
    Keeps lat tim s0 (if c then a else b).2.2 := by split <;> assumption

theorem ite_fst {α : Type} {c : Prop} [Decidable c] {a b : State × α} (ha : Keeps lat tim s0 a.1) (hb : Keeps lat tim s0 b.1) :
    Keeps lat tim s0 (if c then a else b).1 := by split <;> assumption

theorem putOne (b : Nat) (f : Fld) (v : Int) : Keeps lat tim s (s.put b f v) :=
  ⟨fun h => { h with regs := Sparse.wf_set _ _ h.regs }, ⟨id, rfl, rfl, rfl, List.prefix_refl _⟩, rfl, Nat.le_refl _, fun _ => id, fun _ => Nat.le_refl _⟩

theorem put {b : Nat} {f : Fld} {v : Int} (h : Keeps lat tim s0 s) : Keeps lat tim s0 (s.put b f v) := h.trans (putOne b f v)

theorem puts {b : Nat} {l : List (Fld × Int)} (h : Keeps lat tim s0 s) : Keeps lat tim s0 (s.puts b l) := by
  induction l generalizing s with
  | nil => exact h
  | cons e r ih => exact ih (put h)

theorem flag {b : Nat} {f : Fld} {v : Bool} (h : Keeps lat tim s0 s) : Keeps lat tim s0 (s.flag b f v) := put h
theorem marks {x : Marks} (h : Keeps lat tim s0 s) : Keeps lat tim s0 { s with marks := x } :=
  h.trans ⟨fun h => { h with }, ⟨id, rfl, rfl, rfl, List.prefix_refl _⟩, rfl, Nat.le_refl _, fun _ => id, fun _ => Nat.le_refl _⟩

theorem axOld {x : List (Nat × Bool × Nat)} (h : Keeps lat tim s0 s) : Keeps lat tim s0 { s with axOld := x } :=
  h.trans ⟨fun h => { h with }, ⟨id, rfl, rfl, rfl, List.prefix_refl _⟩, rfl, Nat.le_refl _, fun _ => id, fun _ => Nat.le_refl _⟩

theorem bumpBy {b : Nat} {f : Fld} {k : Int} (h : Keeps lat tim s0 s) : Keeps lat tim s0 (s.bumpBy b f k) := marks (put h)
theorem bumpPast {b : Nat} {f : Fld} {k : Int} (h : Keeps lat tim s0 s) : Keeps lat tim s0 (s.bumpPast b f k) := marks (bumpBy h)
theorem bump {b : Nat} {f : Fld} (h : Keeps lat tim s0 s) : Keeps lat tim s0 (s.bump b f) := bumpBy h
theorem orBits {b : Nat} {f : Fld} {m : Nat} (h : Keeps lat tim s0 s) : Keeps lat tim s0 (s.orBits b f m) := marks (put h)
theorem clrBits {b : Nat} {f : Fld} {m : Nat} (h : Keeps lat tim s0 s) : Keeps lat tim s0 (s.clrBits b f m) := marks (put h)
theorem clrSeen {b : Nat} {f : Fld} {m : Nat} (h : Keeps lat tim s0 s) : Keeps lat tim s0 (s.clrSeen b f m) := clrBits h
theorem setBit {b : Nat} {f : Fld} {i : Nat} {v : Bool} (h : Keeps lat tim s0 s) : Keeps lat tim s0 (s.setBit b f i v) := by
  unfold State.setBit; exact ite (orBits h) (clrBits h)

theorem when {c : Bool} {g : State → State} (h : Keeps lat tim s0 s) (hg : ∀ s, Keeps lat tim s0 s → Keeps lat tim s0 (g s)) : Keeps lat tim s0 (s.when c g) := by
  unfold State.when; exact ite (hg s h) h

theorem each {α : Type} {l : List α} {g : α → State → State} (h : Keeps lat tim s0 s) (hg : ∀ a s, Keeps lat tim s0 s → Keeps lat tim s0 (g a s)) :
    Keeps lat tim s0 (s.each l g) := by
  induction l generalizing s with
  | nil => exact h
  | cons a r ih => exact ih (hg a s h)

theorem foldl {α : Type} {l : List α} {g : State → α → State} (h : Keeps lat tim s0 s) (hg : ∀ s a, Keeps lat tim s0 s → Keeps lat tim s0 (g s a)) :
    Keeps lat tim s0 (l.foldl g s) := by
  induction l generalizing s with
  | nil => exact h
  | cons a r ih => exact ih (hg s a h)

/-- A fold that carries a state beside what it collects. -/
theorem foldl_proj {α β : Type} (p : β → State) {l : List α} {g : β → α → β} {b : β} (h : Keeps lat tim s0 (p b))
    (hg : ∀ b a, Keeps lat tim s0 (p b) → Keeps lat tim s0 (p (g b a))) : Keeps lat tim s0 (p (l.foldl g b)) := by
  induction l generalizing b with
  | nil => exact h
  | cons a r ih => exact ih (hg b a h)

theorem fresh {w : Nat} (h : Keeps lat tim s0 s) : Keeps lat tim s0 (s.fresh w).2 :=
  h.trans ⟨fun h => { h with }, ⟨id, rfl, rfl, rfl, List.prefix_refl _⟩, rfl, Nat.le_succ _, fun _ => id, fun _ => Nat.le_refl _⟩

theorem putFree {b : Nat} {f : Fld} (h : Keeps lat tim s0 s) : Keeps lat tim s0 (s.putFree b f) := put (fresh h)

theorem withChip {g : Chip → Chip} (h : Keeps lat tim s0 s)
    (hg : (g s.chip).fuseA = s.chip.fuseA ∧ (g s.chip).fuseB = s.chip.fuseB ∧ (g s.chip).grade = s.chip.grade ∧
      (s.chip.dieLatch = true → (g s.chip).dieLatch = true)) : Keeps lat tim s0 (s.withChip g) :=
  h.trans ⟨fun h => { h with }, ⟨id, hg.1, hg.2.1, hg.2.2.1, List.prefix_refl _⟩, rfl, Nat.le_refl _, fun _ => hg.2.2.2, fun _ => Nat.le_refl _⟩

/-- A change that may clear the latch. -/
theorem withLatch {g : Chip → Chip} (h : Keeps lat tim s0 s)
    (hg : (g s.chip).fuseA = s.chip.fuseA ∧ (g s.chip).fuseB = s.chip.fuseB ∧ (g s.chip).grade = s.chip.grade) :
    Keeps false tim s0 (s.withChip g) :=
  ⟨fun h0 => { h.sound h0 with }, ⟨h.lasts.sealed, hg.1.trans h.lasts.fuseA, hg.2.1.trans h.lasts.fuseB, hg.2.2.trans h.lasts.grade,
    h.lasts.felt⟩, h.pending, h.free, (fun e => by cases e), h.time⟩

theorem withMil {g : Mil → Mil} (h : Keeps lat tim s0 s) (hg : (g s.mil).ports = s.mil.ports) : Keeps lat tim s0 (s.withMil g) :=
  h.trans ⟨fun h => { h with ports := fun p hp => h.ports p (by rw [← hg]; exact hp) }, ⟨id, rfl, rfl, rfl, List.prefix_refl _⟩, rfl, Nat.le_refl _, fun _ => id, fun _ => Nat.le_refl _⟩

theorem withPorts {g : Mil → Mil} (h : Keeps lat tim s0 s)
    (hg : (∀ p ∈ s.mil.ports.toList, p.Bounded) → ∀ p ∈ (g s.mil).ports.toList, p.Bounded) : Keeps lat tim s0 (s.withMil g) :=
  h.trans ⟨fun h => { h with ports := hg h.ports }, ⟨id, rfl, rfl, rfl, List.prefix_refl _⟩, rfl, Nat.le_refl _, fun _ => id, fun _ => Nat.le_refl _⟩

theorem withMilZero (h : Keeps lat tim s0 s) : Keeps lat tim s0 (s.withMil fun _ => Mil.zero) :=
  withPorts h fun _ p hp => by
    have : p = Port.zero := by simpa [Mil.zero] using hp
    rw [this]
    exact ⟨Nat.zero_le _, Nat.zero_le _⟩

theorem withFlt {g : Faults → Faults} (h : Keeps lat tim s0 s) : Keeps lat tim s0 (s.withFlt g) :=
  h.trans ⟨fun h => { h with }, ⟨id, rfl, rfl, rfl, List.prefix_refl _⟩, rfl, Nat.le_refl _, fun _ => id, fun _ => Nat.le_refl _⟩

theorem withLog {g : Recorder → Recorder} (h : Keeps lat tim s0 s) (hb : (g s.log).bucket = s.log.bucket) (hf : (g s.log).felt = s.log.felt) :
    Keeps lat tim s0 (s.withLog g) :=
  h.trans ⟨fun h => { h with bucket := by rw [State.withLog_log, hb]; exact h.bucket },
    ⟨id, rfl, rfl, rfl, by rw [State.withLog_log, hf]⟩, rfl, Nat.le_refl _, fun _ => id, fun _ => Nat.le_refl _⟩

theorem withLogs {g : Recorder → Recorder} (h : Keeps lat tim s0 s) (hb : s.log.bucket ≤ 64 → (g s.log).bucket ≤ 64)
    (hf : s.log.felt <+: (g s.log).felt) : Keeps lat tim s0 (s.withLog g) :=
  h.trans ⟨fun h => { h with bucket := by rw [State.withLog_log]; exact hb h.bucket },
    ⟨id, rfl, rfl, rfl, by rw [State.withLog_log]; exact hf⟩, rfl, Nat.le_refl _, fun _ => id, fun _ => Nat.le_refl _⟩

/-- A change of the configuration store; its images may be known canonical from the start. -/
theorem withCfgOf {g : CfgStore → CfgStore} (h : Keeps lat tim s0 s) (hc : s0.Sound → s.cfg.Canonical → (g s.cfg).Canonical)
    (hs : s.cfg.sealMark = true → (g s.cfg).sealMark = true) : Keeps lat tim s0 (s.withCfg g) :=
  ⟨fun h0 => { h.sound h0 with cfg := hc h0 (h.sound h0).cfg },
    ⟨fun x => hs (h.lasts.sealed x), h.lasts.fuseA, h.lasts.fuseB, h.lasts.grade, h.lasts.felt⟩, h.pending, h.free, h.latch, h.time⟩

theorem withCfg {g : CfgStore → CfgStore} (h : Keeps lat tim s0 s) (hc : s.cfg.Canonical → (g s.cfg).Canonical)
    (hs : s.cfg.sealMark = true → (g s.cfg).sealMark = true) : Keeps lat tim s0 (s.withCfg g) := withCfgOf h (fun _ => hc) hs

theorem advance {x : Nat} (h : Keeps lat tim s0 s) : Keeps lat tim s0 (s.advance x) :=
  h.trans ⟨fun h => { h with time := by rw [State.advance_time]; exact Nat.max_lt.mpr ⟨h.time, Nat.mod_lt _ (by norm_num)⟩ },
    ⟨id, rfl, rfl, rfl, List.prefix_refl _⟩, rfl, Nat.le_refl _, fun _ => id, fun _ => Nat.le_max_left _ _⟩

theorem hat {x : Hat} (h : Keeps lat tim s0 s) : Keeps lat tim s0 { s with hat := x } :=
  h.trans ⟨fun h => { h with }, ⟨id, rfl, rfl, rfl, List.prefix_refl _⟩, rfl, Nat.le_refl _, fun _ => id, fun _ => Nat.le_refl _⟩

theorem svcNew {x : List (Nat × Nat × Int)} (h : Keeps lat tim s0 s) : Keeps lat tim s0 { s with svcNew := x } :=
  h.trans ⟨fun h => { h with }, ⟨id, rfl, rfl, rfl, List.prefix_refl _⟩, rfl, Nat.le_refl _, fun _ => id, fun _ => Nat.le_refl _⟩

theorem hatSvc {x : Hat} {y : List (Nat × Nat × Int)} (h : Keeps lat tim s0 s) : Keeps lat tim s0 { s with hat := x, svcNew := y } :=
  h.trans ⟨fun h => { h with }, ⟨id, rfl, rfl, rfl, List.prefix_refl _⟩, rfl, Nat.le_refl _, fun _ => id, fun _ => Nat.le_refl _⟩

theorem shadows {x : List (Nat × Int)} (h : Keeps lat tim s0 s) : Keeps lat tim s0 { s with shadows := x } :=
  h.trans ⟨fun h => { h with }, ⟨id, rfl, rfl, rfl, List.prefix_refl _⟩, rfl, Nat.le_refl _, fun _ => id, fun _ => Nat.le_refl _⟩

theorem held {x : List (Nat × Int)} (h : Keeps lat tim s0 s) : Keeps lat tim s0 { s with held := x } :=
  h.trans ⟨fun h => { h with }, ⟨id, rfl, rfl, rfl, List.prefix_refl _⟩, rfl, Nat.le_refl _, fun _ => id, fun _ => Nat.le_refl _⟩

theorem mbx {x : Vector Peer 8} (h : Keeps lat tim s0 s) : Keeps lat tim s0 { s with mbx := x } :=
  h.trans ⟨fun h => { h with }, ⟨id, rfl, rfl, rfl, List.prefix_refl _⟩, rfl, Nat.le_refl _, fun _ => id, fun _ => Nat.le_refl _⟩

theorem can {x : Vector CanS 4} (h : Keeps lat tim s0 s) : Keeps lat tim s0 { s with can := x } :=
  h.trans ⟨fun h => { h with }, ⟨id, rfl, rfl, rfl, List.prefix_refl _⟩, rfl, Nat.le_refl _, fun _ => id, fun _ => Nat.le_refl _⟩

theorem mbxHat {x : Vector Peer 8} {y : Hat} (h : Keeps lat tim s0 s) : Keeps lat tim s0 { s with mbx := x, hat := y } :=
  h.trans ⟨fun h => { h with }, ⟨id, rfl, rfl, rfl, List.prefix_refl _⟩, rfl, Nat.le_refl _, fun _ => id, fun _ => Nat.le_refl _⟩

theorem regsClear {lo hi : Nat} (h : Keeps lat tim s0 s) : Keeps lat tim s0 { s with regs := s.regs.clear lo hi } :=
  h.trans ⟨fun h => { h with regs := Sparse.wf_clear _ _ h.regs }, ⟨id, rfl, rfl, rfl, List.prefix_refl _⟩, rfl, Nat.le_refl _, fun _ => id, fun _ => Nat.le_refl _⟩

theorem regs {x : Sparse} (h : Keeps lat tim s0 s) (hx : s.regs.wf → x.wf) : Keeps lat tim s0 { s with regs := x } :=
  h.trans ⟨fun h => { h with regs := hx h.regs }, ⟨id, rfl, rfl, rfl, List.prefix_refl _⟩, rfl, Nat.le_refl _, fun _ => id, fun _ => Nat.le_refl _⟩

theorem timeZero {x : Marks} (h : Keeps lat tim s0 s) : Keeps lat false s0 { s with time := 0, marks := x } :=
  ⟨fun h0 => { h.sound h0 with time := Nat.two_pow_pos 64 }, ⟨h.lasts.sealed, h.lasts.fuseA, h.lasts.fuseB, h.lasts.grade, h.lasts.felt⟩,
    h.pending, h.free, h.latch, fun e => by cases e⟩

theorem regsHeld {x : Sparse} {y z : List (Nat × Int)} (h : Keeps lat tim s0 s) (hx : s.regs.wf → x.wf) :
    Keeps lat tim s0 { s with regs := x, shadows := y, held := z } :=
  h.trans ⟨fun h => { h with regs := hx h.regs }, ⟨id, rfl, rfl, rfl, List.prefix_refl _⟩, rfl, Nat.le_refl _, fun _ => id, fun _ => Nat.le_refl _⟩

theorem tabs {x : Sparse} (h : Keeps lat tim s0 s) (hx : s.tabs.wf → x.wf) : Keeps lat tim s0 { s with tabs := x } :=
  h.trans ⟨fun h => { h with tabs := hx h.tabs }, ⟨id, rfl, rfl, rfl, List.prefix_refl _⟩, rfl, Nat.le_refl _, fun _ => id, fun _ => Nat.le_refl _⟩

/-- A bounded port stays bounded through a change that adds no rejection and no notice. -/
theorem withPort {i : Nat} {g : Port → Port} (h : Keeps lat tim s0 s) (hg : (s.port i).Bounded → (g (s.port i)).Bounded) : Keeps lat tim s0 (s.withPort i g) := by
  refine h.trans ⟨fun h => { h with ports := fun p hp => ?_ }, ⟨id, rfl, rfl, rfl, List.prefix_refl _⟩, rfl, Nat.le_refl _, fun _ => id, fun _ => Nat.le_refl _⟩
  have hp' : p ∈ (s.mil.ports.setIfInBounds i (g (s.port i))).toList := hp
  rw [Vector.toList_setIfInBounds] at hp'
  by_cases hi : i < s.mil.ports.toList.length
  · rcases List.mem_or_eq_of_mem_set hp' with hm | hm
    · exact h.ports p hm
    · rw [hm]
      refine hg ?_
      have : s.port i = s.mil.ports.toList[i] := by simp [State.port, List.getD_eq_getElem?_getD, List.getElem?_eq_getElem hi]
      rw [this]
      exact h.ports _ (List.getElem_mem hi)
  · rw [List.set_eq_of_length_le (by omega)] at hp'
    exact h.ports p hp'

/-- A bounded port whose front entry leaves stays bounded. -/
theorem tail {p q : Port} {e : QKind × Packet} {r : List (QKind × Packet)} (ho : p.out = e :: r) (hq : q.out = r) (h : p.Bounded) :
    q.Bounded := by
  obtain ⟨hr, hn⟩ := h
  refine ⟨Nat.le_trans ?_ hr, Nat.le_trans ?_ hn⟩ <;>
    exact List.Sublist.length_le (by rw [ho, hq]; exact (List.sublist_cons_self e r).filter _)

/-- A bounded port whose front entry changes within its kind stays bounded. -/
theorem head {p q : Port} {k : QKind} {a b : Packet} {r : List (QKind × Packet)} (ho : p.out = (k, a) :: r) (hq : q.out = (k, b) :: r)
    (h : p.Bounded) : q.Bounded := by
  have e : ∀ x, q.level x = p.level x := fun x => by
    simp only [Port.level, ho, hq, List.filter_cons]
    split <;> simp
  exact ⟨by rw [e]; exact h.1, by rw [e]; exact h.2⟩

end Keeps

end Sys2Proof.Machine
end

