-- ==== Sys2Proof/Laws/KeepsOps.lean ====
section
/-!
SUPPORT. The operations of Machine/Ops.lean are operations of the machine in the sense of `Keeps`.
-/
namespace Sys2Proof.Machine.Keeps

theorem addRepeat {lat tim : Bool} {s0 s : State} {t r code : Nat} (hk : Keeps lat tim s0 s) : Keeps lat tim s0 (State.addRepeat s t r code) := by
  unfold State.addRepeat
  try dsimp only
  repeat' first
    | with_reducible assumption
    | with_reducible apply ite
    | with_reducible apply ite_snd
    | with_reducible apply ite_fst
    | with_reducible apply withLog
    | exact rfl

theorem loseTrig {lat tim : Bool} {s0 s : State} {k : Nat} (hk : Keeps lat tim s0 s) : Keeps lat tim s0 (State.loseTrig s k) := by
  unfold State.loseTrig
  try dsimp only
  repeat' first
    | with_reducible assumption
    | with_reducible apply bumpBy
    | with_reducible apply withLog
    | exact rfl

theorem fifoEnter {lat tim : Bool} {s0 s : State} {t r code : Nat} {rseq : Nat} {data : List Nat} (hk : Keeps lat tim s0 s) : Keeps lat tim s0 (State.fifoEnter s t r code rseq data) := by
  unfold State.fifoEnter
  try dsimp only
  repeat' first
    | with_reducible assumption
    | with_reducible apply ite
    | with_reducible apply ite_snd
    | with_reducible apply ite_fst
    | with_reducible apply addRepeat
    | with_reducible apply loseTrig
    | with_reducible apply withLog
    | exact rfl

theorem trigger {lat tim : Bool} {s0 s : State} {r t code : Nat} {data : List Nat} (hk : Keeps lat tim s0 s) : Keeps lat tim s0 (State.trigger s r t code data) := by
  unfold State.trigger
  dsimp only
  repeat' first
    | with_reducible assumption
    | with_reducible apply ite
    | with_reducible apply ite_snd
    | with_reducible apply ite_fst
    | with_reducible apply fifoEnter
    | with_reducible apply loseTrig
    | with_reducible apply withLog
    | exact rfl

theorem markHead {lat tim : Bool} {s0 s : State} {i : Nat} (hk : Keeps lat tim s0 s) : Keeps lat tim s0 (State.markHead s i) := by
  unfold State.markHead
  dsimp only
  repeat' first
    | with_reducible assumption
    | exact head (by assumption) rfl
    | with_reducible apply ite
    | with_reducible apply ite_snd
    | with_reducible apply ite_fst
    | with_reducible apply withPort
    | split

theorem freeTag {lat tim : Bool} {s0 s : State} {tag : Nat} (hk : Keeps lat tim s0 s) : Keeps lat tim s0 (State.freeTag s tag) := by
  unfold State.freeTag
  try dsimp only
  repeat' first
    | with_reducible assumption
    | with_reducible apply withMil
    | exact rfl

theorem occupy {lat tim : Bool} {s0 s : State} {c : Cmd} {op arg : Nat} (hk : Keeps lat tim s0 s) : Keeps lat tim s0 (State.occupy s c op arg) := by
  unfold State.occupy
  try dsimp only
  repeat' first
    | with_reducible assumption
    | with_reducible apply withMil
    | exact rfl

theorem queueReply {lat tim : Bool} {s0 s : State} {i : Nat} {p : Packet} (hk : Keeps lat tim s0 s) : Keeps lat tim s0 (s.queueReply i p) :=
  withPort hk fun h => by
    simpa [Port.Bounded, Port.level, List.filter_append, List.filter_cons] using h

theorem queueReject {lat tim : Bool} {s0 s : State} {i : Nat} {p : Packet} (hk : Keeps lat tim s0 s) : Keeps lat tim s0 (s.queueReject i p) := by
  unfold State.queueReject
  split
  · next hl =>
    refine withPort hk fun h => ⟨?_, ?_⟩
    · simp only [Port.level, List.filter_append, List.filter_cons, List.filter_nil, List.length_append] at hl ⊢
      simpa using hl
    · simpa [Port.level, List.filter_append, List.filter_cons] using h.2
  · exact bump (withPort hk fun h => h)

theorem queueNotice {lat tim : Bool} {s0 s : State} {i ty : Nat} {body : List Nat} (hk : Keeps lat tim s0 s) : Keeps lat tim s0 (s.queueNotice i ty body) := by
  unfold State.queueNotice
  split
  · next hl =>
    refine withPort hk fun h => ⟨?_, ?_⟩
    · simpa [Port.level, List.filter_append, List.filter_cons] using h.1
    · simp only [Port.level, List.filter_append, List.filter_cons, List.filter_nil, List.length_append] at hl ⊢
      simpa using hl
  · exact put (bump (withPort hk fun h => h))

theorem notice {lat tim : Bool} {s0 s : State} {ty : Nat} {body : List Nat} (hk : Keeps lat tim s0 s) : Keeps lat tim s0 (State.notice s ty body) := by
  unfold State.notice
  dsimp only
  repeat' first
    | with_reducible assumption
    | with_reducible apply ite
    | with_reducible apply ite_snd
    | with_reducible apply ite_fst
    | with_reducible apply each
    | with_reducible apply queueNotice
    | (intro _ _ _; try dsimp only)

theorem fwdTake {lat tim : Bool} {s0 s : State} {b : Busy} {p : Packet} (hk : Keeps lat tim s0 s) : Keeps lat tim s0 (s.fwdTake b p).1 := by
  unfold State.fwdTake
  dsimp only
  refine ite_fst ?_ ?_
  · exact ite (freeTag hk) hk
  · dsimp only
    refine withMil hk ?_
    rfl

theorem answerAt {lat tim : Bool} {s0 s : State} {f : Nat} {tr : Transport} {p : Packet} (hk : Keeps lat tim s0 s) :
    Keeps lat tim s0 (State.answerAt f s tr p) := by
  induction f generalizing s tr p with
  | zero => cases tr <;> first | exact hk | exact queueReply hk
  | succ f ih =>
    cases tr with
    | own o =>
      unfold State.answerAt
      split
      · dsimp only
        exact foldl (fwdTake hk) fun _ _ h => ih h
      · exact hk
    | _ => exact queueReply hk

theorem answer {lat tim : Bool} {s0 s : State} {tr : Transport} {p : Packet} (hk : Keeps lat tim s0 s) : Keeps lat tim s0 (State.answer s tr p) := by
  unfold State.answer
  repeat' first
    | with_reducible assumption
    | with_reducible apply answerAt

theorem fwdAnswer {lat tim : Bool} {s0 s : State} {b : Busy} {p : Packet} (hk : Keeps lat tim s0 s) : Keeps lat tim s0 (State.fwdAnswer s b p) := by
  unfold State.fwdAnswer
  try dsimp only
  repeat' first
    | with_reducible assumption
    | with_reducible apply answer
    | with_reducible apply foldl
    | with_reducible apply fwdTake
    | (intro _ _ _; try dsimp only)

theorem refuse {lat tim : Bool} {s0 s : State} {c : Cmd} {op st detail : Nat} (hk : Keeps lat tim s0 s) : Keeps lat tim s0 (State.refuse s c op st detail) := by
  unfold State.refuse
  dsimp only
  repeat' first
    | with_reducible assumption
    | with_reducible apply answer
    | with_reducible apply queueReject
    | split

theorem reply {lat tim : Bool} {s0 s : State} {c : Cmd} {op st detail : Nat} {pay : List Nat} (hk : Keeps lat tim s0 s) : Keeps lat tim s0 (State.reply s c op st detail pay) := by
  unfold State.reply
  repeat' first
    | with_reducible assumption
    | with_reducible apply answer

theorem begin {lat tim : Bool} {s0 s : State} {c : Cmd} {op : Nat} {arg : Nat} (hk : Keeps lat tim s0 s) : Keeps lat tim s0 (State.begin s c op arg) := by
  unfold State.begin
  repeat' first
    | with_reducible assumption
    | with_reducible apply occupy
    | with_reducible apply reply

theorem completeB {lat tim : Bool} {s0 s : State} {b : Busy} {st detail : Nat} {pay : List Nat} (hk : Keeps lat tim s0 s) : Keeps lat tim s0 (State.completeB s b st detail pay) := by
  unfold State.completeB
  repeat' first
    | with_reducible assumption
    | with_reducible apply answer
    | with_reducible apply freeTag

theorem replyB {lat tim : Bool} {s0 s : State} {b : Busy} {st detail : Nat} {pay : List Nat} (hk : Keeps lat tim s0 s) : Keeps lat tim s0 (State.replyB s b st detail pay) := by
  unfold State.replyB
  repeat' first
    | with_reducible assumption
    | with_reducible apply answer
    | with_reducible apply freeTag

theorem sendLate {lat tim : Bool} {s0 s : State} {b : Busy} {ps : List Packet} (hk : Keeps lat tim s0 s) : Keeps lat tim s0 (State.sendLate s b ps) := by
  unfold State.sendLate
  try dsimp only
  repeat' first
    | with_reducible assumption
    | with_reducible apply answer
    | with_reducible apply foldl
    | with_reducible apply freeTag
    | (intro _ _ _; try dsimp only)

theorem release {lat tim : Bool} {s0 s : State} {f i : Nat} (hk : Keeps lat tim s0 s) : Keeps lat tim s0 (State.release f s i) := by
  induction f generalizing s with
  | zero => exact hk
  | succ f ih =>
    unfold State.release
    split
    · exact ite hk (ih (sendLate hk))
    · exact hk

theorem orderedAnswer {lat tim : Bool} {s0 s : State} {b : Busy} {ps : List Packet} (hk : Keeps lat tim s0 s) : Keeps lat tim s0 (State.orderedAnswer s b ps) := by
  unfold State.orderedAnswer
  try dsimp only
  repeat' first
    | with_reducible assumption
    | with_reducible apply ite
    | with_reducible apply ite_snd
    | with_reducible apply ite_fst
    | with_reducible apply release
    | with_reducible apply sendLate
    | with_reducible apply withMil
    | exact rfl

theorem completeAll {lat tim : Bool} {s0 s : State} {op arg st detail : Nat} {pay : List Nat} (hk : Keeps lat tim s0 s) : Keeps lat tim s0 (State.completeAll s op arg st detail pay) := by
  unfold State.completeAll
  try dsimp only
  repeat' first
    | with_reducible assumption
    | with_reducible apply completeB
    | with_reducible apply each
    | (intro _ _ _; try dsimp only)

theorem start {lat tim : Bool} {s0 s : State} {c : Cmd} {op arg detail : Nat} {pay : List Nat} (hk : Keeps lat tim s0 s) : Keeps lat tim s0 (State.start s c op arg detail pay) := by
  unfold State.start
  repeat' first
    | with_reducible assumption
    | with_reducible apply ite
    | with_reducible apply ite_snd
    | with_reducible apply ite_fst
    | with_reducible apply occupy
    | with_reducible apply reply

theorem enterList {lat tim : Bool} {s0 s : State} {u : FUnit} {code : Nat} (hk : Keeps lat tim s0 s) : Keeps lat tim s0 (State.enterList s u code) := by
  unfold State.enterList
  try dsimp only
  repeat' first
    | with_reducible assumption
    | with_reducible apply ite
    | with_reducible apply ite_snd
    | with_reducible apply ite_fst
    | with_reducible apply notice
    | with_reducible apply withFlt

theorem raiseBy {lat tim : Bool} {s0 s : State} {r : Nat} {u : FUnit} {code : Nat} {data : List Nat} (hk : Keeps lat tim s0 s) : Keeps lat tim s0 (State.raiseBy s r u code data) := by
  unfold State.raiseBy
  repeat' first
    | with_reducible assumption
    | with_reducible apply ite
    | with_reducible apply ite_snd
    | with_reducible apply ite_fst
    | with_reducible apply enterList
    | with_reducible apply trigger

theorem raise {lat tim : Bool} {s0 s : State} {u : FUnit} {code : Nat} {data : List Nat} (hk : Keeps lat tim s0 s) : Keeps lat tim s0 (State.raise s u code data) := by
  unfold State.raise
  repeat' first
    | with_reducible assumption
    | with_reducible apply raiseBy

theorem unraise {lat tim : Bool} {s0 s : State} {u : FUnit} {code : Nat} (hk : Keeps lat tim s0 s) : Keeps lat tim s0 (State.unraise s u code) := by
  unfold State.unraise
  try dsimp only
  repeat' first
    | with_reducible assumption
    | with_reducible apply ite
    | with_reducible apply ite_snd
    | with_reducible apply ite_fst
    | with_reducible apply notice
    | with_reducible apply withFlt

end Sys2Proof.Machine.Keeps
end

