-- ==== Sys2Proof/Laws/KeepsLoop.lean ====
section
/-!
SUPPORT. The operations of Machine/Loop.lean are operations of the machine in the sense of `Keeps`.
-/
namespace Sys2Proof.Machine.Keeps

theorem putOut {lat tim : Bool} {s0 s : State} {h m : Nat} {y : Int} (hk : Keeps lat tim s0 s) : Keeps lat tim s0 (State.putOut s h m y) := by
  unfold State.putOut
  dsimp only
  repeat' first
    | with_reducible assumption
    | with_reducible apply flag
    | with_reducible apply put

theorem runG {lat tim : Bool} {s0 s : State} {h m : Nat} (hk : Keeps lat tim s0 s) : Keeps lat tim s0 (State.runG s h m) := by
  unfold State.runG
  dsimp only
  repeat' first
    | with_reducible assumption
    | with_reducible apply ite
    | with_reducible apply ite_snd
    | with_reducible apply ite_fst
    | with_reducible apply flag
    | with_reducible apply put
    | with_reducible apply putOut
    | with_reducible apply puts

theorem runH {lat tim : Bool} {s0 s : State} {h m : Nat} (hk : Keeps lat tim s0 s) : Keeps lat tim s0 (State.runH s h m) := by
  unfold State.runH
  dsimp only
  repeat' first
    | with_reducible assumption
    | with_reducible apply ite
    | with_reducible apply ite_snd
    | with_reducible apply ite_fst
    | with_reducible apply flag
    | with_reducible apply putOut
    | with_reducible apply puts

theorem runO {lat tim : Bool} {s0 s : State} {h m : Nat} (hk : Keeps lat tim s0 s) : Keeps lat tim s0 (State.runO s h m) := by
  unfold State.runO
  dsimp only
  repeat' first
    | with_reducible assumption
    | with_reducible apply flag
    | with_reducible apply putOut
    | with_reducible apply puts

theorem putLosers {lat tim : Bool} {s0 s : State} {h m : Nat} {losers : List Nat} (hk : Keeps lat tim s0 s) : Keeps lat tim s0 (State.putLosers s h m losers) := by
  unfold State.putLosers
  dsimp only
  repeat' first
    | with_reducible assumption
    | with_reducible apply each
    | with_reducible apply flag
    | with_reducible apply setBit
    | (intro _ _ _; try dsimp only)

theorem runS {lat tim : Bool} {s0 s : State} {h m : Nat} (hk : Keeps lat tim s0 s) : Keeps lat tim s0 (State.runS s h m) := by
  unfold State.runS
  dsimp only
  repeat' first
    | with_reducible assumption
    | with_reducible apply ite
    | with_reducible apply ite_snd
    | with_reducible apply ite_fst
    | with_reducible apply flag
    | with_reducible apply putLosers
    | with_reducible apply putOut
    | with_reducible apply puts

theorem runF {lat tim : Bool} {s0 s : State} {h m : Nat} (hk : Keeps lat tim s0 s) : Keeps lat tim s0 (State.runF s h m) := by
  unfold State.runF
  dsimp only
  repeat' first
    | with_reducible assumption
    | with_reducible apply ite
    | with_reducible apply ite_snd
    | with_reducible apply ite_fst
    | with_reducible apply flag
    | with_reducible apply put
    | with_reducible apply putOut
    | with_reducible apply puts

theorem pulseX {lat tim : Bool} {s0 s : State} {h m now : Nat} (hk : Keeps lat tim s0 s) : Keeps lat tim s0 (State.pulseX s h m now).2 := by
  unfold State.pulseX
  dsimp only
  repeat' first
    | with_reducible assumption
    | with_reducible apply ite
    | with_reducible apply ite_snd
    | with_reducible apply ite_fst
    | with_reducible apply puts

theorem runP {lat tim : Bool} {s0 s : State} {h m now : Nat} (hk : Keeps lat tim s0 s) : Keeps lat tim s0 (State.runP s h m now) := by
  unfold State.runP
  dsimp only
  repeat' first
    | with_reducible assumption
    | with_reducible apply ite
    | with_reducible apply ite_snd
    | with_reducible apply ite_fst
    | with_reducible apply flag
    | with_reducible apply pulseX
    | with_reducible apply put
    | with_reducible apply putOut

theorem runSlot {lat tim : Bool} {s0 s : State} {h m now : Nat} (hk : Keeps lat tim s0 s) : Keeps lat tim s0 (State.runSlot s h m now) := by
  unfold State.runSlot
  dsimp only
  repeat' first
    | with_reducible assumption
    | with_reducible apply put
    | with_reducible apply runF
    | with_reducible apply runG
    | with_reducible apply runH
    | with_reducible apply runO
    | with_reducible apply runP
    | with_reducible apply runS
    | split

theorem resetSlot {lat tim : Bool} {s0 s : State} {h m : Nat} (hk : Keeps lat tim s0 s) : Keeps lat tim s0 (State.resetSlot s h m) := by
  unfold State.resetSlot
  dsimp only
  repeat' first
    | with_reducible assumption
    | with_reducible apply puts

theorem preset {lat tim : Bool} {s0 s : State} {h k m : Nat} {v : Int} (hk : Keeps lat tim s0 s) : Keeps lat tim s0 (s.preset h k m v) := by
  induction k generalizing s m v with
  | zero => unfold State.preset; exact hk
  | succ k ih =>
    unfold State.preset
    dsimp only
    repeat' first
      | with_reducible assumption
      | with_reducible apply ih
      | with_reducible apply foldl
      | (intro _ _ _; try dsimp only)
      | with_reducible apply ite
      | with_reducible apply put
      | with_reducible apply puts
      | split

theorem presetIstar {lat tim : Bool} {s0 s : State} {n : Nat} {v : Int} (hk : Keeps lat tim s0 s) : Keeps lat tim s0 (State.presetIstar s n v) := by
  unfold State.presetIstar
  repeat' first
    | with_reducible assumption
    | with_reducible apply preset
    | split

theorem presetSink {lat tim : Bool} {s0 s : State} {h : Nat} {m : Option Nat} {v : Int} (hk : Keeps lat tim s0 s) : Keeps lat tim s0 (State.presetSink s h m v) := by
  unfold State.presetSink
  repeat' first
    | with_reducible assumption
    | with_reducible apply preset
    | split

theorem putLoad {lat tim : Bool} {s0 s : State} {h : Nat} (hk : Keeps lat tim s0 s) : Keeps lat tim s0 (State.putLoad s h) := by
  unfold State.putLoad
  repeat' first
    | with_reducible assumption
    | with_reducible apply put

theorem request {lat tim : Bool} {s0 s : State} {h m : Nat} (hk : Keeps lat tim s0 s) : Keeps lat tim s0 (State.request s h m) := by
  unfold State.request
  dsimp only
  repeat' first
    | with_reducible assumption
    | with_reducible apply ite
    | with_reducible apply ite_snd
    | with_reducible apply ite_fst
    | with_reducible apply bump
    | with_reducible apply puts

theorem settleSlot {lat tim : Bool} {s0 s : State} {h m : Nat} (hk : Keeps lat tim s0 s) : Keeps lat tim s0 (State.settleSlot s h m) := by
  unfold State.settleSlot
  dsimp only
  repeat' first
    | with_reducible assumption
    | with_reducible apply ite
    | with_reducible apply ite_snd
    | with_reducible apply ite_fst
    | with_reducible apply bumpPast
    | with_reducible apply put
    | with_reducible apply puts

theorem settleHalf {lat tim : Bool} {s0 s : State} {h : Nat} (hk : Keeps lat tim s0 s) : Keeps lat tim s0 (State.settleHalf s h) := by
  unfold State.settleHalf
  try dsimp only
  repeat' first
    | with_reducible assumption
    | with_reducible apply each
    | with_reducible apply settleSlot
    | (intro _ _ _; try dsimp only)

theorem countReq {lat tim : Bool} {s0 s : State} {h m : Nat} (hk : Keeps lat tim s0 s) : Keeps lat tim s0 (State.countReq s h m) := by
  unfold State.countReq
  dsimp only
  repeat' first
    | with_reducible assumption
    | with_reducible apply ite
    | with_reducible apply ite_snd
    | with_reducible apply ite_fst
    | with_reducible apply put
    | with_reducible apply request

end Sys2Proof.Machine.Keeps
end

