-- ==== Sys2Proof/Laws/KeepsStations.lean ====
section
/-!
SUPPORT. The operations of Machine/Stations.lean are operations of the machine in the sense of `Keeps`.
-/
namespace Sys2Proof.Machine.Keeps

theorem putSlow {lat tim : Bool} {s0 s : State} {n : Nat} (hk : Keeps lat tim s0 s) : Keeps lat tim s0 (State.putSlow s n) := by
  unfold State.putSlow
  dsimp only
  repeat' first
    | with_reducible assumption
    | with_reducible apply ite
    | with_reducible apply ite_snd
    | with_reducible apply ite_fst
    | with_reducible apply flag
    | with_reducible apply put

theorem ascDisarm {lat tim : Bool} {s0 s : State} {h u i st : Nat} (hk : Keeps lat tim s0 s) : Keeps lat tim s0 (State.ascDisarm s h u i st) := by
  unfold State.ascDisarm
  repeat' first
    | with_reducible assumption
    | with_reducible apply completeAll
    | with_reducible apply put
    | with_reducible apply puts

theorem ascDisarmUser {lat tim : Bool} {s0 s : State} {h u st : Nat} (hk : Keeps lat tim s0 s) : Keeps lat tim s0 (State.ascDisarmUser s h u st) := by
  unfold State.ascDisarmUser
  try dsimp only
  repeat' first
    | with_reducible assumption
    | with_reducible apply ascDisarm
    | with_reducible apply each
    | (intro _ _ _; try dsimp only)

theorem completeSet {lat tim : Bool} {s0 s : State} {n st : Nat} {p : Nat → Bool} (hk : Keeps lat tim s0 s) : Keeps lat tim s0 (State.completeSet s n st p) := by
  unfold State.completeSet
  try dsimp only
  repeat' first
    | with_reducible assumption
    | with_reducible apply completeB
    | with_reducible apply each
    | (intro _ _ _; try dsimp only)

theorem setMode {lat tim : Bool} {s0 s : State} {n m : Nat} (hk : Keeps lat tim s0 s) : Keeps lat tim s0 (State.setMode s n m) := by
  unfold State.setMode
  dsimp only
  repeat' first
    | with_reducible assumption
    | with_reducible apply ite
    | with_reducible apply ite_snd
    | with_reducible apply ite_fst
    | with_reducible apply ascDisarmUser
    | with_reducible apply completeSet
    | with_reducible apply notice
    | with_reducible apply put
    | with_reducible apply putSlow
    | with_reducible apply puts
    | with_reducible apply settleHalf
    | with_reducible apply trigger

theorem dropEnables {lat tim : Bool} {s0 s : State} {n : Nat} (hk : Keeps lat tim s0 s) : Keeps lat tim s0 (State.dropEnables s n) := by
  unfold State.dropEnables
  dsimp only
  repeat' first
    | with_reducible assumption
    | with_reducible apply puts

theorem putStoOff {lat tim : Bool} {s0 s : State} {h : Nat} (hk : Keeps lat tim s0 s) : Keeps lat tim s0 (State.putStoOff s h) := by
  unfold State.putStoOff
  repeat' first
    | with_reducible assumption
    | with_reducible apply flag

theorem putSwitch {lat tim : Bool} {s0 s : State} {n leg : Nat} (hk : Keeps lat tim s0 s) : Keeps lat tim s0 (State.putSwitch s n leg) := by
  unfold State.putSwitch
  dsimp only
  repeat' first
    | with_reducible assumption
    | with_reducible apply ite
    | with_reducible apply ite_snd
    | with_reducible apply ite_fst
    | with_reducible apply flag
    | with_reducible apply put
    | with_reducible apply putStoOff

theorem followPins {lat tim : Bool} {s0 s : State} {n : Nat} (hk : Keeps lat tim s0 s) : Keeps lat tim s0 (State.followPins s n) := by
  unfold State.followPins
  try dsimp only
  repeat' first
    | with_reducible assumption
    | with_reducible apply each
    | with_reducible apply put
    | with_reducible apply putSwitch
    | (intro _ _ _; try dsimp only)

theorem turnOff {lat tim : Bool} {s0 s : State} {n : Nat} (hk : Keeps lat tim s0 s) : Keeps lat tim s0 (State.turnOff s n) := by
  unfold State.turnOff
  dsimp only
  repeat' first
    | with_reducible assumption
    | with_reducible apply ite
    | with_reducible apply ite_snd
    | with_reducible apply ite_fst
    | with_reducible apply dropEnables
    | with_reducible apply putStoOff
    | with_reducible apply puts

theorem leaveExt {lat tim : Bool} {s0 s : State} {n : Nat} (hk : Keeps lat tim s0 s) : Keeps lat tim s0 (State.leaveExt s n) := by
  unfold State.leaveExt
  repeat' first
    | with_reducible assumption
    | with_reducible apply ite
    | with_reducible apply ite_snd
    | with_reducible apply ite_fst
    | with_reducible apply turnOff

theorem endSequences {lat tim : Bool} {s0 s : State} {n : Nat} (hk : Keeps lat tim s0 s) : Keeps lat tim s0 (State.endSequences s n) := by
  unfold State.endSequences
  repeat' first
    | with_reducible assumption
    | with_reducible apply puts
    | with_reducible apply setBit

theorem svcForget {lat tim : Bool} {s0 s : State} {k : Nat} (hk : Keeps lat tim s0 s) : Keeps lat tim s0 (State.svcForget s k) := by
  unfold State.svcForget
  try dsimp only
  repeat' first
    | with_reducible assumption
    | with_reducible apply svcNew

theorem svcFree {lat tim : Bool} {s0 s : State} {k : Nat} (hk : Keeps lat tim s0 s) : Keeps lat tim s0 (State.svcFree s k) := by
  unfold State.svcFree
  dsimp only
  repeat' first
    | with_reducible assumption
    | exact regs (svcForget hk) fun w => Sparse.wf_clear _ _ (Sparse.wf_clear _ _ (Sparse.wf_clear _ _ w))

theorem putShed {lat tim : Bool} {s0 s : State} {n : Nat} (hk : Keeps lat tim s0 s) : Keeps lat tim s0 (State.putShed s n) := by
  unfold State.putShed
  dsimp only
  repeat' first
    | with_reducible assumption
    | with_reducible apply ite
    | with_reducible apply ite_snd
    | with_reducible apply ite_fst
    | with_reducible apply foldl
    | with_reducible apply put

theorem svcEnd {lat tim : Bool} {s0 s : State} {k st : Nat} (hk : Keeps lat tim s0 s) : Keeps lat tim s0 (State.svcEnd s k st) := by
  unfold State.svcEnd
  dsimp only
  repeat' first
    | with_reducible assumption
    | with_reducible apply ite
    | with_reducible apply ite_snd
    | with_reducible apply ite_fst
    | with_reducible apply completeAll
    | with_reducible apply puts
    | with_reducible apply svcForget
    | with_reducible apply svcFree

theorem beginStop {lat tim : Bool} {s0 s : State} {n ty : Nat} (hk : Keeps lat tim s0 s) : Keeps lat tim s0 (State.beginStop s n ty) := by
  unfold State.beginStop
  dsimp only
  repeat' first
    | with_reducible assumption
    | with_reducible apply ite
    | with_reducible apply ite_snd
    | with_reducible apply ite_fst
    | with_reducible apply bump
    | with_reducible apply leaveExt
    | with_reducible apply presetIstar
    | with_reducible apply puts
    | with_reducible apply setMode

theorem endStop {lat tim : Bool} {s0 s : State} {n : Nat} (hk : Keeps lat tim s0 s) : Keeps lat tim s0 (State.endStop s n) := by
  unfold State.endStop
  dsimp only
  repeat' first
    | with_reducible assumption
    | with_reducible apply ite
    | with_reducible apply ite_snd
    | with_reducible apply ite_fst
    | with_reducible apply completeAll
    | with_reducible apply endSequences
    | with_reducible apply put
    | with_reducible apply setMode
    | with_reducible apply turnOff

theorem restop {lat tim : Bool} {s0 s : State} {n ty : Nat} (hk : Keeps lat tim s0 s) : Keeps lat tim s0 (State.restop s n ty) := by
  unfold State.restop
  dsimp only
  repeat' first
    | with_reducible assumption
    | with_reducible apply ite
    | with_reducible apply ite_snd
    | with_reducible apply ite_fst
    | with_reducible apply endStop
    | with_reducible apply presetIstar
    | with_reducible apply put
    | with_reducible apply puts

theorem stopStation {lat tim : Bool} {s0 s : State} {n ty : Nat} (hk : Keeps lat tim s0 s) : Keeps lat tim s0 (State.stopStation s n ty) := by
  unfold State.stopStation
  dsimp only
  repeat' first
    | with_reducible assumption
    | with_reducible apply ite
    | with_reducible apply ite_snd
    | with_reducible apply ite_fst
    | with_reducible apply beginStop
    | with_reducible apply bump
    | with_reducible apply endStop
    | with_reducible apply put
    | with_reducible apply restop

theorem svcDrop {lat tim : Bool} {s0 s : State} {k n : Nat} (hk : Keeps lat tim s0 s) : Keeps lat tim s0 (State.svcDrop s k n) := by
  unfold State.svcDrop
  dsimp only
  repeat' first
    | with_reducible assumption
    | with_reducible apply ite
    | with_reducible apply ite_snd
    | with_reducible apply ite_fst
    | with_reducible apply clrBits
    | with_reducible apply putShed
    | with_reducible apply puts

theorem svcLeave {lat tim : Bool} {s0 s : State} {f n : Nat} {fault : Bool} (hk : Keeps lat tim s0 s) : Keeps lat tim s0 (State.svcLeave f s n fault) := by
  induction f generalizing s n fault with
  | zero => unfold State.svcLeave; exact hk
  | succ f ih =>
    unfold State.svcLeave
    dsimp only
    repeat' first
      | with_reducible assumption
      | with_reducible apply ih
      | with_reducible apply ite
      | with_reducible apply each
      | with_reducible apply svcDrop
      | with_reducible apply svcEnd
      | with_reducible apply stopStation
      | with_reducible apply put
      | (intro _ _ _; try dsimp only)

theorem svcLeaveMute {lat tim : Bool} {s0 s : State} {n : Nat} {fault : Bool} (hk : Keeps lat tim s0 s) : Keeps lat tim s0 (State.svcLeaveMute s n fault) := by
  unfold State.svcLeaveMute
  dsimp only
  repeat' first
    | with_reducible assumption
    | with_reducible apply ite
    | with_reducible apply ite_snd
    | with_reducible apply ite_fst
    | with_reducible apply each
    | with_reducible apply orBits
    | with_reducible apply puts
    | (intro _ _ _; try dsimp only)

theorem leaveService {lat tim : Bool} {s0 s : State} {n : Nat} {fault : Bool} (hk : Keeps lat tim s0 s) : Keeps lat tim s0 (State.leaveService s n fault) := by
  unfold State.leaveService
  repeat' first
    | with_reducible assumption
    | with_reducible apply ite
    | with_reducible apply ite_snd
    | with_reducible apply ite_fst
    | with_reducible apply svcLeave
    | with_reducible apply svcLeaveMute

theorem svcHeard {lat tim : Bool} {s0 s : State} (hk : Keeps lat tim s0 s) : Keeps lat tim s0 (State.svcHeard s) := by
  unfold State.svcHeard
  dsimp only
  repeat' first
    | with_reducible assumption
    | with_reducible apply clrBits
    | with_reducible apply each
    | with_reducible apply svcLeave
    | (intro _ _ _; try dsimp only)

theorem failStationWork {lat tim : Bool} {s0 s : State} {n detail : Nat} (hk : Keeps lat tim s0 s) : Keeps lat tim s0 (State.failStationWork s n detail) := by
  unfold State.failStationWork
  repeat' first
    | with_reducible assumption
    | with_reducible apply completeAll

theorem stnCause {lat tim : Bool} {s0 s : State} {n code : Nat} (hk : Keeps lat tim s0 s) : Keeps lat tim s0 (State.stnCause s n code) := by
  unfold State.stnCause
  dsimp only
  repeat' first
    | with_reducible assumption
    | with_reducible apply ite
    | with_reducible apply ite_snd
    | with_reducible apply ite_fst
    | with_reducible apply put
    | with_reducible apply puts

theorem stnRaise {lat tim : Bool} {s0 s : State} {n code : Nat} (hk : Keeps lat tim s0 s) : Keeps lat tim s0 (State.stnRaise s n code) := by
  unfold State.stnRaise
  repeat' first
    | with_reducible assumption
    | with_reducible apply raise
    | with_reducible apply stnCause

theorem faultStop {lat tim : Bool} {s0 s : State} {n code : Nat} {brake : Bool} {detail : Nat} {enter : Bool} (hk : Keeps lat tim s0 s) : Keeps lat tim s0 (State.faultStop s n code brake detail enter) := by
  unfold State.faultStop
  dsimp only
  repeat' first
    | with_reducible assumption
    | with_reducible apply ite
    | with_reducible apply ite_snd
    | with_reducible apply ite_fst
    | with_reducible apply endSequences
    | with_reducible apply failStationWork
    | with_reducible apply leaveService
    | with_reducible apply put
    | with_reducible apply puts
    | with_reducible apply setMode
    | with_reducible apply stnRaise
    | with_reducible apply turnOff

theorem faultTrip {lat tim : Bool} {s0 s : State} {n code : Nat} {brake : Bool} {enter : Bool} (hk : Keeps lat tim s0 s) : Keeps lat tim s0 (State.faultTrip s n code brake enter) := by
  unfold State.faultTrip
  dsimp only
  repeat' first
    | with_reducible assumption
    | with_reducible apply ite
    | with_reducible apply ite_snd
    | with_reducible apply ite_fst
    | with_reducible apply faultStop

theorem faultHalf {lat tim : Bool} {s0 s : State} {h code : Nat} {brake : Bool} (hk : Keeps lat tim s0 s) : Keeps lat tim s0 (State.faultHalf s h code brake) := by
  unfold State.faultHalf
  dsimp only
  repeat' first
    | with_reducible assumption
    | with_reducible apply ite
    | with_reducible apply ite_snd
    | with_reducible apply ite_fst
    | with_reducible apply each
    | with_reducible apply faultStop
    | with_reducible apply put
    | with_reducible apply stnRaise
    | (intro _ _ _; try dsimp only)

theorem fallback {lat tim : Bool} {s0 s : State} {n : Nat} (hk : Keeps lat tim s0 s) : Keeps lat tim s0 (State.fallback s n) := by
  unfold State.fallback
  dsimp only
  repeat' first
    | with_reducible assumption
    | with_reducible apply ite
    | with_reducible apply ite_snd
    | with_reducible apply ite_fst
    | with_reducible apply bump
    | with_reducible apply leaveService
    | with_reducible apply presetIstar
    | with_reducible apply put
    | with_reducible apply puts
    | with_reducible apply stopStation
    | split

theorem resetGated {lat tim : Bool} {s0 s : State} {n : Nat} (hk : Keeps lat tim s0 s) : Keeps lat tim s0 (State.resetGated s n) := by
  unfold State.resetGated
  dsimp only
  repeat' first
    | with_reducible assumption
    | with_reducible apply ite
    | with_reducible apply ite_snd
    | with_reducible apply ite_fst
    | with_reducible apply each
    | with_reducible apply put
    | with_reducible apply resetSlot
    | (intro _ _ _; try dsimp only)

theorem releaseBrake {lat tim : Bool} {s0 s : State} {n : Nat} (hk : Keeps lat tim s0 s) : Keeps lat tim s0 (State.releaseBrake s n) := by
  unfold State.releaseBrake
  dsimp only
  repeat' first
    | with_reducible assumption
    | with_reducible apply puts

theorem enterRun {lat tim : Bool} {s0 s : State} {n source kind : Nat} (hk : Keeps lat tim s0 s) : Keeps lat tim s0 (State.enterRun s n source kind) := by
  unfold State.enterRun
  dsimp only
  repeat' first
    | with_reducible assumption
    | with_reducible apply ite
    | with_reducible apply ite_snd
    | with_reducible apply ite_fst
    | with_reducible apply followPins
    | with_reducible apply puts
    | with_reducible apply releaseBrake
    | with_reducible apply resetGated
    | with_reducible apply setMode

end Sys2Proof.Machine.Keeps
end

