-- ==== Sys2Proof/Laws/KeepsSensorless.lean ====
section
/-!
SUPPORT. The operations of Machine/Sensorless.lean are operations of the machine in the sense of `Keeps`.
-/
namespace Sys2Proof.Machine.Keeps

theorem obsStep {lat tim : Bool} {s0 s : State} {n t : Nat} {ea eb : Int} (hk : Keeps lat tim s0 s) : Keeps lat tim s0 (State.obsStep s n t ea eb) := by
  unfold State.obsStep
  dsimp only
  repeat' first
    | with_reducible assumption
    | with_reducible apply ite
    | with_reducible apply ite_snd
    | with_reducible apply ite_fst
    | with_reducible apply bump
    | with_reducible apply put
    | with_reducible apply puts

theorem obsConducting {lat tim : Bool} {s0 s : State} {n t : Nat} {ia ib : Int} (hk : Keeps lat tim s0 s) : Keeps lat tim s0 (State.obsConducting s n t ia ib) := by
  unfold State.obsConducting
  dsimp only
  repeat' first
    | with_reducible assumption
    | with_reducible apply obsStep
    | with_reducible apply put
    | with_reducible apply puts

theorem obsOpen {lat tim : Bool} {s0 s : State} {n : Nat} {cu cv cw : Nat} (hk : Keeps lat tim s0 s) : Keeps lat tim s0 (State.obsOpen s n cu cv cw) := by
  unfold State.obsOpen
  dsimp only
  repeat' first
    | with_reducible assumption
    | with_reducible apply ite
    | with_reducible apply ite_snd
    | with_reducible apply ite_fst
    | with_reducible apply obsStep
    | with_reducible apply put

theorem obsFault {lat tim : Bool} {s0 s : State} {n level cause : Nat} (hk : Keeps lat tim s0 s) : Keeps lat tim s0 (State.obsFault s n level cause) := by
  unfold State.obsFault
  repeat' first
    | with_reducible assumption
    | with_reducible apply faultTrip
    | with_reducible apply put

theorem startOpen {lat tim : Bool} {s0 s : State} {n : Nat} {phase theta fr idref : Int} (hk : Keeps lat tim s0 s) : Keeps lat tim s0 (State.startOpen s n phase theta fr idref) := by
  unfold State.startOpen
  repeat' first
    | with_reducible assumption
    | with_reducible apply puts

theorem startAlign {lat tim : Bool} {s0 s : State} {n : Nat} (hk : Keeps lat tim s0 s) : Keeps lat tim s0 (State.startAlign s n) := by
  unfold State.startAlign
  repeat' first
    | with_reducible assumption
    | with_reducible apply releaseBrake
    | with_reducible apply startOpen

theorem startNormal {lat tim : Bool} {s0 s : State} {n : Nat} (hk : Keeps lat tim s0 s) : Keeps lat tim s0 (State.startNormal s n) := by
  unfold State.startNormal
  dsimp only
  repeat' first
    | with_reducible assumption
    | with_reducible apply ite
    | with_reducible apply ite_snd
    | with_reducible apply ite_fst
    | with_reducible apply faultTrip
    | with_reducible apply put
    | with_reducible apply puts
    | with_reducible apply releaseBrake

theorem startStill {lat tim : Bool} {s0 s : State} {n : Nat} (hk : Keeps lat tim s0 s) : Keeps lat tim s0 (State.startStill s n) := by
  unfold State.startStill
  repeat' first
    | with_reducible assumption
    | with_reducible apply ite
    | with_reducible apply ite_snd
    | with_reducible apply ite_fst
    | with_reducible apply puts
    | with_reducible apply startAlign
    | with_reducible apply startNormal

theorem enterCatch {lat tim : Bool} {s0 s : State} {n : Nat} (hk : Keeps lat tim s0 s) : Keeps lat tim s0 (State.enterCatch s n) := by
  unfold State.enterCatch
  dsimp only
  repeat' first
    | with_reducible assumption
    | with_reducible apply ite
    | with_reducible apply ite_snd
    | with_reducible apply ite_fst
    | with_reducible apply obsFault
    | with_reducible apply puts
    | with_reducible apply setMode
    | with_reducible apply turnOff
    | with_reducible apply withFlt

theorem rotorRecord {lat tim : Bool} {s0 s : State} {n k : Nat} (hk : Keeps lat tim s0 s) : Keeps lat tim s0 (State.rotorRecord s n k) := by
  unfold State.rotorRecord
  repeat' first
    | with_reducible assumption
    | with_reducible apply trigger

theorem rotationCheck {lat tim : Bool} {s0 s : State} {n : Nat} (hk : Keeps lat tim s0 s) : Keeps lat tim s0 (State.rotationCheck s n) := by
  unfold State.rotationCheck
  dsimp only
  repeat' first
    | with_reducible assumption
    | with_reducible apply ite
    | with_reducible apply ite_snd
    | with_reducible apply ite_fst
    | with_reducible apply enterCatch
    | with_reducible apply faultTrip
    | with_reducible apply put
    | with_reducible apply putStoOff
    | with_reducible apply puts
    | with_reducible apply rotorRecord
    | with_reducible apply startNormal
    | with_reducible apply startStill
    | split

theorem sensorFault {lat tim : Bool} {s0 s : State} {n code : Nat} (hk : Keeps lat tim s0 s) : Keeps lat tim s0 (State.sensorFault s n code) := by
  unfold State.sensorFault
  dsimp only
  repeat' first
    | with_reducible assumption
    | with_reducible apply ite
    | with_reducible apply ite_snd
    | with_reducible apply ite_fst
    | with_reducible apply beginStop
    | with_reducible apply enterCatch
    | with_reducible apply faultTrip
    | with_reducible apply leaveService
    | with_reducible apply put
    | with_reducible apply putSlow
    | with_reducible apply puts

theorem posReact {lat tim : Bool} {s0 s : State} {n : Nat} (hk : Keeps lat tim s0 s) : Keeps lat tim s0 (State.posReact s n) := by
  unfold State.posReact
  dsimp only
  repeat' first
    | with_reducible assumption
    | with_reducible apply ite
    | with_reducible apply ite_snd
    | with_reducible apply ite_fst
    | with_reducible apply put
    | with_reducible apply sensorFault

theorem obsLossCheck {lat tim : Bool} {s0 s : State} {n : Nat} (hk : Keeps lat tim s0 s) : Keeps lat tim s0 (State.obsLossCheck s n) := by
  unfold State.obsLossCheck
  dsimp only
  repeat' first
    | with_reducible assumption
    | with_reducible apply ite
    | with_reducible apply ite_snd
    | with_reducible apply ite_fst
    | with_reducible apply bump
    | with_reducible apply enterCatch
    | with_reducible apply obsFault
    | with_reducible apply put
    | with_reducible apply puts
    | with_reducible apply rotorRecord

theorem handover {lat tim : Bool} {s0 s : State} {n : Nat} (hk : Keeps lat tim s0 s) : Keeps lat tim s0 (State.handover s n) := by
  unfold State.handover
  dsimp only
  repeat' first
    | with_reducible assumption
    | with_reducible apply ite
    | with_reducible apply ite_snd
    | with_reducible apply ite_fst
    | with_reducible apply presetIstar
    | with_reducible apply puts

theorem handback {lat tim : Bool} {s0 s : State} {n : Nat} (hk : Keeps lat tim s0 s) : Keeps lat tim s0 (State.handback s n) := by
  unfold State.handback
  dsimp only
  repeat' first
    | with_reducible assumption
    | with_reducible apply ite
    | with_reducible apply ite_snd
    | with_reducible apply ite_fst
    | with_reducible apply startOpen

theorem rampFr {lat tim : Bool} {s0 s : State} {n t : Nat} (hk : Keeps lat tim s0 s) : Keeps lat tim s0 (State.rampFr s n t) := by
  unfold State.rampFr
  dsimp only
  repeat' first
    | with_reducible assumption
    | with_reducible apply ite
    | with_reducible apply ite_snd
    | with_reducible apply ite_fst
    | with_reducible apply puts

theorem startUpdate {lat tim : Bool} {s0 s : State} {n t : Nat} (hk : Keeps lat tim s0 s) : Keeps lat tim s0 (State.startUpdate s n t) := by
  unfold State.startUpdate
  dsimp only
  repeat' first
    | with_reducible assumption
    | with_reducible apply ite
    | with_reducible apply ite_snd
    | with_reducible apply ite_fst
    | with_reducible apply bump
    | with_reducible apply handback
    | with_reducible apply handover
    | with_reducible apply put
    | with_reducible apply puts
    | with_reducible apply rampFr

theorem limpBegin {lat tim : Bool} {s0 s : State} {n : Nat} (hk : Keeps lat tim s0 s) : Keeps lat tim s0 (State.limpBegin s n) := by
  unfold State.limpBegin
  dsimp only
  repeat' first
    | with_reducible assumption
    | with_reducible apply ite
    | with_reducible apply ite_snd
    | with_reducible apply ite_fst
    | with_reducible apply putSlow
    | with_reducible apply puts

theorem caught {lat tim : Bool} {s0 s : State} {n : Nat} (hk : Keeps lat tim s0 s) : Keeps lat tim s0 (State.caught s n) := by
  unfold State.caught
  dsimp only
  repeat' first
    | with_reducible assumption
    | with_reducible apply ite
    | with_reducible apply ite_snd
    | with_reducible apply ite_fst
    | with_reducible apply bump
    | with_reducible apply followPins
    | with_reducible apply limpBegin
    | with_reducible apply presetSink
    | with_reducible apply puts
    | with_reducible apply releaseBrake
    | with_reducible apply resetGated
    | with_reducible apply rotorRecord
    | with_reducible apply setMode

theorem catchBoundary {lat tim : Bool} {s0 s : State} {n : Nat} (hk : Keeps lat tim s0 s) : Keeps lat tim s0 (State.catchBoundary s n) := by
  unfold State.catchBoundary
  dsimp only
  repeat' first
    | with_reducible assumption
    | with_reducible apply ite
    | with_reducible apply ite_snd
    | with_reducible apply ite_fst
    | with_reducible apply bump
    | with_reducible apply caught
    | with_reducible apply endStop
    | with_reducible apply fallback
    | with_reducible apply followPins
    | with_reducible apply limpBegin
    | with_reducible apply put
    | with_reducible apply puts
    | with_reducible apply releaseBrake
    | with_reducible apply resetGated
    | with_reducible apply setMode
    | with_reducible apply startAlign
    | with_reducible apply stopStation

end Sys2Proof.Machine.Keeps
end

