-- ==== Sys2Proof/Laws/KeepsPosition.lean ====
section
/-!
SUPPORT. The operations of Machine/Position.lean are operations of the machine in the sense of `Keeps`.
-/
namespace Sys2Proof.Machine.Keeps

theorem movePos {lat tim : Bool} {s0 s : State} {n : Nat} {d : Int} (hk : Keeps lat tim s0 s) : Keeps lat tim s0 (State.movePos s n d) := by
  unfold State.movePos
  dsimp only
  repeat' first
    | with_reducible assumption
    | with_reducible apply ite
    | with_reducible apply ite_snd
    | with_reducible apply ite_fst
    | with_reducible apply put

theorem rpFollow {lat tim : Bool} {s0 s : State} {h : Nat} (hk : Keeps lat tim s0 s) : Keeps lat tim s0 (State.rpFollow s h) := by
  unfold State.rpFollow
  repeat' first
    | with_reducible assumption
    | with_reducible apply flag

theorem setValid {lat tim : Bool} {s0 s : State} {n : Nat} (hk : Keeps lat tim s0 s) : Keeps lat tim s0 (State.setValid s n) := by
  unfold State.setValid
  repeat' first
    | with_reducible assumption
    | with_reducible apply puts
    | with_reducible apply rpFollow

theorem putAngle {lat tim : Bool} {s0 s : State} {n : Nat} {bNew a : Int} (hk : Keeps lat tim s0 s) : Keeps lat tim s0 (State.putAngle s n bNew a) := by
  unfold State.putAngle
  dsimp only
  repeat' first
    | with_reducible assumption
    | with_reducible apply puts

theorem startAcq {lat tim : Bool} {s0 s : State} {n : Nat} {again : Bool} (hk : Keeps lat tim s0 s) : Keeps lat tim s0 (State.startAcq s n again) := by
  unfold State.startAcq
  dsimp only
  repeat' first
    | with_reducible assumption
    | with_reducible apply ite
    | with_reducible apply ite_snd
    | with_reducible apply ite_fst
    | with_reducible apply put
    | with_reducible apply putAngle
    | with_reducible apply puts
    | with_reducible apply setValid

theorem positionFaultBy {lat tim : Bool} {s0 s : State} {n code : Nat} (hk : Keeps lat tim s0 s) : Keeps lat tim s0 (State.positionFaultBy s n code) := by
  unfold State.positionFaultBy
  dsimp only
  repeat' first
    | with_reducible assumption
    | with_reducible apply ite
    | with_reducible apply ite_snd
    | with_reducible apply ite_fst
    | with_reducible apply faultStop
    | with_reducible apply put
    | with_reducible apply puts
    | with_reducible apply rpFollow
    | with_reducible apply stnRaise

theorem positionFault {lat tim : Bool} {s0 s : State} {n cause : Nat} (hk : Keeps lat tim s0 s) : Keeps lat tim s0 (State.positionFault s n cause) := by
  unfold State.positionFault
  repeat' first
    | with_reducible assumption
    | with_reducible apply positionFaultBy

theorem followRaw {lat tim : Bool} {s0 s : State} {n : Nat} {raw : Int} (hk : Keeps lat tim s0 s) : Keeps lat tim s0 (State.followRaw s n raw) := by
  unfold State.followRaw
  dsimp only
  repeat' first
    | with_reducible assumption
    | with_reducible apply movePos
    | with_reducible apply put

theorem speedEdge {lat tim : Bool} {s0 s : State} {n t : Nat} {e : Int} (hk : Keeps lat tim s0 s) : Keeps lat tim s0 (State.speedEdge s n t e) := by
  unfold State.speedEdge
  dsimp only
  repeat' first
    | with_reducible assumption
    | with_reducible apply ite
    | with_reducible apply ite_snd
    | with_reducible apply ite_fst
    | with_reducible apply positionFault
    | with_reducible apply put
    | with_reducible apply puts

theorem coarseRelease {lat tim : Bool} {s0 s : State} {n t : Nat} (hk : Keeps lat tim s0 s) : Keeps lat tim s0 (State.coarseRelease s n t) := by
  unfold State.coarseRelease
  dsimp only
  repeat' first
    | with_reducible assumption
    | with_reducible apply ite
    | with_reducible apply ite_snd
    | with_reducible apply ite_fst
    | with_reducible apply put

theorem coarseStep {lat tim : Bool} {s0 s : State} {n t : Nat} {qn : Int} (hk : Keeps lat tim s0 s) : Keeps lat tim s0 (State.coarseStep s n t qn) := by
  unfold State.coarseStep
  dsimp only
  repeat' first
    | with_reducible assumption
    | with_reducible apply ite
    | with_reducible apply ite_snd
    | with_reducible apply ite_fst
    | with_reducible apply bump
    | with_reducible apply followRaw
    | with_reducible apply movePos
    | with_reducible apply positionFault
    | with_reducible apply put
    | with_reducible apply putAngle
    | with_reducible apply speedEdge

theorem linesPass {lat tim : Bool} {s0 s : State} {n t : Nat} {la lb : Bool} (hk : Keeps lat tim s0 s) : Keeps lat tim s0 (State.linesPass s n t la lb) := by
  unfold State.linesPass
  dsimp only
  repeat' first
    | with_reducible assumption
    | with_reducible apply ite
    | with_reducible apply ite_snd
    | with_reducible apply ite_fst
    | with_reducible apply advance
    | with_reducible apply coarseStep
    | with_reducible apply puts

theorem lineLevel {lat tim : Bool} {s0 s : State} {n : Nat} {lvl since : Fld} {l : Bool} {t : Nat} (hk : Keeps lat tim s0 s) : Keeps lat tim s0 (State.lineLevel s n lvl since l t) := by
  unfold State.lineLevel
  repeat' first
    | with_reducible assumption
    | with_reducible apply ite
    | with_reducible apply ite_snd
    | with_reducible apply ite_fst
    | with_reducible apply puts

theorem coarseEdge {lat tim : Bool} {s0 s : State} {n t : Nat} {la lb : Bool} {hold : Nat} (hk : Keeps lat tim s0 s) : Keeps lat tim s0 (State.coarseEdge s n t la lb hold) := by
  unfold State.coarseEdge
  dsimp only
  repeat' first
    | with_reducible assumption
    | with_reducible apply ite
    | with_reducible apply ite_snd
    | with_reducible apply ite_fst
    | with_reducible apply advance
    | with_reducible apply lineLevel
    | with_reducible apply linesPass

theorem trackEdge {lat tim : Bool} {s0 s : State} {n t : Nat} {a : Int} (hk : Keeps lat tim s0 s) : Keeps lat tim s0 (State.trackEdge s n t a) := by
  unfold State.trackEdge
  dsimp only
  repeat' first
    | with_reducible assumption
    | with_reducible apply ite
    | with_reducible apply ite_snd
    | with_reducible apply ite_fst
    | with_reducible apply put
    | with_reducible apply speedEdge

theorem acquire {lat tim : Bool} {s0 s : State} {n : Nat} {a : Int} (hk : Keeps lat tim s0 s) : Keeps lat tim s0 (State.acquire s n a) := by
  unfold State.acquire
  dsimp only
  repeat' first
    | with_reducible assumption
    | with_reducible apply ite
    | with_reducible apply ite_snd
    | with_reducible apply ite_fst
    | with_reducible apply movePos
    | with_reducible apply putAngle
    | with_reducible apply puts
    | with_reducible apply setValid

theorem finePart {lat tim : Bool} {s0 s : State} {n : Nat} {a : Int} (hk : Keeps lat tim s0 s) : Keeps lat tim s0 (State.finePart s n a) := by
  unfold State.finePart
  dsimp only
  repeat' first
    | with_reducible assumption
    | with_reducible apply ite
    | with_reducible apply ite_snd
    | with_reducible apply ite_fst
    | with_reducible apply followRaw
    | with_reducible apply positionFault
    | with_reducible apply put
    | with_reducible apply putAngle
    | with_reducible apply puts

theorem sizNext {lat tim : Bool} {s0 s : State} {n : Nat} (hk : Keeps lat tim s0 s) : Keeps lat tim s0 (State.sizNext s n) := by
  unfold State.sizNext
  dsimp only
  repeat' first
    | with_reducible assumption
    | with_reducible apply ite
    | with_reducible apply ite_snd
    | with_reducible apply ite_fst
    | with_reducible apply puts
    | with_reducible apply turnOff

theorem sizPhase {lat tim : Bool} {s0 s : State} {n : Nat} (hk : Keeps lat tim s0 s) : Keeps lat tim s0 (State.sizPhase s n) := by
  unfold State.sizPhase
  dsimp only
  repeat' first
    | with_reducible assumption
    | with_reducible apply ite
    | with_reducible apply ite_snd
    | with_reducible apply ite_fst
    | with_reducible apply sizNext

theorem sizAmp {lat tim : Bool} {s0 s : State} {n : Nat} {rs rc a : Int} (hk : Keeps lat tim s0 s) : Keeps lat tim s0 (State.sizAmp s n rs rc a) := by
  unfold State.sizAmp
  dsimp only
  repeat' first
    | with_reducible assumption
    | with_reducible apply ite
    | with_reducible apply ite_snd
    | with_reducible apply ite_fst
    | with_reducible apply puts
    | with_reducible apply sizNext

theorem sizCarrier {lat tim : Bool} {s0 s : State} {n : Nat} {rs rc ph : Int} (hk : Keeps lat tim s0 s) : Keeps lat tim s0 (State.sizCarrier s n rs rc ph) := by
  unfold State.sizCarrier
  dsimp only
  repeat' first
    | with_reducible assumption
    | with_reducible apply ite
    | with_reducible apply ite_snd
    | with_reducible apply ite_fst
    | with_reducible apply puts

theorem psUse {lat tim : Bool} {s0 s : State} {n t v : Nat} {d : Int} {first : Bool} {prevT : Int} (hk : Keeps lat tim s0 s) : Keeps lat tim s0 (State.psUse s n t v d first prevT) := by
  unfold State.psUse
  dsimp only
  repeat' first
    | with_reducible assumption
    | with_reducible apply ite
    | with_reducible apply ite_snd
    | with_reducible apply ite_fst
    | with_reducible apply movePos
    | with_reducible apply put
    | with_reducible apply setValid

theorem psTake {lat tim : Bool} {s0 s : State} {n : Nat} (hk : Keeps lat tim s0 s) : Keeps lat tim s0 (State.psTake s n) := by
  unfold State.psTake
  dsimp only
  repeat' first
    | with_reducible assumption
    | with_reducible apply ite
    | with_reducible apply ite_snd
    | with_reducible apply ite_fst
    | with_reducible apply psUse
    | with_reducible apply puts

theorem trackStep {lat tim : Bool} {s0 s : State} {n : Nat} {sn cs : Int} (hk : Keeps lat tim s0 s) : Keeps lat tim s0 (State.trackStep s n sn cs) := by
  unfold State.trackStep
  dsimp only
  repeat' first
    | with_reducible assumption
    | with_reducible apply puts

theorem takePair {lat tim : Bool} {s0 s : State} {n : Nat} {rs rc : Int} {turn : Bool} (hk : Keeps lat tim s0 s) : Keeps lat tim s0 (State.takePair s n rs rc turn) := by
  unfold State.takePair
  dsimp only
  repeat' first
    | with_reducible assumption
    | with_reducible apply ite
    | with_reducible apply ite_snd
    | with_reducible apply ite_fst
    | with_reducible apply put
    | with_reducible apply puts

theorem fineSample {lat tim : Bool} {s0 s : State} {n t : Nat} {rs rc : Int} {ph : Nat} {neg : Bool} (hk : Keeps lat tim s0 s) : Keeps lat tim s0 (State.fineSample s n t rs rc ph neg) := by
  unfold State.fineSample
  dsimp only
  repeat' first
    | with_reducible assumption
    | with_reducible apply ite
    | with_reducible apply ite_snd
    | with_reducible apply ite_fst
    | with_reducible apply acquire
    | with_reducible apply advance
    | with_reducible apply bump
    | with_reducible apply coarseRelease
    | with_reducible apply coarseStep
    | with_reducible apply finePart
    | with_reducible apply positionFault
    | with_reducible apply psTake
    | with_reducible apply put
    | with_reducible apply sizAmp
    | with_reducible apply sizCarrier
    | with_reducible apply sizPhase
    | with_reducible apply takePair
    | with_reducible apply trackEdge
    | with_reducible apply trackStep

theorem speedUpdate {lat tim : Bool} {s0 s : State} {n tu : Nat} (hk : Keeps lat tim s0 s) : Keeps lat tim s0 (State.speedUpdate s n tu) := by
  unfold State.speedUpdate
  dsimp only
  repeat' first
    | with_reducible assumption
    | with_reducible apply ite
    | with_reducible apply ite_snd
    | with_reducible apply ite_fst
    | with_reducible apply put
    | with_reducible apply puts

theorem speedTick {lat tim : Bool} {s0 s : State} {n t : Nat} (hk : Keeps lat tim s0 s) : Keeps lat tim s0 (State.speedTick s n t) := by
  unfold State.speedTick
  repeat' first
    | with_reducible assumption
    | with_reducible apply advance
    | with_reducible apply speedUpdate

theorem acqTimeout {lat tim : Bool} {s0 s : State} {n : Nat} (hk : Keeps lat tim s0 s) : Keeps lat tim s0 (State.acqTimeout s n) := by
  unfold State.acqTimeout
  repeat' first
    | with_reducible assumption
    | with_reducible apply ite
    | with_reducible apply ite_snd
    | with_reducible apply ite_fst
    | with_reducible apply positionFault

theorem psTrigger {lat tim : Bool} {s0 s : State} {h t : Nat} (hk : Keeps lat tim s0 s) : Keeps lat tim s0 (State.psTrigger s h t) := by
  unfold State.psTrigger
  dsimp only
  repeat' first
    | with_reducible assumption
    | with_reducible apply ite
    | with_reducible apply ite_snd
    | with_reducible apply ite_fst
    | with_reducible apply advance
    | with_reducible apply bump
    | with_reducible apply put

theorem psDiscard {lat tim : Bool} {s0 s : State} {h : Nat} (hk : Keeps lat tim s0 s) : Keeps lat tim s0 (State.psDiscard s h) := by
  unfold State.psDiscard
  dsimp only
  repeat' first
    | with_reducible assumption
    | with_reducible apply ite
    | with_reducible apply ite_snd
    | with_reducible apply ite_fst
    | with_reducible apply bump
    | with_reducible apply each
    | with_reducible apply positionFault
    | with_reducible apply rpFollow
    | (intro _ _ _; try dsimp only)

theorem psEnd {lat tim : Bool} {s0 s : State} {h t : Nat} {sloHigh start : Bool} {dly : Nat} {bits : Nat} {nE nW : Bool} {crc : Nat} (hk : Keeps lat tim s0 s) : Keeps lat tim s0 (State.psEnd s h t sloHigh start dly bits nE nW crc) := by
  unfold State.psEnd
  dsimp only
  repeat' first
    | with_reducible assumption
    | with_reducible apply ite
    | with_reducible apply ite_snd
    | with_reducible apply ite_fst
    | with_reducible apply advance
    | with_reducible apply each
    | with_reducible apply flag
    | with_reducible apply psDiscard
    | with_reducible apply psTake
    | with_reducible apply put
    | with_reducible apply puts
    | with_reducible apply rpFollow
    | with_reducible apply start
    | (intro _ _ _; try dsimp only)

theorem rpEmit {lat tim : Bool} {s0 s : State} {h t : Nat} (hk : Keeps lat tim s0 s) : Keeps lat tim s0 (State.rpEmit s h t) := by
  unfold State.rpEmit
  dsimp only
  repeat' first
    | with_reducible assumption
    | with_reducible apply ite
    | with_reducible apply ite_snd
    | with_reducible apply ite_fst
    | with_reducible apply advance
    | with_reducible apply put

theorem rpWritten {lat tim : Bool} {s0 s : State} {h : Nat} (hk : Keeps lat tim s0 s) : Keeps lat tim s0 (State.rpWritten s h) := by
  unfold State.rpWritten
  dsimp only
  repeat' first
    | with_reducible assumption
    | with_reducible apply ite
    | with_reducible apply ite_snd
    | with_reducible apply ite_fst
    | with_reducible apply puts
    | with_reducible apply rpFollow

theorem sizingEnd {lat tim : Bool} {s0 s : State} {n t : Nat} {still : Bool} (hk : Keeps lat tim s0 s) : Keeps lat tim s0 (State.sizingEnd s n t still) := by
  unfold State.sizingEnd
  dsimp only
  repeat' first
    | with_reducible assumption
    | with_reducible apply ite
    | with_reducible apply ite_snd
    | with_reducible apply ite_fst
    | with_reducible apply advance
    | with_reducible apply completeAll
    | with_reducible apply put
    | with_reducible apply putFree
    | with_reducible apply puts
    | with_reducible apply setMode
    | with_reducible apply sizPhase
    | with_reducible apply turnOff

end Sys2Proof.Machine.Keeps
end

