-- ==== Sys2Proof/Laws/KeepsBlocks.lean ====
section
/-!
SUPPORT. The operations of Machine/Blocks.lean are operations of the machine in the sense of `Keeps`.
-/
namespace Sys2Proof.Machine.Keeps

theorem setOos {lat tim : Bool} {s0 s : State} {b : Block} {v : Bool} (hk : Keeps lat tim s0 s) : Keeps lat tim s0 (State.setOos s b v) := by
  unfold State.setOos
  repeat' first
    | with_reducible assumption
    | with_reducible apply setBit

theorem setSteam {lat tim : Bool} {s0 s : State} {b : Block} {v : Bool} (hk : Keeps lat tim s0 s) : Keeps lat tim s0 (State.setSteam s b v) := by
  unfold State.setSteam
  dsimp only
  repeat' first
    | with_reducible assumption
    | with_reducible apply flag
    | with_reducible apply setBit
    | split

theorem withEntry {lat tim : Bool} {s0 s : State} {u : FUnit} {code : Nat} {g : FEntry → FEntry} (hk : Keeps lat tim s0 s) : Keeps lat tim s0 (State.withEntry s u code g) := by
  unfold State.withEntry
  try dsimp only
  repeat' first
    | with_reducible assumption
    | with_reducible apply ite
    | with_reducible apply ite_snd
    | with_reducible apply ite_fst
    | with_reducible apply withFlt

theorem markLasting {lat tim : Bool} {s0 s : State} {b : Steamed} {u : FUnit} {code : Nat} (hk : Keeps lat tim s0 s) : Keeps lat tim s0 (State.markLasting s b u code) := by
  unfold State.markLasting
  dsimp only
  repeat' first
    | with_reducible assumption
    | with_reducible apply ite
    | with_reducible apply ite_snd
    | with_reducible apply ite_fst
    | with_reducible apply bump
    | with_reducible apply trigger
    | with_reducible apply withEntry

theorem lastEntries {lat tim : Bool} {s0 s : State} {b : Steamed} (hk : Keeps lat tim s0 s) : Keeps lat tim s0 (State.lastEntries s b) := by
  unfold State.lastEntries
  try dsimp only
  repeat' first
    | with_reducible assumption
    | with_reducible apply ite
    | with_reducible apply ite_snd
    | with_reducible apply ite_fst
    | with_reducible apply withFlt

theorem testNext {lat tim : Bool} {s0 s : State} {b : Block} {pass : Bool} {t : SelfTest} (hk : Keeps lat tim s0 s) : Keeps lat tim s0 (State.testNext s b pass t) := by
  unfold State.testNext
  dsimp only
  repeat' first
    | with_reducible assumption
    | with_reducible apply ite
    | with_reducible apply ite_snd
    | with_reducible apply ite_fst
    | with_reducible apply completeB
    | with_reducible apply each
    | with_reducible apply setSteam
    | with_reducible apply withFlt
    | (intro _ _ _; try dsimp only)
    | split

theorem blockOut {lat tim : Bool} {s0 s : State} {b : Block} {code : Nat} (hk : Keeps lat tim s0 s) : Keeps lat tim s0 (State.blockOut s b code) := by
  unfold State.blockOut
  dsimp only
  repeat' first
    | with_reducible assumption
    | with_reducible apply ite
    | with_reducible apply ite_snd
    | with_reducible apply ite_fst
    | with_reducible apply each
    | with_reducible apply lastEntries
    | with_reducible apply markLasting
    | with_reducible apply raise
    | with_reducible apply setOos
    | with_reducible apply setSteam
    | with_reducible apply testNext
    | with_reducible apply withEntry
    | (intro _ _ _; try dsimp only)

theorem blockFail {lat tim : Bool} {s0 s : State} {b : Block} {code : Nat} (hk : Keeps lat tim s0 s) : Keeps lat tim s0 (State.blockFail s b code) := by
  unfold State.blockFail
  repeat' first
    | with_reducible assumption
    | with_reducible apply blockOut
    | with_reducible apply raise

end Sys2Proof.Machine.Keeps
end

