-- ==== Sys2Proof/Laws/KeepsCommutation.lean ====
section
/-!
SUPPORT. The operations of Machine/Commutation.lean are operations of the machine in the sense of `Keeps`.
-/
namespace Sys2Proof.Machine.Keeps

theorem comFault {lat tim : Bool} {s0 s : State} {n level cause : Nat} (hk : Keeps lat tim s0 s) : Keeps lat tim s0 (State.comFault s n level cause) := by
  unfold State.comFault
  repeat' first
    | with_reducible assumption
    | with_reducible apply faultTrip
    | with_reducible apply put

theorem valleyAt {lat tim : Bool} {s0 s : State} {n : Nat} {v : Int} (hk : Keeps lat tim s0 s) : Keeps lat tim s0 (State.valleyAt s n v) := by
  unfold State.valleyAt
  dsimp only
  repeat' first
    | with_reducible assumption
    | with_reducible apply puts

theorem valleysTo {lat tim : Bool} {s0 s : State} {f n : Nat} {t : Int} (hk : Keeps lat tim s0 s) : Keeps lat tim s0 (State.valleysTo f s n t) := by
  induction f generalizing s with
  | zero => exact hk
  | succ f ih =>
    unfold State.valleysTo
    exact ite hk (ih (valleyAt hk))

theorem carrierTo {lat tim : Bool} {s0 s : State} {n : Nat} {t : Int} (hk : Keeps lat tim s0 s) : Keeps lat tim s0 (State.carrierTo s n t) := by
  unfold State.carrierTo
  dsimp only
  repeat' first
    | with_reducible assumption
    | with_reducible apply put
    | with_reducible apply valleysTo

theorem startCarrier {lat tim : Bool} {s0 s : State} {n : Nat} (hk : Keeps lat tim s0 s) : Keeps lat tim s0 (State.startCarrier s n) := by
  unfold State.startCarrier
  dsimp only
  repeat' first
    | with_reducible assumption
    | with_reducible apply puts

theorem sizCurrent {lat tim : Bool} {s0 s : State} {n : Nat} {ru rv rw : Int} (hk : Keeps lat tim s0 s) : Keeps lat tim s0 (State.sizCurrent s n ru rv rw) := by
  unfold State.sizCurrent
  dsimp only
  repeat' first
    | with_reducible assumption
    | with_reducible apply ite
    | with_reducible apply ite_snd
    | with_reducible apply ite_fst
    | with_reducible apply puts
    | with_reducible apply sizNext

theorem sense {lat tim : Bool} {s0 s : State} {n : Nat} {c : CurIn} (hk : Keeps lat tim s0 s) : Keeps lat tim s0 (State.sense s n c) := by
  unfold State.sense
  dsimp only
  repeat' first
    | with_reducible assumption
    | with_reducible apply ite
    | with_reducible apply ite_snd
    | with_reducible apply ite_fst
    | with_reducible apply blockOut
    | with_reducible apply bump
    | with_reducible apply comFault
    | with_reducible apply put
    | with_reducible apply puts
    | with_reducible apply sizCurrent

theorem formAngle {lat tim : Bool} {s0 s : State} {n : Nat} (hk : Keeps lat tim s0 s) : Keeps lat tim s0 (State.formAngle s n) := by
  unfold State.formAngle
  dsimp only
  repeat' first
    | with_reducible assumption
    | with_reducible apply ite
    | with_reducible apply ite_snd
    | with_reducible apply ite_fst
    | with_reducible apply bump
    | with_reducible apply comFault
    | with_reducible apply put

theorem sixCurrent {lat tim : Bool} {s0 s : State} {n : Nat} (hk : Keeps lat tim s0 s) : Keeps lat tim s0 (State.sixCurrent s n) := by
  unfold State.sixCurrent
  dsimp only
  repeat' first
    | with_reducible assumption
    | with_reducible apply puts

theorem transform {lat tim : Bool} {s0 s : State} {n : Nat} (hk : Keeps lat tim s0 s) : Keeps lat tim s0 (State.transform s n) := by
  unfold State.transform
  dsimp only
  repeat' first
    | with_reducible assumption
    | with_reducible apply ite
    | with_reducible apply ite_snd
    | with_reducible apply ite_fst
    | with_reducible apply obsConducting
    | with_reducible apply puts
    | with_reducible apply sixCurrent

theorem moveLim {lat tim : Bool} {s0 s : State} {n : Nat} {dt : Int} (hk : Keeps lat tim s0 s) : Keeps lat tim s0 (State.moveLim s n dt) := by
  unfold State.moveLim
  dsimp only
  repeat' first
    | with_reducible assumption
    | with_reducible apply ite
    | with_reducible apply ite_snd
    | with_reducible apply ite_fst
    | with_reducible apply put

theorem formCmd {lat tim : Bool} {s0 s : State} {n : Nat} {dt : Int} (hk : Keeps lat tim s0 s) : Keeps lat tim s0 (State.formCmd s n dt) := by
  unfold State.formCmd
  dsimp only
  repeat' first
    | with_reducible assumption
    | with_reducible apply ite
    | with_reducible apply ite_snd
    | with_reducible apply ite_fst
    | with_reducible apply moveLim
    | with_reducible apply put
    | with_reducible apply puts

theorem putIstar {lat tim : Bool} {s0 s : State} {n : Nat} (hk : Keeps lat tim s0 s) : Keeps lat tim s0 (State.putIstar s n) := by
  unfold State.putIstar
  dsimp only
  repeat' first
    | with_reducible assumption
    | with_reducible apply ite
    | with_reducible apply ite_snd
    | with_reducible apply ite_fst
    | with_reducible apply puts

theorem setReached {lat tim : Bool} {s0 s : State} {n : Nat} (hk : Keeps lat tim s0 s) : Keeps lat tim s0 (State.setReached s n) := by
  unfold State.setReached
  dsimp only
  repeat' first
    | with_reducible assumption
    | with_reducible apply ite
    | with_reducible apply ite_snd
    | with_reducible apply ite_fst
    | with_reducible apply completeSet

theorem stepIstar {lat tim : Bool} {s0 s : State} {n : Nat} {dt : Int} (hk : Keeps lat tim s0 s) : Keeps lat tim s0 (State.stepIstar s n dt) := by
  unfold State.stepIstar
  dsimp only
  repeat' first
    | with_reducible assumption
    | with_reducible apply ite
    | with_reducible apply ite_snd
    | with_reducible apply ite_fst
    | with_reducible apply formCmd
    | with_reducible apply put
    | with_reducible apply putIstar
    | with_reducible apply puts

theorem clampIstar {lat tim : Bool} {s0 s : State} {n : Nat} (hk : Keeps lat tim s0 s) : Keeps lat tim s0 (State.clampIstar s n) := by
  unfold State.clampIstar
  dsimp only
  repeat' first
    | with_reducible assumption
    | with_reducible apply ite
    | with_reducible apply ite_snd
    | with_reducible apply ite_fst
    | with_reducible apply bump
    | with_reducible apply put
    | with_reducible apply puts

theorem putRefs {lat tim : Bool} {s0 s : State} {n : Nat} (hk : Keeps lat tim s0 s) : Keeps lat tim s0 (State.putRefs s n) := by
  unfold State.putRefs
  dsimp only
  repeat' first
    | with_reducible assumption
    | with_reducible apply ite
    | with_reducible apply ite_snd
    | with_reducible apply ite_fst
    | with_reducible apply put
    | with_reducible apply puts

theorem runSink {lat tim : Bool} {s0 s : State} {h : Nat} {m : Option Nat} {now : Nat} (hk : Keeps lat tim s0 s) : Keeps lat tim s0 (State.runSink s h m now) := by
  unfold State.runSink
  repeat' first
    | with_reducible assumption
    | with_reducible apply ite
    | with_reducible apply ite_snd
    | with_reducible apply ite_fst
    | with_reducible apply put
    | with_reducible apply runSlot
    | split

theorem lawSwitch {lat tim : Bool} {s0 s : State} {n : Nat} (hk : Keeps lat tim s0 s) : Keeps lat tim s0 (State.lawSwitch s n) := by
  unfold State.lawSwitch
  dsimp only
  repeat' first
    | with_reducible assumption
    | with_reducible apply ite
    | with_reducible apply ite_snd
    | with_reducible apply ite_fst
    | with_reducible apply presetSink
    | with_reducible apply put

theorem runSinks {lat tim : Bool} {s0 s : State} {n now : Nat} (hk : Keeps lat tim s0 s) : Keeps lat tim s0 (State.runSinks s n now) := by
  unfold State.runSinks
  dsimp only
  repeat' first
    | with_reducible assumption
    | with_reducible apply ite
    | with_reducible apply ite_snd
    | with_reducible apply ite_fst
    | with_reducible apply put
    | with_reducible apply runSink
    | split

theorem runLoops {lat tim : Bool} {s0 s : State} {n now : Nat} (hk : Keeps lat tim s0 s) : Keeps lat tim s0 (State.runLoops s n now) := by
  unfold State.runLoops
  dsimp only
  repeat' first
    | with_reducible assumption
    | with_reducible apply ite
    | with_reducible apply ite_snd
    | with_reducible apply ite_fst
    | with_reducible apply lawSwitch
    | with_reducible apply puts
    | with_reducible apply runSinks

theorem svm {lat tim : Bool} {s0 s : State} {n : Nat} (hk : Keeps lat tim s0 s) : Keeps lat tim s0 (State.svm s n).2 := by
  unfold State.svm
  dsimp only
  repeat' first
    | with_reducible assumption
    | with_reducible apply ite
    | with_reducible apply ite_snd
    | with_reducible apply ite_fst
    | with_reducible apply puts

theorem sixStep {lat tim : Bool} {s0 s : State} {n : Nat} (hk : Keeps lat tim s0 s) : Keeps lat tim s0 (State.sixStep s n).2 := by
  unfold State.sixStep
  dsimp only
  repeat' first
    | with_reducible assumption
    | with_reducible apply ite
    | with_reducible apply ite_snd
    | with_reducible apply ite_fst
    | with_reducible apply flag
    | with_reducible apply fresh
    | with_reducible apply put
    | with_reducible apply puts

theorem loadDuties {lat tim : Bool} {s0 s : State} {n : Nat} {d : State.Duties} {late : Bool} (hk : Keeps lat tim s0 s) : Keeps lat tim s0 (State.loadDuties s n d late) := by
  unfold State.loadDuties
  dsimp only
  repeat' first
    | with_reducible assumption
    | with_reducible apply ite
    | with_reducible apply ite_snd
    | with_reducible apply ite_fst
    | with_reducible apply bump
    | with_reducible apply comFault
    | with_reducible apply each
    | with_reducible apply put
    | with_reducible apply putSwitch
    | with_reducible apply puts
    | (intro _ _ _; try dsimp only)

theorem zeroVector {lat tim : Bool} {s0 s : State} {n : Nat} {late : Bool} (hk : Keeps lat tim s0 s) : Keeps lat tim s0 (State.zeroVector s n late) := by
  unfold State.zeroVector
  dsimp only
  repeat' first
    | with_reducible assumption
    | with_reducible apply ite
    | with_reducible apply ite_snd
    | with_reducible apply ite_fst
    | with_reducible apply loadDuties
    | with_reducible apply puts

theorem lockedRotor {lat tim : Bool} {s0 s : State} {n : Nat} (hk : Keeps lat tim s0 s) : Keeps lat tim s0 (State.lockedRotor s n) := by
  unfold State.lockedRotor
  dsimp only
  repeat' first
    | with_reducible assumption
    | with_reducible apply ite
    | with_reducible apply ite_snd
    | with_reducible apply ite_fst
    | with_reducible apply comFault
    | with_reducible apply put
    | with_reducible apply puts

theorem conduct {lat tim : Bool} {s0 s : State} {n now : Nat} {late : Bool} (hk : Keeps lat tim s0 s) : Keeps lat tim s0 (State.conduct s n now late) := by
  unfold State.conduct
  dsimp only
  repeat' first
    | with_reducible assumption
    | with_reducible apply ite
    | with_reducible apply ite_snd
    | with_reducible apply ite_fst
    | with_reducible apply clampIstar
    | with_reducible apply flag
    | with_reducible apply loadDuties
    | with_reducible apply putRefs
    | with_reducible apply puts
    | with_reducible apply runLoops
    | with_reducible apply runSinks
    | with_reducible apply sixCurrent
    | with_reducible apply sixStep
    | with_reducible apply stepIstar
    | with_reducible apply svm
    | with_reducible apply zeroVector

theorem advanceOl {lat tim : Bool} {s0 s : State} {n : Nat} (hk : Keeps lat tim s0 s) : Keeps lat tim s0 (State.advanceOl s n) := by
  unfold State.advanceOl
  dsimp only
  repeat' first
    | with_reducible assumption
    | with_reducible apply ite
    | with_reducible apply ite_snd
    | with_reducible apply ite_fst
    | with_reducible apply put

theorem alignUpdate {lat tim : Bool} {s0 s : State} {n : Nat} (hk : Keeps lat tim s0 s) : Keeps lat tim s0 (State.alignUpdate s n) := by
  unfold State.alignUpdate
  dsimp only
  repeat' first
    | with_reducible assumption
    | with_reducible apply ite
    | with_reducible apply ite_snd
    | with_reducible apply ite_fst
    | with_reducible apply put

theorem zvbStart {lat tim : Bool} {s0 s : State} {n : Nat} (hk : Keeps lat tim s0 s) : Keeps lat tim s0 (State.zvbStart s n) := by
  unfold State.zvbStart
  dsimp only
  repeat' first
    | with_reducible assumption
    | with_reducible apply ite
    | with_reducible apply ite_snd
    | with_reducible apply ite_fst
    | with_reducible apply leaveExt
    | with_reducible apply puts
    | with_reducible apply setBit
    | with_reducible apply setMode

theorem boundary {lat tim : Bool} {s0 s : State} {n : Nat} (hk : Keeps lat tim s0 s) : Keeps lat tim s0 (State.boundary s n) := by
  unfold State.boundary
  dsimp only
  repeat' first
    | with_reducible assumption
    | with_reducible apply ite
    | with_reducible apply ite_snd
    | with_reducible apply ite_fst
    | with_reducible apply catchBoundary
    | with_reducible apply endStop
    | with_reducible apply presetIstar
    | with_reducible apply puts
    | with_reducible apply stnRaise

theorem idleSources {lat tim : Bool} {s0 s : State} {n : Nat} (hk : Keeps lat tim s0 s) : Keeps lat tim s0 (State.idleSources s n) := by
  unfold State.idleSources
  dsimp only
  repeat' first
    | with_reducible assumption
    | with_reducible apply ite
    | with_reducible apply ite_snd
    | with_reducible apply ite_fst
    | with_reducible apply puts

theorem rephase {lat tim : Bool} {s0 s : State} {n : Nat} (hk : Keeps lat tim s0 s) : Keeps lat tim s0 (State.rephase s n) := by
  unfold State.rephase
  repeat' first
    | with_reducible assumption
    | with_reducible apply put

theorem rephaseStep {lat tim : Bool} {s0 s : State} {n t : Nat} {valley : Bool} (hk : Keeps lat tim s0 s) : Keeps lat tim s0 (State.rephaseStep s n t valley) := by
  unfold State.rephaseStep
  dsimp only
  repeat' first
    | with_reducible assumption
    | with_reducible apply ite
    | with_reducible apply ite_snd
    | with_reducible apply ite_fst
    | with_reducible apply carrierTo
    | with_reducible apply put
    | with_reducible apply valleyAt

theorem noCommand {lat tim : Bool} {s0 s : State} {n now : Nat} (hk : Keeps lat tim s0 s) : Keeps lat tim s0 (State.noCommand s n now) := by
  unfold State.noCommand
  dsimp only
  repeat' first
    | with_reducible assumption
    | with_reducible apply ite
    | with_reducible apply ite_snd
    | with_reducible apply ite_fst
    | with_reducible apply put
    | with_reducible apply puts
    | with_reducible apply runSinks
    | with_reducible apply stepIstar

theorem runRequests {lat tim : Bool} {s0 s : State} {n : Nat} (hk : Keeps lat tim s0 s) : Keeps lat tim s0 (State.runRequests s n) := by
  unfold State.runRequests
  dsimp only
  repeat' first
    | with_reducible assumption
    | with_reducible apply ite
    | with_reducible apply ite_snd
    | with_reducible apply ite_fst
    | with_reducible apply each
    | with_reducible apply put
    | with_reducible apply request
    | (intro _ _ _; try dsimp only)

theorem currentLoop {lat tim : Bool} {s0 s : State} {n t : Nat} {c : CurIn} (hk : Keeps lat tim s0 s) : Keeps lat tim s0 (State.currentLoop s n t c) := by
  unfold State.currentLoop
  dsimp only
  repeat' first
    | with_reducible assumption
    | with_reducible apply ite
    | with_reducible apply ite_snd
    | with_reducible apply ite_fst
    | with_reducible apply advance
    | with_reducible apply advanceOl
    | with_reducible apply alignUpdate
    | with_reducible apply boundary
    | with_reducible apply conduct
    | with_reducible apply formAngle
    | with_reducible apply idleSources
    | with_reducible apply lockedRotor
    | with_reducible apply noCommand
    | with_reducible apply obsLossCheck
    | with_reducible apply posReact
    | with_reducible apply psTake
    | with_reducible apply put
    | with_reducible apply rephaseStep
    | with_reducible apply runRequests
    | with_reducible apply sense
    | with_reducible apply setReached
    | with_reducible apply speedUpdate
    | with_reducible apply startUpdate
    | with_reducible apply transform
    | with_reducible apply zvbStart

theorem syncLoad {lat tim : Bool} {s0 s : State} {n t : Nat} (hk : Keeps lat tim s0 s) : Keeps lat tim s0 (State.syncLoad s n t) := by
  unfold State.syncLoad
  dsimp only
  repeat' first
    | with_reducible assumption
    | with_reducible apply ite
    | with_reducible apply ite_snd
    | with_reducible apply ite_fst
    | with_reducible apply advance
    | with_reducible apply puts

theorem syncEnd {lat tim : Bool} {s0 s : State} {n : Nat} (hk : Keeps lat tim s0 s) : Keeps lat tim s0 (State.syncEnd s n) := by
  unfold State.syncEnd
  repeat' first
    | with_reducible assumption
    | with_reducible apply puts
    | with_reducible apply rephase

theorem sdStuck {lat tim : Bool} {s0 s : State} {n : Nat} (hk : Keeps lat tim s0 s) : Keeps lat tim s0 (State.sdStuck s n) := by
  unfold State.sdStuck
  repeat' first
    | with_reducible assumption
    | with_reducible apply ite
    | with_reducible apply ite_snd
    | with_reducible apply ite_fst
    | with_reducible apply comFault

theorem alignStep {lat tim : Bool} {s0 s : State} {n t : Nat} (hk : Keeps lat tim s0 s) : Keeps lat tim s0 (State.alignStep s n t) := by
  unfold State.alignStep
  dsimp only
  repeat' first
    | with_reducible assumption
    | with_reducible apply ite
    | with_reducible apply ite_snd
    | with_reducible apply ite_fst
    | with_reducible apply advance
    | with_reducible apply comFault
    | with_reducible apply puts
    | with_reducible apply releaseBrake

end Sys2Proof.Machine.Keeps
end

