-- ==== Sys2Proof/Laws/KeepsScheduler.lean ====
section
/-!
SUPPORT. The operations of Machine/Scheduler.lean are operations of the machine in the sense of `Keeps`.
-/
namespace Sys2Proof.Machine.Keeps

theorem ascNoEff {lat tim : Bool} {s0 s : State} {h u i : Nat} (hk : Keeps lat tim s0 s) : Keeps lat tim s0 (State.ascNoEff s h u i) := by
  unfold State.ascNoEff
  repeat' first
    | with_reducible assumption
    | with_reducible apply put

theorem ascPwmSync {lat tim : Bool} {s0 s : State} {h u i t : Nat} (hk : Keeps lat tim s0 s) : Keeps lat tim s0 (State.ascPwmSync s h u i t) := by
  unfold State.ascPwmSync
  dsimp only
  repeat' first
    | with_reducible assumption
    | with_reducible apply ite
    | with_reducible apply ite_snd
    | with_reducible apply ite_fst
    | with_reducible apply ascNoEff
    | with_reducible apply puts
    | with_reducible apply syncEnd

theorem ascAct {lat tim : Bool} {s0 s : State} {h u i t : Nat} (hk : Keeps lat tim s0 s) : Keeps lat tim s0 (State.ascAct s h u i t) := by
  unfold State.ascAct
  dsimp only
  repeat' first
    | with_reducible assumption
    | with_reducible apply ite
    | with_reducible apply ite_snd
    | with_reducible apply ite_fst
    | with_reducible apply ascNoEff
    | with_reducible apply ascPwmSync
    | with_reducible apply bump
    | with_reducible apply put
    | with_reducible apply putSlow
    | with_reducible apply puts
    | with_reducible apply request
    | with_reducible apply trigger
    | split

theorem ascFire {lat tim : Bool} {s0 s : State} {h u i t : Nat} {late jump many : Bool} (hk : Keeps lat tim s0 s) : Keeps lat tim s0 (State.ascFire s h u i t late jump many) := by
  unfold State.ascFire
  dsimp only
  repeat' first
    | with_reducible assumption
    | with_reducible apply ite
    | with_reducible apply ite_snd
    | with_reducible apply ite_fst
    | with_reducible apply ascAct
    | with_reducible apply bump
    | with_reducible apply completeAll
    | with_reducible apply put
    | with_reducible apply puts
    | with_reducible apply setBit

theorem ascEval {lat tim : Bool} {s0 s : State} {h u i t : Nat} (hk : Keeps lat tim s0 s) : Keeps lat tim s0 (State.ascEval s h u i t) := by
  unfold State.ascEval
  dsimp only
  repeat' first
    | with_reducible assumption
    | with_reducible apply ite
    | with_reducible apply ite_snd
    | with_reducible apply ite_fst
    | with_reducible apply ascFire
    | with_reducible apply put
    | with_reducible apply puts

theorem ascInstall {lat tim : Bool} {s0 s : State} {h u i : Nat} (hk : Keeps lat tim s0 s) : Keeps lat tim s0 (State.ascInstall s h u i) := by
  unfold State.ascInstall
  dsimp only
  repeat' first
    | with_reducible assumption
    | with_reducible apply ite
    | with_reducible apply ite_snd
    | with_reducible apply ite_fst
    | with_reducible apply ascAct
    | with_reducible apply completeAll
    | with_reducible apply puts
    | with_reducible apply withMil
    | exact rfl

theorem ascSlot {lat tim : Bool} {s0 s : State} {h u i t : Nat} (hk : Keeps lat tim s0 s) : Keeps lat tim s0 (State.ascSlot s h u i t) := by
  unfold State.ascSlot
  dsimp only
  repeat' first
    | with_reducible assumption
    | with_reducible apply ite
    | with_reducible apply ite_snd
    | with_reducible apply ite_fst
    | with_reducible apply ascEval
    | with_reducible apply ascInstall

theorem schedTick {lat tim : Bool} {s0 s : State} {h t : Nat} (hk : Keeps lat tim s0 s) : Keeps lat tim s0 (State.schedTick s h t) := by
  unfold State.schedTick
  dsimp only
  repeat' first
    | with_reducible assumption
    | with_reducible apply ite
    | with_reducible apply ite_snd
    | with_reducible apply ite_fst
    | with_reducible apply advance
    | with_reducible apply ascSlot
    | with_reducible apply each
    | with_reducible apply put
    | with_reducible apply setBit
    | (intro _ _ _; try dsimp only)

theorem ascJumped {lat tim : Bool} {s0 s : State} {h user : Nat} (hk : Keeps lat tim s0 s) : Keeps lat tim s0 (State.ascJumped s h user) := by
  unfold State.ascJumped
  dsimp only
  repeat' first
    | with_reducible assumption
    | with_reducible apply ite
    | with_reducible apply ite_snd
    | with_reducible apply ite_fst
    | with_reducible apply each
    | with_reducible apply put
    | (intro _ _ _; try dsimp only)

theorem evtArm {lat tim : Bool} {s0 s : State} {h u slot : Nat} {v : Int} {act arg dir : Nat} {rep : Bool} (hk : Keeps lat tim s0 s) : Keeps lat tim s0 (State.evtArm s h u slot v act arg dir rep) := by
  unfold State.evtArm
  repeat' first
    | with_reducible assumption
    | with_reducible apply ascAct
    | with_reducible apply completeAll
    | with_reducible apply puts

theorem ascCancelTick {lat tim : Bool} {s0 s : State} {h u slot : Nat} (hk : Keeps lat tim s0 s) : Keeps lat tim s0 (State.ascCancelTick s h u slot) := by
  unfold State.ascCancelTick
  repeat' first
    | with_reducible assumption
    | with_reducible apply ite
    | with_reducible apply ite_snd
    | with_reducible apply ite_fst
    | with_reducible apply ascSlot
    | with_reducible apply put
    | with_reducible apply setBit

end Sys2Proof.Machine.Keeps
end

