-- ==== Sys2Proof/Laws/KeepsEngine.lean ====
section
/-!
SUPPORT. The operations of Machine/Engine.lean are operations of the machine in the sense of `Keeps`.
-/
namespace Sys2Proof.Machine.Keeps

theorem chainIstar {lat tim : Bool} {s0 s : State} {n : Nat} (hk : Keeps lat tim s0 s) : Keeps lat tim s0 (State.chainIstar s n) := by
  unfold State.chainIstar
  dsimp only
  repeat' first
    | with_reducible assumption
    | with_reducible apply ite
    | with_reducible apply ite_snd
    | with_reducible apply ite_fst
    | with_reducible apply putIstar
    | with_reducible apply setReached

theorem serveSlot {lat tim : Bool} {s0 s : State} {h m t : Nat} (hk : Keeps lat tim s0 s) : Keeps lat tim s0 (State.serveSlot s h m t) := by
  unfold State.serveSlot
  dsimp only
  repeat' first
    | with_reducible assumption
    | with_reducible apply chainIstar
    | with_reducible apply each
    | with_reducible apply formCmd
    | with_reducible apply put
    | with_reducible apply runSlot
    | (intro _ _ _; try dsimp only)

theorem slotUpdate {lat tim : Bool} {s0 s : State} {h m t : Nat} (hk : Keeps lat tim s0 s) : Keeps lat tim s0 (State.slotUpdate s h m t) := by
  unfold State.slotUpdate
  dsimp only
  repeat' first
    | with_reducible assumption
    | with_reducible apply ite
    | with_reducible apply ite_snd
    | with_reducible apply ite_fst
    | with_reducible apply advance
    | with_reducible apply serveSlot
    | with_reducible apply settleSlot

theorem swapBoundary {lat tim : Bool} {s0 s : State} {h g t : Nat} (hk : Keeps lat tim s0 s) : Keeps lat tim s0 (State.swapBoundary s h g t) := by
  unfold State.swapBoundary
  dsimp only
  repeat' first
    | with_reducible assumption
    | with_reducible apply ite
    | with_reducible apply ite_snd
    | with_reducible apply ite_fst
    | with_reducible apply advance
    | with_reducible apply each
    | with_reducible apply orderedAnswer
    | with_reducible apply put
    | with_reducible apply setBit
    | (intro _ _ _; try dsimp only)

theorem spLos {lat tim : Bool} {s0 s : State} {h : Nat} {pulse : Bool} (hk : Keeps lat tim s0 s) : Keeps lat tim s0 (State.spLos s h pulse) := by
  unfold State.spLos
  dsimp only
  repeat' first
    | with_reducible assumption
    | with_reducible apply ite
    | with_reducible apply ite_snd
    | with_reducible apply ite_fst
    | with_reducible apply bump
    | with_reducible apply puts
    | with_reducible apply raise

theorem portConv {lat tim : Bool} {s0 s : State} {h t : Nat} {code : Int} (hk : Keeps lat tim s0 s) : Keeps lat tim s0 (State.portConv s h t code) := by
  unfold State.portConv
  dsimp only
  repeat' first
    | with_reducible assumption
    | with_reducible apply ite
    | with_reducible apply ite_snd
    | with_reducible apply ite_fst
    | with_reducible apply advance
    | with_reducible apply bump
    | with_reducible apply countReq
    | with_reducible apply each
    | with_reducible apply put
    | with_reducible apply puts
    | with_reducible apply spLos
    | (intro _ _ _; try dsimp only)

theorem portEdge {lat tim : Bool} {s0 s : State} {h t : Nat} {rising : Bool} (hk : Keeps lat tim s0 s) : Keeps lat tim s0 (State.portEdge s h t rising) := by
  unfold State.portEdge
  dsimp only
  repeat' first
    | with_reducible assumption
    | with_reducible apply ite
    | with_reducible apply ite_snd
    | with_reducible apply ite_fst
    | with_reducible apply advance
    | with_reducible apply put
    | with_reducible apply puts

theorem splos {lat tim : Bool} {s0 s : State} {h : Nat} {pulse : Bool} (hk : Keeps lat tim s0 s) : Keeps lat tim s0 (State.splos s h pulse) := by
  unfold State.splos
  dsimp only
  repeat' first
    | with_reducible assumption
    | with_reducible apply ite
    | with_reducible apply ite_snd
    | with_reducible apply ite_fst
    | with_reducible apply spLos

theorem slotErrEv {lat tim : Bool} {s0 s : State} {h m : Nat} (hk : Keeps lat tim s0 s) : Keeps lat tim s0 (State.slotErrEv s h m) := by
  unfold State.slotErrEv
  dsimp only
  repeat' first
    | with_reducible assumption
    | with_reducible apply ite
    | with_reducible apply ite_snd
    | with_reducible apply ite_fst
    | with_reducible apply each
    | with_reducible apply faultTrip
    | with_reducible apply put
    | with_reducible apply raise
    | with_reducible apply settleSlot
    | (intro _ _ _; try dsimp only)

theorem lenErr {lat tim : Bool} {s0 s : State} {h : Nat} (hk : Keeps lat tim s0 s) : Keeps lat tim s0 (State.lenErr s h) := by
  unfold State.lenErr
  dsimp only
  repeat' first
    | with_reducible assumption
    | with_reducible apply ite
    | with_reducible apply ite_snd
    | with_reducible apply ite_fst
    | with_reducible apply blockFail
    | with_reducible apply faultHalf
    | with_reducible apply put
    | with_reducible apply settleHalf

end Sys2Proof.Machine.Keeps
end

