-- ==== Sys2Proof/Laws/KeepsGate.lean ====
section
/-!
SUPPORT. The operations of Machine/Gate.lean are operations of the machine in the sense of `Keeps`.
-/
namespace Sys2Proof.Machine.Keeps

theorem gcFault {lat tim : Bool} {s0 s : State} {n legs : Nat} {side : Bool} (hk : Keeps lat tim s0 s) : Keeps lat tim s0 (State.gcFault s n legs side) := by
  unfold State.gcFault
  repeat' first
    | with_reducible assumption
    | with_reducible apply puts

theorem renameNotice_fst (now old new : Nat) (q : QKind × Packet) : (State.renameNotice now old new q).1 = q.1 := by
  unfold State.renameNotice
  split <;> rfl

/-- A queue whose entries keep their kinds has the levels it had. -/
theorem level_map (p : Port) (f : QKind × Packet → QKind × Packet) (hf : ∀ q, (f q).1 = q.1) (k : QKind) :
    Port.level { p with out := p.out.map f } k = p.level k := by
  simp only [Port.level, List.filter_map, List.length_map]
  congr 2
  funext q
  simp [hf q]

theorem recode {lat tim : Bool} {s0 s : State} {n old new : Nat} (hk : Keeps lat tim s0 s) : Keeps lat tim s0 (State.recode s n old new) := by
  unfold State.recode
  extract_lets now entry record s1 s2
  have h1 : Keeps lat tim s0 s1 := withFlt hk
  have h2 : Keeps lat tim s0 s2 := withLog h1 rfl rfl
  refine withPorts h2 fun hb p hp => ?_
  simp only [Vector.toList_map, List.mem_map] at hp
  obtain ⟨q, hq, rfl⟩ := hp
  have e := level_map q (State.renameNotice now old new) (renameNotice_fst now old new)
  exact ⟨by rw [e]; exact (hb q hq).1, by rw [e]; exact (hb q hq).2⟩

theorem gcSame {lat tim : Bool} {s0 s : State} {n cause legs : Nat} {side : Bool} (hk : Keeps lat tim s0 s) : Keeps lat tim s0 (State.gcSame s n cause legs side) := by
  unfold State.gcSame
  dsimp only
  repeat' first
    | with_reducible assumption
    | with_reducible apply ite
    | with_reducible apply ite_snd
    | with_reducible apply ite_fst
    | with_reducible apply flag
    | with_reducible apply foldl
    | with_reducible apply orBits
    | with_reducible apply puts
    | with_reducible apply recode
    | (intro _ _ _; try dsimp only)

theorem gateTrip {lat tim : Bool} {s0 s : State} {n cause legs : Nat} {side : Bool} (hk : Keeps lat tim s0 s) : Keeps lat tim s0 (State.gateTrip s n cause legs side) := by
  unfold State.gateTrip
  dsimp only
  repeat' first
    | with_reducible assumption
    | with_reducible apply ite
    | with_reducible apply ite_snd
    | with_reducible apply ite_fst
    | with_reducible apply faultTrip
    | with_reducible apply gcFault
    | with_reducible apply gcSame
    | with_reducible apply orBits

theorem vdsTrip {lat tim : Bool} {s0 s : State} {n legs : Nat} {high hard : Bool} (hk : Keeps lat tim s0 s) : Keeps lat tim s0 (State.vdsTrip s n legs high hard) := by
  unfold State.vdsTrip
  dsimp only
  repeat' first
    | with_reducible assumption
    | with_reducible apply ite
    | with_reducible apply ite_snd
    | with_reducible apply ite_fst
    | with_reducible apply gateTrip
    | with_reducible apply orBits
    | with_reducible apply put

theorem gateFollow {lat tim : Bool} {s0 s : State} {n legs : Nat} (hk : Keeps lat tim s0 s) : Keeps lat tim s0 (State.gateFollow s n legs) := by
  unfold State.gateFollow
  repeat' first
    | with_reducible assumption
    | with_reducible apply ite
    | with_reducible apply ite_snd
    | with_reducible apply ite_fst
    | with_reducible apply gateTrip

theorem ocSoft {lat tim : Bool} {s0 s : State} {n legs : Nat} {again : Bool} (hk : Keeps lat tim s0 s) : Keeps lat tim s0 (State.ocSoft s n legs again) := by
  unfold State.ocSoft
  dsimp only
  repeat' first
    | with_reducible assumption
    | with_reducible apply ite
    | with_reducible apply ite_snd
    | with_reducible apply ite_fst
    | with_reducible apply bump
    | with_reducible apply gateTrip
    | with_reducible apply orBits
    | with_reducible apply put

theorem ocHard {lat tim : Bool} {s0 s : State} {n legs : Nat} (hk : Keeps lat tim s0 s) : Keeps lat tim s0 (State.ocHard s n legs) := by
  unfold State.ocHard
  dsimp only
  repeat' first
    | with_reducible assumption
    | with_reducible apply ite
    | with_reducible apply ite_snd
    | with_reducible apply ite_fst
    | with_reducible apply gateTrip
    | with_reducible apply put

theorem lflt {lat tim : Bool} {s0 s : State} {n : Nat} {low : Bool} (hk : Keeps lat tim s0 s) : Keeps lat tim s0 (State.lflt s n low) := by
  unfold State.lflt
  dsimp only
  repeat' first
    | with_reducible assumption
    | with_reducible apply ite
    | with_reducible apply ite_snd
    | with_reducible apply ite_fst
    | with_reducible apply faultTrip
    | with_reducible apply flag
    | with_reducible apply gcSame

theorem lrdy {lat tim : Bool} {s0 s : State} {n : Nat} {high : Bool} (hk : Keeps lat tim s0 s) : Keeps lat tim s0 (State.lrdy s n high) := by
  unfold State.lrdy
  dsimp only
  repeat' first
    | with_reducible assumption
    | with_reducible apply ite
    | with_reducible apply ite_snd
    | with_reducible apply ite_fst
    | with_reducible apply faultTrip
    | with_reducible apply flag
    | with_reducible apply gcSame

theorem putBsv {lat tim : Bool} {s0 s : State} {n leg v : Nat} (hk : Keeps lat tim s0 s) : Keeps lat tim s0 (State.putBsv s n leg v) := by
  unfold State.putBsv
  repeat' first
    | with_reducible assumption
    | with_reducible apply puts

theorem bsUv {lat tim : Bool} {s0 s : State} {n leg v : Nat} (hk : Keeps lat tim s0 s) : Keeps lat tim s0 (State.bsUv s n leg v) := by
  unfold State.bsUv
  dsimp only
  repeat' first
    | with_reducible assumption
    | with_reducible apply ite
    | with_reducible apply ite_snd
    | with_reducible apply ite_fst
    | with_reducible apply orBits
    | with_reducible apply putBsv

theorem bsRefresh {lat tim : Bool} {s0 s : State} {n leg v : Nat} (hk : Keeps lat tim s0 s) : Keeps lat tim s0 (State.bsRefresh s n leg v) := by
  unfold State.bsRefresh
  dsimp only
  repeat' first
    | with_reducible assumption
    | with_reducible apply ite
    | with_reducible apply ite_snd
    | with_reducible apply ite_fst
    | with_reducible apply bump
    | with_reducible apply clrBits
    | with_reducible apply gateTrip
    | with_reducible apply put
    | with_reducible apply putBsv
    | with_reducible apply puts

theorem armStart {lat tim : Bool} {s0 s : State} {n : Nat} (hk : Keeps lat tim s0 s) : Keeps lat tim s0 (State.armStart s n) := by
  unfold State.armStart
  dsimp only
  repeat' first
    | with_reducible assumption
    | with_reducible apply ite
    | with_reducible apply ite_snd
    | with_reducible apply ite_fst
    | with_reducible apply put
    | with_reducible apply puts

theorem armEnd {lat tim : Bool} {s0 s : State} {n legs low : Nat} (hk : Keeps lat tim s0 s) : Keeps lat tim s0 (State.armEnd s n legs low) := by
  unfold State.armEnd
  dsimp only
  repeat' first
    | with_reducible assumption
    | with_reducible apply ite
    | with_reducible apply ite_snd
    | with_reducible apply ite_fst
    | with_reducible apply completeAll
    | with_reducible apply faultStop
    | with_reducible apply gcFault
    | with_reducible apply puts
    | with_reducible apply setMode

theorem diagEnd {lat tim : Bool} {s0 s : State} {n : Nat} {mv : Nat × Nat × Nat × Nat × Nat × Nat} {openBad bstBad : Nat} (hk : Keeps lat tim s0 s) : Keeps lat tim s0 (State.diagEnd s n mv openBad bstBad) := by
  unfold State.diagEnd
  dsimp only
  repeat' first
    | with_reducible assumption
    | with_reducible apply ite
    | with_reducible apply ite_snd
    | with_reducible apply ite_fst
    | with_reducible apply completeAll
    | with_reducible apply put
    | with_reducible apply setMode

theorem switchLeg {lat tim : Bool} {s0 s : State} {n leg : Nat} {level : Bool} (hk : Keeps lat tim s0 s) : Keeps lat tim s0 (State.switchLeg s n leg level) := by
  unfold State.switchLeg
  dsimp only
  repeat' first
    | with_reducible assumption
    | with_reducible apply ite
    | with_reducible apply ite_snd
    | with_reducible apply ite_fst
    | with_reducible apply flag
    | with_reducible apply put
    | with_reducible apply putSwitch

theorem carrierEdge {lat tim : Bool} {s0 s : State} {n leg t : Nat} (hk : Keeps lat tim s0 s) : Keeps lat tim s0 (State.carrierEdge s n leg t) := by
  unfold State.carrierEdge
  dsimp only
  repeat' first
    | with_reducible assumption
    | with_reducible apply ite
    | with_reducible apply ite_snd
    | with_reducible apply ite_fst
    | with_reducible apply advance
    | with_reducible apply carrierTo
    | with_reducible apply switchLeg

theorem linkEdge {lat tim : Bool} {s0 s : State} {n leg t : Nat} {level en : Bool} (hk : Keeps lat tim s0 s) : Keeps lat tim s0 (State.linkEdge s n leg t level en) := by
  unfold State.linkEdge
  dsimp only
  repeat' first
    | with_reducible assumption
    | with_reducible apply ite
    | with_reducible apply ite_snd
    | with_reducible apply ite_fst
    | with_reducible apply advance
    | with_reducible apply setBit
    | with_reducible apply switchLeg

theorem midEnd {lat tim : Bool} {s0 s : State} {n : Nat} (hk : Keeps lat tim s0 s) : Keeps lat tim s0 (State.midEnd s n) := by
  unfold State.midEnd
  repeat' first
    | with_reducible assumption
    | with_reducible apply ite
    | with_reducible apply ite_snd
    | with_reducible apply ite_fst
    | with_reducible apply put

theorem offDone {lat tim : Bool} {s0 s : State} {n : Nat} (hk : Keeps lat tim s0 s) : Keeps lat tim s0 (State.offDone s n) := by
  unfold State.offDone
  repeat' first
    | with_reducible assumption
    | with_reducible apply ite
    | with_reducible apply ite_snd
    | with_reducible apply ite_fst
    | with_reducible apply putStoOff
    | with_reducible apply puts

theorem stoStations {lat tim : Bool} {s0 s : State} {h cause : Nat} (hk : Keeps lat tim s0 s) : Keeps lat tim s0 (State.stoStations s h cause) := by
  unfold State.stoStations
  dsimp only
  repeat' first
    | with_reducible assumption
    | with_reducible apply ite
    | with_reducible apply ite_snd
    | with_reducible apply ite_fst
    | with_reducible apply completeAll
    | with_reducible apply each
    | with_reducible apply faultStop
    | with_reducible apply gcSame
    | with_reducible apply put
    | with_reducible apply puts
    | with_reducible apply stnRaise
    | with_reducible apply turnOff
    | (intro _ _ _; try dsimp only)

theorem stoActive {lat tim : Bool} {s0 s : State} {h : Nat} {ch1 ch2 : Bool} (hk : Keeps lat tim s0 s) : Keeps lat tim s0 (State.stoActive s h ch1 ch2) := by
  unfold State.stoActive
  dsimp only
  repeat' first
    | with_reducible assumption
    | with_reducible apply ite
    | with_reducible apply ite_snd
    | with_reducible apply ite_fst
    | with_reducible apply bump
    | with_reducible apply put
    | with_reducible apply puts
    | with_reducible apply stoStations

theorem stoRelease {lat tim : Bool} {s0 s : State} {h : Nat} (hk : Keeps lat tim s0 s) : Keeps lat tim s0 (State.stoRelease s h) := by
  unfold State.stoRelease
  dsimp only
  repeat' first
    | with_reducible assumption
    | with_reducible apply ite
    | with_reducible apply ite_snd
    | with_reducible apply ite_fst
    | with_reducible apply puts

theorem stoDisc {lat tim : Bool} {s0 s : State} {h : Nat} (hk : Keeps lat tim s0 s) : Keeps lat tim s0 (State.stoDisc s h) := by
  unfold State.stoDisc
  dsimp only
  repeat' first
    | with_reducible assumption
    | with_reducible apply ite
    | with_reducible apply ite_snd
    | with_reducible apply ite_fst
    | with_reducible apply puts
    | with_reducible apply stoStations

end Sys2Proof.Machine.Keeps
end

