-- ==== Sys2Proof/Laws/KeepsGuard.lean ====
section
/-!
SUPPORT. The operations of Machine/Guard.lean are operations of the machine in the sense of `Keeps`.
-/
namespace Sys2Proof.Machine.Keeps

theorem bgdRaise {lat tim : Bool} {s0 s : State} {h cause : Nat} (hk : Keeps lat tim s0 s) : Keeps lat tim s0 (State.bgdRaise s h cause) := by
  unfold State.bgdRaise
  repeat' first
    | with_reducible assumption
    | with_reducible apply put
    | with_reducible apply raise

theorem chgLow {lat tim : Bool} {s0 s : State} {h : Nat} (hk : Keeps lat tim s0 s) : Keeps lat tim s0 (State.chgLow s h) := by
  unfold State.chgLow
  repeat' first
    | with_reducible assumption
    | with_reducible apply put

theorem preLow {lat tim : Bool} {s0 s : State} {h : Nat} (hk : Keeps lat tim s0 s) : Keeps lat tim s0 (State.preLow s h) := by
  unfold State.preLow
  repeat' first
    | with_reducible assumption
    | with_reducible apply puts

theorem chopper {lat tim : Bool} {s0 s : State} {h : Nat} (hk : Keeps lat tim s0 s) : Keeps lat tim s0 (State.chopper s h) := by
  unfold State.chopper
  dsimp only
  repeat' first
    | with_reducible assumption
    | with_reducible apply ite
    | with_reducible apply ite_snd
    | with_reducible apply ite_fst
    | with_reducible apply bump
    | with_reducible apply chgLow
    | with_reducible apply puts

theorem busOv {lat tim : Bool} {s0 s : State} {h : Nat} {first : Bool} (hk : Keeps lat tim s0 s) : Keeps lat tim s0 (State.busOv s h first) := by
  unfold State.busOv
  dsimp only
  repeat' first
    | with_reducible assumption
    | with_reducible apply ite
    | with_reducible apply ite_snd
    | with_reducible apply ite_fst
    | with_reducible apply bgdRaise
    | with_reducible apply each
    | with_reducible apply faultStop
    | with_reducible apply put
    | with_reducible apply stnRaise
    | (intro _ _ _; try dsimp only)

theorem busSample {lat tim : Bool} {s0 s : State} {h t code chi : Nat} (hk : Keeps lat tim s0 s) : Keeps lat tim s0 (State.busSample s h t code chi) := by
  unfold State.busSample
  dsimp only
  repeat' first
    | with_reducible assumption
    | with_reducible apply ite
    | with_reducible apply ite_snd
    | with_reducible apply ite_fst
    | with_reducible apply advance
    | with_reducible apply busOv
    | with_reducible apply chopper
    | with_reducible apply puts

theorem bgdStop {lat tim : Bool} {s0 s : State} {h cause : Nat} (hk : Keeps lat tim s0 s) : Keeps lat tim s0 (State.bgdStop s h cause) := by
  unfold State.bgdStop
  repeat' first
    | with_reducible assumption
    | with_reducible apply faultHalf

theorem busUv {lat tim : Bool} {s0 s : State} {h : Nat} (hk : Keeps lat tim s0 s) : Keeps lat tim s0 (State.busUv s h) := by
  unfold State.busUv
  dsimp only
  repeat' first
    | with_reducible assumption
    | with_reducible apply ite
    | with_reducible apply ite_snd
    | with_reducible apply ite_fst
    | with_reducible apply bgdRaise
    | with_reducible apply bgdStop
    | with_reducible apply preLow

theorem chopFault {lat tim : Bool} {s0 s : State} {h cause : Nat} (hk : Keeps lat tim s0 s) : Keeps lat tim s0 (State.chopFault s h cause) := by
  unfold State.chopFault
  dsimp only
  repeat' first
    | with_reducible assumption
    | with_reducible apply ite
    | with_reducible apply ite_snd
    | with_reducible apply ite_fst
    | with_reducible apply bgdRaise
    | with_reducible apply chgLow
    | with_reducible apply each
    | with_reducible apply put
    | with_reducible apply puts
    | (intro _ _ _; try dsimp only)

theorem chNoFb {lat tim : Bool} {s0 s : State} {h : Nat} (hk : Keeps lat tim s0 s) : Keeps lat tim s0 (State.chNoFb s h) := by
  unfold State.chNoFb
  repeat' first
    | with_reducible assumption
    | with_reducible apply ite
    | with_reducible apply ite_snd
    | with_reducible apply ite_fst
    | with_reducible apply chopFault

theorem chOc {lat tim : Bool} {s0 s : State} {h : Nat} {desat : Bool} (hk : Keeps lat tim s0 s) : Keeps lat tim s0 (State.chOc s h desat) := by
  unfold State.chOc
  repeat' first
    | with_reducible assumption
    | with_reducible apply ite
    | with_reducible apply ite_snd
    | with_reducible apply ite_fst
    | with_reducible apply chopFault

theorem chStuck {lat tim : Bool} {s0 s : State} {h : Nat} (hk : Keeps lat tim s0 s) : Keeps lat tim s0 (State.chStuck s h) := by
  unfold State.chStuck
  dsimp only
  repeat' first
    | with_reducible assumption
    | with_reducible apply ite
    | with_reducible apply ite_snd
    | with_reducible apply ite_fst
    | with_reducible apply bgdRaise
    | with_reducible apply bgdStop
    | with_reducible apply each
    | with_reducible apply preLow
    | with_reducible apply put
    | (intro _ _ _; try dsimp only)

theorem zvbEnd {lat tim : Bool} {s0 s : State} {n : Nat} (hk : Keeps lat tim s0 s) : Keeps lat tim s0 (State.zvbEnd s n) := by
  unfold State.zvbEnd
  repeat' first
    | with_reducible assumption
    | with_reducible apply ite
    | with_reducible apply ite_snd
    | with_reducible apply ite_fst
    | with_reducible apply faultTrip

theorem preDone {lat tim : Bool} {s0 s : State} {h : Nat} (hk : Keeps lat tim s0 s) : Keeps lat tim s0 (State.preDone s h) := by
  unfold State.preDone
  repeat' first
    | with_reducible assumption
    | with_reducible apply ite
    | with_reducible apply ite_snd
    | with_reducible apply ite_fst
    | with_reducible apply put

theorem preFail {lat tim : Bool} {s0 s : State} {h : Nat} (hk : Keeps lat tim s0 s) : Keeps lat tim s0 (State.preFail s h) := by
  unfold State.preFail
  repeat' first
    | with_reducible assumption
    | with_reducible apply ite
    | with_reducible apply ite_snd
    | with_reducible apply ite_fst
    | with_reducible apply bgdRaise
    | with_reducible apply preLow

theorem putK {lat tim : Bool} {s0 s : State} {h : Nat} (hk : Keeps lat tim s0 s) : Keeps lat tim s0 (State.putK s h) := by
  unfold State.putK
  dsimp only
  repeat' first
    | with_reducible assumption
    | with_reducible apply puts

theorem tempConvert {lat tim : Bool} {s0 s : State} {r : Nat} {rd : List Int} (hk : Keeps lat tim s0 s) : Keeps lat tim s0 (State.tempConvert s r rd).1 := by
  unfold State.tempConvert
  dsimp only
  repeat' first
    | with_reducible assumption
    | with_reducible apply ite
    | with_reducible apply ite_snd
    | with_reducible apply ite_fst
    | with_reducible apply put
    | with_reducible apply putK
    | with_reducible apply puts
    | with_reducible apply raise
    | split

theorem putExt {lat tim : Bool} {s0 s : State} {n : Nat} (hk : Keeps lat tim s0 s) : Keeps lat tim s0 (State.putExt s n) := by
  unfold State.putExt
  dsimp only
  repeat' first
    | with_reducible assumption
    | with_reducible apply ite
    | with_reducible apply ite_snd
    | with_reducible apply ite_fst
    | with_reducible apply foldl
    | with_reducible apply put
    | with_reducible apply putK

theorem extConvert {lat tim : Bool} {s0 s : State} {x code : Nat} (hk : Keeps lat tim s0 s) : Keeps lat tim s0 (State.extConvert s x code) := by
  unfold State.extConvert
  dsimp only
  repeat' first
    | with_reducible assumption
    | with_reducible apply ite
    | with_reducible apply ite_snd
    | with_reducible apply ite_fst
    | with_reducible apply each
    | with_reducible apply put
    | with_reducible apply putExt
    | with_reducible apply puts
    | with_reducible apply raise
    | with_reducible apply setBit
    | (intro _ _ _; try dsimp only)

end Sys2Proof.Machine.Keeps
end

