-- ==== Sys2Proof/Laws/KeepsSequences.lean ====
section
/-!
SUPPORT. The operations of Machine/Sequences.lean are operations of the machine in the sense of `Keeps`.
-/
namespace Sys2Proof.Machine.Keeps

theorem openEval {lat tim : Bool} {s0 s : State} {n t u v w : Nat} (hk : Keeps lat tim s0 s) : Keeps lat tim s0 (State.openEval s n t u v w) := by
  unfold State.openEval
  dsimp only
  repeat' first
    | with_reducible assumption
    | with_reducible apply ite
    | with_reducible apply ite_snd
    | with_reducible apply ite_fst
    | with_reducible apply advance
    | with_reducible apply obsOpen

theorem rotCheckEv {lat tim : Bool} {s0 s : State} {n : Nat} (hk : Keeps lat tim s0 s) : Keeps lat tim s0 (State.rotCheckEv s n) := by
  unfold State.rotCheckEv
  dsimp only
  repeat' first
    | with_reducible assumption
    | with_reducible apply ite
    | with_reducible apply ite_snd
    | with_reducible apply ite_fst
    | with_reducible apply rotationCheck
    | with_reducible apply startStill

theorem revTimeout {lat tim : Bool} {s0 s : State} {n : Nat} (hk : Keeps lat tim s0 s) : Keeps lat tim s0 (State.revTimeout s n) := by
  unfold State.revTimeout
  repeat' first
    | with_reducible assumption
    | with_reducible apply ite
    | with_reducible apply ite_snd
    | with_reducible apply ite_fst
    | with_reducible apply obsFault

theorem startAlignEnd {lat tim : Bool} {s0 s : State} {n : Nat} (hk : Keeps lat tim s0 s) : Keeps lat tim s0 (State.startAlignEnd s n) := by
  unfold State.startAlignEnd
  dsimp only
  repeat' first
    | with_reducible assumption
    | with_reducible apply ite
    | with_reducible apply ite_snd
    | with_reducible apply ite_fst
    | with_reducible apply puts

theorem handTimeout {lat tim : Bool} {s0 s : State} {n : Nat} (hk : Keeps lat tim s0 s) : Keeps lat tim s0 (State.handTimeout s n) := by
  unfold State.handTimeout
  repeat' first
    | with_reducible assumption
    | with_reducible apply ite
    | with_reducible apply ite_snd
    | with_reducible apply ite_fst
    | with_reducible apply obsFault

theorem catchStopped {lat tim : Bool} {s0 s : State} {n : Nat} (hk : Keeps lat tim s0 s) : Keeps lat tim s0 (State.catchStopped s n) := by
  unfold State.catchStopped
  dsimp only
  repeat' first
    | with_reducible assumption
    | with_reducible apply ite
    | with_reducible apply ite_snd
    | with_reducible apply ite_fst
    | with_reducible apply put

theorem catchTimeout {lat tim : Bool} {s0 s : State} {n : Nat} (hk : Keeps lat tim s0 s) : Keeps lat tim s0 (State.catchTimeout s n) := by
  unfold State.catchTimeout
  dsimp only
  repeat' first
    | with_reducible assumption
    | with_reducible apply ite
    | with_reducible apply ite_snd
    | with_reducible apply ite_fst
    | with_reducible apply obsFault

theorem brakeDelayEnd {lat tim : Bool} {s0 s : State} {n : Nat} (hk : Keeps lat tim s0 s) : Keeps lat tim s0 (State.brakeDelayEnd s n) := by
  unfold State.brakeDelayEnd
  repeat' first
    | with_reducible assumption
    | with_reducible apply put

theorem holdBrake {lat tim : Bool} {s0 s : State} {n : Nat} (hk : Keeps lat tim s0 s) : Keeps lat tim s0 (State.holdBrake s n) := by
  unfold State.holdBrake
  dsimp only
  repeat' first
    | with_reducible assumption
    | with_reducible apply puts

theorem dwellEnd {lat tim : Bool} {s0 s : State} {n : Nat} (hk : Keeps lat tim s0 s) : Keeps lat tim s0 (State.dwellEnd s n) := by
  unfold State.dwellEnd
  dsimp only
  repeat' first
    | with_reducible assumption
    | with_reducible apply ite
    | with_reducible apply ite_snd
    | with_reducible apply ite_fst
    | with_reducible apply endStop
    | with_reducible apply holdBrake

theorem holdUnload {lat tim : Bool} {s0 s : State} {n : Nat} (hk : Keeps lat tim s0 s) : Keeps lat tim s0 (State.holdUnload s n) := by
  unfold State.holdUnload
  dsimp only
  repeat' first
    | with_reducible assumption
    | with_reducible apply ite
    | with_reducible apply ite_snd
    | with_reducible apply ite_fst
    | with_reducible apply puts

theorem holdEnd {lat tim : Bool} {s0 s : State} {n : Nat} (hk : Keeps lat tim s0 s) : Keeps lat tim s0 (State.holdEnd s n) := by
  unfold State.holdEnd
  repeat' first
    | with_reducible assumption
    | with_reducible apply ite
    | with_reducible apply ite_snd
    | with_reducible apply ite_fst
    | with_reducible apply endStop

theorem stopTo {lat tim : Bool} {s0 s : State} {n : Nat} (hk : Keeps lat tim s0 s) : Keeps lat tim s0 (State.stopTo s n) := by
  unfold State.stopTo
  dsimp only
  repeat' first
    | with_reducible assumption
    | with_reducible apply ite
    | with_reducible apply ite_snd
    | with_reducible apply ite_fst
    | with_reducible apply faultTrip

end Sys2Proof.Machine.Keeps
end

