-- ==== Sys2Proof/Laws/KeepsAxes.lean ====
section
/-!
SUPPORT. The operations of Machine/Axes.lean are operations of the machine in the sense of `Keeps`.
-/
namespace Sys2Proof.Machine.Keeps

theorem axLag {lat tim : Bool} {s0 s : State} {n : Nat} (hk : Keeps lat tim s0 s) : Keeps lat tim s0 (State.axLag s n) := by
  unfold State.axLag
  repeat' first
    | with_reducible assumption
    | with_reducible apply put

theorem axPutV {lat tim : Bool} {s0 s : State} {n : Nat} {v : Int} (hk : Keeps lat tim s0 s) : Keeps lat tim s0 (State.axPutV s n v) := by
  unfold State.axPutV
  repeat' first
    | with_reducible assumption
    | with_reducible apply puts

theorem axRenew {lat tim : Bool} {s0 s : State} {n : Nat} (hk : Keeps lat tim s0 s) : Keeps lat tim s0 (State.axRenew s n) := by
  unfold State.axRenew
  try dsimp only
  repeat' first
    | with_reducible assumption
    | with_reducible apply ite
    | with_reducible apply ite_snd
    | with_reducible apply ite_fst
    | with_reducible apply each
    | with_reducible apply put
    | (intro _ _ _; try dsimp only)

theorem axFresh {lat tim : Bool} {s0 s : State} {n : Nat} {coilB : Bool} (hk : Keeps lat tim s0 s) : Keeps lat tim s0 (State.axFresh s n coilB) := by
  unfold State.axFresh
  try dsimp only
  repeat' first
    | with_reducible assumption
    | with_reducible apply axOld

theorem axCoil {lat tim : Bool} {s0 s : State} {n : Nat} {c : Int} (hk : Keeps lat tim s0 s) : Keeps lat tim s0 (State.axCoil s n c) := by
  unfold State.axCoil
  dsimp only
  repeat' first
    | with_reducible assumption
    | with_reducible apply ite
    | with_reducible apply ite_snd
    | with_reducible apply ite_fst
    | with_reducible apply axFresh
    | with_reducible apply axRenew
    | with_reducible apply puts

theorem axStandby {lat tim : Bool} {s0 s : State} {n : Nat} (hk : Keeps lat tim s0 s) : Keeps lat tim s0 (State.axStandby s n) := by
  unfold State.axStandby
  repeat' first
    | with_reducible assumption
    | with_reducible apply ite
    | with_reducible apply ite_snd
    | with_reducible apply ite_fst
    | with_reducible apply axCoil

theorem axWake {lat tim : Bool} {s0 s : State} {n : Nat} (hk : Keeps lat tim s0 s) : Keeps lat tim s0 (State.axWake s n) := by
  unfold State.axWake
  dsimp only
  repeat' first
    | with_reducible assumption
    | with_reducible apply axCoil
    | with_reducible apply put

theorem axIdle {lat tim : Bool} {s0 s : State} {n : Nat} (hk : Keeps lat tim s0 s) : Keeps lat tim s0 (State.axIdle s n) := by
  unfold State.axIdle
  dsimp only
  repeat' first
    | with_reducible assumption
    | with_reducible apply axCoil
    | with_reducible apply axPutV
    | with_reducible apply puts

theorem axComplete {lat tim : Bool} {s0 s : State} {n st : Nat} (hk : Keeps lat tim s0 s) : Keeps lat tim s0 (State.axComplete s n st) := by
  unfold State.axComplete
  dsimp only
  repeat' first
    | with_reducible assumption
    | with_reducible apply completeAll
    | with_reducible apply completeB
    | with_reducible apply each
    | (intro _ _ _; try dsimp only)

theorem axCut {lat tim : Bool} {s0 s : State} {n : Nat} (hk : Keeps lat tim s0 s) : Keeps lat tim s0 (State.axCut s n) := by
  unfold State.axCut
  dsimp only
  repeat' first
    | with_reducible assumption
    | with_reducible apply ite
    | with_reducible apply ite_snd
    | with_reducible apply ite_fst
    | with_reducible apply axLag
    | with_reducible apply axPutV
    | with_reducible apply put

theorem axGuard {lat tim : Bool} {s0 s : State} {n fin : Nat} (hk : Keeps lat tim s0 s) : Keeps lat tim s0 (State.axGuard s n fin) := by
  unfold State.axGuard
  dsimp only
  repeat' first
    | with_reducible assumption
    | with_reducible apply puts

theorem axToFault {lat tim : Bool} {s0 s : State} {n : Nat} (hk : Keeps lat tim s0 s) : Keeps lat tim s0 (State.axToFault s n) := by
  unfold State.axToFault
  repeat' first
    | with_reducible assumption
    | with_reducible apply ascDisarmUser
    | with_reducible apply put

theorem axStopOne {lat tim : Bool} {s0 s : State} {n fin : Nat} (hk : Keeps lat tim s0 s) : Keeps lat tim s0 (State.axStopOne s n fin) := by
  unfold State.axStopOne
  dsimp only
  repeat' first
    | with_reducible assumption
    | with_reducible apply ite
    | with_reducible apply ite_snd
    | with_reducible apply ite_fst
    | with_reducible apply axCut
    | with_reducible apply axGuard
    | with_reducible apply axIdle
    | with_reducible apply axStandby
    | with_reducible apply axToFault
    | with_reducible apply put

theorem axStop {lat tim : Bool} {s0 s : State} {n fin : Nat} {st : Nat} (hk : Keeps lat tim s0 s) : Keeps lat tim s0 (State.axStop s n fin st) := by
  unfold State.axStop
  dsimp only
  repeat' first
    | with_reducible assumption
    | with_reducible apply ite
    | with_reducible apply ite_snd
    | with_reducible apply ite_fst
    | with_reducible apply axComplete
    | with_reducible apply axStopOne
    | with_reducible apply each
    | (intro _ _ _; try dsimp only)

theorem axFault {lat tim : Bool} {s0 s : State} {n cause : Nat} {guarded off : Bool} (hk : Keeps lat tim s0 s) : Keeps lat tim s0 (State.axFault s n cause guarded off) := by
  unfold State.axFault
  dsimp only
  repeat' first
    | with_reducible assumption
    | with_reducible apply ite
    | with_reducible apply ite_snd
    | with_reducible apply ite_fst
    | with_reducible apply axCoil
    | with_reducible apply axComplete
    | with_reducible apply axCut
    | with_reducible apply axIdle
    | with_reducible apply axStandby
    | with_reducible apply axStopOne
    | with_reducible apply axToFault
    | with_reducible apply each
    | with_reducible apply put
    | with_reducible apply raise
    | (intro _ _ _; try dsimp only)

theorem axBacklog {lat tim : Bool} {s0 s : State} {n : Nat} (hk : Keeps lat tim s0 s) : Keeps lat tim s0 (State.axBacklog s n) := by
  unfold State.axBacklog
  dsimp only
  repeat' first
    | with_reducible assumption
    | with_reducible apply ite
    | with_reducible apply ite_snd
    | with_reducible apply ite_fst
    | with_reducible apply axFault

theorem axOvershoot {lat tim : Bool} {s0 s : State} {n : Nat} {over' : Bool} (hk : Keeps lat tim s0 s) : Keeps lat tim s0 (State.axOvershoot s n over') := by
  unfold State.axOvershoot
  dsimp only
  repeat' first
    | with_reducible assumption
    | with_reducible apply ite
    | with_reducible apply ite_snd
    | with_reducible apply ite_fst
    | with_reducible apply bump
    | with_reducible apply flag
    | with_reducible apply put

theorem axArrive {lat tim : Bool} {s0 s : State} {n : Nat} (hk : Keeps lat tim s0 s) : Keeps lat tim s0 (State.axArrive s n) := by
  unfold State.axArrive
  dsimp only
  repeat' first
    | with_reducible assumption
    | with_reducible apply ite
    | with_reducible apply ite_snd
    | with_reducible apply ite_fst
    | with_reducible apply axIdle
    | with_reducible apply completeAll
    | with_reducible apply each
    | with_reducible apply put
    | (intro _ _ _; try dsimp only)

theorem axTo {lat tim : Bool} {s0 s : State} {n : Nat} {r : Int} (hk : Keeps lat tim s0 s) : Keeps lat tim s0 (State.axTo s n r) := by
  unfold State.axTo
  dsimp only
  repeat' first
    | with_reducible assumption
    | with_reducible apply axPutV
    | with_reducible apply put

theorem tickMove {lat tim : Bool} {s0 s : State} {n : Nat} (hk : Keeps lat tim s0 s) : Keeps lat tim s0 (State.tickMove s n) := by
  unfold State.tickMove
  dsimp only
  repeat' first
    | with_reducible assumption
    | with_reducible apply axOvershoot
    | with_reducible apply axPutV
    | with_reducible apply put

theorem tickProfile {lat tim : Bool} {s0 s : State} {n t : Nat} (hk : Keeps lat tim s0 s) : Keeps lat tim s0 (State.tickProfile s n t) := by
  unfold State.tickProfile
  dsimp only
  repeat' first
    | with_reducible assumption
    | with_reducible apply axTo
    | with_reducible apply put

theorem tickGroup {lat tim : Bool} {s0 s : State} {n t : Nat} (hk : Keeps lat tim s0 s) : Keeps lat tim s0 (State.tickGroup s n t) := by
  unfold State.tickGroup
  dsimp only
  repeat' first
    | with_reducible assumption
    | with_reducible apply ite
    | with_reducible apply ite_snd
    | with_reducible apply ite_fst
    | with_reducible apply axTo
    | with_reducible apply puts

theorem axInterp {lat tim : Bool} {s0 s : State} {n : Nat} (hk : Keeps lat tim s0 s) : Keeps lat tim s0 (State.axInterp s n) := by
  unfold State.axInterp
  dsimp only
  repeat' first
    | with_reducible assumption
    | with_reducible apply ite
    | with_reducible apply ite_snd
    | with_reducible apply ite_fst
    | with_reducible apply put

theorem axSource {lat tim : Bool} {s0 s : State} {n : Nat} (hk : Keeps lat tim s0 s) : Keeps lat tim s0 (State.axSource s n) := by
  unfold State.axSource
  dsimp only
  repeat' first
    | with_reducible assumption
    | with_reducible apply ite
    | with_reducible apply ite_snd
    | with_reducible apply ite_fst
    | with_reducible apply put
    | with_reducible apply puts

theorem axRebase {lat tim : Bool} {s0 s : State} {n : Nat} (hk : Keeps lat tim s0 s) : Keeps lat tim s0 (State.axRebase s n) := by
  unfold State.axRebase
  repeat' first
    | with_reducible assumption
    | with_reducible apply puts

theorem tickFollow {lat tim : Bool} {s0 s : State} {n : Nat} (hk : Keeps lat tim s0 s) : Keeps lat tim s0 (State.tickFollow s n) := by
  unfold State.tickFollow
  dsimp only
  repeat' first
    | with_reducible assumption
    | with_reducible apply ite
    | with_reducible apply ite_snd
    | with_reducible apply ite_fst
    | with_reducible apply axFault
    | with_reducible apply axPutV
    | with_reducible apply axRebase
    | with_reducible apply axSource
    | with_reducible apply axTo
    | with_reducible apply put
    | with_reducible apply puts

theorem tickStopping {lat tim : Bool} {s0 s : State} {n : Nat} (hk : Keeps lat tim s0 s) : Keeps lat tim s0 (State.tickStopping s n) := by
  unfold State.tickStopping
  dsimp only
  repeat' first
    | with_reducible assumption
    | with_reducible apply ite
    | with_reducible apply ite_snd
    | with_reducible apply ite_fst
    | with_reducible apply axIdle
    | with_reducible apply axPutV
    | with_reducible apply axStandby
    | with_reducible apply axToFault
    | with_reducible apply put

theorem axTick {lat tim : Bool} {s0 s : State} {n t : Nat} (hk : Keeps lat tim s0 s) : Keeps lat tim s0 (State.axTick s n t) := by
  unfold State.axTick
  dsimp only
  repeat' first
    | with_reducible assumption
    | with_reducible apply ite
    | with_reducible apply ite_snd
    | with_reducible apply ite_fst
    | with_reducible apply axArrive
    | with_reducible apply axBacklog
    | with_reducible apply axLag
    | with_reducible apply tickFollow
    | with_reducible apply tickGroup
    | with_reducible apply tickMove
    | with_reducible apply tickProfile
    | with_reducible apply tickStopping
    | split

theorem spoolOff {lat tim : Bool} {s0 s : State} {a : Nat} (hk : Keeps lat tim s0 s) : Keeps lat tim s0 (State.spoolOff s a) := by
  unfold State.spoolOff
  dsimp only
  repeat' first
    | with_reducible assumption
    | with_reducible apply ite
    | with_reducible apply ite_snd
    | with_reducible apply ite_fst
    | with_reducible apply ascDisarm
    | with_reducible apply axStop
    | with_reducible apply put
    | with_reducible apply puts

theorem spoolCheck {lat tim : Bool} {s0 s : State} {a : Nat} (hk : Keeps lat tim s0 s) : Keeps lat tim s0 (State.spoolCheck s a) := by
  unfold State.spoolCheck
  repeat' first
    | with_reducible assumption
    | with_reducible apply ite
    | with_reducible apply ite_snd
    | with_reducible apply ite_fst
    | with_reducible apply spoolOff

theorem plannerTick {lat tim : Bool} {s0 s : State} {h t : Nat} (hk : Keeps lat tim s0 s) : Keeps lat tim s0 (State.plannerTick s h t) := by
  unfold State.plannerTick
  dsimp only
  repeat' first
    | with_reducible assumption
    | with_reducible apply ite
    | with_reducible apply ite_snd
    | with_reducible apply ite_fst
    | with_reducible apply advance
    | with_reducible apply axInterp
    | with_reducible apply axTick
    | with_reducible apply each
    | with_reducible apply spoolCheck
    | (intro _ _ _; try dsimp only)

theorem axStep {lat tim : Bool} {s0 s : State} {n t : Nat} (hk : Keeps lat tim s0 s) : Keeps lat tim s0 (State.axStep s n t) := by
  unfold State.axStep
  dsimp only
  repeat' first
    | with_reducible assumption
    | with_reducible apply ite
    | with_reducible apply ite_snd
    | with_reducible apply ite_fst
    | with_reducible apply advance
    | with_reducible apply axArrive
    | with_reducible apply axCoil
    | with_reducible apply axLag
    | with_reducible apply axRenew
    | with_reducible apply put
    | with_reducible apply puts

theorem axHold {lat tim : Bool} {s0 s : State} {n off k : Nat} (hk : Keeps lat tim s0 s) : Keeps lat tim s0 (State.axHold s n off k) := by
  unfold State.axHold
  try dsimp only
  repeat' first
    | with_reducible assumption
    | with_reducible apply ite
    | with_reducible apply ite_snd
    | with_reducible apply ite_fst
    | with_reducible apply each
    | with_reducible apply axOld
    | (intro _ _ _; try dsimp only)

theorem axChop {lat tim : Bool} {s0 s : State} {n : Nat} {coilB : Bool} (hk : Keeps lat tim s0 s) : Keeps lat tim s0 (State.axChop s n coilB) := by
  unfold State.axChop
  dsimp only
  repeat' first
    | with_reducible assumption
    | with_reducible apply ite
    | with_reducible apply ite_snd
    | with_reducible apply ite_fst
    | with_reducible apply axFresh
    | with_reducible apply puts

theorem axNoReach {lat tim : Bool} {s0 s : State} {n : Nat} {coilB : Bool} (hk : Keeps lat tim s0 s) : Keeps lat tim s0 (State.axNoReach s n coilB) := by
  unfold State.axNoReach
  repeat' first
    | with_reducible assumption
    | with_reducible apply ite
    | with_reducible apply ite_snd
    | with_reducible apply ite_fst
    | with_reducible apply bump
    | with_reducible apply put

theorem axOc {lat tim : Bool} {s0 s : State} {n : Nat} (hk : Keeps lat tim s0 s) : Keeps lat tim s0 (State.axOc s n) := by
  unfold State.axOc
  repeat' first
    | with_reducible assumption
    | with_reducible apply ite
    | with_reducible apply ite_snd
    | with_reducible apply ite_fst
    | with_reducible apply axFault

theorem axStandbyEv {lat tim : Bool} {s0 s : State} {n : Nat} (hk : Keeps lat tim s0 s) : Keeps lat tim s0 (State.axStandbyEv s n) := by
  unfold State.axStandbyEv
  dsimp only
  repeat' first
    | with_reducible assumption
    | with_reducible apply ite
    | with_reducible apply ite_snd
    | with_reducible apply ite_fst
    | with_reducible apply axStandby

theorem axEnergised {lat tim : Bool} {s0 s : State} {n t : Nat} (hk : Keeps lat tim s0 s) : Keeps lat tim s0 (State.axEnergised s n t) := by
  unfold State.axEnergised
  dsimp only
  repeat' first
    | with_reducible assumption
    | with_reducible apply ite
    | with_reducible apply ite_snd
    | with_reducible apply ite_fst
    | with_reducible apply advance
    | with_reducible apply put
    | with_reducible apply puts

theorem axGroupStart {lat tim : Bool} {s0 s : State} {g t : Nat} (hk : Keeps lat tim s0 s) : Keeps lat tim s0 (State.axGroupStart s g t) := by
  unfold State.axGroupStart
  dsimp only
  repeat' first
    | with_reducible assumption
    | with_reducible apply ite
    | with_reducible apply ite_snd
    | with_reducible apply ite_fst
    | with_reducible apply advance
    | with_reducible apply each
    | with_reducible apply puts
    | (intro _ _ _; try dsimp only)

theorem axEdge {lat tim : Bool} {s0 s : State} {n t : Nat} {dirHigh : Bool} (hk : Keeps lat tim s0 s) : Keeps lat tim s0 (State.axEdge s n t dirHigh) := by
  unfold State.axEdge
  dsimp only
  repeat' first
    | with_reducible assumption
    | with_reducible apply ite
    | with_reducible apply ite_snd
    | with_reducible apply ite_fst
    | with_reducible apply advance
    | with_reducible apply fresh
    | with_reducible apply put
    | with_reducible apply puts

theorem axMove {lat tim : Bool} {s0 s : State} {n : Nat} {target vmax acc dec : Int} (hk : Keeps lat tim s0 s) : Keeps lat tim s0 (State.axMove s n target vmax acc dec) := by
  unfold State.axMove
  dsimp only
  repeat' first
    | with_reducible assumption
    | with_reducible apply ite
    | with_reducible apply ite_snd
    | with_reducible apply ite_fst
    | with_reducible apply axWake
    | with_reducible apply puts

theorem axProfile {lat tim : Bool} {s0 s : State} {n k : Nat} {dec : Int} (hk : Keeps lat tim s0 s) : Keeps lat tim s0 (State.axProfile s n k dec) := by
  unfold State.axProfile
  dsimp only
  repeat' first
    | with_reducible assumption
    | with_reducible apply axWake
    | with_reducible apply puts

theorem axGroup {lat tim : Bool} {s0 s : State} {g : Nat} {ds : List (Nat × Int)} {l vmax acc dec : Int} {tab : Nat} (hk : Keeps lat tim s0 s) : Keeps lat tim s0 (State.axGroup s g ds l vmax acc dec tab) := by
  unfold State.axGroup
  dsimp only
  repeat' first
    | with_reducible assumption
    | with_reducible apply axWake
    | with_reducible apply each
    | with_reducible apply foldl
    | with_reducible apply puts
    | (intro _ _ _; try dsimp only)

theorem axFollow {lat tim : Bool} {s0 s : State} {n src stn : Nat} {num den : Int} (hk : Keeps lat tim s0 s) : Keeps lat tim s0 (State.axFollow s n src stn num den) := by
  unfold State.axFollow
  dsimp only
  repeat' first
    | with_reducible assumption
    | with_reducible apply axWake
    | with_reducible apply puts

end Sys2Proof.Machine.Keeps
end

