-- ==== Sys2Proof/Laws/KeepsMailbox.lean ====
section
/-!
SUPPORT. The operations of Machine/Mailbox.lean are operations of the machine in the sense of `Keeps`.
-/
namespace Sys2Proof.Machine.Keeps

theorem withPeer {lat tim : Bool} {s0 s : State} {p : Nat} {g : Peer → Peer} (hk : Keeps lat tim s0 s) : Keeps lat tim s0 (State.withPeer s p g) := by
  unfold State.withPeer
  repeat' first
    | with_reducible assumption
    | with_reducible apply mbx

theorem mbxPost {lat tim : Bool} {s0 s : State} {p : Nat} {ws : List Nat} (hk : Keeps lat tim s0 s) : Keeps lat tim s0 (State.mbxPost s p ws) := by
  unfold State.mbxPost
  try dsimp only
  repeat' first
    | with_reducible assumption
    | with_reducible apply ite
    | with_reducible apply ite_snd
    | with_reducible apply ite_fst
    | with_reducible apply withPeer

theorem mbxFetch {lat tim : Bool} {s0 s : State} {p max : Nat} (hk : Keeps lat tim s0 s) : Keeps lat tim s0 (State.mbxFetch s p max).2.2 := by
  unfold State.mbxFetch
  dsimp only
  repeat' first
    | with_reducible assumption
    | with_reducible apply ite
    | with_reducible apply ite_snd
    | with_reducible apply ite_fst
    | with_reducible apply setBit
    | with_reducible apply withPeer

theorem dblRing {lat tim : Bool} {s0 s : State} {mask : Nat} (hk : Keeps lat tim s0 s) : Keeps lat tim s0 (State.dblRing s mask) := by
  unfold State.dblRing
  dsimp only
  repeat' first
    | with_reducible assumption
    | with_reducible apply bumpBy
    | with_reducible apply orBits

theorem nextSeq {lat tim : Bool} {s0 s : State} {p : Nat} (hk : Keeps lat tim s0 s) : Keeps lat tim s0 (State.nextSeq s p).2 := by
  unfold State.nextSeq
  try dsimp only
  repeat' first
    | with_reducible assumption
    | with_reducible apply withPeer

theorem creditSeg {lat tim : Bool} {s0 s : State} (hk : Keeps lat tim s0 s) : Keeps lat tim s0 (State.creditSeg s).2 := by
  unfold State.creditSeg
  dsimp only
  repeat' first
    | with_reducible assumption
    | with_reducible apply ite
    | with_reducible apply ite_snd
    | with_reducible apply ite_fst
    | with_reducible apply each
    | with_reducible apply put
    | with_reducible apply withPeer
    | (intro _ _ _; try dsimp only)
    | split

theorem bellSegs {lat tim : Bool} {s0 s : State} {room : Nat} (hk : Keeps lat tim s0 s) : Keeps lat tim s0 (s.bellSegs room).2.2 := by
  unfold State.bellSegs
  refine foldl_proj (fun b : List Seg × Nat × State => b.2.2) hk fun b a hb => ?_
  refine ite_snd2 hb ?_
  extract_lets n
  have hn : Keeps lat tim s0 n.2 := nextSeq hb
  clear_value n
  dsimp only
  exact withPeer hn

theorem pktSeg {lat tim : Bool} {s0 s : State} {kind dest sent room : Nat} {ws : List Nat} (hk : Keeps lat tim s0 s) : Keeps lat tim s0 (State.pktSeg s kind dest sent room ws).2.2 := by
  unfold State.pktSeg
  dsimp only
  repeat' first
    | with_reducible assumption
    | with_reducible apply nextSeq

theorem fwdSegs {lat tim : Bool} {s0 s : State} {room n : Nat} (hk : Keeps lat tim s0 s) : Keeps lat tim s0 (s.fwdSegs room n).2.2 := by
  induction n generalizing s room with
  | zero => exact hk
  | succ n ih =>
    unfold State.fwdSegs
    split
    · exact hk
    · have h1 : Keeps lat tim s0 (if s.hat.fwdSent = 0 then s.markHead 6 else s) := ite (markHead hk) hk
      dsimp only
      generalize (if s.hat.fwdSent = 0 then s.markHead 6 else s) = s1 at h1 ⊢
      split
      · next x p rest hout =>
        dsimp only
        refine ih (ite (withPort (hat (pktSeg h1)) fun h => ?_) (hat (pktSeg h1)))
        have h' : (s1.port 6).Bounded := h
        obtain ⟨hr, hn⟩ := h'
        simp only [Port.level, hout, List.filter_cons] at hr hn
        refine ⟨?_, ?_⟩
        · simp only [Port.level]; split at hr <;> simp_all <;> omega
        · simp only [Port.level]; split at hn <;> simp_all <;> omega
      · split
        · dsimp only
          exact ih (hat (pktSeg h1))
        · exact h1

theorem dataSegs {lat tim : Bool} {s0 s : State} {p room n : Nat} (hk : Keeps lat tim s0 s) : Keeps lat tim s0 (s.dataSegs p room n).2.2 := by
  induction n generalizing s room with
  | zero => exact hk
  | succ n ih =>
    unfold State.dataSegs
    dsimp only
    split
    · exact hk
    · refine ite_snd2 hk ?_
      exact ih (withPeer (nextSeq hk))

theorem holdNext {lat tim : Bool} {s0 s : State} (hk : Keeps lat tim s0 s) : Keeps lat tim s0 (State.holdNext s) := by
  unfold State.holdNext
  try dsimp only
  repeat' first
    | with_reducible assumption
    | with_reducible apply ite
    | with_reducible apply ite_snd
    | with_reducible apply ite_fst
    | with_reducible apply mbx

theorem window {lat tim : Bool} {s0 s : State} (hk : Keeps lat tim s0 s) : Keeps lat tim s0 s.window.2 := by
  have key : ∀ (b : List Seg × Nat × State) (l : List Nat), Keeps lat tim s0 b.2.2 → Keeps lat tim s0 (l.foldl (fun (acc : List Seg × Nat × State) p =>
      let r := acc.2.2.dataSegs p acc.2.1 64
      (acc.1 ++ r.1, r.2)) b).2.2 := fun b l hb => foldl_proj (fun b : List Seg × Nat × State => b.2.2) hb fun b a hb => dataSegs hb
  unfold State.window
  refine ite_snd hk ?_
  extract_lets c room b waits cap g left d
  have hb : Keeps lat tim s0 b.2.2 := bellSegs (creditSeg (holdNext hk))
  clear_value b
  have hg : Keeps lat tim s0 g.2.2 := fwdSegs hb
  clear_value g
  exact key _ _ hg

theorem mbxCount {lat tim : Bool} {s0 s : State} {o : Nat} (hk : Keeps lat tim s0 s) : Keeps lat tim s0 (State.mbxCount s o) := by
  unfold State.mbxCount
  try dsimp only
  repeat' first
    | with_reducible assumption
    | with_reducible apply bump
    | with_reducible apply setBit
    | with_reducible apply withPeer

theorem mbxLose {lat tim : Bool} {s0 s : State} {o : Nat} (hk : Keeps lat tim s0 s) : Keeps lat tim s0 (State.mbxLose s o) := by
  unfold State.mbxLose
  repeat' first
    | with_reducible assumption
    | with_reducible apply ite
    | with_reducible apply ite_snd
    | with_reducible apply ite_fst
    | with_reducible apply mbxCount

theorem hearEpoch {lat tim : Bool} {s0 s : State} {o ep : Nat} (hk : Keeps lat tim s0 s) : Keeps lat tim s0 (State.hearEpoch s o ep) := by
  unfold State.hearEpoch
  dsimp only
  repeat' first
    | with_reducible assumption
    | with_reducible apply ite
    | with_reducible apply ite_snd
    | with_reducible apply ite_fst
    | with_reducible apply mbxLose
    | with_reducible apply setBit
    | with_reducible apply withPeer

theorem recvCredit {lat tim : Bool} {s0 s : State} {o w1 w2 : Nat} (hk : Keeps lat tim s0 s) : Keeps lat tim s0 (State.recvCredit s o w1 w2) := by
  unfold State.recvCredit
  dsimp only
  repeat' first
    | with_reducible assumption
    | with_reducible apply ite
    | with_reducible apply ite_snd
    | with_reducible apply ite_fst
    | with_reducible apply hearEpoch
    | with_reducible apply notice
    | with_reducible apply setBit
    | with_reducible apply withPeer

theorem recvData {lat tim : Bool} {s0 s : State} {o : Nat} {g : Seg} (hk : Keeps lat tim s0 s) : Keeps lat tim s0 (State.recvData s o g) := by
  unfold State.recvData
  dsimp only
  repeat' first
    | with_reducible assumption
    | with_reducible apply ite
    | with_reducible apply ite_snd
    | with_reducible apply ite_fst
    | with_reducible apply hearEpoch
    | with_reducible apply mbxCount
    | with_reducible apply mbxLose
    | with_reducible apply withPeer
    | split

theorem recvSeg {lat tim : Bool} {s0 s : State} {o : Nat} {g : Seg} (hk : Keeps lat tim s0 s) : Keeps lat tim s0 (State.recvSeg s o g) := by
  unfold State.recvSeg
  dsimp only
  repeat' first
    | with_reducible assumption
    | with_reducible apply ite
    | with_reducible apply ite_snd
    | with_reducible apply ite_fst
    | with_reducible apply dblRing
    | with_reducible apply mbxLose
    | with_reducible apply recvCredit
    | with_reducible apply recvData
    | with_reducible apply withPeer

theorem mbxStart {lat tim : Bool} {s0 s : State} {power : Bool} (hk : Keeps lat tim s0 s) : Keeps lat tim s0 (State.mbxStart s power) := by
  unfold State.mbxStart
  dsimp only
  repeat' first
    | with_reducible assumption
    | with_reducible apply ite
    | with_reducible apply ite_snd
    | with_reducible apply ite_fst
    | with_reducible apply put
    | with_reducible apply withLog
    | with_reducible apply withPeer
    | with_reducible apply mbx
    | exact rfl

theorem mbxEcc {lat tim : Bool} {s0 s : State} (hk : Keeps lat tim s0 s) : Keeps lat tim s0 (State.mbxEcc s) := by
  unfold State.mbxEcc
  dsimp only
  repeat' first
    | with_reducible assumption
    | with_reducible apply ite
    | with_reducible apply ite_snd
    | with_reducible apply ite_fst
    | with_reducible apply fresh
    | with_reducible apply notice
    | with_reducible apply withPeer

end Sys2Proof.Machine.Keeps
end

