-- ==== Sys2Proof/Laws/KeepsHatband.lean ====
section
/-!
SUPPORT. The operations of Machine/Hatband.lean are operations of the machine in the sense of `Keeps`.
-/
namespace Sys2Proof.Machine.Keeps

theorem putSync {lat tim : Bool} {s0 s : State} {v : Bool} (hk : Keeps lat tim s0 s) : Keeps lat tim s0 (State.putSync s v) := by
  unfold State.putSync
  repeat' first
    | with_reducible assumption
    | with_reducible apply flag

theorem putRing {lat tim : Bool} {s0 s : State} (hk : Keeps lat tim s0 s) : Keeps lat tim s0 (State.putRing s) := by
  unfold State.putRing
  dsimp only
  repeat' first
    | with_reducible assumption
    | with_reducible apply ite
    | with_reducible apply ite_snd
    | with_reducible apply ite_fst
    | with_reducible apply each
    | with_reducible apply put
    | with_reducible apply puts
    | (intro _ _ _; try dsimp only)

theorem checkSig {lat tim : Bool} {s0 s : State} (hk : Keeps lat tim s0 s) : Keeps lat tim s0 (State.checkSig s) := by
  unfold State.checkSig
  dsimp only
  repeat' first
    | with_reducible assumption
    | with_reducible apply ite
    | with_reducible apply ite_snd
    | with_reducible apply ite_fst
    | with_reducible apply flag
    | with_reducible apply put
    | with_reducible apply raise

theorem putGroup {lat tim : Bool} {s0 s : State} {g mode : Nat} {ms : List (Nat × Nat × Nat)} (hk : Keeps lat tim s0 s) : Keeps lat tim s0 (State.putGroup s g mode ms) := by
  unfold State.putGroup
  dsimp only
  repeat' first
    | with_reducible assumption
    | with_reducible apply regsClear
    | with_reducible apply checkSig
    | with_reducible apply each
    | with_reducible apply putRing
    | with_reducible apply puts
    | (intro _ _ _; try dsimp only)

theorem lnkRaise {lat tim : Bool} {s0 s : State} {cause : Nat} (hk : Keeps lat tim s0 s) : Keeps lat tim s0 (State.lnkRaise s cause) := by
  unfold State.lnkRaise
  repeat' first
    | with_reducible assumption
    | with_reducible apply raise

theorem hatState {lat tim : Bool} {s0 s : State} (hk : Keeps lat tim s0 s) : Keeps lat tim s0 (State.hatState s) := by
  unfold State.hatState
  dsimp only
  repeat' first
    | with_reducible assumption
    | with_reducible apply ite
    | with_reducible apply ite_snd
    | with_reducible apply ite_fst
    | with_reducible apply put
    | with_reducible apply puts
    | with_reducible apply raise

theorem lnkHold {lat tim : Bool} {s0 s : State} {l : Link} {cause : Nat} (hk : Keeps lat tim s0 s) : Keeps lat tim s0 (State.lnkHold s l cause) := by
  unfold State.lnkHold
  repeat' first
    | with_reducible assumption
    | with_reducible apply put

theorem flapCheck {lat tim : Bool} {s0 s : State} {l : Link} (hk : Keeps lat tim s0 s) : Keeps lat tim s0 (State.flapCheck s l) := by
  unfold State.flapCheck
  try dsimp only
  repeat' first
    | with_reducible assumption
    | with_reducible apply ite
    | with_reducible apply ite_snd
    | with_reducible apply ite_fst
    | with_reducible apply lnkHold
    | with_reducible apply lnkRaise

theorem lnkEnter {lat tim : Bool} {s0 s : State} {l : Link} {st : Nat} (hk : Keeps lat tim s0 s) : Keeps lat tim s0 (State.lnkEnter s l st) := by
  unfold State.lnkEnter
  repeat' first
    | with_reducible assumption
    | with_reducible apply bump
    | with_reducible apply put

theorem lnkNoted {lat tim : Bool} {s0 s : State} {l : Link} (hk : Keeps lat tim s0 s) : Keeps lat tim s0 (State.lnkNoted s l) := by
  unfold State.lnkNoted
  try dsimp only
  repeat' first
    | with_reducible assumption
    | with_reducible apply hat

theorem lnkDown {lat tim : Bool} {s0 s : State} {l : Link} {st cause : Nat} (hk : Keeps lat tim s0 s) : Keeps lat tim s0 (State.lnkDown s l st cause) := by
  unfold State.lnkDown
  repeat' first
    | with_reducible assumption
    | with_reducible apply flapCheck
    | with_reducible apply hatState
    | with_reducible apply lnkEnter
    | with_reducible apply lnkNoted
    | with_reducible apply lnkRaise

theorem linkUp {lat tim : Bool} {s0 s : State} {l : Link} {x : Ident} (hk : Keeps lat tim s0 s) : Keeps lat tim s0 (State.linkUp s l x) := by
  unfold State.linkUp
  repeat' first
    | with_reducible assumption
    | with_reducible apply ite
    | with_reducible apply ite_snd
    | with_reducible apply ite_fst
    | with_reducible apply hatState
    | with_reducible apply put
    | with_reducible apply puts

theorem linkDelay {lat tim : Bool} {s0 s : State} {l : Link} {d : Nat} (hk : Keeps lat tim s0 s) : Keeps lat tim s0 (State.linkDelay s l d) := by
  unfold State.linkDelay
  repeat' first
    | with_reducible assumption
    | with_reducible apply ite
    | with_reducible apply ite_snd
    | with_reducible apply ite_fst
    | with_reducible apply put

theorem lnkLoss {lat tim : Bool} {s0 s : State} {l : Link} (hk : Keeps lat tim s0 s) : Keeps lat tim s0 (State.lnkLoss s l) := by
  unfold State.lnkLoss
  repeat' first
    | with_reducible assumption
    | with_reducible apply ite
    | with_reducible apply ite_snd
    | with_reducible apply ite_fst
    | with_reducible apply lnkDown

theorem lnkLate {lat tim : Bool} {s0 s : State} {l : Link} (hk : Keeps lat tim s0 s) : Keeps lat tim s0 (State.lnkLate s l) := by
  unfold State.lnkLate
  repeat' first
    | with_reducible assumption
    | with_reducible apply ite
    | with_reducible apply ite_snd
    | with_reducible apply ite_fst
    | with_reducible apply lnkDown
    | with_reducible apply put

theorem lnkId {lat tim : Bool} {s0 s : State} {l : Link} {x : Ident} (hk : Keeps lat tim s0 s) : Keeps lat tim s0 (State.lnkId s l x) := by
  unfold State.lnkId
  repeat' first
    | with_reducible assumption
    | with_reducible apply ite
    | with_reducible apply ite_snd
    | with_reducible apply ite_fst
    | with_reducible apply hatState
    | with_reducible apply lnkHold
    | with_reducible apply lnkRaise

theorem lnkFlap {lat tim : Bool} {s0 s : State} {l : Link} (hk : Keeps lat tim s0 s) : Keeps lat tim s0 (State.lnkFlap s l) := by
  unfold State.lnkFlap
  repeat' first
    | with_reducible assumption
    | with_reducible apply ite
    | with_reducible apply ite_snd
    | with_reducible apply ite_fst
    | with_reducible apply flapCheck
    | with_reducible apply hatState

theorem linkRetrain {lat tim : Bool} {s0 s : State} {l : Link} (hk : Keeps lat tim s0 s) : Keeps lat tim s0 (State.linkRetrain s l) := by
  unfold State.linkRetrain
  repeat' first
    | with_reducible assumption
    | with_reducible apply ite
    | with_reducible apply ite_snd
    | with_reducible apply ite_fst
    | with_reducible apply put

theorem holdLink {lat tim : Bool} {s0 s : State} {b : Block} (hk : Keeps lat tim s0 s) : Keeps lat tim s0 (State.holdLink s b) := by
  unfold State.holdLink
  repeat' first
    | with_reducible assumption
    | with_reducible apply hatState
    | with_reducible apply lnkHold
    | split

theorem holdOut {lat tim : Bool} {s0 s : State} {b : Block} (hk : Keeps lat tim s0 s) : Keeps lat tim s0 (State.holdOut s b) := by
  unfold State.holdOut
  repeat' first
    | with_reducible assumption
    | with_reducible apply ite
    | with_reducible apply ite_snd
    | with_reducible apply ite_fst
    | with_reducible apply holdLink

theorem lnkCrc {lat tim : Bool} {s0 s : State} {l : Link} (hk : Keeps lat tim s0 s) : Keeps lat tim s0 (State.lnkCrc s l) := by
  unfold State.lnkCrc
  dsimp only
  repeat' first
    | with_reducible assumption
    | with_reducible apply ite
    | with_reducible apply ite_snd
    | with_reducible apply ite_fst
    | with_reducible apply blockFail
    | with_reducible apply bump
    | with_reducible apply flapCheck
    | with_reducible apply hatState
    | with_reducible apply holdOut
    | with_reducible apply lnkEnter
    | with_reducible apply lnkNoted

theorem strapCheck {lat tim : Bool} {s0 s : State} (hk : Keeps lat tim s0 s) : Keeps lat tim s0 (State.strapCheck s) := by
  unfold State.strapCheck
  repeat' first
    | with_reducible assumption
    | with_reducible apply ite
    | with_reducible apply ite_snd
    | with_reducible apply ite_fst
    | with_reducible apply raise

theorem lnkEnable {lat tim : Bool} {s0 s : State} {l : Link} {on : Bool} (hk : Keeps lat tim s0 s) : Keeps lat tim s0 (State.lnkEnable s l on) := by
  unfold State.lnkEnable
  dsimp only
  repeat' first
    | with_reducible assumption
    | with_reducible apply ite
    | with_reducible apply ite_snd
    | with_reducible apply ite_fst
    | with_reducible apply flapCheck
    | with_reducible apply lnkEnter
    | with_reducible apply lnkNoted
    | with_reducible apply put

theorem applyAlloc {lat tim : Bool} {s0 s : State} {n : Nat} (hk : Keeps lat tim s0 s) : Keeps lat tim s0 (State.applyAlloc s n) := by
  unfold State.applyAlloc
  dsimp only
  repeat' first
    | with_reducible assumption
    | with_reducible apply ite
    | with_reducible apply ite_snd
    | with_reducible apply ite_fst
    | with_reducible apply bump
    | with_reducible apply put
    | with_reducible apply puts
    | split

theorem fwdEnd {lat tim : Bool} {s0 s : State} {tag : Nat} (hk : Keeps lat tim s0 s) : Keeps lat tim s0 (s.fwdEnd tag) := by
  unfold State.fwdEnd
  split
  · exact hk
  · dsimp only
    refine fwdAnswer (bump (withMil (hat hk) ?_))
    rfl

theorem fwdDrop {lat tim : Bool} {s0 s : State} (hk : Keeps lat tim s0 s) : Keeps lat tim s0 (State.fwdDrop s) := by
  unfold State.fwdDrop
  dsimp only
  repeat' first
    | with_reducible assumption
    | with_reducible apply each
    | with_reducible apply fwdEnd
    | (intro _ _ _; try dsimp only)

theorem hatEnable {lat tim : Bool} {s0 s : State} {en : Bool} (hk : Keeps lat tim s0 s) : Keeps lat tim s0 (State.hatEnable s en) := by
  unfold State.hatEnable
  dsimp only
  repeat' first
    | with_reducible assumption
    | with_reducible apply ite
    | with_reducible apply ite_snd
    | with_reducible apply ite_fst
    | with_reducible apply applyAlloc
    | with_reducible apply each
    | with_reducible apply flag
    | with_reducible apply fwdDrop
    | with_reducible apply hatState
    | with_reducible apply lnkEnable
    | with_reducible apply put
    | with_reducible apply putSync
    | with_reducible apply puts
    | with_reducible apply strapCheck
    | with_reducible apply hat
    | (intro _ _ _; try dsimp only)

theorem rejoin {lat tim : Bool} {s0 s : State} (hk : Keeps lat tim s0 s) : Keeps lat tim s0 (State.rejoin s) := by
  unfold State.rejoin
  dsimp only
  repeat' first
    | with_reducible assumption
    | with_reducible apply ite
    | with_reducible apply ite_snd
    | with_reducible apply ite_fst
    | with_reducible apply putSync
    | with_reducible apply puts

theorem cycleStart {lat tim : Bool} {s0 s : State} {t : Nat} (hk : Keeps lat tim s0 s) : Keeps lat tim s0 (State.cycleStart s t) := by
  unfold State.cycleStart
  extract_lets v0 v1 v2 v3 v4 v5 v6 v7 v8 v9 v10 v11 v12
  have h0 : Keeps lat tim s0 v0 := by
    dsimp only [v0]
    repeat' first
      | with_reducible assumption
      | with_reducible apply ite
      | with_reducible apply ite_snd
      | with_reducible apply ite_fst
      | with_reducible apply advance
  clear_value v0
  have h2 : Keeps lat tim s0 v2 := by
    dsimp only [v2]
    repeat' first
      | with_reducible assumption
      | with_reducible apply ite
      | with_reducible apply ite_snd
      | with_reducible apply ite_fst
      | with_reducible apply advance
      | with_reducible apply bump
      | with_reducible apply each
      | with_reducible apply lnkLate
      | with_reducible apply put
      | with_reducible apply putSync
      | with_reducible apply puts
      | with_reducible apply rejoin
      | with_reducible apply window
      | with_reducible apply hat
      | (intro _ _ _; try dsimp only)
  clear_value v2
  have h4 : Keeps lat tim s0 v4 := by
    dsimp only [v4]
    repeat' first
      | with_reducible assumption
      | with_reducible apply ite
      | with_reducible apply ite_snd
      | with_reducible apply ite_fst
      | with_reducible apply advance
      | with_reducible apply bump
      | with_reducible apply each
      | with_reducible apply lnkLate
      | with_reducible apply put
      | with_reducible apply putSync
      | with_reducible apply puts
  clear_value v4
  have h5 : Keeps lat tim s0 v5 := by
    dsimp only [v5]
    repeat' first
      | with_reducible assumption
      | with_reducible apply ite
      | with_reducible apply ite_snd
      | with_reducible apply ite_fst
      | with_reducible apply advance
      | with_reducible apply bump
      | with_reducible apply each
      | with_reducible apply lnkLate
      | with_reducible apply put
      | with_reducible apply putSync
      | with_reducible apply puts
      | with_reducible apply rejoin
  clear_value v5
  have h6 : Keeps lat tim s0 v6 := by
    dsimp only [v6]
    repeat' first
      | with_reducible assumption
      | with_reducible apply ite
      | with_reducible apply ite_snd
      | with_reducible apply ite_fst
      | with_reducible apply advance
      | with_reducible apply bump
      | with_reducible apply each
      | with_reducible apply lnkLate
      | with_reducible apply put
      | with_reducible apply putSync
  clear_value v6
  have h7 : Keeps lat tim s0 v7.2 := by
    dsimp only [v7]
    repeat' first
      | with_reducible assumption
      | with_reducible apply ite
      | with_reducible apply ite_snd
      | with_reducible apply ite_fst
      | with_reducible apply advance
      | with_reducible apply bump
      | with_reducible apply each
      | with_reducible apply lnkLate
      | with_reducible apply put
      | with_reducible apply putSync
      | with_reducible apply puts
      | with_reducible apply rejoin
      | with_reducible apply window
  clear_value v7
  have h8 : Keeps lat tim s0 v8 := by
    dsimp only [v8]
    repeat' first
      | with_reducible assumption
  clear_value v8
  have h11 : Keeps lat tim s0 v11 := by
    dsimp only [v11]
    repeat' first
      | with_reducible assumption
      | with_reducible apply ite
      | with_reducible apply ite_snd
      | with_reducible apply ite_fst
      | with_reducible apply advance
      | with_reducible apply bump
      | with_reducible apply each
      | with_reducible apply lnkLate
      | with_reducible apply put
      | with_reducible apply putSync
      | with_reducible apply puts
  clear_value v11
  repeat' first
    | with_reducible assumption
    | with_reducible apply ite
    | with_reducible apply ite_snd
    | with_reducible apply ite_fst
    | with_reducible apply advance
    | with_reducible apply bump
    | with_reducible apply each
    | with_reducible apply lnkLate
    | with_reducible apply put
    | with_reducible apply putSync
    | with_reducible apply puts
    | with_reducible apply rejoin
    | with_reducible apply window
    | with_reducible apply hat

theorem forward {lat tim : Bool} {s0 s : State} {l : Link} {ws : List Nat} {res : Nat} {e : FrameEnd} (hk : Keeps lat tim s0 s) : Keeps lat tim s0 (State.forward s l ws res e) := by
  unfold State.forward
  dsimp only
  repeat' first
    | with_reducible assumption
    | with_reducible apply ite
    | with_reducible apply ite_snd
    | with_reducible apply ite_fst
    | with_reducible apply hat

theorem ringError {lat tim : Bool} {s0 s : State} {e : Int} (hk : Keeps lat tim s0 s) : Keeps lat tim s0 (State.ringError s e) := by
  unfold State.ringError
  dsimp only
  repeat' first
    | with_reducible assumption
    | with_reducible apply ite
    | with_reducible apply ite_snd
    | with_reducible apply ite_fst
    | with_reducible apply bump
    | with_reducible apply fresh
    | with_reducible apply put
    | with_reducible apply putSync
    | with_reducible apply puts
    | with_reducible apply raise

theorem noteSeg {lat tim : Bool} {s0 s : State} {f : Frame} (hk : Keeps lat tim s0 s) : Keeps lat tim s0 (State.noteSeg s f) := by
  unfold State.noteSeg
  repeat' first
    | with_reducible assumption
    | with_reducible apply ite
    | with_reducible apply ite_snd
    | with_reducible apply ite_fst
    | with_reducible apply put

theorem frameIn {lat tim : Bool} {s0 s : State} {l : Link} {ws : List Nat} {e : FrameEnd} {codeErr : Bool} {rx16 t : Nat} {path res : Nat} (hk : Keeps lat tim s0 s) : Keeps lat tim s0 (State.frameIn s l ws e codeErr rx16 t path res) := by
  unfold State.frameIn
  extract_lets s1 
  have h1 : Keeps lat tim s0 s1 := advance hk
  refine ite h1 (ite (forward h1) (ite (lnkCrc (forward h1)) ?_))
  split
  · exact bump h1
  · next f hf =>
    dsimp only
    repeat' first
      | with_reducible assumption
      | with_reducible apply ite
      | with_reducible apply ringError
      | with_reducible apply noteSeg
      | with_reducible apply putSync
      | with_reducible apply puts
      | with_reducible apply put
      | with_reducible apply bump
      | with_reducible apply forward
      | with_reducible apply hat

theorem allocate {lat tim : Bool} {s0 s : State} (hk : Keeps lat tim s0 s) : Keeps lat tim s0 (State.allocate s) := by
  unfold State.allocate
  dsimp only
  repeat' first
    | with_reducible assumption
    | with_reducible apply ite
    | with_reducible apply ite_snd
    | with_reducible apply ite_fst
    | with_reducible apply foldl
    | with_reducible apply put
    | with_reducible apply puts
    | with_reducible apply hat
    | (intro _ _ _; try dsimp only)

theorem putChannel {lat tim : Bool} {s0 s : State} {n : Nat} (hk : Keeps lat tim s0 s) : Keeps lat tim s0 (State.putChannel s n) := by
  unfold State.putChannel
  dsimp only
  repeat' first
    | with_reducible assumption
    | with_reducible apply ite
    | with_reducible apply ite_snd
    | with_reducible apply ite_fst
    | with_reducible apply bump
    | with_reducible apply puts
    | split

theorem cycleUse {lat tim : Bool} {s0 s : State} {t : Nat} (hk : Keeps lat tim s0 s) : Keeps lat tim s0 (State.cycleUse s t) := by
  unfold State.cycleUse
  extract_lets v0 v1 v2 v3 v4 v5 v6 v7 v8 v9 v10 v11 v12 v13
  have h0 : Keeps lat tim s0 v0 := by
    dsimp only [v0]
    repeat' first
      | with_reducible assumption
      | with_reducible apply ite
      | with_reducible apply ite_snd
      | with_reducible apply ite_fst
      | with_reducible apply advance
  clear_value v0
  have h3 : Keeps lat tim s0 v3 := by
    dsimp only [v3]
    repeat' first
      | with_reducible assumption
      | with_reducible apply ite
      | with_reducible apply ite_snd
      | with_reducible apply ite_fst
      | with_reducible apply advance
      | with_reducible apply allocate
      | with_reducible apply applyAlloc
      | with_reducible apply checkSig
      | with_reducible apply each
      | with_reducible apply foldl
      | with_reducible apply fwdDrop
      | with_reducible apply hatState
      | with_reducible apply put
      | with_reducible apply putChannel
      | with_reducible apply puts
  clear_value v3
  have h5 : Keeps lat tim s0 v5 := by
    dsimp only [v5]
    repeat' first
      | with_reducible assumption
      | with_reducible apply ite
      | with_reducible apply ite_snd
      | with_reducible apply ite_fst
      | with_reducible apply advance
      | with_reducible apply allocate
      | with_reducible apply applyAlloc
      | with_reducible apply checkSig
      | with_reducible apply each
      | with_reducible apply foldl
      | with_reducible apply fwdDrop
      | with_reducible apply hatState
      | with_reducible apply put
      | with_reducible apply putChannel
      | with_reducible apply puts
  clear_value v5
  have h7 : Keeps lat tim s0 v7 := by
    dsimp only [v7]
    repeat' first
      | with_reducible assumption
      | with_reducible apply ite
      | with_reducible apply ite_snd
      | with_reducible apply ite_fst
      | with_reducible apply advance
      | with_reducible apply allocate
      | with_reducible apply applyAlloc
      | with_reducible apply checkSig
      | with_reducible apply each
      | with_reducible apply foldl
      | with_reducible apply fwdDrop
      | with_reducible apply hatState
      | with_reducible apply put
      | with_reducible apply putChannel
      | with_reducible apply puts
      | with_reducible apply recvSeg
      | with_reducible apply hat
  clear_value v7
  have h8 : Keeps lat tim s0 v8 := by
    dsimp only [v8]
    repeat' first
      | with_reducible assumption
      | with_reducible apply ite
      | with_reducible apply ite_snd
      | with_reducible apply ite_fst
      | with_reducible apply advance
      | with_reducible apply allocate
      | with_reducible apply applyAlloc
      | with_reducible apply checkSig
      | with_reducible apply each
      | with_reducible apply foldl
      | with_reducible apply fwdDrop
      | with_reducible apply hatState
  clear_value v8
  have h10 : Keeps lat tim s0 v10 := by
    dsimp only [v10]
    repeat' first
      | with_reducible assumption
      | with_reducible apply ite
      | with_reducible apply ite_snd
      | with_reducible apply ite_fst
      | with_reducible apply advance
      | with_reducible apply allocate
      | with_reducible apply applyAlloc
      | with_reducible apply checkSig
      | with_reducible apply each
      | with_reducible apply foldl
      | with_reducible apply fwdDrop
      | with_reducible apply hatState
      | with_reducible apply put
  clear_value v10
  have h11 : Keeps lat tim s0 v11 := by
    dsimp only [v11]
    repeat' first
      | with_reducible assumption
      | with_reducible apply ite
      | with_reducible apply ite_snd
      | with_reducible apply ite_fst
      | with_reducible apply advance
      | with_reducible apply allocate
      | with_reducible apply applyAlloc
      | with_reducible apply checkSig
      | with_reducible apply each
      | with_reducible apply foldl
      | with_reducible apply fwdDrop
      | with_reducible apply hatState
      | with_reducible apply put
      | with_reducible apply putChannel
      | with_reducible apply puts
      | with_reducible apply recvSeg
      | with_reducible apply hat
      | (intro _ _ _; try dsimp only)
  clear_value v11
  have h12 : Keeps lat tim s0 v12 := by
    dsimp only [v12]
    repeat' first
      | with_reducible assumption
      | with_reducible apply ite
      | with_reducible apply ite_snd
      | with_reducible apply ite_fst
      | with_reducible apply advance
      | with_reducible apply allocate
      | with_reducible apply applyAlloc
      | with_reducible apply checkSig
      | with_reducible apply each
      | with_reducible apply foldl
      | with_reducible apply fwdDrop
      | with_reducible apply hatState
      | with_reducible apply put
      | with_reducible apply putChannel
      | with_reducible apply puts
      | with_reducible apply recvSeg
      | with_reducible apply hat
      | (intro _ _ _; try dsimp only)
  clear_value v12
  have h13 : Keeps lat tim s0 v13 := by
    dsimp only [v13]
    repeat' first
      | with_reducible assumption
      | with_reducible apply ite
      | with_reducible apply ite_snd
      | with_reducible apply ite_fst
      | with_reducible apply advance
      | with_reducible apply allocate
      | with_reducible apply applyAlloc
      | with_reducible apply checkSig
      | with_reducible apply each
      | with_reducible apply foldl
      | with_reducible apply fwdDrop
      | with_reducible apply hatState
      | with_reducible apply put
      | with_reducible apply putChannel
      | with_reducible apply puts
      | with_reducible apply recvSeg
      | with_reducible apply hat
      | (intro _ _ _; try dsimp only)
  clear_value v13
  repeat' first
    | with_reducible assumption
    | with_reducible apply ite
    | with_reducible apply ite_snd
    | with_reducible apply ite_fst
    | with_reducible apply advance
    | with_reducible apply allocate

theorem allocLoss {lat tim : Bool} {s0 s : State} {n : Nat} (hk : Keeps lat tim s0 s) : Keeps lat tim s0 (State.allocLoss s n) := by
  unfold State.allocLoss
  dsimp only
  repeat' first
    | with_reducible assumption
    | with_reducible apply ite
    | with_reducible apply ite_snd
    | with_reducible apply ite_fst
    | with_reducible apply fallback
    | with_reducible apply put
    | with_reducible apply stnRaise

theorem rootTimeout {lat tim : Bool} {s0 s : State} (hk : Keeps lat tim s0 s) : Keeps lat tim s0 (State.rootTimeout s) := by
  unfold State.rootTimeout
  repeat' first
    | with_reducible assumption
    | with_reducible apply ite
    | with_reducible apply ite_snd
    | with_reducible apply ite_fst
    | with_reducible apply put
    | with_reducible apply putSync

theorem aloneEv {lat tim : Bool} {s0 s : State} (hk : Keeps lat tim s0 s) : Keeps lat tim s0 (State.aloneEv s) := by
  unfold State.aloneEv
  dsimp only
  repeat' first
    | with_reducible assumption
    | with_reducible apply ite
    | with_reducible apply ite_snd
    | with_reducible apply ite_fst
    | with_reducible apply putSync
    | with_reducible apply puts
    | with_reducible apply raise

theorem noSync {lat tim : Bool} {s0 s : State} (hk : Keeps lat tim s0 s) : Keeps lat tim s0 (State.noSync s) := by
  unfold State.noSync
  repeat' first
    | with_reducible assumption
    | with_reducible apply ite
    | with_reducible apply ite_snd
    | with_reducible apply ite_fst
    | with_reducible apply raise

end Sys2Proof.Machine.Keeps
end

