-- ==== Sys2Proof/Laws/KeepsCan.lean ====
section
/-!
SUPPORT. The operations of Machine/Can.lean are operations of the machine in the sense of `Keeps`.
-/
namespace Sys2Proof.Machine.Keeps

theorem withCan {lat tim : Bool} {s0 s : State} {c : Nat} {g : CanS → CanS} (hk : Keeps lat tim s0 s) : Keeps lat tim s0 (State.withCan s c g) := by
  unfold State.withCan
  repeat' first
    | with_reducible assumption
    | with_reducible apply can

theorem canAbort {lat tim : Bool} {s0 s : State} {c st : Nat} (hk : Keeps lat tim s0 s) : Keeps lat tim s0 (State.canAbort s c st) := by
  unfold State.canAbort
  dsimp only
  repeat' first
    | with_reducible assumption
    | with_reducible apply completeAll
    | with_reducible apply each
    | with_reducible apply withCan
    | (intro _ _ _; try dsimp only)

theorem tmPause {lat tim : Bool} {s0 s : State} {c : Nat} (hk : Keeps lat tim s0 s) : Keeps lat tim s0 (State.tmPause s c) := by
  unfold State.tmPause
  dsimp only
  repeat' first
    | with_reducible assumption
    | with_reducible apply puts

theorem canLeave {lat tim : Bool} {s0 s : State} {c : Nat} (hk : Keeps lat tim s0 s) : Keeps lat tim s0 (State.canLeave s c) := by
  unfold State.canLeave
  dsimp only
  repeat' first
    | with_reducible assumption
    | with_reducible apply canAbort
    | with_reducible apply completeAll
    | with_reducible apply puts
    | with_reducible apply tmPause

theorem canFinish {lat tim : Bool} {s0 s : State} {c : Nat} (hk : Keeps lat tim s0 s) : Keeps lat tim s0 (State.canFinish s c) := by
  unfold State.canFinish
  repeat' first
    | with_reducible assumption
    | with_reducible apply ite
    | with_reducible apply ite_snd
    | with_reducible apply ite_fst
    | with_reducible apply canLeave

theorem canClkOff {lat tim : Bool} {s0 s : State} {c : Nat} (hk : Keeps lat tim s0 s) : Keeps lat tim s0 (State.canClkOff s c) := by
  unfold State.canClkOff
  dsimp only
  repeat' first
    | with_reducible assumption
    | with_reducible apply ite
    | with_reducible apply ite_snd
    | with_reducible apply ite_fst
    | with_reducible apply canAbort
    | with_reducible apply canFinish
    | with_reducible apply completeAll
    | with_reducible apply puts
    | with_reducible apply raise
    | with_reducible apply tmPause

theorem canEnable {lat tim : Bool} {s0 s : State} {c : Nat} (hk : Keeps lat tim s0 s) : Keeps lat tim s0 (State.canEnable s c) := by
  unfold State.canEnable
  dsimp only
  repeat' first
    | with_reducible assumption
    | with_reducible apply ite
    | with_reducible apply ite_snd
    | with_reducible apply ite_fst
    | with_reducible apply canClkOff
    | with_reducible apply canFinish
    | with_reducible apply puts

theorem canIntegrated {lat tim : Bool} {s0 s : State} {c : Nat} (hk : Keeps lat tim s0 s) : Keeps lat tim s0 (State.canIntegrated s c) := by
  unfold State.canIntegrated
  dsimp only
  repeat' first
    | with_reducible assumption
    | with_reducible apply ite
    | with_reducible apply ite_snd
    | with_reducible apply ite_fst
    | with_reducible apply puts

theorem canClkOn {lat tim : Bool} {s0 s : State} {c : Nat} (hk : Keeps lat tim s0 s) : Keeps lat tim s0 (State.canClkOn s c) := by
  unfold State.canClkOn
  repeat' first
    | with_reducible assumption
    | with_reducible apply put

theorem canBusOff {lat tim : Bool} {s0 s : State} {c : Nat} (hk : Keeps lat tim s0 s) : Keeps lat tim s0 (State.canBusOff s c) := by
  unfold State.canBusOff
  dsimp only
  repeat' first
    | with_reducible assumption
    | with_reducible apply bump
    | with_reducible apply canAbort
    | with_reducible apply puts
    | with_reducible apply raise

theorem canErrState {lat tim : Bool} {s0 s : State} {c : Nat} (hk : Keeps lat tim s0 s) : Keeps lat tim s0 (State.canErrState s c) := by
  unfold State.canErrState
  dsimp only
  repeat' first
    | with_reducible assumption
    | with_reducible apply ite
    | with_reducible apply ite_snd
    | with_reducible apply ite_fst
    | with_reducible apply put

theorem recUp {lat tim : Bool} {s0 s : State} {c : Nat} {k : Int} (hk : Keeps lat tim s0 s) : Keeps lat tim s0 (State.recUp s c k) := by
  unfold State.recUp
  dsimp only
  repeat' first
    | with_reducible assumption
    | with_reducible apply ite
    | with_reducible apply ite_snd
    | with_reducible apply ite_fst
    | with_reducible apply put
    | with_reducible apply puts

theorem canError {lat tim : Bool} {s0 s : State} {c lec : Nat} {tx heavy : Bool} (hk : Keeps lat tim s0 s) : Keeps lat tim s0 (State.canError s c lec tx heavy) := by
  unfold State.canError
  dsimp only
  repeat' first
    | with_reducible assumption
    | with_reducible apply ite
    | with_reducible apply ite_snd
    | with_reducible apply ite_fst
    | with_reducible apply canBusOff
    | with_reducible apply canErrState
    | with_reducible apply canFinish
    | with_reducible apply put
    | with_reducible apply recUp

theorem canOff {lat tim : Bool} {s0 s : State} {c : Nat} (hk : Keeps lat tim s0 s) : Keeps lat tim s0 (State.canOff s c) := by
  unfold State.canOff
  repeat' first
    | with_reducible assumption
    | with_reducible apply puts

theorem recDown {lat tim : Bool} {s0 s : State} {c : Nat} (hk : Keeps lat tim s0 s) : Keeps lat tim s0 (State.recDown s c) := by
  unfold State.recDown
  dsimp only
  repeat' first
    | with_reducible assumption
    | with_reducible apply ite
    | with_reducible apply ite_snd
    | with_reducible apply ite_fst
    | with_reducible apply canErrState
    | with_reducible apply fresh
    | with_reducible apply put
    | with_reducible apply puts

theorem canRecover {lat tim : Bool} {s0 s : State} {c : Nat} (hk : Keeps lat tim s0 s) : Keeps lat tim s0 (State.canRecover s c) := by
  unfold State.canRecover
  repeat' first
    | with_reducible assumption
    | with_reducible apply put

theorem canRecovered {lat tim : Bool} {s0 s : State} {c : Nat} (hk : Keeps lat tim s0 s) : Keeps lat tim s0 (State.canRecovered s c) := by
  unfold State.canRecovered
  dsimp only
  repeat' first
    | with_reducible assumption
    | with_reducible apply ite
    | with_reducible apply ite_snd
    | with_reducible apply ite_fst
    | with_reducible apply completeAll
    | with_reducible apply puts

theorem txdTimeout {lat tim : Bool} {s0 s : State} {c : Nat} (hk : Keeps lat tim s0 s) : Keeps lat tim s0 (State.txdTimeout s c) := by
  unfold State.txdTimeout
  repeat' first
    | with_reducible assumption
    | with_reducible apply ite
    | with_reducible apply ite_snd
    | with_reducible apply ite_fst
    | with_reducible apply put

theorem keepFilters {lat tim : Bool} {s0 s : State} {old : State} {c : Nat} (hk : Keeps lat tim s0 s) : Keeps lat tim s0 (State.keepFilters s old c) := by
  unfold State.keepFilters
  try dsimp only
  repeat' first
    | with_reducible assumption
    | with_reducible apply ite
    | with_reducible apply ite_snd
    | with_reducible apply ite_fst
    | with_reducible apply withCan

theorem canFree {lat tim : Bool} {s0 s : State} {c : Nat} {l : List Nat} (hk : Keeps lat tim s0 s) : Keeps lat tim s0 (State.canFree s c l) := by
  unfold State.canFree
  try dsimp only
  repeat' first
    | with_reducible assumption
    | with_reducible apply ite
    | with_reducible apply ite_snd
    | with_reducible apply ite_fst
    | with_reducible apply withCan

theorem canNotify {lat tim : Bool} {s0 s : State} {c : Nat} (hk : Keeps lat tim s0 s) : Keeps lat tim s0 (State.canNotify s c) := by
  unfold State.canNotify
  dsimp only
  repeat' first
    | with_reducible assumption
    | with_reducible apply ite
    | with_reducible apply ite_snd
    | with_reducible apply ite_fst
    | with_reducible apply notice
    | with_reducible apply put
    | with_reducible apply puts

theorem canRxNotice {lat tim : Bool} {s0 s : State} {c : Nat} (hk : Keeps lat tim s0 s) : Keeps lat tim s0 (State.canRxNotice s c) := by
  unfold State.canRxNotice
  dsimp only
  repeat' first
    | with_reducible assumption
    | with_reducible apply ite
    | with_reducible apply ite_snd
    | with_reducible apply ite_fst
    | with_reducible apply canNotify
    | with_reducible apply put

theorem canRxDelay {lat tim : Bool} {s0 s : State} {c : Nat} (hk : Keeps lat tim s0 s) : Keeps lat tim s0 (State.canRxDelay s c) := by
  unfold State.canRxDelay
  repeat' first
    | with_reducible assumption
    | with_reducible apply ite
    | with_reducible apply ite_snd
    | with_reducible apply ite_fst
    | with_reducible apply canNotify

theorem canFill {lat tim : Bool} {s0 s : State} {c : Nat} {host : Bool} {f : CanFrame} {flt tick : Nat} (hk : Keeps lat tim s0 s) : Keeps lat tim s0 (State.canFill s c host f flt tick) := by
  unfold State.canFill
  dsimp only
  repeat' first
    | with_reducible assumption
    | with_reducible apply ite
    | with_reducible apply ite_snd
    | with_reducible apply ite_fst
    | with_reducible apply bump
    | with_reducible apply canRxNotice
    | with_reducible apply put
    | with_reducible apply withCan
    | split

theorem canFilter {lat tim : Bool} {s0 s : State} {c : Nat} {f : CanFrame} {tick : Nat} (hk : Keeps lat tim s0 s) : Keeps lat tim s0 (State.canFilter s c f tick) := by
  unfold State.canFilter
  dsimp only
  repeat' first
    | with_reducible assumption
    | with_reducible apply canFill
    | with_reducible apply withCan
    | split

theorem canAck {lat tim : Bool} {s0 s : State} {c first n : Nat} (hk : Keeps lat tim s0 s) : Keeps lat tim s0 (State.canAck s c first n) := by
  unfold State.canAck
  repeat' first
    | with_reducible assumption
    | with_reducible apply canFree

theorem canConsume {lat tim : Bool} {s0 s : State} {c : Nat} (hk : Keeps lat tim s0 s) : Keeps lat tim s0 (State.canConsume s c) := by
  unfold State.canConsume
  repeat' first
    | with_reducible assumption
    | with_reducible apply canFree

theorem tdcMeasure {lat tim : Bool} {s0 s : State} {c : Nat} {f : CanFrame} (hk : Keeps lat tim s0 s) : Keeps lat tim s0 (State.tdcMeasure s c f) := by
  unfold State.tdcMeasure
  repeat' first
    | with_reducible assumption
    | with_reducible apply ite
    | with_reducible apply ite_snd
    | with_reducible apply ite_fst
    | with_reducible apply putFree

theorem txGood {lat tim : Bool} {s0 s : State} {c : Nat} {f : CanFrame} (hk : Keeps lat tim s0 s) : Keeps lat tim s0 (State.txGood s c f) := by
  unfold State.txGood
  try dsimp only
  repeat' first
    | with_reducible assumption
    | with_reducible apply canErrState
    | with_reducible apply put
    | with_reducible apply withCan

theorem tunAcked {lat tim : Bool} {s0 s : State} {c : Nat} (hk : Keeps lat tim s0 s) : Keeps lat tim s0 (State.tunAcked s c) := by
  unfold State.tunAcked
  dsimp only
  repeat' first
    | with_reducible assumption
    | exact tail (by assumption) rfl
    | with_reducible apply ite
    | with_reducible apply ite_snd
    | with_reducible apply ite_fst
    | with_reducible apply withCan
    | with_reducible apply withPort
    | split

theorem txEnd {lat tim : Bool} {s0 s : State} {c ix st : Nat} (hk : Keeps lat tim s0 s) : Keeps lat tim s0 (State.txEnd s c ix st) := by
  unfold State.txEnd
  try dsimp only
  repeat' first
    | with_reducible assumption
    | with_reducible apply completeAll
    | with_reducible apply withCan

theorem canSent {lat tim : Bool} {s0 s : State} {c : Nat} {acked : Bool} (hk : Keeps lat tim s0 s) : Keeps lat tim s0 (State.canSent s c acked) := by
  unfold State.canSent
  dsimp only
  repeat' first
    | with_reducible assumption
    | with_reducible apply ite
    | with_reducible apply ite_snd
    | with_reducible apply ite_fst
    | with_reducible apply tdcMeasure
    | with_reducible apply tunAcked
    | with_reducible apply txEnd
    | with_reducible apply txGood
    | split

theorem canTxTimeout {lat tim : Bool} {s0 s : State} {c ix : Nat} (hk : Keeps lat tim s0 s) : Keeps lat tim s0 (State.canTxTimeout s c ix) := by
  unfold State.canTxTimeout
  repeat' first
    | with_reducible assumption
    | with_reducible apply ite
    | with_reducible apply ite_snd
    | with_reducible apply ite_fst
    | with_reducible apply canFinish
    | with_reducible apply txEnd

theorem canDisable {lat tim : Bool} {s0 s : State} {c : Nat} (hk : Keeps lat tim s0 s) : Keeps lat tim s0 (State.canDisable s c) := by
  unfold State.canDisable
  dsimp only
  repeat' first
    | with_reducible assumption
    | with_reducible apply ite
    | with_reducible apply ite_snd
    | with_reducible apply ite_fst
    | with_reducible apply canLeave
    | with_reducible apply puts

theorem canQueue {lat tim : Bool} {s0 s : State} {c ix : Nat} {f : CanFrame} (hk : Keeps lat tim s0 s) : Keeps lat tim s0 (State.canQueue s c ix f) := by
  unfold State.canQueue
  try dsimp only
  repeat' first
    | with_reducible assumption
    | with_reducible apply withCan

theorem timeMaster {lat tim : Bool} {s0 s : State} {c role prio per : Nat} (hk : Keeps lat tim s0 s) : Keeps lat tim s0 (State.timeMaster s c role prio per) := by
  unfold State.timeMaster
  dsimp only
  repeat' first
    | with_reducible assumption
    | with_reducible apply ite
    | with_reducible apply ite_snd
    | with_reducible apply ite_fst
    | with_reducible apply put
    | with_reducible apply puts

theorem timeBackup {lat tim : Bool} {s0 s : State} {c : Nat} (hk : Keeps lat tim s0 s) : Keeps lat tim s0 (State.timeBackup s c) := by
  unfold State.timeBackup
  dsimp only
  repeat' first
    | with_reducible assumption
    | with_reducible apply ite
    | with_reducible apply ite_snd
    | with_reducible apply ite_fst
    | with_reducible apply puts

theorem timeSend {lat tim : Bool} {s0 s : State} {c t : Nat} (hk : Keeps lat tim s0 s) : Keeps lat tim s0 (State.timeSend s c t) := by
  unfold State.timeSend
  dsimp only
  repeat' first
    | with_reducible assumption
    | with_reducible apply ite
    | with_reducible apply ite_snd
    | with_reducible apply ite_fst
    | with_reducible apply advance
    | with_reducible apply puts
    | with_reducible apply tdcMeasure
    | with_reducible apply txGood

theorem timeTake {lat tim : Bool} {s0 s : State} {c p t : Nat} {f : CanFrame} (hk : Keeps lat tim s0 s) : Keeps lat tim s0 (State.timeTake s c p t f) := by
  unfold State.timeTake
  dsimp only
  repeat' first
    | with_reducible assumption
    | with_reducible apply ite
    | with_reducible apply ite_snd
    | with_reducible apply ite_fst
    | with_reducible apply puts

theorem timeRef {lat tim : Bool} {s0 s : State} {c p t : Nat} {f : CanFrame} (hk : Keeps lat tim s0 s) : Keeps lat tim s0 (State.timeRef s c p t f) := by
  unfold State.timeRef
  dsimp only
  repeat' first
    | with_reducible assumption
    | with_reducible apply ite
    | with_reducible apply ite_snd
    | with_reducible apply ite_fst
    | with_reducible apply put
    | with_reducible apply puts
    | with_reducible apply raise
    | with_reducible apply timeTake

theorem ntLoss {lat tim : Bool} {s0 s : State} {c : Nat} (hk : Keeps lat tim s0 s) : Keeps lat tim s0 (State.ntLoss s c) := by
  unfold State.ntLoss
  dsimp only
  repeat' first
    | with_reducible assumption
    | with_reducible apply ite
    | with_reducible apply ite_snd
    | with_reducible apply ite_fst
    | with_reducible apply puts
    | with_reducible apply raise

theorem canRemote {lat tim : Bool} {s0 s : State} {c : Nat} (hk : Keeps lat tim s0 s) : Keeps lat tim s0 (State.canRemote s c) := by
  unfold State.canRemote
  repeat' first
    | with_reducible assumption
    | with_reducible apply bump
    | with_reducible apply recDown

theorem canReceive {lat tim : Bool} {s0 s : State} {c t : Nat} {f : CanFrame} (hk : Keeps lat tim s0 s) : Keeps lat tim s0 (State.canReceive s c t f) := by
  unfold State.canReceive
  dsimp only
  repeat' first
    | with_reducible assumption
    | with_reducible apply advance
    | with_reducible apply canFilter
    | with_reducible apply recDown
    | with_reducible apply timeRef
    | split

end Sys2Proof.Machine.Keeps
end

