-- ==== Sys2Proof/Laws/KeepsServices.lean ====
section
/-!
SUPPORT. The operations of Machine/Services.lean are operations of the machine in the sense of `Keeps`.
-/
namespace Sys2Proof.Machine.Keeps

theorem putParam {lat tim : Bool} {s0 s : State} {k i : Nat} {v : Int} (hk : Keeps lat tim s0 s) : Keeps lat tim s0 (State.putParam s k i v) := by
  unfold State.putParam
  repeat' first
    | with_reducible assumption
    | with_reducible apply put

theorem spoolStart {lat tim : Bool} {s0 s : State} {k : Nat} (hk : Keeps lat tim s0 s) : Keeps lat tim s0 (State.spoolStart s k) := by
  unfold State.spoolStart
  dsimp only
  repeat' first
    | with_reducible assumption
    | with_reducible apply ite
    | with_reducible apply ite_snd
    | with_reducible apply ite_fst
    | with_reducible apply axFollow
    | with_reducible apply evtArm
    | with_reducible apply put
    | with_reducible apply puts

theorem svcBegin {lat tim : Bool} {s0 s : State} {k v w : Nat} {l : List (Nat × Nat)} (hk : Keeps lat tim s0 s) : Keeps lat tim s0 (State.svcBegin s k v w l) := by
  unfold State.svcBegin
  dsimp only
  repeat' first
    | with_reducible assumption
    | with_reducible apply ite
    | with_reducible apply ite_snd
    | with_reducible apply ite_fst
    | with_reducible apply each
    | with_reducible apply enterRun
    | with_reducible apply orBits
    | with_reducible apply put
    | with_reducible apply putParam
    | with_reducible apply puts
    | with_reducible apply spoolStart
    | with_reducible apply svcFree
    | (intro _ _ _; try dsimp only)

theorem spoolEnd {lat tim : Bool} {s0 s : State} {k : Nat} (hk : Keeps lat tim s0 s) : Keeps lat tim s0 (State.spoolEnd s k) := by
  unfold State.spoolEnd
  repeat' first
    | with_reducible assumption
    | with_reducible apply spoolOff

theorem svcStopOn {lat tim : Bool} {s0 s : State} {k : Nat} {l : List Nat} (hk : Keeps lat tim s0 s) : Keeps lat tim s0 (State.svcStopOn s k l) := by
  unfold State.svcStopOn
  try dsimp only
  repeat' first
    | with_reducible assumption
    | with_reducible apply ite
    | with_reducible apply ite_snd
    | with_reducible apply ite_fst
    | with_reducible apply each
    | with_reducible apply put
    | with_reducible apply stopStation
    | with_reducible apply svcDrop
    | (intro _ _ _; try dsimp only)

theorem svcStop {lat tim : Bool} {s0 s : State} {k ty : Nat} (hk : Keeps lat tim s0 s) : Keeps lat tim s0 (State.svcStop s k ty) := by
  unfold State.svcStop
  dsimp only
  repeat' first
    | with_reducible assumption
    | with_reducible apply ite
    | with_reducible apply ite_snd
    | with_reducible apply ite_fst
    | with_reducible apply completeAll
    | with_reducible apply put
    | with_reducible apply puts
    | with_reducible apply svcStopOn

theorem svcStopping {lat tim : Bool} {s0 s : State} {k : Nat} (hk : Keeps lat tim s0 s) : Keeps lat tim s0 (State.svcStopping s k) := by
  unfold State.svcStopping
  dsimp only
  repeat' first
    | with_reducible assumption
    | with_reducible apply ite
    | with_reducible apply ite_snd
    | with_reducible apply ite_fst
    | with_reducible apply completeAll
    | with_reducible apply spoolEnd
    | with_reducible apply svcFree
    | with_reducible apply svcStopOn

theorem svcAllDown {lat tim : Bool} {s0 s : State} (hk : Keeps lat tim s0 s) : Keeps lat tim s0 (State.svcAllDown s) := by
  unfold State.svcAllDown
  dsimp only
  repeat' first
    | with_reducible assumption
    | with_reducible apply ite
    | with_reducible apply ite_snd
    | with_reducible apply ite_fst
    | with_reducible apply each
    | with_reducible apply stopStation
    | with_reducible apply svcDrop
    | with_reducible apply svcEnd
    | (intro _ _ _; try dsimp only)

theorem tokenTimeout {lat tim : Bool} {s0 s : State} (hk : Keeps lat tim s0 s) : Keeps lat tim s0 (State.tokenTimeout s) := by
  unfold State.tokenTimeout
  repeat' first
    | with_reducible assumption
    | with_reducible apply ite
    | with_reducible apply ite_snd
    | with_reducible apply ite_fst
    | with_reducible apply svcAllDown

theorem svcHear {lat tim : Bool} {s0 s : State} (hk : Keeps lat tim s0 s) : Keeps lat tim s0 (State.svcHear s) := by
  unfold State.svcHear
  dsimp only
  repeat' first
    | with_reducible assumption
    | with_reducible apply each
    | with_reducible apply puts
    | (intro _ _ _; try dsimp only)

theorem svcOut {lat tim : Bool} {s0 s : State} {k n : Nat} {v : Int} (hk : Keeps lat tim s0 s) : Keeps lat tim s0 (State.svcOut s k n v) := by
  unfold State.svcOut
  dsimp only
  repeat' first
    | with_reducible assumption
    | with_reducible apply ite
    | with_reducible apply ite_snd
    | with_reducible apply ite_fst
    | with_reducible apply put

theorem svcTakeOver {lat tim : Bool} {s0 s : State} {k : Nat} (hk : Keeps lat tim s0 s) : Keeps lat tim s0 (State.svcTakeOver s k) := by
  unfold State.svcTakeOver
  dsimp only
  repeat' first
    | with_reducible assumption
    | with_reducible apply ite
    | with_reducible apply ite_snd
    | with_reducible apply ite_fst
    | with_reducible apply clrBits
    | with_reducible apply completeSet
    | with_reducible apply each
    | with_reducible apply presetIstar
    | with_reducible apply puts
    | (intro _ _ _; try dsimp only)

theorem svcLimit {lat tim : Bool} {s0 s : State} {k : Nat} {v : Bool} (hk : Keeps lat tim s0 s) : Keeps lat tim s0 (State.svcLimit s k v) := by
  unfold State.svcLimit
  repeat' first
    | with_reducible assumption
    | with_reducible apply ite
    | with_reducible apply ite_snd
    | with_reducible apply ite_fst
    | with_reducible apply bump

theorem svcTension {lat tim : Bool} {s0 s : State} {k : Nat} (hk : Keeps lat tim s0 s) : Keeps lat tim s0 (State.svcTension s k) := by
  unfold State.svcTension
  dsimp only
  repeat' first
    | with_reducible assumption
    | with_reducible apply ite
    | with_reducible apply ite_snd
    | with_reducible apply ite_fst
    | with_reducible apply each
    | with_reducible apply put
    | with_reducible apply puts
    | with_reducible apply svcLimit
    | with_reducible apply svcOut
    | (intro _ _ _; try dsimp only)

theorem svcPayout {lat tim : Bool} {s0 s : State} {k : Nat} (hk : Keeps lat tim s0 s) : Keeps lat tim s0 (State.svcPayout s k) := by
  unfold State.svcPayout
  dsimp only
  repeat' first
    | with_reducible assumption
    | with_reducible apply ite
    | with_reducible apply ite_snd
    | with_reducible apply ite_fst
    | with_reducible apply each
    | with_reducible apply puts
    | with_reducible apply svcLimit
    | with_reducible apply svcOut
    | (intro _ _ _; try dsimp only)

theorem spoolDev {lat tim : Bool} {s0 s : State} {k : Nat} (hk : Keeps lat tim s0 s) : Keeps lat tim s0 (State.spoolDev s k) := by
  unfold State.spoolDev
  dsimp only
  repeat' first
    | with_reducible assumption
    | with_reducible apply ite
    | with_reducible apply ite_snd
    | with_reducible apply ite_fst
    | with_reducible apply put
    | with_reducible apply stnRaise
    | with_reducible apply stopStation
    | with_reducible apply svcDrop
    | with_reducible apply svcEnd

theorem svcSpool {lat tim : Bool} {s0 s : State} {k : Nat} (hk : Keeps lat tim s0 s) : Keeps lat tim s0 (State.svcSpool s k) := by
  unfold State.svcSpool
  dsimp only
  repeat' first
    | with_reducible assumption
    | with_reducible apply ite
    | with_reducible apply ite_snd
    | with_reducible apply ite_fst
    | with_reducible apply put
    | with_reducible apply puts
    | with_reducible apply spoolDev

theorem heaveLoss {lat tim : Bool} {s0 s : State} {k : Nat} (hk : Keeps lat tim s0 s) : Keeps lat tim s0 (State.heaveLoss s k) := by
  unfold State.heaveLoss
  dsimp only
  repeat' first
    | with_reducible assumption
    | with_reducible apply ite
    | with_reducible apply ite_snd
    | with_reducible apply ite_fst
    | with_reducible apply put
    | with_reducible apply puts
    | with_reducible apply stnRaise

theorem heaveFrames {lat tim : Bool} {s0 s : State} {k : Nat} {fs : List RxEnt} (hk : Keeps lat tim s0 s) : Keeps lat tim s0 (State.heaveFrames s k fs) := by
  unfold State.heaveFrames
  dsimp only
  repeat' first
    | with_reducible assumption
    | with_reducible apply ite
    | with_reducible apply ite_snd
    | with_reducible apply ite_fst
    | with_reducible apply bumpBy
    | with_reducible apply put
    | with_reducible apply puts
    | with_reducible apply unraise
    | split

theorem svcHeave {lat tim : Bool} {s0 s : State} {k : Nat} {fs : List (Nat × RxEnt)} (hk : Keeps lat tim s0 s) : Keeps lat tim s0 (State.svcHeave s k fs) := by
  unfold State.svcHeave
  dsimp only
  repeat' first
    | with_reducible assumption
    | with_reducible apply ite
    | with_reducible apply ite_snd
    | with_reducible apply ite_fst
    | with_reducible apply each
    | with_reducible apply heaveFrames
    | with_reducible apply puts
    | with_reducible apply svcLimit
    | with_reducible apply svcOut
    | (intro _ _ _; try dsimp only)

theorem pmsLoss {lat tim : Bool} {s0 s : State} {k : Nat} (hk : Keeps lat tim s0 s) : Keeps lat tim s0 (State.pmsLoss s k) := by
  unfold State.pmsLoss
  dsimp only
  repeat' first
    | with_reducible assumption
    | with_reducible apply ite
    | with_reducible apply ite_snd
    | with_reducible apply ite_fst
    | with_reducible apply puts
    | with_reducible apply stnRaise

theorem pmsFrames {lat tim : Bool} {s0 s : State} {k : Nat} {fs : List RxEnt} (hk : Keeps lat tim s0 s) : Keeps lat tim s0 (State.pmsFrames s k fs) := by
  unfold State.pmsFrames
  dsimp only
  repeat' first
    | with_reducible assumption
    | with_reducible apply ite
    | with_reducible apply ite_snd
    | with_reducible apply ite_fst
    | with_reducible apply bumpBy
    | with_reducible apply puts
    | with_reducible apply unraise
    | split

theorem svcThruster {lat tim : Bool} {s0 s : State} {k : Nat} {fs : List (Nat × RxEnt)} (hk : Keeps lat tim s0 s) : Keeps lat tim s0 (State.svcThruster s k fs) := by
  unfold State.svcThruster
  dsimp only
  repeat' first
    | with_reducible assumption
    | with_reducible apply ite
    | with_reducible apply ite_snd
    | with_reducible apply ite_fst
    | with_reducible apply each
    | with_reducible apply foldl
    | with_reducible apply fresh
    | with_reducible apply pmsFrames
    | with_reducible apply presetIstar
    | with_reducible apply put
    | with_reducible apply puts
    | with_reducible apply svcLimit
    | with_reducible apply svcOut
    | (intro _ _ _; try dsimp only)
    | split

theorem shedKeepEnd {lat tim : Bool} {s0 s : State} {k : Nat} (hk : Keeps lat tim s0 s) : Keeps lat tim s0 (State.shedKeepEnd s k) := by
  unfold State.shedKeepEnd
  repeat' first
    | with_reducible assumption
    | with_reducible apply ite
    | with_reducible apply ite_snd
    | with_reducible apply ite_fst
    | with_reducible apply put

theorem svcShed {lat tim : Bool} {s0 s : State} {k : Nat} {fs : List (Nat × RxEnt)} (hk : Keeps lat tim s0 s) : Keeps lat tim s0 (State.svcShed s k fs) := by
  unfold State.svcShed
  dsimp only
  repeat' first
    | with_reducible assumption
    | with_reducible apply ite
    | with_reducible apply ite_snd
    | with_reducible apply ite_fst
    | with_reducible apply completeAll
    | with_reducible apply each
    | with_reducible apply putShed
    | with_reducible apply puts
    | with_reducible apply svcDrop
    | with_reducible apply svcFree
    | with_reducible apply svcLimit
    | (intro _ _ _; try dsimp only)

theorem svcApply {lat tim : Bool} {s0 s : State} (hk : Keeps lat tim s0 s) : Keeps lat tim s0 (State.svcApply s) := by
  unfold State.svcApply
  dsimp only
  repeat' first
    | with_reducible assumption
    | with_reducible apply ite
    | with_reducible apply ite_snd
    | with_reducible apply ite_fst
    | with_reducible apply each
    | with_reducible apply putParam
    | with_reducible apply svcNew
    | (intro _ _ _; try dsimp only)

theorem svcRun {lat tim : Bool} {s0 s : State} {k : Nat} {fs : List (Nat × RxEnt)} (hk : Keeps lat tim s0 s) : Keeps lat tim s0 (State.svcRun s k fs) := by
  unfold State.svcRun
  dsimp only
  repeat' first
    | with_reducible assumption
    | with_reducible apply ite
    | with_reducible apply ite_snd
    | with_reducible apply ite_fst
    | with_reducible apply svcHeave
    | with_reducible apply svcPayout
    | with_reducible apply svcShed
    | with_reducible apply svcSpool
    | with_reducible apply svcStopping
    | with_reducible apply svcTakeOver
    | with_reducible apply svcTension
    | with_reducible apply svcThruster
    | split

theorem roleCheck {lat tim : Bool} {s0 s : State} (hk : Keeps lat tim s0 s) : Keeps lat tim s0 (State.roleCheck s) := by
  unfold State.roleCheck
  try dsimp only
  repeat' first
    | with_reducible assumption
    | with_reducible apply each
    | with_reducible apply put
    | (intro _ _ _; try dsimp only)

theorem svcTick {lat tim : Bool} {s0 s : State} {t : Nat} (hk : Keeps lat tim s0 s) : Keeps lat tim s0 (State.svcTick s t) := by
  unfold State.svcTick
  dsimp only
  repeat' first
    | with_reducible assumption
    | with_reducible apply ite
    | with_reducible apply ite_snd
    | with_reducible apply ite_fst
    | with_reducible apply advance
    | with_reducible apply canConsume
    | with_reducible apply each
    | with_reducible apply putK
    | with_reducible apply roleCheck
    | with_reducible apply svcApply
    | with_reducible apply svcHear
    | with_reducible apply svcHeard
    | with_reducible apply svcRun
    | (intro _ _ _; try dsimp only)

end Sys2Proof.Machine.Keeps
end

