-- ==== Sys2Proof/Laws/KeepsRegMap.lean ====
section
/-!
SUPPORT. The operations of Machine/RegMap.lean are operations of the machine in the sense of `Keeps`.
-/
namespace Sys2Proof.Machine.Keeps

theorem settleAt {lat tim : Bool} {s0 s : State} {a : Nat} (hk : Keeps lat tim s0 s) : Keeps lat tim s0 (State.settleAt s a) := by
  unfold State.settleAt
  dsimp only
  repeat' first
    | with_reducible assumption
    | with_reducible apply ite
    | with_reducible apply ite_snd
    | with_reducible apply ite_fst
    | with_reducible apply each
    | with_reducible apply settleSlot
    | (intro _ _ _; try dsimp only)

theorem viewHalf {lat tim : Bool} {s0 s : State} {a : Nat} (hk : Keeps lat tim s0 s) : Keeps lat tim s0 (State.viewHalf s a) := by
  unfold State.viewHalf
  dsimp only
  repeat' first
    | with_reducible assumption
    | with_reducible apply ite
    | with_reducible apply ite_snd
    | with_reducible apply ite_fst
    | with_reducible apply each
    | with_reducible apply flag
    | with_reducible apply put
    | with_reducible apply puts
    | (intro _ _ _; try dsimp only)

theorem view {lat tim : Bool} {s0 s : State} {a : Nat} (hk : Keeps lat tim s0 s) : Keeps lat tim s0 (State.view s a) := by
  unfold State.view
  dsimp only
  repeat' first
    | with_reducible assumption
    | with_reducible apply ite
    | with_reducible apply ite_snd
    | with_reducible apply ite_fst
    | with_reducible apply each
    | with_reducible apply flag
    | with_reducible apply holdEnd
    | with_reducible apply put
    | with_reducible apply puts
    | with_reducible apply settleAt
    | with_reducible apply viewHalf
    | (intro _ _ _; try dsimp only)

theorem beforeNow {lat tim : Bool} {s0 s : State} {x : Hit} (hk : Keeps lat tim s0 s) : Keeps lat tim s0 (State.beforeNow s x) := by
  unfold State.beforeNow
  try dsimp only
  repeat' first
    | with_reducible assumption
    | with_reducible apply ite
    | with_reducible apply ite_snd
    | with_reducible apply ite_fst
    | with_reducible apply each
    | with_reducible apply put
    | (intro _ _ _; try dsimp only)
    | split

theorem clearRc {lat tim : Bool} {s0 s : State} {x : Hit} (hk : Keeps lat tim s0 s) : Keeps lat tim s0 (State.clearRc s x) := by
  refine each hk fun d s h => ite ?_ h
  split
  · exact marks (put h)
  · exact put h

theorem setShadow {lat tim : Bool} {s0 s : State} {k : Nat} {v : Int} (hk : Keeps lat tim s0 s) : Keeps lat tim s0 (State.setShadow s k v) := by
  unfold State.setShadow
  repeat' first
    | with_reducible assumption
    | with_reducible apply shadows

theorem readWord {lat tim : Bool} {s0 s : State} {a : Nat} (hk : Keeps lat tim s0 s) : Keeps lat tim s0 (State.readWord s a).2 := by
  unfold State.readWord
  dsimp only
  repeat' first
    | with_reducible assumption
    | with_reducible apply ite
    | with_reducible apply ite_snd
    | with_reducible apply ite_fst
    | with_reducible apply beforeNow
    | with_reducible apply clearRc
    | with_reducible apply setShadow
    | with_reducible apply settleAt
    | with_reducible apply view
    | split

theorem readWords {lat tim : Bool} {s0 s : State} {a n : Nat} (hk : Keeps lat tim s0 s) : Keeps lat tim s0 (s.readWords a n).2 := by
  induction n generalizing s a with
  | zero => exact hk
  | succ n ih =>
    unfold State.readWords
    exact ih (readWord hk)

end Sys2Proof.Machine.Keeps
end

