-- ==== Sys2Proof/Laws/KeepsRegAccess.lean ====
section
/-!
SUPPORT. The operations of Machine/RegAccess.lean are operations of the machine in the sense of `Keeps`.
-/
namespace Sys2Proof.Machine.Keeps

theorem storeWord {lat tim : Bool} {s0 s : State} {x : Hit} {w w1 : Nat} (hk : Keeps lat tim s0 s) : Keeps lat tim s0 (s.storeWord x w w1) := by
  unfold State.storeWord
  refine ite (each hk fun d s h => ?_) (each hk fun d s h => ?_)
  · split <;> first | exact put h | exact clrBits h | exact h
  · dsimp only
    split
    iterate 3 exact ite (put h) (ite (held h) (held (put h)))
    exact h

theorem maskSlot {lat tim : Bool} {s0 s : State} {h m : Nat} (hk : Keeps lat tim s0 s) : Keeps lat tim s0 (State.maskSlot s h m) := by
  unfold State.maskSlot
  dsimp only
  repeat' first
    | with_reducible assumption
    | with_reducible apply each
    | with_reducible apply put
    | (intro _ _ _; try dsimp only)

theorem slotConfigured {lat tim : Bool} {s0 s : State} {old : State} {h m : Nat} (hk : Keeps lat tim s0 s) : Keeps lat tim s0 (State.slotConfigured s old h m) := by
  unfold State.slotConfigured
  dsimp only
  repeat' first
    | with_reducible assumption
    | with_reducible apply ite
    | with_reducible apply ite_snd
    | with_reducible apply ite_fst
    | with_reducible apply maskSlot
    | with_reducible apply put
    | with_reducible apply putLoad
    | with_reducible apply putLosers
    | with_reducible apply puts
    | with_reducible apply resetSlot

theorem armWatchdog {lat tim : Bool} {s0 s : State} (hk : Keeps lat tim s0 s) : Keeps lat tim s0 (State.armWatchdog s) := by
  unfold State.armWatchdog
  try dsimp only
  repeat' first
    | with_reducible assumption
    | with_reducible apply ite
    | with_reducible apply ite_snd
    | with_reducible apply ite_fst
    | with_reducible apply put
    | with_reducible apply withMil
    | exact rfl

theorem axisClass {lat tim : Bool} {s0 s : State} {n : Nat} (hk : Keeps lat tim s0 s) : Keeps lat tim s0 (State.axisClass s n) := by
  unfold State.axisClass
  dsimp only
  repeat' first
    | with_reducible assumption
    | with_reducible apply ite
    | with_reducible apply ite_snd
    | with_reducible apply ite_fst
    | with_reducible apply axCoil
    | with_reducible apply axStandby
    | with_reducible apply axToFault
    | with_reducible apply put

theorem axisPosSet {lat tim : Bool} {s0 s : State} {n : Nat} (hk : Keeps lat tim s0 s) : Keeps lat tim s0 (State.axisPosSet s n) := by
  unfold State.axisPosSet
  repeat' first
    | with_reducible assumption
    | with_reducible apply ascJumped
    | with_reducible apply axLag
    | with_reducible apply put

theorem guardWritten {lat tim : Bool} {s0 s : State} {h : Nat} (hk : Keeps lat tim s0 s) : Keeps lat tim s0 (State.guardWritten s h) := by
  unfold State.guardWritten
  dsimp only
  repeat' first
    | with_reducible assumption
    | with_reducible apply ite
    | with_reducible apply ite_snd
    | with_reducible apply ite_fst
    | with_reducible apply chgLow
    | with_reducible apply put

theorem afterWrite {lat tim : Bool} {s0 s : State} {old : State} {x : Hit} (hk : Keeps lat tim s0 s) : Keeps lat tim s0 (State.afterWrite s old x) := by
  unfold State.afterWrite
  dsimp only
  repeat' first
    | with_reducible assumption
    | with_reducible apply ite
    | with_reducible apply ite_snd
    | with_reducible apply ite_fst
    | with_reducible apply armWatchdog
    | with_reducible apply ascJumped
    | with_reducible apply axisClass
    | with_reducible apply axisPosSet
    | with_reducible apply canDisable
    | with_reducible apply canEnable
    | with_reducible apply each
    | with_reducible apply guardWritten
    | with_reducible apply hatEnable
    | with_reducible apply keepFilters
    | with_reducible apply maskSlot
    | with_reducible apply put
    | with_reducible apply putExt
    | with_reducible apply putRing
    | with_reducible apply putSlow
    | with_reducible apply puts
    | with_reducible apply rephase
    | with_reducible apply rpFollow
    | with_reducible apply rpWritten
    | with_reducible apply slotConfigured
    | with_reducible apply startAcq
    | with_reducible apply strapCheck
    | with_reducible apply trigger
    | (intro _ _ _; try dsimp only)
    | split

theorem wkRecord {lat tim : Bool} {s0 s : State} {old : State} {x : Hit} {a src : Nat} (hk : Keeps lat tim s0 s) : Keeps lat tim s0 (State.wkRecord s old x a src) := by
  unfold State.wkRecord
  repeat' first
    | with_reducible assumption
    | with_reducible apply ite
    | with_reducible apply ite_snd
    | with_reducible apply ite_fst
    | with_reducible apply trigger

theorem candidate {lat tim : Bool} {s0 s : State} {hs : List (Nat × Nat × Nat × Hit)} (hk : Keeps lat tim s0 s) : Keeps lat tim s0 (State.candidate s hs) := by
  unfold State.candidate
  try dsimp only
  repeat' first
    | with_reducible assumption
    | with_reducible apply each
    | with_reducible apply storeWord
    | (intro _ _ _; try dsimp only)

theorem writeWords {lat tim : Bool} {s0 s : State} {a : Nat} {ws : List Nat} {src : Nat} (hk : Keeps lat tim s0 s) : Keeps lat tim s0 (State.writeWords s a ws src) := by
  unfold State.writeWords
  dsimp only
  repeat' first
    | with_reducible assumption
    | with_reducible apply afterWrite
    | with_reducible apply each
    | with_reducible apply storeWord
    | with_reducible apply wkRecord
    | (intro _ _ _; try dsimp only)

theorem modifyWord {lat tim : Bool} {s0 s : State} {a mask v src : Nat} (hk : Keeps lat tim s0 s) : Keeps lat tim s0 (State.modifyWord s a mask v src) := by
  unfold State.modifyWord
  repeat' first
    | with_reducible assumption
    | with_reducible apply ite
    | with_reducible apply ite_snd
    | with_reducible apply ite_fst
    | with_reducible apply afterWrite
    | with_reducible apply storeWord
    | with_reducible apply wkRecord
    | split

theorem regWrite {lat tim : Bool} {s0 s : State} {a : Nat} {ws : List Nat} (hk : Keeps lat tim s0 s) : Keeps lat tim s0 (State.regWrite s a ws) := by
  unfold State.regWrite
  repeat' first
    | with_reducible assumption
    | with_reducible apply ite
    | with_reducible apply ite_snd
    | with_reducible apply ite_fst
    | with_reducible apply writeWords
    | split

end Sys2Proof.Machine.Keeps
end

