-- ==== Sys2Proof/Laws/KeepsRecorder.lean ====
section
/-!
SUPPORT. The operations of Machine/Recorder.lean are operations of the machine in the sense of `Keeps`.
-/
namespace Sys2Proof.Machine.Keeps

theorem takeSeq_bucket (l : Recorder) (f : Bool) : (State.takeSeq l f).bucket = l.bucket := by
  unfold State.takeSeq
  split <;> rfl

theorem takeSeq_felt (l : Recorder) (f : Bool) : (State.takeSeq l f).felt = l.felt := by
  unfold State.takeSeq
  split <;> rfl

theorem stageTrig {lat tim : Bool} {s0 s : State} {x : Trig} (hk : Keeps lat tim s0 s) : Keeps lat tim s0 (State.stageTrig s x) := by
  unfold State.stageTrig
  dsimp only
  repeat' first
    | with_reducible assumption
    | exact takeSeq_bucket _ _
    | exact takeSeq_felt _ _
    | with_reducible apply ite
    | with_reducible apply ite_snd
    | with_reducible apply ite_fst
    | with_reducible apply addRepeat
    | with_reducible apply bump
    | with_reducible apply takeSeq
    | with_reducible apply withLog

theorem recPop {lat tim : Bool} {s0 s : State} (hk : Keeps lat tim s0 s) : Keeps lat tim s0 (State.recPop s) := by
  unfold State.recPop
  try dsimp only
  repeat' first
    | with_reducible assumption
    | with_reducible apply stageTrig
    | with_reducible apply withLog
    | exact rfl
    | split

theorem recCapture {lat tim : Bool} {s0 s : State} (hk : Keeps lat tim s0 s) : Keeps lat tim s0 (State.recCapture s) := by
  unfold State.recCapture
  repeat' first
    | with_reducible assumption
    | with_reducible apply ite
    | with_reducible apply ite_snd
    | with_reducible apply ite_fst
    | with_reducible apply recPop

theorem nvaPut {lat tim : Bool} {s0 s : State} {r : Recd} (hk : Keeps lat tim s0 s) : Keeps lat tim s0 (s.nvaPut r) := by
  unfold State.nvaPut
  refine withLogs hk (fun h => ?_) ?_
  · split <;> exact h
  · split
    · exact List.prefix_append _ _
    · exact List.prefix_rfl

theorem tornWrite {lat tim : Bool} {s0 s : State} (hk : Keeps lat tim s0 s) : Keeps lat tim s0 (State.tornWrite s) := by
  unfold State.tornWrite
  try dsimp only
  repeat' first
    | with_reducible assumption
    | with_reducible apply ite
    | with_reducible apply ite_snd
    | with_reducible apply ite_fst
    | with_reducible apply withLog
    | exact rfl
    | split

theorem recWrite {lat tim : Bool} {s0 s : State} (hk : Keeps lat tim s0 s) : Keeps lat tim s0 (State.recWrite s) := by
  unfold State.recWrite
  try dsimp only
  repeat' first
    | with_reducible assumption
    | exact nvaPut (withLogs hk (fun h => Nat.le_trans (Nat.sub_le _ 1) h) List.prefix_rfl)
    | with_reducible apply ite
    | with_reducible apply ite_snd
    | with_reducible apply ite_fst
    | with_reducible apply nvaPut
    | with_reducible apply withLog
    | exact rfl
    | split

theorem recRefill {lat tim : Bool} {s0 s : State} (hk : Keeps lat tim s0 s) : Keeps lat tim s0 s.recRefill :=
  ite hk (withLogs hk (fun _ => Nat.min_le_left _ _) List.prefix_rfl)

theorem recAdvance {lat tim : Bool} {s0 s : State} (hk : Keeps lat tim s0 s) : Keeps lat tim s0 (State.recAdvance s) := by
  unfold State.recAdvance
  try dsimp only
  repeat' first
    | with_reducible assumption
    | with_reducible apply each
    | with_reducible apply recCapture
    | with_reducible apply recWrite
    | (intro _ _ _; try dsimp only)

theorem recDrain {lat tim : Bool} {s0 s : State} (hk : Keeps lat tim s0 s) : Keeps lat tim s0 (State.recDrain s) := by
  unfold State.recDrain
  try dsimp only
  repeat' first
    | with_reducible assumption
    | with_reducible apply each
    | with_reducible apply recAdvance
    | (intro _ _ _; try dsimp only)

theorem feltRecord {lat tim : Bool} {s0 s : State} {t : Nat} {data : List Nat} (hk : Keeps lat tim s0 s) : Keeps lat tim s0 (State.feltRecord s t data) := by
  unfold State.feltRecord
  try dsimp only
  repeat' first
    | with_reducible assumption
    | exact takeSeq_bucket _ _
    | exact takeSeq_felt _ _
    | with_reducible apply recDrain
    | with_reducible apply trigger
    | with_reducible apply withLog
    | exact rfl

theorem ownTrigger {lat tim : Bool} {s0 s : State} {t code : Nat} (hk : Keeps lat tim s0 s) : Keeps lat tim s0 (State.ownTrigger s t code) := by
  unfold State.ownTrigger
  dsimp only
  repeat' first
    | with_reducible assumption
    | with_reducible apply ite
    | with_reducible apply ite_snd
    | with_reducible apply ite_fst
    | with_reducible apply withLog
    | exact rfl

theorem startFlush {lat tim : Bool} {s0 s : State} {k : FlushKind} (hk : Keeps lat tim s0 s) : Keeps lat tim s0 (State.startFlush s k) := by
  unfold State.startFlush
  try dsimp only
  repeat' first
    | with_reducible assumption
    | with_reducible apply withLog
    | exact rfl

theorem flushPop {lat tim : Bool} {s0 s : State} (hk : Keeps lat tim s0 s) : Keeps lat tim s0 (State.flushPop s) := by
  unfold State.flushPop
  try dsimp only
  repeat' first
    | with_reducible assumption
    | with_reducible apply ite
    | with_reducible apply ite_snd
    | with_reducible apply ite_fst
    | with_reducible apply loseTrig
    | with_reducible apply recPop
    | with_reducible apply withLog
    | exact rfl

theorem flushWork {lat tim : Bool} {s0 s : State} {k : FlushKind} (hk : Keeps lat tim s0 s) : Keeps lat tim s0 (State.flushWork s k) := by
  unfold State.flushWork
  dsimp only
  repeat' first
    | with_reducible assumption
    | with_reducible apply ite
    | with_reducible apply ite_snd
    | with_reducible apply ite_fst
    | with_reducible apply each
    | with_reducible apply flushPop
    | with_reducible apply nvaPut
    | with_reducible apply recPop
    | with_reducible apply withLog
    | (intro _ _ _; try dsimp only)
    | exact rfl

theorem recScan {lat tim : Bool} {s0 s : State} (hk : Keeps lat tim s0 s) : Keeps lat tim s0 (State.recScan s) := by
  unfold State.recScan
  try dsimp only
  repeat' first
    | with_reducible assumption
    | with_reducible apply foldl
    | with_reducible apply withLog
    | exact rfl

theorem recReset {lat tim : Bool} {s0 s : State} (hk : Keeps lat tim s0 s) : Keeps lat tim s0 (State.recReset s) := by
  unfold State.recReset
  try dsimp only
  repeat' first
    | with_reducible assumption
    | exact withLogs hk (fun _ => Nat.le_refl _) List.prefix_rfl
    | with_reducible apply recScan

theorem startRecord {lat tim : Bool} {s0 s : State} (hk : Keeps lat tim s0 s) : Keeps lat tim s0 (State.startRecord s) := by
  unfold State.startRecord
  dsimp only
  repeat' first
    | with_reducible assumption
    | with_reducible apply trigger
    | with_reducible apply withLog
    | exact rfl

theorem restartRecord {lat tim : Bool} {s0 s : State} {r : Nat} (hk : Keeps lat tim s0 s) : Keeps lat tim s0 (State.restartRecord s r) := by
  unfold State.restartRecord
  repeat' first
    | with_reducible assumption
    | with_reducible apply trigger

end Sys2Proof.Machine.Keeps
end

