-- ==== Sys2Proof/Laws/KeepsCfgStore.lean ====
section
/-!
SUPPORT. The operations of Machine/CfgStore.lean are operations of the machine in the sense of `Keeps`.
-/
namespace Sys2Proof.Machine.Keeps

theorem imgSet_wf {m : Sparse} (h : m.wf) (off w : Nat) : (imgSet m off w).wf := Sparse.wf_set _ _ h

theorem imgPut_wf {m : Sparse} (h : m.wf) (off : Nat) (ws : List Nat) : (imgPut m off ws).wf := by
  induction ws generalizing m off with
  | nil => exact h
  | cons w ws ih => exact ih (imgSet_wf h _ _) _

theorem emptyImage_wf : emptyImage.wf := imgSet_wf (imgSet_wf (imgSet_wf (imgSet_wf Sparse.wf_nil _ _) _ _) _ _) _ _

theorem withHeader_wf {m : Sparse} (h : m.wf) (a b : Nat) (c : Bool) (d : Nat) : (withHeader m a b c d).wf :=
  imgSet_wf (imgPut_wf h _ _) _ _

theorem putArea_wf {m m' : Sparse} {a : CfgArea} {l : List (Nat × Nat × Nat)} (h : m.wf) (e : putArea m a l = some m') : m'.wf := by
  unfold putArea at e
  split at e
  · cases e
  · cases e
    exact imgPut_wf (Sparse.wf_clear _ _ h) _ _

/-- A slot's words are in canonical form. -/
theorem slot_wf {c : CfgStore} (h : c.Canonical) (k : Nat) : (c.slots.toList.getD k []).wf := by
  rw [List.getD_eq_getElem?_getD]
  cases hk : c.slots.toList[k]? with
  | none => exact Sparse.wf_nil
  | some m => exact h.slots m (List.mem_of_getElem? hk)

theorem slots_set {c : CfgStore} (h : c.Canonical) {m : Sparse} (hm : m.wf) (k : Nat) :
    ∀ x ∈ (c.slots.setIfInBounds k m).toList, x.wf := by
  intro x hx
  rw [Vector.toList_setIfInBounds] at hx
  rcases List.mem_or_eq_of_mem_set hx with hx | hx
  · exact h.slots x hx
  · rw [hx]; exact hm

/-- A table filled word by word in ascending order, zeros left out, is in canonical form. -/
theorem wf_fill (n b : Nat) (v : Nat → Int) :
    Sparse.wf ((List.range n).filterMap fun i => if v (b + i) = 0 then none else some (b + i, v (b + i))) := by
  refine ⟨List.Pairwise.filterMap _ (fun a a' haa x hx y hy => ?_) List.pairwise_lt_range, fun e he => ?_⟩
  · split at hx <;> split at hy <;> simp_all
    rw [← hx, ← hy]
    simpa using haa
  · obtain ⟨i, -, hi⟩ := List.mem_filterMap.mp he
    split at hi
    · cases hi
    · next hv => cases hi; exact hv

theorem applyRecord {lat tim : Bool} {s0 s : State} {a mask v : Nat} (hk : Keeps lat tim s0 s) : Keeps lat tim s0 (State.applyRecord s a mask v) := by
  unfold State.applyRecord
  dsimp only
  repeat' first
    | with_reducible assumption
    | with_reducible apply ite
    | with_reducible apply ite_snd
    | with_reducible apply ite_fst
    | with_reducible apply each
    | with_reducible apply put
    | (intro _ _ _; try dsimp only)
    | split

theorem putDefaultList {lat tim : Bool} {s0 s : State} {t : Nat} (hk : Keeps lat tim s0 s) : Keeps lat tim s0 (State.putDefaultList s t) := by
  unfold State.putDefaultList
  try dsimp only
  repeat' first
    | with_reducible assumption
    | with_reducible apply each
    | with_reducible apply put
    | (intro _ _ _; try dsimp only)

theorem trigDefault {lat tim : Bool} {s0 s : State} {t : Nat} (hk : Keeps lat tim s0 s) : Keeps lat tim s0 (State.trigDefault s t) := by
  unfold State.trigDefault
  dsimp only
  repeat' first
    | with_reducible assumption
    | with_reducible apply regsClear
    | with_reducible apply ite
    | with_reducible apply ite_snd
    | with_reducible apply ite_fst
    | with_reducible apply putDefaultList
    | with_reducible apply puts

theorem recDefaults {lat tim : Bool} {s0 s : State} (hk : Keeps lat tim s0 s) : Keeps lat tim s0 (State.recDefaults s) := by
  unfold State.recDefaults
  try dsimp only
  repeat' first
    | with_reducible assumption
    | with_reducible apply each
    | with_reducible apply trigDefault
    | (intro _ _ _; try dsimp only)

theorem defaultFld {lat tim : Bool} {s0 s : State} {b : Nat} {f : Fld} (hk : Keeps lat tim s0 s) : Keeps lat tim s0 (State.defaultFld s b f) := by
  unfold State.defaultFld
  repeat' first
    | with_reducible assumption
    | with_reducible apply put

theorem fixRanges {lat tim : Bool} {s0 s : State} {recs : List (Nat × Nat × Nat)} (hk : Keeps lat tim s0 s) : Keeps lat tim s0 (s.fixRanges recs).1 := by
  refine foldl_proj (fun b : State × Bool => b.1) hk fun b a hb => ?_
  split
  · exact hb
  · refine foldl_proj (fun b : State × Bool => b.1) hb fun b a hb => ?_
    exact ite_fst (defaultFld hb) hb

theorem fixRels {lat tim : Bool} {s0 s : State} {r : Nat} (hk : Keeps lat tim s0 s) : Keeps lat tim s0 (s.fixRels r).1 := by
  refine foldl_proj (fun b : State × Bool => b.1) hk fun b a hb => ?_
  exact ite_fst hb (foldl hb fun _ _ h => defaultFld h)

theorem fixLoad {lat tim : Bool} {s0 s : State} {h : Nat} (hk : Keeps lat tim s0 s) : Keeps lat tim s0 (State.fixLoad s h).1 := by
  unfold State.fixLoad
  dsimp only
  repeat' first
    | with_reducible assumption
    | with_reducible apply ite
    | with_reducible apply ite_snd
    | with_reducible apply ite_fst
    | with_reducible apply defaultFld
    | with_reducible apply each
    | with_reducible apply foldl
    | (intro _ _ _; try dsimp only)

theorem fixLaw {lat tim : Bool} {s0 s : State} {h : Nat} (hk : Keeps lat tim s0 s) : Keeps lat tim s0 (State.fixLaw s h) := by
  unfold State.fixLaw
  try dsimp only
  repeat' first
    | with_reducible assumption
    | with_reducible apply ite
    | with_reducible apply ite_snd
    | with_reducible apply ite_fst
    | with_reducible apply each
    | with_reducible apply put
    | (intro _ _ _; try dsimp only)

theorem fixOwned {lat tim : Bool} {s0 s : State} (hk : Keeps lat tim s0 s) : Keeps lat tim s0 s.fixOwned.1 := by
  unfold State.fixOwned
  refine foldl_proj (fun b : State × Bool => b.1) (foldl_proj (fun b : State × Bool => b.1) hk fun b a hb => ?_) fun b a hb => ?_
  · exact ite_fst hb (trigDefault hb)
  · have h : Keeps lat tim s0 (b.1.putGroup a 0 []) := putGroup hb
    generalize b.1.putGroup a 0 [] = q at h ⊢
    exact ite_fst hb h

theorem clipLists {lat tim : Bool} {s0 s : State} (hk : Keeps lat tim s0 s) : Keeps lat tim s0 (State.clipLists s) := by
  unfold State.clipLists
  try dsimp only
  repeat' first
    | with_reducible assumption
    | with_reducible apply each
    | with_reducible apply put
    | (intro _ _ _; try dsimp only)

theorem loadValues {lat tim : Bool} {s0 s : State} {m : Sparse} {r : Nat} (hk : Keeps lat tim s0 s) : Keeps lat tim s0 (State.loadValues s m r).1 := by
  unfold State.loadValues
  dsimp only
  repeat' first
    | with_reducible assumption
    | with_reducible apply ite
    | with_reducible apply ite_snd
    | with_reducible apply ite_fst
    | with_reducible apply applyRecord
    | with_reducible apply clipLists
    | with_reducible apply each
    | with_reducible apply fixLaw
    | with_reducible apply fixLoad
    | with_reducible apply fixOwned
    | with_reducible apply fixRanges
    | with_reducible apply fixRels
    | with_reducible apply recDefaults
    | (intro _ _ _; try dsimp only)

theorem loadTables {lat tim : Bool} {s0 s : State} {m : Sparse} {r : Nat} (hk : Keeps lat tim s0 s) : Keeps lat tim s0 (s.loadTables m r).1 := by
  unfold State.loadTables
  extract_lets bad inBad tabs'
  have hw : tabs'.wf := wf_fill 0x6000 0x2000 fun w =>
    if tableRegion (4 * w) = some r then (if inBad (4 * w) then 0 else m.get w - defTab w) else s.tabs.get w
  clear_value tabs'
  exact axOld (s := { s with tabs := tabs' }) (tabs hk fun _ => hw)

theorem defaultTables {lat tim : Bool} {s0 s : State} {r : Nat} (hk : Keeps lat tim s0 s) : Keeps lat tim s0 (s.defaultTables r) :=
  axOld (tabs hk fun h => Sparse.wf_filter _ h)

theorem selectCopy {lat tim : Bool} {s0 s : State} (hk : Keeps lat tim s0 s) : Keeps lat tim s0 s.selectCopy := by
  unfold State.selectCopy
  extract_lets m0 m1 g0 g1 pick m rej
  refine puts (withCfg hk (fun h => ?_) id)
  have hm : m.wf := by
    clear_value pick
    dsimp only [m]
    split
    · exact slot_wf h 0
    · exact slot_wf h 1
    · exact emptyImage_wf
  exact ⟨h.slots, hm, hm, fun _ e => by cases e⟩

theorem putSlot {lat tim : Bool} {s0 s : State} {k : Nat} {m : Sparse} (hk : Keeps lat tim s0 s) (hm : s0.Sound → m.wf) : Keeps lat tim s0 (s.putSlot k m) :=
  withCfgOf hk (fun h0 h => { h with slots := slots_set h (hm h0) k }) id

theorem commitBegin {lat tim : Bool} {s0 s : State} {sealing : Bool} {tag : Nat} (hk : Keeps lat tim s0 s) : Keeps lat tim s0 (s.commitBegin sealing tag) := by
  unfold State.commitBegin
  extract_lets k seq felt job s1 s2
  have h1 : Keeps lat tim s0 s1 := withCfg hk (fun h => { h with commit := fun j e => by cases e; exact h.staging }) id
  have h2 : Keeps lat tim s0 s2 := ite (withLog h1 rfl rfl) h1
  clear_value s1 s2
  split
  · exact h2
  · exact put (putSlot h2 fun h0 => imgSet_wf (slot_wf (h2.sound h0).cfg _) _ _)

theorem commitEnd {lat tim : Bool} {s0 s : State} {st detail : Nat} (hk : Keeps lat tim s0 s) : Keeps lat tim s0 (s.commitEnd st detail) := by
  unfold State.commitEnd
  split
  · exact hk
  · next j hj =>
    extract_lets s1 s2 s3
    have h1 : Keeps lat tim s0 s1 := withCfg hk (fun h => { h with commit := fun _ e => by cases e }) id
    have h2 : Keeps lat tim s0 s2 := ite (withLog h1 rfl rfl) h1
    have h3 : Keeps lat tim s0 s3 := puts h2
    clear_value s1 s2 s3
    exact each h3 fun _ _ h => completeB h

theorem commitFinish {lat tim : Bool} {s0 s : State} {ok : Bool} (hk : Keeps lat tim s0 s) : Keeps lat tim s0 (s.commitFinish ok) := by
  unfold State.commitFinish
  split
  · exact hk
  · next j hj =>
    split
    · exact commitEnd hk
    · extract_lets sealSeq old m s1 s2 mate s3
      have hm : s0.Sound → m.wf := fun h0 => withHeader_wf ((hk.sound h0).cfg.commit j hj) _ _ _ _
      have h1 : Keeps lat tim s0 s1 := ite (feltRecord (withCfg hk (fun h => { h with }) fun _ => rfl)) (ite (feltRecord hk) hk)
      clear_value m s1
      have h2 : Keeps lat tim s0 s2 := withCfgOf (putSlot h1 hm) (fun h0 h => { h with inForce := hm h0, commit := fun _ e => by cases e }) id
      have h3 : Keeps lat tim s0 s3 := puts h2
      clear_value s2 s3
      exact ite (blockFail (commitEnd (putSlot hk fun h0 => imgSet_wf (hm h0) _ _))) (ite hk (each h3 fun _ _ h => completeB h))

theorem restage {lat tim : Bool} {s0 s t : State} {a : CfgArea} {addrs : List Nat} {new : List (Nat × Nat × Nat)} (hk : Keeps lat tim s0 s)
    (e : s.restage a addrs new = some t) : Keeps lat tim s0 t := by
  unfold State.restage at e
  obtain ⟨m, hm, rfl⟩ := Option.map_eq_some_iff.mp e
  exact withCfg hk (fun h => { h with staging := putArea_wf h.staging hm }) id

theorem restageD {lat tim : Bool} {s0 s : State} {a : CfgArea} {addrs : List Nat} {new : List (Nat × Nat × Nat)} (hk : Keeps lat tim s0 s) :
    Keeps lat tim s0 ((s.restage a addrs new).getD s) := by
  cases e : s.restage a addrs new with
  | none => exact hk
  | some t => exact restage hk e

theorem stageWords {lat tim : Bool} {s0 s : State} {off : Nat} {ws : List Nat} (hk : Keeps lat tim s0 s) : Keeps lat tim s0 (s.stageWords off ws) :=
  withCfg hk (fun h => { h with staging := imgPut_wf h.staging _ _ }) id

theorem putTable {lat tim : Bool} {s0 s : State} {off : Nat} {ws : List Nat} (hk : Keeps lat tim s0 s) : Keeps lat tim s0 (s.putTable off ws) := by
  induction ws generalizing s off with
  | nil => exact hk
  | cons w ws ih => exact ih (tabs hk fun h => Sparse.wf_set _ _ h)

end Sys2Proof.Machine.Keeps
end

