-- ==== Sys2Proof/Laws/KeepsMastership.lean ====
section
/-!
SUPPORT. The operations of Machine/Mastership.lean are operations of the machine in the sense of `Keeps`.
-/
namespace Sys2Proof.Machine.Keeps

theorem masterNote {lat tim : Bool} {s0 s : State} (hk : Keeps lat tim s0 s) : Keeps lat tim s0 (State.masterNote s) := by
  unfold State.masterNote
  repeat' first
    | with_reducible assumption
    | with_reducible apply notice
    | with_reducible apply trigger

theorem takeToken {lat tim : Bool} {s0 s : State} {h : Nat} {seen : Bool} (hk : Keeps lat tim s0 s) : Keeps lat tim s0 (State.takeToken s h seen) := by
  unfold State.takeToken
  dsimp only
  repeat' first
    | with_reducible assumption
    | with_reducible apply ite
    | with_reducible apply ite_snd
    | with_reducible apply ite_fst
    | with_reducible apply masterNote
    | with_reducible apply put
    | with_reducible apply puts

theorem releaseToken {lat tim : Bool} {s0 s : State} {h : Nat} (hk : Keeps lat tim s0 s) : Keeps lat tim s0 (State.releaseToken s h) := by
  unfold State.releaseToken
  dsimp only
  repeat' first
    | with_reducible assumption
    | with_reducible apply ite
    | with_reducible apply ite_snd
    | with_reducible apply ite_fst
    | with_reducible apply masterNote
    | with_reducible apply put
    | with_reducible apply takeToken

theorem firstToken {lat tim : Bool} {s0 s : State} (hk : Keeps lat tim s0 s) : Keeps lat tim s0 (State.firstToken s) := by
  unfold State.firstToken
  dsimp only
  repeat' first
    | with_reducible assumption
    | with_reducible apply ite
    | with_reducible apply ite_snd
    | with_reducible apply ite_fst
    | with_reducible apply put
    | with_reducible apply takeToken

theorem endHalfWork {lat tim : Bool} {s0 s : State} {h st : Nat} (hk : Keeps lat tim s0 s) : Keeps lat tim s0 (State.endHalfWork s h st) := by
  unfold State.endHalfWork
  dsimp only
  repeat' first
    | with_reducible assumption
    | with_reducible apply ite
    | with_reducible apply ite_snd
    | with_reducible apply ite_fst
    | with_reducible apply completeB
    | with_reducible apply each
    | with_reducible apply orderedAnswer
    | (intro _ _ _; try dsimp only)

theorem halfLeaves {lat tim : Bool} {s0 s : State} {h : Nat} (hk : Keeps lat tim s0 s) : Keeps lat tim s0 (State.halfLeaves s h) := by
  unfold State.halfLeaves
  dsimp only
  repeat' first
    | with_reducible assumption
    | with_reducible apply ite
    | with_reducible apply ite_snd
    | with_reducible apply ite_fst
    | with_reducible apply each
    | with_reducible apply leaveService
    | with_reducible apply svcDrop
    | (intro _ _ _; try dsimp only)

theorem isolate {lat tim : Bool} {s0 s : State} {h : Nat} (hk : Keeps lat tim s0 s) : Keeps lat tim s0 (State.isolate s h) := by
  unfold State.isolate
  dsimp only
  repeat' first
    | with_reducible assumption
    | with_reducible apply ite
    | with_reducible apply ite_snd
    | with_reducible apply ite_fst
    | with_reducible apply each
    | with_reducible apply endHalfWork
    | with_reducible apply halfLeaves
    | with_reducible apply leaveExt
    | with_reducible apply put
    | with_reducible apply raise
    | with_reducible apply setMode
    | (intro _ _ _; try dsimp only)

theorem isolationEntry {lat tim : Bool} {s0 s : State} {h : Nat} (hk : Keeps lat tim s0 s) : Keeps lat tim s0 (State.isolationEntry s h) := by
  unfold State.isolationEntry
  repeat' first
    | with_reducible assumption
    | with_reducible apply ite
    | with_reducible apply ite_snd
    | with_reducible apply ite_fst
    | with_reducible apply isolate

theorem regainRun {lat tim : Bool} {s0 s : State} {n : Nat} (hk : Keeps lat tim s0 s) : Keeps lat tim s0 (State.regainRun s n) := by
  unfold State.regainRun
  dsimp only
  repeat' first
    | with_reducible assumption
    | with_reducible apply ite
    | with_reducible apply ite_snd
    | with_reducible apply ite_fst
    | with_reducible apply followPins
    | with_reducible apply put
    | with_reducible apply puts
    | with_reducible apply resetGated
    | with_reducible apply setMode

theorem isolationEnd {lat tim : Bool} {s0 s : State} {h : Nat} (hk : Keeps lat tim s0 s) : Keeps lat tim s0 (State.isolationEnd s h) := by
  unfold State.isolationEnd
  dsimp only
  repeat' first
    | with_reducible assumption
    | with_reducible apply ite
    | with_reducible apply ite_snd
    | with_reducible apply ite_fst
    | with_reducible apply each
    | with_reducible apply put
    | with_reducible apply regainRun
    | with_reducible apply takeToken
    | (intro _ _ _; try dsimp only)

theorem heartSend {lat tim : Bool} {s0 s : State} {h : Nat} (hk : Keeps lat tim s0 s) : Keeps lat tim s0 (State.heartSend s h) := by
  unfold State.heartSend
  repeat' first
    | with_reducible assumption
    | with_reducible apply ite
    | with_reducible apply ite_snd
    | with_reducible apply ite_fst
    | with_reducible apply put

theorem heartReceived {lat tim : Bool} {s0 s : State} {h : Nat} (hk : Keeps lat tim s0 s) : Keeps lat tim s0 (State.heartReceived s h) := by
  unfold State.heartReceived
  repeat' first
    | with_reducible assumption
    | with_reducible apply ite
    | with_reducible apply ite_snd
    | with_reducible apply ite_fst
    | with_reducible apply puts

theorem heartMiss {lat tim : Bool} {s0 s : State} {h : Nat} (hk : Keeps lat tim s0 s) : Keeps lat tim s0 (State.heartMiss s h) := by
  unfold State.heartMiss
  dsimp only
  repeat' first
    | with_reducible assumption
    | with_reducible apply ite
    | with_reducible apply ite_snd
    | with_reducible apply ite_fst
    | with_reducible apply bump
    | with_reducible apply put
    | with_reducible apply raiseBy
    | with_reducible apply takeToken

theorem handOver {lat tim : Bool} {s0 s : State} (hk : Keeps lat tim s0 s) : Keeps lat tim s0 (State.handOver s) := by
  unfold State.handOver
  repeat' first
    | with_reducible assumption
    | with_reducible apply takeToken

end Sys2Proof.Machine.Keeps
end

