-- ==== Sys2Proof/Laws/KeepsStart.lean ====
section
/-!
SUPPORT. The operations of Machine/Start.lean are operations of the machine in the sense of `Keeps`.
-/
namespace Sys2Proof.Machine.Keeps

theorem clearBytes {lat tim : Bool} {s0 s : State} {lo hi : Nat} (hk : Keeps lat tim s0 s) : Keeps lat tim s0 (s.clearBytes lo hi) :=
  regsHeld hk fun h => Sparse.wf_clear _ _ h

theorem putRec {lat tim : Bool} {s0 s : State} {l : List (Nat × Int)} (hk : Keeps lat tim s0 s) : Keeps lat tim s0 (s.putRec l) := by
  refine regs hk fun w => ?_
  have h0 : (s.regs.clear (8 * 0x30000) (8 * 0x31000)).wf := Sparse.wf_clear _ _ w
  generalize s.regs.clear (8 * 0x30000) (8 * 0x31000) = m at h0
  induction l generalizing m with
  | nil => exact h0
  | cons e r ih => exact ih _ (Sparse.wf_set _ _ h0)

theorem clearSh {lat tim : Bool} {s0 s : State} (hk : Keeps lat tim s0 s) : Keeps lat tim s0 (State.clearSh s) := by
  unfold State.clearSh
  dsimp only
  repeat' first
    | with_reducible assumption
    | with_reducible apply clearBytes
    | with_reducible apply put
    | with_reducible apply puts

theorem clearHalf {lat tim : Bool} {s0 s : State} {h : Nat} (hk : Keeps lat tim s0 s) : Keeps lat tim s0 (State.clearHalf s h) := by
  unfold State.clearHalf
  dsimp only
  repeat' first
    | with_reducible assumption
    | with_reducible apply clearBytes
    | with_reducible apply each
    | with_reducible apply puts
    | with_reducible apply withCan
    | (intro _ _ _; try dsimp only)

theorem setRegion {lat tim : Bool} {s0 s : State} {r : Nat} {v : RegSt} (hk : Keeps lat tim s0 s) : Keeps lat tim s0 (State.setRegion s r v) := by
  unfold State.setRegion
  try dsimp only
  repeat' first
    | with_reducible assumption
    | with_reducible apply withChip
    | exact ⟨rfl, rfl, rfl, id⟩

theorem dropSteam {lat tim : Bool} {s0 s : State} {r : Nat} (hk : Keeps lat tim s0 s) : Keeps lat tim s0 (State.dropSteam s r) := by
  unfold State.dropSteam
  dsimp only
  repeat' first
    | with_reducible assumption
    | with_reducible apply ite
    | with_reducible apply ite_snd
    | with_reducible apply ite_fst
    | with_reducible apply withFlt

theorem canStart {lat tim : Bool} {s0 s : State} {c : Nat} (hk : Keeps lat tim s0 s) : Keeps lat tim s0 (State.canStart s c) := by
  unfold State.canStart
  dsimp only
  repeat' first
    | with_reducible assumption
    | with_reducible apply ite
    | with_reducible apply ite_snd
    | with_reducible apply ite_fst
    | with_reducible apply canEnable
    | with_reducible apply put

theorem startSh {lat tim : Bool} {s0 s : State} (hk : Keeps lat tim s0 s) : Keeps lat tim s0 (State.startSh s) := by
  unfold State.startSh
  dsimp only
  repeat' first
    | with_reducible assumption
    | with_reducible apply each
    | with_reducible apply hatEnable
    | with_reducible apply putGroup
    | with_reducible apply putRing
    | (intro _ _ _; try dsimp only)

theorem startStn {lat tim : Bool} {s0 s : State} {n : Nat} (hk : Keeps lat tim s0 s) : Keeps lat tim s0 (State.startStn s n) := by
  unfold State.startStn
  dsimp only
  repeat' first
    | with_reducible assumption
    | with_reducible apply ite
    | with_reducible apply ite_snd
    | with_reducible apply ite_fst
    | with_reducible apply put
    | with_reducible apply startAcq
    | with_reducible apply startCarrier

theorem startAxs {lat tim : Bool} {s0 s : State} {n : Nat} (hk : Keeps lat tim s0 s) : Keeps lat tim s0 (State.startAxs s n) := by
  unfold State.startAxs
  dsimp only
  repeat' first
    | with_reducible assumption
    | with_reducible apply ite
    | with_reducible apply ite_snd
    | with_reducible apply ite_fst
    | with_reducible apply axStandby
    | with_reducible apply put

theorem startHalf {lat tim : Bool} {s0 s : State} {h : Nat} (hk : Keeps lat tim s0 s) : Keeps lat tim s0 (State.startHalf s h) := by
  unfold State.startHalf
  dsimp only
  repeat' first
    | with_reducible assumption
    | with_reducible apply canStart
    | with_reducible apply each
    | with_reducible apply maskSlot
    | with_reducible apply put
    | with_reducible apply putK
    | with_reducible apply putLoad
    | with_reducible apply putStoOff
    | with_reducible apply resetSlot
    | with_reducible apply startAxs
    | with_reducible apply startStn
    | (intro _ _ _; try dsimp only)

theorem loadRegion {lat tim : Bool} {s0 s : State} {r : Nat} (hk : Keeps lat tim s0 s) : Keeps lat tim s0 (State.loadRegion s r) := by
  unfold State.loadRegion
  dsimp only
  repeat' first
    | with_reducible assumption
    | with_reducible apply ite
    | with_reducible apply ite_snd
    | with_reducible apply ite_fst
    | with_reducible apply defaultTables
    | with_reducible apply loadTables
    | with_reducible apply loadValues
    | with_reducible apply put
    | with_reducible apply raise
    | with_reducible apply recDefaults

theorem stopCommit {lat tim : Bool} {s0 s : State} (hk : Keeps lat tim s0 s) : Keeps lat tim s0 s.stopCommit := by
  unfold State.stopCommit
  split
  · exact hk
  · extract_lets s1
    have h1 : Keeps lat tim s0 s1 := withCfg hk (fun h => { h with commit := fun _ e => by cases e }) id
    exact ite (withLog h1 rfl rfl) h1

theorem takeDownSh {lat tim : Bool} {s0 s : State} {v : RegSt} (hk : Keeps lat tim s0 s) : Keeps lat tim s0 (State.takeDownSh s v) := by
  unfold State.takeDownSh
  extract_lets s1 s2 s3 s3' s4 s5
  have h1 : Keeps lat tim s0 s1 := by
    dsimp only [s1]
    repeat' first
      | with_reducible assumption
      | with_reducible apply ite
      | with_reducible apply ite_snd
      | with_reducible apply ite_fst
      | with_reducible apply clearSh
      | with_reducible apply dropSteam
      | with_reducible apply each
      | with_reducible apply isolate
      | with_reducible apply put
      | with_reducible apply setRegion
      | with_reducible apply spoolCheck
      | with_reducible apply stopCommit
      | with_reducible apply svcDrop
      | with_reducible apply withCfg
      | with_reducible apply withChip
      | with_reducible apply withMil
      | with_reducible apply hat
      | with_reducible apply hatSvc
      | (intro _ _ _; try dsimp only)
  clear_value s1
  have h2 : Keeps lat tim s0 s2 := setRegion (withMilZero h1)
  clear_value s2
  have h3 : Keeps lat tim s0 s3 := each h2 fun _ _ h => isolate h
  clear_value s3
  have h3' : Keeps lat tim s0 s3' := put h3
  clear_value s3'
  have h4 : Keeps lat tim s0 s4 := clearSh (dropSteam (stopCommit h3'))
  clear_value s4
  have h5 : Keeps lat tim s0 s5 := hatSvc h4
  clear_value s5
  exact withChip (withCfg h5 (fun h => { h with staging := h.inForce }) id) ⟨rfl, rfl, rfl, id⟩

theorem cutHalf {lat tim : Bool} {s0 s : State} {h : Nat} (hk : Keeps lat tim s0 s) : Keeps lat tim s0 (State.cutHalf s h) := by
  unfold State.cutHalf
  dsimp only
  repeat' first
    | with_reducible assumption
    | with_reducible apply ite
    | with_reducible apply ite_snd
    | with_reducible apply ite_fst
    | with_reducible apply axCoil
    | with_reducible apply axCut
    | with_reducible apply each
    | with_reducible apply endSequences
    | with_reducible apply put
    | with_reducible apply turnOff
    | (intro _ _ _; try dsimp only)

theorem takeDownHalf {lat tim : Bool} {s0 s : State} {h : Nat} {v : RegSt} {st : Nat} (hk : Keeps lat tim s0 s) : Keeps lat tim s0 (State.takeDownHalf s h v st) := by
  unfold State.takeDownHalf
  dsimp only
  repeat' first
    | with_reducible assumption
    | with_reducible apply clearHalf
    | with_reducible apply cutHalf
    | with_reducible apply dropSteam
    | with_reducible apply endHalfWork
    | with_reducible apply halfLeaves
    | with_reducible apply releaseToken
    | with_reducible apply setRegion

theorem takeDown {lat tim : Bool} {s0 s : State} {r : Nat} {v : RegSt} {st : Nat} (hk : Keeps lat tim s0 s) : Keeps lat tim s0 (State.takeDown s r v st) := by
  unfold State.takeDown
  repeat' first
    | with_reducible assumption
    | with_reducible apply takeDownHalf
    | with_reducible apply takeDownSh
    | split

theorem regionError {lat tim : Bool} {s0 s : State} {r : Nat} {ram : Bool} (hk : Keeps lat tim s0 s) : Keeps lat tim s0 (State.regionError s r ram) := by
  unfold State.regionError
  dsimp only
  repeat' first
    | with_reducible assumption
    | with_reducible apply ite
    | with_reducible apply ite_snd
    | with_reducible apply ite_fst
    | with_reducible apply raise
    | with_reducible apply takeDown
    | with_reducible apply withFlt

theorem localNote {lat tim : Bool} {s0 s : State} (hk : Keeps lat tim s0 s) : Keeps lat tim s0 (State.localNote s) := by
  unfold State.localNote
  repeat' first
    | with_reducible assumption
    | with_reducible apply notice

theorem restartDone {lat tim : Bool} {s0 s : State} {r : Nat} (hk : Keeps lat tim s0 s) : Keeps lat tim s0 (State.restartDone s r) := by
  unfold State.restartDone
  refine ite hk ?_
  split
  · extract_lets rec0 s0' s1 s2
    have h0 : Keeps lat tim s0 s0' := putRec (loadRegion (mbxStart (setRegion hk)))
    clear_value s0'
    have h1 : Keeps lat tim s0 s1 := ite h0 (put h0)
    clear_value s1
    have h2 : Keeps lat tim s0 s2 := by
      dsimp only [s2]
      with_reducible exact withChip (startSh h1) ⟨rfl, rfl, rfl, id⟩
    clear_value s2
    exact localNote (restartRecord h2)
  · next h =>
    extract_lets s1 s2
    have h1 : Keeps lat tim s0 s1 := startHalf (loadRegion (setRegion hk))
    clear_value s1
    have h2 : Keeps lat tim s0 s2 := ite (isolate h1) (ite (takeToken h1) (put h1))
    clear_value s2
    exact completeAll (restartRecord h2)

theorem sleepCheck {lat tim : Bool} {s0 s : State} (hk : Keeps lat tim s0 s) : Keeps lat tim s0 (State.sleepCheck s) := by
  unfold State.sleepCheck
  try dsimp only
  repeat' first
    | with_reducible assumption
    | with_reducible apply ite
    | with_reducible apply ite_snd
    | with_reducible apply ite_fst
    | with_reducible apply canLeave
    | with_reducible apply each
    | with_reducible apply reply
    | (intro _ _ _; try dsimp only)

theorem shResetCheck {lat tim : Bool} {s0 s : State} (hk : Keeps lat tim s0 s) : Keeps lat tim s0 (State.shResetCheck s) := by
  unfold State.shResetCheck
  dsimp only
  repeat' first
    | with_reducible assumption
    | with_reducible apply ite
    | with_reducible apply ite_snd
    | with_reducible apply ite_fst
    | with_reducible apply reply
    | with_reducible apply sleepCheck
    | with_reducible apply takeDownSh

end Sys2Proof.Machine.Keeps
end

