-- ==== Sys2Proof/Laws/KeepsPower.lean ====
section
/-!
SUPPORT. The operations of Machine/Power.lean are operations of the machine in the sense of `Keeps`.
-/
namespace Sys2Proof.Machine.Keeps

theorem cutOutputs {lat tim : Bool} {s0 s : State} (hk : Keeps lat tim s0 s) : Keeps lat tim s0 (State.cutOutputs s) := by
  unfold State.cutOutputs
  try dsimp only
  repeat' first
    | with_reducible assumption
    | with_reducible apply ite
    | with_reducible apply ite_snd
    | with_reducible apply ite_fst
    | with_reducible apply chgLow
    | with_reducible apply cutHalf
    | with_reducible apply each
    | with_reducible apply preLow
    | (intro _ _ _; try dsimp only)

theorem wiped {lat tim : Bool} {s0 s : State} {x : Vector CanS 4} (hk : Keeps lat tim s0 s) :
    Keeps lat tim s0 { s with
      regs := [], tabs := [], shadows := [], held := [], mil := Mil.zero, hat := Hat.zero, can := x, axOld := [], svcNew := [], flt := Faults.zero } :=
  (withMilZero hk).trans ⟨fun h => { h with regs := Sparse.wf_nil, tabs := Sparse.wf_nil },
    ⟨id, rfl, rfl, rfl, List.prefix_refl _⟩, rfl, Nat.le_refl _, fun _ => id, fun _ => Nat.le_refl _⟩

theorem wipe {lat tim : Bool} {s0 s : State} {kept : List Fld} (hk : Keeps lat tim s0 s) : Keeps lat tim s0 (s.wipe kept) := by
  unfold State.wipe
  extract_lets v pins s0' s1 s2
  have h0 : Keeps lat tim s0 s0' := puts (wiped hk)
  clear_value s0'
  have h1 : Keeps lat tim s0 s1 := each h0 fun _ _ h => puts h
  clear_value s1
  have h2 : Keeps lat tim s0 s2 := recReset (withCfg h1
    (fun h => { slots := h.slots, inForce := Sparse.wf_nil, staging := Sparse.wf_nil, commit := fun _ e => by cases e }) id)
  clear_value s2
  with_reducible exact withChip h2 ⟨rfl, rfl, rfl, id⟩

theorem putCause {lat tim : Bool} {s0 s : State} {fs : List Fld} (hk : Keeps lat tim s0 s) : Keeps lat tim s0 (State.putCause s fs) := by
  unfold State.putCause
  try dsimp only
  repeat' first
    | with_reducible assumption
    | with_reducible apply puts

theorem resetTaken {lat tim : Bool} {s0 s : State} {arb : Bool} (hk : Keeps lat tim s0 s) : Keeps lat tim s0 (State.resetTaken s arb) := by
  unfold State.resetTaken
  extract_lets sh s1 s2 s3
  have h1 : Keeps lat tim s0 s1 := cutOutputs (stopCommit (withMilZero hk))
  clear_value s1
  have h2 : Keeps lat tim s0 s2 := by
    dsimp only [s2]
    with_reducible exact withChip h1 ⟨rfl, rfl, rfl, id⟩
  clear_value s2
  have h3 : Keeps lat tim s0 s3 := each h2 fun _ _ h => clearHalf h
  clear_value s3
  exact hatSvc (s := (s3.startFlush .reset).withLog fun l => { l with flushSh := sh }) (withLog (startFlush h3) rfl rfl)

theorem enterRestricted {lat tim : Bool} {s0 s : State} (hk : Keeps lat tim s0 s) : Keeps lat tim s0 (State.enterRestricted s) := by
  unfold State.enterRestricted
  try dsimp only
  repeat' first
    | with_reducible assumption
    | with_reducible apply each
    | with_reducible apply setRegion
    | with_reducible apply withChip
    | (intro _ _ _; try dsimp only)
    | exact ⟨rfl, rfl, rfl, id⟩

theorem bootChip {lat : Bool} {s0 s : State} (hk : Keeps lat false s0 s) : Keeps lat false s0 (State.bootChip s) := by
  unfold State.bootChip
  dsimp only
  repeat' first
    | with_reducible assumption
    | with_reducible apply timeZero
    | with_reducible apply ite
    | with_reducible apply ite_snd
    | with_reducible apply ite_fst
    | with_reducible apply enterRestricted
    | with_reducible apply put
    | with_reducible apply puts
    | with_reducible apply withChip
    | exact ⟨rfl, rfl, rfl, id⟩
    | exact ⟨rfl, rfl, rfl, fun _ => rfl⟩
    | split

theorem startNoRef {lat tim : Bool} {s0 s : State} (hk : Keeps lat tim s0 s) : Keeps lat tim s0 (State.startNoRef s) := by
  unfold State.startNoRef
  repeat' first
    | with_reducible assumption
    | with_reducible apply ite
    | with_reducible apply ite_snd
    | with_reducible apply ite_fst
    | with_reducible apply enterRestricted
    | with_reducible apply puts

theorem railsUp {lat : Bool} {s0 s : State} {b : Boot} {cause : List Fld} (hk : Keeps lat false s0 s) : Keeps lat false s0 (State.railsUp s b cause) := by
  unfold State.railsUp
  dsimp only
  repeat' first
    | with_reducible assumption
    | with_reducible apply ite
    | with_reducible apply ite_snd
    | with_reducible apply ite_fst
    | with_reducible apply bootChip
    | with_reducible apply putCause
    | with_reducible apply puts
    | with_reducible apply withChip
    | exact ⟨rfl, rfl, rfl, id⟩

theorem powerOn {lat : Bool} {s0 s : State} {b : Boot} (hk : Keeps lat false s0 s) : Keeps lat false s0 (State.powerOn s b) := by
  unfold State.powerOn
  try dsimp only
  repeat' first
    | with_reducible assumption
    | with_reducible apply ite
    | with_reducible apply ite_snd
    | with_reducible apply ite_fst
    | with_reducible apply railsUp
    | with_reducible apply withChip
    | exact ⟨rfl, rfl, rfl, id⟩

theorem leaveReset {lat : Bool} {s0 s : State} (hk : Keeps lat false s0 s) : Keeps lat false s0 (State.leaveReset s) := by
  unfold State.leaveReset
  repeat' first
    | with_reducible assumption
    | with_reducible apply ite
    | with_reducible apply ite_snd
    | with_reducible apply ite_fst
    | with_reducible apply bootChip

theorem startMailboxes {lat tim : Bool} {s0 s : State} (hk : Keeps lat tim s0 s) : Keeps lat tim s0 (State.startMailboxes s) := by
  unfold State.startMailboxes
  try dsimp only
  repeat' first
    | with_reducible assumption
    | with_reducible apply mbxStart
    | with_reducible apply withChip
    | exact ⟨rfl, rfl, rfl, id⟩

theorem startUp {lat tim : Bool} {s0 s : State} (hk : Keeps lat tim s0 s) : Keeps lat tim s0 (State.startUp s) := by
  unfold State.startUp
  refine ite hk ?_
  extract_lets s1 s2 s3 s4 s5 s6
  have h1 : Keeps lat tim s0 s1 := selectCopy (recScan (startMailboxes (by with_reducible exact withChip hk ⟨rfl, rfl, rfl, id⟩)))
  clear_value s1
  have h2 : Keeps lat tim s0 s2 := loadRegion h1
  clear_value s2
  have h3 : Keeps lat tim s0 s3 := ite h2 (put h2)
  clear_value s3
  have h4 : Keeps lat tim s0 s4 := each h3 fun _ _ h => startHalf (loadRegion h)
  clear_value s4
  have h5 : Keeps lat tim s0 s5 := startSh (firstToken h4)
  clear_value s5
  have h6 : Keeps lat tim s0 s6 := by
    dsimp only [s6]
    with_reducible exact withChip h5 ⟨rfl, rfl, rfl, id⟩
  clear_value s6
  exact localNote (startRecord h6)

theorem resetPin {lat tim : Bool} {s0 s : State} (hk : Keeps lat tim s0 s) : Keeps lat tim s0 (State.resetPin s) := by
  unfold State.resetPin
  dsimp only
  repeat' first
    | with_reducible assumption
    | with_reducible apply ite
    | with_reducible apply ite_snd
    | with_reducible apply ite_fst
    | with_reducible apply resetTaken
    | with_reducible apply withChip
    | exact ⟨rfl, rfl, rfl, id⟩

theorem resetRelease {lat : Bool} {s0 s : State} {b : Boot} (hk : Keeps lat false s0 s) : Keeps lat false s0 (State.resetRelease s b) := by
  unfold State.resetRelease
  try dsimp only
  repeat' first
    | with_reducible assumption
    | with_reducible apply ite
    | with_reducible apply ite_snd
    | with_reducible apply ite_fst
    | with_reducible apply leaveReset
    | with_reducible apply withChip
    | exact ⟨rfl, rfl, rfl, id⟩

theorem powerLost {lat tim : Bool} {s0 s : State} (hk : Keeps lat tim s0 s) : Keeps lat tim s0 (State.powerLost s) := by
  unfold State.powerLost
  try dsimp only
  repeat' first
    | with_reducible assumption
    | with_reducible apply tornWrite
    | with_reducible apply wipe
    | with_reducible apply withChip
    | exact ⟨rfl, rfl, rfl, id⟩

theorem brownout {lat tim : Bool} {s0 s : State} (hk : Keeps lat tim s0 s) : Keeps lat tim s0 (State.brownout s) := by
  unfold State.brownout
  repeat' first
    | with_reducible assumption
    | with_reducible apply ite
    | with_reducible apply ite_snd
    | with_reducible apply ite_fst
    | with_reducible apply powerLost

theorem vgdCollapse {lat tim : Bool} {s0 s : State} (hk : Keeps lat tim s0 s) : Keeps lat tim s0 (State.vgdCollapse s) := by
  unfold State.vgdCollapse
  repeat' first
    | with_reducible assumption
    | with_reducible apply ite
    | with_reducible apply ite_snd
    | with_reducible apply ite_fst
    | with_reducible apply powerLost

theorem latchClear {tim : Bool} {s0 s : State} (hk : Keeps false tim s0 s) : Keeps false tim s0 (State.latchClear s) := by
  unfold State.latchClear
  try dsimp only
  repeat' first
    | with_reducible assumption
    | with_reducible apply withLatch
    | exact ⟨rfl, rfl, rfl⟩
    | with_reducible apply ite
    | with_reducible apply ite_snd
    | with_reducible apply ite_fst
    | with_reducible apply powerLost

theorem axPowerFail {lat tim : Bool} {s0 s : State} {n : Nat} (hk : Keeps lat tim s0 s) : Keeps lat tim s0 (State.axPowerFail s n) := by
  unfold State.axPowerFail
  dsimp only
  repeat' first
    | with_reducible assumption
    | with_reducible apply ite
    | with_reducible apply ite_snd
    | with_reducible apply ite_fst
    | with_reducible apply axCoil
    | with_reducible apply axComplete
    | with_reducible apply axCut
    | with_reducible apply axIdle
    | with_reducible apply axToFault
    | with_reducible apply raise

theorem powerFail {lat tim : Bool} {s0 s : State} (hk : Keeps lat tim s0 s) : Keeps lat tim s0 (State.powerFail s) := by
  unfold State.powerFail
  dsimp only
  repeat' first
    | with_reducible assumption
    | with_reducible apply ite
    | with_reducible apply ite_snd
    | with_reducible apply ite_fst
    | with_reducible apply axPowerFail
    | with_reducible apply commitEnd
    | with_reducible apply each
    | with_reducible apply faultStop
    | with_reducible apply notice
    | with_reducible apply ownTrigger
    | with_reducible apply put
    | with_reducible apply puts
    | with_reducible apply startFlush
    | with_reducible apply stnRaise
    | with_reducible apply trigger
    | (intro _ _ _; try dsimp only)

theorem powerBack {lat tim : Bool} {s0 s : State} (hk : Keeps lat tim s0 s) : Keeps lat tim s0 (State.powerBack s) := by
  unfold State.powerBack
  repeat' first
    | with_reducible assumption
    | with_reducible apply put

theorem enterReset {lat : Bool} {s0 s : State} (hk : Keeps lat false s0 s) : Keeps lat false s0 (State.enterReset s) := by
  unfold State.enterReset
  dsimp only
  repeat' first
    | with_reducible assumption
    | with_reducible apply ite
    | with_reducible apply ite_snd
    | with_reducible apply ite_fst
    | with_reducible apply leaveReset
    | with_reducible apply put
    | with_reducible apply putCause
    | with_reducible apply wipe
    | with_reducible apply withChip
    | exact ⟨rfl, rfl, rfl, id⟩

theorem flushComplete {lat : Bool} {s0 s : State} (hk : Keeps lat false s0 s) : Keeps lat false s0 (State.flushComplete s) := by
  unfold State.flushComplete
  dsimp only
  repeat' first
    | with_reducible assumption
    | with_reducible apply enterReset
    | with_reducible apply flushWork
    | with_reducible apply powerFail
    | with_reducible apply put
    | with_reducible apply wipe
    | with_reducible apply withChip
    | exact ⟨rfl, rfl, rfl, id⟩
    | exact ⟨rfl, rfl, rfl, fun _ => rfl⟩
    | split

theorem vinOver {lat tim : Bool} {s0 s : State} {above : Bool} (hk : Keeps lat tim s0 s) : Keeps lat tim s0 (State.vinOver s above) := by
  unfold State.vinOver
  dsimp only
  repeat' first
    | with_reducible assumption
    | with_reducible apply ite
    | with_reducible apply ite_snd
    | with_reducible apply ite_fst
    | with_reducible apply flag
    | with_reducible apply put

theorem buckLimit {lat tim : Bool} {s0 s : State} {out : Bool} (hk : Keeps lat tim s0 s) : Keeps lat tim s0 (State.buckLimit s out) := by
  unfold State.buckLimit
  try dsimp only
  repeat' first
    | with_reducible assumption
    | with_reducible apply ite
    | with_reducible apply ite_snd
    | with_reducible apply ite_fst
    | with_reducible apply put
    | with_reducible apply when
    | (intro _ _; try dsimp only)

theorem supplyTrip {lat tim : Bool} {s0 s : State} {n : Nat} (hk : Keeps lat tim s0 s) : Keeps lat tim s0 (State.supplyTrip s n) := by
  unfold State.supplyTrip
  dsimp only
  repeat' first
    | with_reducible assumption
    | with_reducible apply ite
    | with_reducible apply ite_snd
    | with_reducible apply ite_fst
    | with_reducible apply faultTrip
    | with_reducible apply fresh

theorem vgdUv {lat tim : Bool} {s0 s : State} (hk : Keeps lat tim s0 s) : Keeps lat tim s0 (State.vgdUv s) := by
  unfold State.vgdUv
  dsimp only
  repeat' first
    | with_reducible assumption
    | with_reducible apply ite
    | with_reducible apply ite_snd
    | with_reducible apply ite_fst
    | with_reducible apply each
    | with_reducible apply put
    | with_reducible apply puts
    | with_reducible apply supplyTrip
    | with_reducible apply when
    | (intro _ _ _; try dsimp only)
    | (intro _ _; try dsimp only)

theorem vgdSettled {lat tim : Bool} {s0 s : State} (hk : Keeps lat tim s0 s) : Keeps lat tim s0 (State.vgdSettled s) := by
  unfold State.vgdSettled
  repeat' first
    | with_reducible assumption
    | with_reducible apply ite
    | with_reducible apply ite_snd
    | with_reducible apply ite_fst
    | with_reducible apply puts

theorem dieShutdown {lat tim : Bool} {s0 s : State} (hk : Keeps lat tim s0 s) : Keeps lat tim s0 (State.dieShutdown s) := by
  unfold State.dieShutdown
  dsimp only
  repeat' first
    | with_reducible assumption
    | with_reducible apply ite
    | with_reducible apply ite_snd
    | with_reducible apply ite_fst
    | with_reducible apply cutOutputs
    | with_reducible apply each
    | with_reducible apply enterList
    | with_reducible apply faultStop
    | with_reducible apply ownTrigger
    | with_reducible apply startFlush
    | with_reducible apply stnCause
    | with_reducible apply stopCommit
    | with_reducible apply withChip
    | (intro _ _ _; try dsimp only)
    | exact ⟨rfl, rfl, rfl, id⟩
    | exact ⟨rfl, rfl, rfl, fun _ => rfl⟩

theorem temperature {lat tim : Bool} {s0 s : State} {r : Nat} {rd : List Int} (hk : Keeps lat tim s0 s) : Keeps lat tim s0 (State.temperature s r rd) := by
  unfold State.temperature
  dsimp only
  repeat' first
    | with_reducible assumption
    | with_reducible apply ite
    | with_reducible apply ite_snd
    | with_reducible apply ite_fst
    | with_reducible apply dieShutdown
    | with_reducible apply tempConvert

theorem arbError {lat tim : Bool} {s0 s : State} (hk : Keeps lat tim s0 s) : Keeps lat tim s0 (State.arbError s) := by
  unfold State.arbError
  dsimp only
  repeat' first
    | with_reducible assumption
    | with_reducible apply ite
    | with_reducible apply ite_snd
    | with_reducible apply ite_fst
    | with_reducible apply put
    | with_reducible apply raise
    | with_reducible apply resetTaken

theorem linksFollow {lat tim : Bool} {s0 s : State} (hk : Keeps lat tim s0 s) : Keeps lat tim s0 (State.linksFollow s) := by
  unfold State.linksFollow
  try dsimp only
  repeat' first
    | with_reducible assumption
    | with_reducible apply ite
    | with_reducible apply ite_snd
    | with_reducible apply ite_fst
    | with_reducible apply each
    | with_reducible apply hatState
    | with_reducible apply lnkEnter
    | (intro _ _ _; try dsimp only)

theorem switchOver {lat tim : Bool} {s0 s : State} {r : Nat} (hk : Keeps lat tim s0 s) : Keeps lat tim s0 (State.switchOver s r) := by
  unfold State.switchOver
  repeat' first
    | with_reducible assumption
    | with_reducible apply holdEnd
    | with_reducible apply put

theorem refLoss {lat tim : Bool} {s0 s : State} {r : Nat} (hk : Keeps lat tim s0 s) : Keeps lat tim s0 (State.refLoss s r) := by
  unfold State.refLoss
  dsimp only
  repeat' first
    | with_reducible assumption
    | with_reducible apply ite
    | with_reducible apply ite_snd
    | with_reducible apply ite_fst
    | with_reducible apply bump
    | with_reducible apply canClkOff
    | with_reducible apply each
    | with_reducible apply linksFollow
    | with_reducible apply puts
    | with_reducible apply setBit
    | with_reducible apply switchOver
    | (intro _ _ _; try dsimp only)

theorem refReturn {lat tim : Bool} {s0 s : State} {r : Nat} (hk : Keeps lat tim s0 s) : Keeps lat tim s0 (State.refReturn s r) := by
  unfold State.refReturn
  dsimp only
  repeat' first
    | with_reducible assumption
    | with_reducible apply ite
    | with_reducible apply ite_snd
    | with_reducible apply ite_fst
    | with_reducible apply canClkOn
    | with_reducible apply each
    | with_reducible apply flag
    | with_reducible apply linkRetrain
    | with_reducible apply setBit
    | with_reducible apply switchOver
    | (intro _ _ _; try dsimp only)

theorem sleepBegin {lat tim : Bool} {s0 s : State} {selective : Bool} {frames : List Nat} (hk : Keeps lat tim s0 s) : Keeps lat tim s0 (State.sleepBegin s selective frames) := by
  unfold State.sleepBegin
  try dsimp only
  repeat' first
    | with_reducible assumption
    | with_reducible apply startFlush
    | with_reducible apply withChip
    | exact ⟨rfl, rfl, rfl, id⟩

theorem pinLevel {lat tim : Bool} {s0 s : State} {c : WakeCause} (hk : Keeps lat tim s0 s) : Keeps lat tim s0 (State.pinLevel s c) := by
  unfold State.pinLevel
  repeat' first
    | with_reducible assumption
    | with_reducible apply flag
    | split

theorem wake {lat : Bool} {s0 s : State} {c : WakeCause} {b : Boot} (hk : Keeps lat false s0 s) : Keeps lat false s0 (State.wake s c b) := by
  unfold State.wake
  dsimp only
  repeat' first
    | with_reducible assumption
    | with_reducible apply ite
    | with_reducible apply ite_snd
    | with_reducible apply ite_fst
    | with_reducible apply pinLevel
    | with_reducible apply railsUp
    | with_reducible apply withChip
    | exact ⟨rfl, rfl, rfl, id⟩

theorem sleepDone {lat : Bool} {s0 s : State} (hk : Keeps lat false s0 s) : Keeps lat false s0 (State.sleepDone s) := by
  unfold State.sleepDone
  dsimp only
  repeat' first
    | with_reducible assumption
    | with_reducible apply ite
    | with_reducible apply ite_snd
    | with_reducible apply ite_fst
    | with_reducible apply flushWork
    | with_reducible apply railsUp
    | with_reducible apply wipe
    | with_reducible apply withChip
    | exact ⟨rfl, rfl, rfl, id⟩
    | exact ⟨rfl, rfl, rfl, fun _ => rfl⟩
    | split

theorem keyValid {lat tim : Bool} {s0 s : State} {full : Bool} (hk : Keeps lat tim s0 s) : Keeps lat tim s0 (State.keyValid s full) := by
  unfold State.keyValid
  try dsimp only
  repeat' first
    | with_reducible assumption
    | with_reducible apply put
    | with_reducible apply when
    | (intro _ _; try dsimp only)

theorem keyRelease {lat tim : Bool} {s0 s : State} {full : Bool} (hk : Keeps lat tim s0 s) : Keeps lat tim s0 (State.keyRelease s full) := by
  unfold State.keyRelease
  dsimp only
  repeat' first
    | with_reducible assumption
    | with_reducible apply ite
    | with_reducible apply ite_snd
    | with_reducible apply ite_fst
    | with_reducible apply commitEnd
    | with_reducible apply put

theorem loadLatches {lat tim : Bool} {s0 s : State} {i : TapInstr} (hk : Keeps lat tim s0 s) : Keeps lat tim s0 (State.loadLatches s i) := by
  unfold State.loadLatches
  try dsimp only
  repeat' first
    | with_reducible assumption
    | with_reducible apply ite
    | with_reducible apply ite_snd
    | with_reducible apply ite_fst
    | with_reducible apply fresh
    | with_reducible apply withChip
    | exact ⟨rfl, rfl, rfl, id⟩

theorem tapIr {lat : Bool} {s0 s : State} {code : Nat} (hk : Keeps lat false s0 s) : Keeps lat false s0 (State.tapIr s code) := by
  unfold State.tapIr
  dsimp only
  repeat' first
    | with_reducible assumption
    | with_reducible apply ite
    | with_reducible apply ite_snd
    | with_reducible apply ite_fst
    | with_reducible apply leaveReset
    | with_reducible apply loadLatches
    | with_reducible apply resetTaken
    | with_reducible apply withChip
    | exact ⟨rfl, rfl, rfl, id⟩

theorem tapReset {lat : Bool} {s0 s : State} (hk : Keeps lat false s0 s) : Keeps lat false s0 (State.tapReset s) := by
  unfold State.tapReset
  try dsimp only
  repeat' first
    | with_reducible assumption
    | with_reducible apply leaveReset
    | with_reducible apply withChip
    | exact ⟨rfl, rfl, rfl, id⟩

end Sys2Proof.Machine.Keeps
end

