-- ==== Sys2Proof/Laws/KeepsFaults.lean ====
section
/-!
SUPPORT. The operations of Machine/Faults.lean are operations of the machine in the sense of `Keeps`.
-/
namespace Sys2Proof.Machine.Keeps

theorem lnkOut {lat tim : Bool} {s0 s : State} {l : Link} (hk : Keeps lat tim s0 s) : Keeps lat tim s0 (State.lnkOut s l) := by
  unfold State.lnkOut
  repeat' first
    | with_reducible assumption
    | with_reducible apply ite
    | with_reducible apply ite_snd
    | with_reducible apply ite_fst
    | with_reducible apply flapCheck
    | with_reducible apply hatState
    | with_reducible apply lnkEnter
    | with_reducible apply lnkNoted

theorem portOut {lat tim : Bool} {s0 s : State} {h : Nat} {pulse : Bool} (hk : Keeps lat tim s0 s) : Keeps lat tim s0 (State.portOut s h pulse) := by
  unfold State.portOut
  repeat' first
    | with_reducible assumption
    | with_reducible apply ite
    | with_reducible apply ite_snd
    | with_reducible apply ite_fst
    | with_reducible apply spLos

theorem cover {lat tim : Bool} {s0 s : State} {b : Block} {code : Nat} (hk : Keeps lat tim s0 s) : Keeps lat tim s0 (State.cover s b code) := by
  unfold State.cover
  try dsimp only
  repeat' first
    | with_reducible assumption
    | exact fun h0 => imgSet_wf (slot_wf (hk.sound h0).cfg _) _ _
    | with_reducible apply ite
    | with_reducible apply ite_snd
    | with_reducible apply ite_fst
    | with_reducible apply ascDisarmUser
    | with_reducible apply axFault
    | with_reducible apply bgdRaise
    | with_reducible apply canLeave
    | with_reducible apply chgLow
    | with_reducible apply commitEnd
    | with_reducible apply each
    | with_reducible apply faultHalf
    | with_reducible apply faultTrip
    | with_reducible apply lnkOut
    | with_reducible apply mbxEcc
    | with_reducible apply portOut
    | with_reducible apply preLow
    | with_reducible apply put
    | with_reducible apply putSlot
    | with_reducible apply raise
    | with_reducible apply settleHalf
    | (intro _ _ _; try dsimp only)
    | split

theorem blockError {lat tim : Bool} {s0 s : State} {b : Block} (hk : Keeps lat tim s0 s) : Keeps lat tim s0 (State.blockError s b) := by
  unfold State.blockError
  repeat' first
    | with_reducible assumption
    | with_reducible apply ite
    | with_reducible apply ite_snd
    | with_reducible apply ite_fst
    | with_reducible apply blockOut
    | with_reducible apply cover
    | with_reducible apply holdOut

theorem resetBlock {lat tim : Bool} {s0 s : State} {lo hi : Nat} {keep : List Nat} (hk : Keeps lat tim s0 s) : Keeps lat tim s0 (s.resetBlock lo hi keep) :=
  regs hk fun h => Sparse.wf_filter _ h

theorem restoreSense {lat tim : Bool} {s0 s : State} {n : Nat} (hk : Keeps lat tim s0 s) : Keeps lat tim s0 (State.restoreSense s n) := by
  unfold State.restoreSense
  dsimp only
  repeat' first
    | with_reducible assumption
    | with_reducible apply puts
    | with_reducible apply resetBlock

theorem restoreStn {lat tim : Bool} {s0 s : State} {n : Nat} (hk : Keeps lat tim s0 s) : Keeps lat tim s0 (State.restoreStn s n) := by
  unfold State.restoreStn
  dsimp only
  repeat' first
    | with_reducible assumption
    | with_reducible apply ite
    | with_reducible apply ite_snd
    | with_reducible apply ite_fst
    | with_reducible apply put
    | with_reducible apply putStoOff
    | with_reducible apply resetBlock
    | with_reducible apply startAcq
    | with_reducible apply startCarrier

theorem lnkBack {lat tim : Bool} {s0 s : State} {l : Link} (hk : Keeps lat tim s0 s) : Keeps lat tim s0 (State.lnkBack s l) := by
  unfold State.lnkBack
  repeat' first
    | with_reducible assumption
    | with_reducible apply ite
    | with_reducible apply ite_snd
    | with_reducible apply ite_fst
    | with_reducible apply hatState
    | with_reducible apply put

theorem restoreBlock {lat tim : Bool} {s0 s : State} {b : Block} (hk : Keeps lat tim s0 s) : Keeps lat tim s0 (State.restoreBlock s b) := by
  unfold State.restoreBlock
  dsimp only
  repeat' first
    | with_reducible assumption
    | with_reducible apply ite
    | with_reducible apply ite_snd
    | with_reducible apply ite_fst
    | with_reducible apply ascDisarmUser
    | with_reducible apply canStart
    | with_reducible apply each
    | with_reducible apply lnkBack
    | with_reducible apply put
    | with_reducible apply putK
    | with_reducible apply puts
    | with_reducible apply resetBlock
    | with_reducible apply resetSlot
    | with_reducible apply restoreSense
    | with_reducible apply restoreStn
    | with_reducible apply withCan
    | (intro _ _ _; try dsimp only)
    | split

theorem countTransient {lat tim : Bool} {s0 s : State} {x : Steamed} {code : Nat} (hk : Keeps lat tim s0 s) : Keeps lat tim s0 (State.countTransient s x code) := by
  unfold State.countTransient
  try dsimp only
  repeat' first
    | with_reducible assumption
    | with_reducible apply bump
    | with_reducible apply trigger
    | with_reducible apply withFlt

theorem transient {lat tim : Bool} {s0 s : State} {x : Steamed} {e : FEntry} (hk : Keeps lat tim s0 s) : Keeps lat tim s0 (State.transient s x e) := by
  unfold State.transient
  dsimp only
  repeat' first
    | with_reducible assumption
    | with_reducible apply ite
    | with_reducible apply ite_snd
    | with_reducible apply ite_fst
    | with_reducible apply countTransient
    | with_reducible apply unraise
    | with_reducible apply withEntry

theorem testPass {lat tim : Bool} {s0 s : State} {b : Block} (hk : Keeps lat tim s0 s) : Keeps lat tim s0 (State.testPass s b) := by
  unfold State.testPass
  dsimp only
  repeat' first
    | with_reducible assumption
    | with_reducible apply ite
    | with_reducible apply ite_snd
    | with_reducible apply ite_fst
    | with_reducible apply restoreBlock
    | with_reducible apply setOos
    | with_reducible apply withFlt

theorem testFail {lat tim : Bool} {s0 s : State} {b : Block} (hk : Keeps lat tim s0 s) : Keeps lat tim s0 (State.testFail s b) := by
  unfold State.testFail
  repeat' first
    | with_reducible assumption
    | with_reducible apply ite
    | with_reducible apply ite_snd
    | with_reducible apply ite_fst
    | with_reducible apply cover
    | with_reducible apply holdLink
    | with_reducible apply markLasting
    | with_reducible apply raise
    | with_reducible apply setOos

theorem blockSteamed {lat tim : Bool} {s0 s : State} {b : Block} {pass : Bool} (hk : Keeps lat tim s0 s) : Keeps lat tim s0 (State.blockSteamed s b pass) := by
  unfold State.blockSteamed
  dsimp only
  repeat' first
    | with_reducible assumption
    | with_reducible apply ite
    | with_reducible apply ite_snd
    | with_reducible apply ite_fst
    | with_reducible apply countTransient
    | with_reducible apply each
    | with_reducible apply holdLink
    | with_reducible apply markLasting
    | with_reducible apply restoreBlock
    | with_reducible apply setOos
    | with_reducible apply setSteam
    | with_reducible apply testFail
    | with_reducible apply testNext
    | with_reducible apply testPass
    | with_reducible apply transient
    | (intro _ _ _; try dsimp only)
    | split

theorem entrySteamed {lat tim : Bool} {s0 s : State} {c : Fin 4} {ix : Fin 96} {pass : Bool} (hk : Keeps lat tim s0 s) : Keeps lat tim s0 (State.entrySteamed s c ix pass) := by
  unfold State.entrySteamed
  dsimp only
  repeat' first
    | with_reducible assumption
    | with_reducible apply ite
    | with_reducible apply ite_snd
    | with_reducible apply ite_fst
    | with_reducible apply canFree
    | with_reducible apply countTransient
    | with_reducible apply markLasting
    | with_reducible apply raise
    | with_reducible apply transient
    | with_reducible apply withCan
    | split

theorem steamingEnd {lat tim : Bool} {s0 s : State} {x : Steamed} {pass : Bool} (hk : Keeps lat tim s0 s) : Keeps lat tim s0 (State.steamingEnd s x pass) := by
  unfold State.steamingEnd
  repeat' first
    | with_reducible assumption
    | with_reducible apply ite
    | with_reducible apply ite_snd
    | with_reducible apply ite_fst
    | with_reducible apply blockSteamed
    | with_reducible apply entrySteamed
    | split

theorem selfTest {lat tim : Bool} {s0 s : State} {tag : Nat} {l : List Block} (hk : Keeps lat tim s0 s) : Keeps lat tim s0 (State.selfTest s tag l) := by
  unfold State.selfTest
  try dsimp only
  repeat' first
    | with_reducible assumption
    | with_reducible apply setSteam
    | with_reducible apply withFlt
    | split

theorem stopTest {lat tim : Bool} {s0 s : State} {tag : Nat} (hk : Keeps lat tim s0 s) : Keeps lat tim s0 (State.stopTest s tag) := by
  unfold State.stopTest
  dsimp only
  repeat' first
    | with_reducible assumption
    | with_reducible apply ite
    | with_reducible apply ite_snd
    | with_reducible apply ite_fst
    | with_reducible apply each
    | with_reducible apply setSteam
    | with_reducible apply withFlt
    | (intro _ _ _; try dsimp only)
    | split

theorem entryError {lat tim : Bool} {s0 s : State} {c : Fin 4} {ix : Fin 96} (hk : Keeps lat tim s0 s) : Keeps lat tim s0 (State.entryError s c ix) := by
  unfold State.entryError
  dsimp only
  repeat' first
    | with_reducible assumption
    | with_reducible apply ite
    | with_reducible apply ite_snd
    | with_reducible apply ite_fst
    | with_reducible apply bump
    | with_reducible apply markLasting
    | with_reducible apply put
    | with_reducible apply raise
    | with_reducible apply txEnd
    | with_reducible apply withCan
    | with_reducible apply withEntry
    | split

theorem cellError {lat tim : Bool} {s0 s : State} {x : Cell} (hk : Keeps lat tim s0 s) : Keeps lat tim s0 (State.cellError s x) := by
  unfold State.cellError
  try dsimp only
  repeat' first
    | with_reducible assumption
    | with_reducible apply ite
    | with_reducible apply ite_snd
    | with_reducible apply ite_fst
    | with_reducible apply blockError
    | with_reducible apply blockFail
    | with_reducible apply entryError
    | with_reducible apply loseTrig
    | with_reducible apply positionFaultBy
    | with_reducible apply put
    | with_reducible apply slotErrEv
    | with_reducible apply withLog
    | exact rfl
    | split

theorem ramScrub {lat tim : Bool} {s0 s : State} {errors : Nat} (hk : Keeps lat tim s0 s) : Keeps lat tim s0 (State.ramScrub s errors) := by
  unfold State.ramScrub
  repeat' first
    | with_reducible assumption
    | with_reducible apply ite
    | with_reducible apply ite_snd
    | with_reducible apply ite_fst
    | with_reducible apply bumpBy

theorem afterClear {lat tim : Bool} {s0 s : State} {u : FUnit} {code : Nat} (hk : Keeps lat tim s0 s) : Keeps lat tim s0 (State.afterClear s u code) := by
  unfold State.afterClear
  dsimp only
  repeat' first
    | with_reducible assumption
    | with_reducible apply ite
    | with_reducible apply ite_snd
    | with_reducible apply ite_fst
    | with_reducible apply each
    | with_reducible apply hatState
    | with_reducible apply put
    | with_reducible apply puts
    | with_reducible apply startAcq
    | (intro _ _ _; try dsimp only)
    | split

theorem clearOne {lat tim : Bool} {s0 s : State} {u : FUnit} {code : Nat} (hk : Keeps lat tim s0 s) : Keeps lat tim s0 (State.clearOne s u code) := by
  unfold State.clearOne
  repeat' first
    | with_reducible assumption
    | with_reducible apply afterClear
    | with_reducible apply trigger
    | with_reducible apply unraise

theorem faultClear {lat tim : Bool} {s0 s : State} {u : FUnit} {code : Nat} (hk : Keeps lat tim s0 s) : Keeps lat tim s0 (State.faultClear s u code) := by
  unfold State.faultClear
  dsimp only
  repeat' first
    | with_reducible assumption
    | with_reducible apply ite
    | with_reducible apply ite_snd
    | with_reducible apply ite_fst
    | with_reducible apply clearOne
    | with_reducible apply each
    | with_reducible apply put
    | with_reducible apply setMode
    | with_reducible apply withFlt
    | (intro _ _ _; try dsimp only)
    | split

end Sys2Proof.Machine.Keeps
end

