-- ==== Sys2Proof/Laws/KeepsMilliner.lean ====
section
/-!
SUPPORT. The operations of Machine/Milliner.lean are operations of the machine in the sense of `Keeps`.
-/
namespace Sys2Proof.Machine.Keeps

theorem capture {lat tim : Bool} {s0 s : State} {tag op : Nat} (hk : Keeps lat tim s0 s) : Keeps lat tim s0 (State.capture s tag op) := by
  unfold State.capture
  try dsimp only
  repeat' first
    | with_reducible assumption
    | with_reducible apply withMil
    | exact rfl

end Sys2Proof.Machine.Keeps
end

