-- ==== Sys2Proof/Laws/KeepsCmdChip.lean ====
section
/-!
SUPPORT. The operations of Machine/CmdChip.lean are operations of the machine in the sense of `Keeps`.
-/
namespace Sys2Proof.Machine.Keeps

theorem holdEnable {lat tim : Bool} {s0 s : State} {old : State} {c : Cmd} (hk : Keeps lat tim s0 s) : Keeps lat tim s0 (State.holdEnable s old c) := by
  unfold State.holdEnable
  repeat' first
    | with_reducible assumption
    | with_reducible apply ite
    | with_reducible apply ite_snd
    | with_reducible apply ite_fst
    | with_reducible apply put
    | split

theorem shareRestage {lat tim : Bool} {s0 s : State} {g mode : Nat} {ms : List (Nat × Nat × Nat)} (hk : Keeps lat tim s0 s) :
    Keeps lat tim s0 ((s.shareRestage g mode ms).getD s) := restageD hk

theorem trigRestage {lat tim : Bool} {s0 s : State} {t en felt : Nat} {addrs : List Nat} (hk : Keeps lat tim s0 s) :
    Keeps lat tim s0 ((s.trigRestage t en felt addrs).getD s) := restageD hk

theorem putTrig {lat tim : Bool} {s0 s : State} {t en felt : Nat} {addrs : List Nat} (hk : Keeps lat tim s0 s) : Keeps lat tim s0 (State.putTrig s t en felt addrs) := by
  unfold State.putTrig
  dsimp only
  repeat' first
    | with_reducible assumption
    | with_reducible apply each
    | with_reducible apply put
    | with_reducible apply puts
    | (intro _ _ _; try dsimp only)

theorem opEcho {lat tim : Bool} {s0 s : State} {c : Cmd} (hk : Keeps lat tim s0 s) : Keeps lat tim s0 (Sys2Proof.Machine.opEcho.run s c) := by
  dsimp only [Sys2Proof.Machine.opEcho]
  repeat' first
    | with_reducible assumption
    | with_reducible apply reply

theorem opIdentify {lat tim : Bool} {s0 s : State} {c : Cmd} (hk : Keeps lat tim s0 s) : Keeps lat tim s0 (Sys2Proof.Machine.opIdentify.run s c) := by
  dsimp only [Sys2Proof.Machine.opIdentify]
  repeat' first
    | with_reducible assumption
    | with_reducible apply reply

theorem opReadReg {lat tim : Bool} {s0 s : State} {c : Cmd} (hk : Keeps lat tim s0 s) : Keeps lat tim s0 (Sys2Proof.Machine.opReadReg.run s c) := by
  dsimp only [Sys2Proof.Machine.opReadReg]
  repeat' first
    | with_reducible assumption
    | with_reducible apply freeTag
    | with_reducible apply occupy
    | with_reducible apply readWords
    | with_reducible apply reply

theorem opWriteReg {lat tim : Bool} {s0 s : State} {c : Cmd} (hk : Keeps lat tim s0 s) : Keeps lat tim s0 (Sys2Proof.Machine.opWriteReg.run s c) := by
  dsimp only [Sys2Proof.Machine.opWriteReg]
  repeat' first
    | with_reducible assumption
    | with_reducible apply holdEnable
    | with_reducible apply reply
    | with_reducible apply writeWords

theorem opModifyReg {lat tim : Bool} {s0 s : State} {c : Cmd} (hk : Keeps lat tim s0 s) : Keeps lat tim s0 (Sys2Proof.Machine.opModifyReg.run s c) := by
  dsimp only [Sys2Proof.Machine.opModifyReg]
  repeat' first
    | with_reducible assumption
    | with_reducible apply holdEnable
    | with_reducible apply modifyWord
    | with_reducible apply occupy
    | with_reducible apply reply

theorem opSnapshot {lat tim : Bool} {s0 s : State} {c : Cmd} (hk : Keeps lat tim s0 s) : Keeps lat tim s0 (Sys2Proof.Machine.opSnapshot.run s c) := by
  dsimp only [Sys2Proof.Machine.opSnapshot]
  repeat' first
    | with_reducible assumption
    | with_reducible apply ite
    | with_reducible apply ite_snd
    | with_reducible apply ite_fst
    | with_reducible apply occupy
    | with_reducible apply reply

theorem opSleep {lat tim : Bool} {s0 s : State} {c : Cmd} (hk : Keeps lat tim s0 s) : Keeps lat tim s0 (Sys2Proof.Machine.opSleep.run s c) := by
  dsimp only [Sys2Proof.Machine.opSleep]
  repeat' first
    | with_reducible assumption
    | with_reducible apply reply
    | with_reducible apply sleepBegin
    | with_reducible apply sleepCheck

theorem opResetRegion {lat tim : Bool} {s0 s : State} {c : Cmd} (hk : Keeps lat tim s0 s) : Keeps lat tim s0 (Sys2Proof.Machine.opResetRegion.run s c) := by
  dsimp only [Sys2Proof.Machine.opResetRegion]
  repeat' first
    | with_reducible assumption
    | with_reducible apply ite
    | with_reducible apply ite_snd
    | with_reducible apply ite_fst
    | with_reducible apply begin
    | with_reducible apply put
    | with_reducible apply reply
    | with_reducible apply shResetCheck
    | with_reducible apply takeDown

theorem opCfgRead {lat tim : Bool} {s0 s : State} {c : Cmd} (hk : Keeps lat tim s0 s) : Keeps lat tim s0 (Sys2Proof.Machine.opCfgRead.run s c) := by
  dsimp only [Sys2Proof.Machine.opCfgRead]
  repeat' first
    | with_reducible assumption
    | with_reducible apply ite
    | with_reducible apply ite_snd
    | with_reducible apply ite_fst
    | with_reducible apply reply

theorem opCfgStage {lat tim : Bool} {s0 s : State} {c : Cmd} (hk : Keeps lat tim s0 s) : Keeps lat tim s0 (Sys2Proof.Machine.opCfgStage.run s c) := by
  dsimp only [Sys2Proof.Machine.opCfgStage]
  repeat' first
    | with_reducible assumption
    | with_reducible apply reply
    | with_reducible apply stageWords

theorem opCfgCommit {lat tim : Bool} {s0 s : State} {c : Cmd} (hk : Keeps lat tim s0 s) : Keeps lat tim s0 (Sys2Proof.Machine.opCfgCommit.run s c) := by
  dsimp only [Sys2Proof.Machine.opCfgCommit]
  repeat' first
    | with_reducible assumption
    | with_reducible apply begin
    | with_reducible apply commitBegin

theorem opCfgSeal {lat tim : Bool} {s0 s : State} {c : Cmd} (hk : Keeps lat tim s0 s) : Keeps lat tim s0 (Sys2Proof.Machine.opCfgSeal.run s c) := by
  dsimp only [Sys2Proof.Machine.opCfgSeal]
  repeat' first
    | with_reducible assumption
    | with_reducible apply begin
    | with_reducible apply commitBegin

theorem opTableLoad {lat tim : Bool} {s0 s : State} {c : Cmd} (hk : Keeps lat tim s0 s) : Keeps lat tim s0 (Sys2Proof.Machine.opTableLoad.run s c) := by
  dsimp only [Sys2Proof.Machine.opTableLoad]
  repeat' first
    | with_reducible assumption
    | with_reducible apply ite
    | with_reducible apply ite_snd
    | with_reducible apply ite_fst
    | with_reducible apply axHold
    | with_reducible apply occupy
    | with_reducible apply orderedAnswer
    | with_reducible apply putTable
    | with_reducible apply stageWords
    | split

theorem opShareCfg {lat tim : Bool} {s0 s : State} {c : Cmd} (hk : Keeps lat tim s0 s) : Keeps lat tim s0 (Sys2Proof.Machine.opShareCfg.run s c) := by
  dsimp only [Sys2Proof.Machine.opShareCfg]
  repeat' first
    | with_reducible assumption
    | with_reducible apply putGroup
    | with_reducible apply reply
    | with_reducible apply shareRestage

theorem opRecRead {lat tim : Bool} {s0 s : State} {c : Cmd} (hk : Keeps lat tim s0 s) : Keeps lat tim s0 (Sys2Proof.Machine.opRecRead.run s c) := by
  dsimp only [Sys2Proof.Machine.opRecRead]
  repeat' first
    | with_reducible assumption
    | with_reducible apply reply

theorem opRecTriggerCfg {lat tim : Bool} {s0 s : State} {c : Cmd} (hk : Keeps lat tim s0 s) : Keeps lat tim s0 (Sys2Proof.Machine.opRecTriggerCfg.run s c) := by
  dsimp only [Sys2Proof.Machine.opRecTriggerCfg]
  repeat' first
    | with_reducible assumption
    | with_reducible apply putTrig
    | with_reducible apply reply
    | with_reducible apply trigRestage

theorem opMbxPost {lat tim : Bool} {s0 s : State} {c : Cmd} (hk : Keeps lat tim s0 s) : Keeps lat tim s0 (Sys2Proof.Machine.opMbxPost.run s c) := by
  dsimp only [Sys2Proof.Machine.opMbxPost]
  repeat' first
    | with_reducible assumption
    | with_reducible apply mbxPost
    | with_reducible apply reply

theorem opMbxFetch {lat tim : Bool} {s0 s : State} {c : Cmd} (hk : Keeps lat tim s0 s) : Keeps lat tim s0 (Sys2Proof.Machine.opMbxFetch.run s c) := by
  dsimp only [Sys2Proof.Machine.opMbxFetch]
  repeat' first
    | with_reducible assumption
    | with_reducible apply ite
    | with_reducible apply ite_snd
    | with_reducible apply ite_fst
    | with_reducible apply mbxFetch
    | with_reducible apply reply

theorem dblSend {lat tim : Bool} {s0 s : State} {p mask : Nat} (hk : Keeps lat tim s0 s) : Keeps lat tim s0 (Sys2Proof.Machine.dblSend s p mask) := by
  unfold Sys2Proof.Machine.dblSend
  try dsimp only
  repeat' first
    | with_reducible assumption
    | with_reducible apply withPeer

theorem opDblRing {lat tim : Bool} {s0 s : State} {c : Cmd} (hk : Keeps lat tim s0 s) : Keeps lat tim s0 (Sys2Proof.Machine.opDblRing.run s c) := by
  dsimp only [Sys2Proof.Machine.opDblRing]
  repeat' first
    | with_reducible assumption
    | with_reducible apply ite
    | with_reducible apply ite_snd
    | with_reducible apply ite_fst
    | with_reducible apply dblRing
    | with_reducible apply dblSend
    | with_reducible apply reply

theorem opFaultRead {lat tim : Bool} {s0 s : State} {c : Cmd} (hk : Keeps lat tim s0 s) : Keeps lat tim s0 (Sys2Proof.Machine.opFaultRead.run s c) := by
  dsimp only [Sys2Proof.Machine.opFaultRead]
  repeat' first
    | with_reducible assumption
    | with_reducible apply reply

theorem opFaultClear {lat tim : Bool} {s0 s : State} {c : Cmd} (hk : Keeps lat tim s0 s) : Keeps lat tim s0 (Sys2Proof.Machine.opFaultClear.run s c) := by
  dsimp only [Sys2Proof.Machine.opFaultClear]
  repeat' first
    | with_reducible assumption
    | with_reducible apply faultClear
    | with_reducible apply reply

theorem opMastership {lat tim : Bool} {s0 s : State} {c : Cmd} (hk : Keeps lat tim s0 s) : Keeps lat tim s0 (Sys2Proof.Machine.opMastership.run s c) := by
  dsimp only [Sys2Proof.Machine.opMastership]
  repeat' first
    | with_reducible assumption
    | with_reducible apply ite
    | with_reducible apply ite_snd
    | with_reducible apply ite_fst
    | with_reducible apply handOver
    | with_reducible apply reply

theorem opTestmux {lat tim : Bool} {s0 s : State} {c : Cmd} (hk : Keeps lat tim s0 s) : Keeps lat tim s0 (Sys2Proof.Machine.opTestmux.run s c) := by
  dsimp only [Sys2Proof.Machine.opTestmux]
  repeat' first
    | with_reducible assumption
    | with_reducible apply puts
    | with_reducible apply reply

theorem opSelftest {lat tim : Bool} {s0 s : State} {c : Cmd} (hk : Keeps lat tim s0 s) : Keeps lat tim s0 (Sys2Proof.Machine.opSelftest.run s c) := by
  dsimp only [Sys2Proof.Machine.opSelftest]
  repeat' first
    | with_reducible assumption
    | with_reducible apply begin
    | with_reducible apply selfTest

end Sys2Proof.Machine.Keeps
end

