-- ==== Sys2Proof/Laws/KeepsCmdStation.lean ====
section
/-!
SUPPORT. The operations of Machine/CmdStation.lean are operations of the machine in the sense of `Keeps`.
-/
namespace Sys2Proof.Machine.Keeps

theorem setPoint {lat tim : Bool} {s0 s : State} {n : Nat} {v : Int} (hk : Keeps lat tim s0 s) : Keeps lat tim s0 (State.setPoint s n v) := by
  unfold State.setPoint
  dsimp only
  repeat' first
    | with_reducible assumption
    | with_reducible apply ite
    | with_reducible apply ite_snd
    | with_reducible apply ite_fst
    | with_reducible apply put

theorem hostStop {lat tim : Bool} {s0 s : State} {n ty : Nat} (hk : Keeps lat tim s0 s) : Keeps lat tim s0 (State.hostStop s n ty) := by
  unfold State.hostStop
  dsimp only
  repeat' first
    | with_reducible assumption
    | with_reducible apply leaveService
    | with_reducible apply put
    | with_reducible apply stopStation

theorem sizingBegin {lat tim : Bool} {s0 s : State} {n items : Nat} (hk : Keeps lat tim s0 s) : Keeps lat tim s0 (State.sizingBegin s n items) := by
  unfold State.sizingBegin
  repeat' first
    | with_reducible assumption
    | with_reducible apply puts
    | with_reducible apply setMode
    | with_reducible apply sizNext

theorem opStnArm {lat tim : Bool} {s0 s : State} {c : Cmd} (hk : Keeps lat tim s0 s) : Keeps lat tim s0 (Sys2Proof.Machine.opStnArm.run s c) := by
  dsimp only [Sys2Proof.Machine.opStnArm]
  repeat' first
    | with_reducible assumption
    | with_reducible apply armStart
    | with_reducible apply begin

theorem opStnRun {lat tim : Bool} {s0 s : State} {c : Cmd} (hk : Keeps lat tim s0 s) : Keeps lat tim s0 (Sys2Proof.Machine.opStnRun.run s c) := by
  dsimp only [Sys2Proof.Machine.opStnRun]
  repeat' first
    | with_reducible assumption
    | with_reducible apply enterRun
    | with_reducible apply reply

theorem opStnSetpoint {lat tim : Bool} {s0 s : State} {c : Cmd} (hk : Keeps lat tim s0 s) : Keeps lat tim s0 (Sys2Proof.Machine.opStnSetpoint.run s c) := by
  dsimp only [Sys2Proof.Machine.opStnSetpoint]
  repeat' first
    | with_reducible assumption
    | with_reducible apply ite
    | with_reducible apply ite_snd
    | with_reducible apply ite_fst
    | with_reducible apply setPoint
    | with_reducible apply start

theorem opStnStop {lat tim : Bool} {s0 s : State} {c : Cmd} (hk : Keeps lat tim s0 s) : Keeps lat tim s0 (Sys2Proof.Machine.opStnStop.run s c) := by
  dsimp only [Sys2Proof.Machine.opStnStop]
  repeat' first
    | with_reducible assumption
    | with_reducible apply ite
    | with_reducible apply ite_snd
    | with_reducible apply ite_fst
    | with_reducible apply begin
    | with_reducible apply hostStop
    | with_reducible apply put
    | with_reducible apply reply

theorem opStnDiag {lat tim : Bool} {s0 s : State} {c : Cmd} (hk : Keeps lat tim s0 s) : Keeps lat tim s0 (Sys2Proof.Machine.opStnDiag.run s c) := by
  dsimp only [Sys2Proof.Machine.opStnDiag]
  repeat' first
    | with_reducible assumption
    | with_reducible apply begin
    | with_reducible apply puts
    | with_reducible apply setMode

theorem opStnSizing {lat tim : Bool} {s0 s : State} {c : Cmd} (hk : Keeps lat tim s0 s) : Keeps lat tim s0 (Sys2Proof.Machine.opStnSizing.run s c) := by
  dsimp only [Sys2Proof.Machine.opStnSizing]
  repeat' first
    | with_reducible assumption
    | with_reducible apply ite
    | with_reducible apply ite_snd
    | with_reducible apply ite_fst
    | with_reducible apply begin
    | with_reducible apply completeAll
    | with_reducible apply sizingBegin

theorem opBankSwap {lat tim : Bool} {s0 s : State} {c : Cmd} (hk : Keeps lat tim s0 s) : Keeps lat tim s0 (Sys2Proof.Machine.opBankSwap.run s c) := by
  dsimp only [Sys2Proof.Machine.opBankSwap]
  repeat' first
    | with_reducible assumption
    | with_reducible apply occupy
    | with_reducible apply setBit

theorem opEvtArm {lat tim : Bool} {s0 s : State} {c : Cmd} (hk : Keeps lat tim s0 s) : Keeps lat tim s0 (Sys2Proof.Machine.opEvtArm.run s c) := by
  dsimp only [Sys2Proof.Machine.opEvtArm]
  repeat' first
    | with_reducible assumption
    | with_reducible apply evtArm
    | with_reducible apply start

theorem opEvtCancel {lat tim : Bool} {s0 s : State} {c : Cmd} (hk : Keeps lat tim s0 s) : Keeps lat tim s0 (Sys2Proof.Machine.opEvtCancel.run s c) := by
  dsimp only [Sys2Proof.Machine.opEvtCancel]
  repeat' first
    | with_reducible assumption
    | with_reducible apply ite
    | with_reducible apply ite_snd
    | with_reducible apply ite_fst
    | with_reducible apply ascCancelTick
    | with_reducible apply ascDisarm
    | with_reducible apply reply

end Sys2Proof.Machine.Keeps
end

