-- ==== Sys2Proof/Laws/KeepsCmdAxis.lean ====
section
/-!
SUPPORT. The operations of Machine/CmdAxis.lean are operations of the machine in the sense of `Keeps`.
-/
namespace Sys2Proof.Machine.Keeps

theorem opAxisMove {lat tim : Bool} {s0 s : State} {c : Cmd} (hk : Keeps lat tim s0 s) : Keeps lat tim s0 (Sys2Proof.Machine.opAxisMove.run s c) := by
  dsimp only [Sys2Proof.Machine.opAxisMove]
  repeat' first
    | with_reducible assumption
    | with_reducible apply ite
    | with_reducible apply ite_snd
    | with_reducible apply ite_fst
    | with_reducible apply axComplete
    | with_reducible apply axMove
    | with_reducible apply axProfile
    | with_reducible apply start

theorem opAxisRetarget {lat tim : Bool} {s0 s : State} {c : Cmd} (hk : Keeps lat tim s0 s) : Keeps lat tim s0 (Sys2Proof.Machine.opAxisRetarget.run s c) := by
  dsimp only [Sys2Proof.Machine.opAxisRetarget]
  repeat' first
    | with_reducible assumption
    | with_reducible apply ite
    | with_reducible apply ite_snd
    | with_reducible apply ite_fst
    | with_reducible apply axMove
    | with_reducible apply reply

theorem opAxisStop {lat tim : Bool} {s0 s : State} {c : Cmd} (hk : Keeps lat tim s0 s) : Keeps lat tim s0 (Sys2Proof.Machine.opAxisStop.run s c) := by
  dsimp only [Sys2Proof.Machine.opAxisStop]
  repeat' first
    | with_reducible assumption
    | with_reducible apply ite
    | with_reducible apply ite_snd
    | with_reducible apply ite_fst
    | with_reducible apply axArrive
    | with_reducible apply axStop
    | with_reducible apply reply

theorem opAxisGroup {lat tim : Bool} {s0 s : State} {c : Cmd} (hk : Keeps lat tim s0 s) : Keeps lat tim s0 (Sys2Proof.Machine.opAxisGroup.run s c) := by
  dsimp only [Sys2Proof.Machine.opAxisGroup]
  repeat' first
    | with_reducible assumption
    | with_reducible apply ite
    | with_reducible apply ite_snd
    | with_reducible apply ite_fst
    | with_reducible apply axGroup
    | with_reducible apply completeAll
    | with_reducible apply start

theorem opAxisFollow {lat tim : Bool} {s0 s : State} {c : Cmd} (hk : Keeps lat tim s0 s) : Keeps lat tim s0 (Sys2Proof.Machine.opAxisFollow.run s c) := by
  dsimp only [Sys2Proof.Machine.opAxisFollow]
  repeat' first
    | with_reducible assumption
    | with_reducible apply axFollow
    | with_reducible apply reply

theorem opSvcStart {lat tim : Bool} {s0 s : State} {c : Cmd} (hk : Keeps lat tim s0 s) : Keeps lat tim s0 (Sys2Proof.Machine.opSvcStart.run s c) := by
  dsimp only [Sys2Proof.Machine.opSvcStart]
  repeat' first
    | with_reducible assumption
    | with_reducible apply start
    | with_reducible apply svcBegin

theorem opSvcParam {lat tim : Bool} {s0 s : State} {c : Cmd} (hk : Keeps lat tim s0 s) : Keeps lat tim s0 (Sys2Proof.Machine.opSvcParam.run s c) := by
  dsimp only [Sys2Proof.Machine.opSvcParam]
  repeat' first
    | with_reducible assumption
    | with_reducible apply reply
    | with_reducible apply svcNew

theorem opSvcStop {lat tim : Bool} {s0 s : State} {c : Cmd} (hk : Keeps lat tim s0 s) : Keeps lat tim s0 (Sys2Proof.Machine.opSvcStop.run s c) := by
  dsimp only [Sys2Proof.Machine.opSvcStop]
  repeat' first
    | with_reducible assumption
    | with_reducible apply begin
    | with_reducible apply svcStop

end Sys2Proof.Machine.Keeps
end

