-- ==== Sys2Proof/Laws/KeepsCmdCan.lean ====
section
/-!
SUPPORT. The operations of Machine/CmdCan.lean are operations of the machine in the sense of `Keeps`.
-/
namespace Sys2Proof.Machine.Keeps

theorem canConfigure {lat tim : Bool} {s0 s : State} {c : Cmd} (hk : Keeps lat tim s0 s) : Keeps lat tim s0 (State.canConfigure s c) := by
  unfold State.canConfigure
  dsimp only
  repeat' first
    | with_reducible assumption
    | with_reducible apply each
    | with_reducible apply put
    | with_reducible apply writeWords
    | (intro _ _ _; try dsimp only)

theorem opCanCfg {lat tim : Bool} {s0 s : State} {c : Cmd} (hk : Keeps lat tim s0 s) : Keeps lat tim s0 (Sys2Proof.Machine.opCanCfg.run s c) := by
  dsimp only [Sys2Proof.Machine.opCanCfg]
  repeat' first
    | with_reducible assumption
    | with_reducible apply canConfigure
    | with_reducible apply reply

theorem opCanRecover {lat tim : Bool} {s0 s : State} {c : Cmd} (hk : Keeps lat tim s0 s) : Keeps lat tim s0 (Sys2Proof.Machine.opCanRecover.run s c) := by
  dsimp only [Sys2Proof.Machine.opCanRecover]
  repeat' first
    | with_reducible assumption
    | with_reducible apply begin
    | with_reducible apply canRecover

theorem opTimeMaster {lat tim : Bool} {s0 s : State} {c : Cmd} (hk : Keeps lat tim s0 s) : Keeps lat tim s0 (Sys2Proof.Machine.opTimeMaster.run s c) := by
  dsimp only [Sys2Proof.Machine.opTimeMaster]
  repeat' first
    | with_reducible assumption
    | with_reducible apply reply
    | with_reducible apply timeMaster

theorem opCanSend {lat tim : Bool} {s0 s : State} {c : Cmd} (hk : Keeps lat tim s0 s) : Keeps lat tim s0 (Sys2Proof.Machine.opCanSend.run s c) := by
  dsimp only [Sys2Proof.Machine.opCanSend]
  repeat' first
    | with_reducible assumption
    | with_reducible apply canQueue
    | with_reducible apply start

theorem opCanFetch {lat tim : Bool} {s0 s : State} {c : Cmd} (hk : Keeps lat tim s0 s) : Keeps lat tim s0 (Sys2Proof.Machine.opCanFetch.run s c) := by
  dsimp only [Sys2Proof.Machine.opCanFetch]
  repeat' first
    | with_reducible assumption
    | with_reducible apply reply

theorem opCanAck {lat tim : Bool} {s0 s : State} {c : Cmd} (hk : Keeps lat tim s0 s) : Keeps lat tim s0 (Sys2Proof.Machine.opCanAck.run s c) := by
  dsimp only [Sys2Proof.Machine.opCanAck]
  repeat' first
    | with_reducible assumption
    | with_reducible apply canAck
    | with_reducible apply reply

end Sys2Proof.Machine.Keeps
end

