-- ==== Sys2Proof/Laws/KeepsAccept.lean ====
section
/-!
SUPPORT. The operations of Machine/Accept.lean are operations of the machine in the sense of `Keeps`.
-/
namespace Sys2Proof.Machine.Keeps

/-- What an opcode does when it is accepted is an operation of the machine. -/
def Op (op : OpSpec) : Prop := ∀ (lat tim : Bool) (s0 s : State) (c : Cmd), Keeps lat tim s0 s → Keeps lat tim s0 (op.run s c)

theorem cons {op : OpSpec} {l : List OpSpec} (h : Op op) (hl : ∀ x ∈ l, Op x) : ∀ x ∈ op :: l, Op x :=
  List.forall_mem_cons.mpr ⟨h, hl⟩

theorem table1 : ∀ op ∈ ([Machine.opEcho, Machine.opIdentify, Machine.opReadReg, Machine.opWriteReg, Machine.opModifyReg, Machine.opSnapshot,
    Machine.opSleep, Machine.opResetRegion, Machine.opCfgRead, Machine.opCfgStage, Machine.opCfgCommit, Machine.opCfgSeal,
    Machine.opTableLoad,] : List OpSpec), Op op :=
  cons (fun _ _ _ _ _ h => opEcho h) <| cons (fun _ _ _ _ _ h => opIdentify h) <| cons (fun _ _ _ _ _ h => opReadReg h) <|
    cons (fun _ _ _ _ _ h => opWriteReg h) <| cons (fun _ _ _ _ _ h => opModifyReg h) <| cons (fun _ _ _ _ _ h => opSnapshot h) <|
    cons (fun _ _ _ _ _ h => opSleep h) <| cons (fun _ _ _ _ _ h => opResetRegion h) <| cons (fun _ _ _ _ _ h => opCfgRead h) <|
    cons (fun _ _ _ _ _ h => opCfgStage h) <| cons (fun _ _ _ _ _ h => opCfgCommit h) <| cons (fun _ _ _ _ _ h => opCfgSeal h) <|
    cons (fun _ _ _ _ _ h => opTableLoad h) <| List.forall_mem_nil _

theorem table2 : ∀ op ∈ ([Machine.opStnArm, Machine.opStnRun, Machine.opStnSetpoint, Machine.opStnStop, Machine.opStnDiag, Machine.opStnSizing,
    Machine.opBankSwap,] : List OpSpec), Op op :=
  cons (fun _ _ _ _ _ h => opStnArm h) <| cons (fun _ _ _ _ _ h => opStnRun h) <| cons (fun _ _ _ _ _ h => opStnSetpoint h) <|
    cons (fun _ _ _ _ _ h => opStnStop h) <| cons (fun _ _ _ _ _ h => opStnDiag h) <| cons (fun _ _ _ _ _ h => opStnSizing h) <|
    cons (fun _ _ _ _ _ h => opBankSwap h) <| List.forall_mem_nil _

theorem table3 : ∀ op ∈ ([Machine.opAxisMove, Machine.opAxisRetarget, Machine.opAxisStop, Machine.opAxisGroup, Machine.opAxisFollow, Machine.opSvcStart,
    Machine.opSvcParam, Machine.opSvcStop, Machine.opShareCfg, Machine.opEvtArm, Machine.opEvtCancel, Machine.opRecRead,
    Machine.opRecTriggerCfg,] : List OpSpec), Op op :=
  cons (fun _ _ _ _ _ h => opAxisMove h) <| cons (fun _ _ _ _ _ h => opAxisRetarget h) <| cons (fun _ _ _ _ _ h => opAxisStop h) <|
    cons (fun _ _ _ _ _ h => opAxisGroup h) <| cons (fun _ _ _ _ _ h => opAxisFollow h) <| cons (fun _ _ _ _ _ h => opSvcStart h) <|
    cons (fun _ _ _ _ _ h => opSvcParam h) <| cons (fun _ _ _ _ _ h => opSvcStop h) <| cons (fun _ _ _ _ _ h => opShareCfg h) <|
    cons (fun _ _ _ _ _ h => opEvtArm h) <| cons (fun _ _ _ _ _ h => opEvtCancel h) <| cons (fun _ _ _ _ _ h => opRecRead h) <|
    cons (fun _ _ _ _ _ h => opRecTriggerCfg h) <| List.forall_mem_nil _

theorem table4 : ∀ op ∈ ([Machine.opCanCfg, Machine.opCanRecover, Machine.opTimeMaster, Machine.opCanSend, Machine.opCanFetch, Machine.opCanAck,
    Machine.opMbxPost, Machine.opMbxFetch, Machine.opDblRing, Machine.opFaultRead, Machine.opFaultClear, Machine.opMastership,
    Machine.opTestmux, Machine.opSelftest,] : List OpSpec), Op op :=
  cons (fun _ _ _ _ _ h => opCanCfg h) <| cons (fun _ _ _ _ _ h => opCanRecover h) <| cons (fun _ _ _ _ _ h => opTimeMaster h) <|
    cons (fun _ _ _ _ _ h => opCanSend h) <| cons (fun _ _ _ _ _ h => opCanFetch h) <| cons (fun _ _ _ _ _ h => opCanAck h) <|
    cons (fun _ _ _ _ _ h => opMbxPost h) <| cons (fun _ _ _ _ _ h => opMbxFetch h) <| cons (fun _ _ _ _ _ h => opDblRing h) <|
    cons (fun _ _ _ _ _ h => opFaultRead h) <| cons (fun _ _ _ _ _ h => opFaultClear h) <| cons (fun _ _ _ _ _ h => opMastership h) <|
    cons (fun _ _ _ _ _ h => opTestmux h) <| cons (fun _ _ _ _ _ h => opSelftest h) <| List.forall_mem_nil _

theorem table : ∀ op ∈ opTable, Op op := by
  have app : ∀ {a b : List OpSpec}, (∀ x ∈ a, Op x) → (∀ x ∈ b, Op x) → ∀ x ∈ a ++ b, Op x := fun ha hb =>
    List.forall_mem_append.mpr ⟨ha, hb⟩
  exact app (app (app table1 table2) table3) table4

theorem refresh {lat tim : Bool} {s0 s : State} {tr : Transport} (hk : Keeps lat tim s0 s) : Keeps lat tim s0 (State.refresh s tr) := by
  unfold State.refresh
  dsimp only
  repeat' first
    | with_reducible assumption
    | with_reducible apply ite
    | with_reducible apply ite_snd
    | with_reducible apply ite_fst
    | with_reducible apply put
    | with_reducible apply withMil
    | exact rfl
    | split

theorem hostLost {lat tim : Bool} {s0 s : State} (hk : Keeps lat tim s0 s) : Keeps lat tim s0 (State.hostLost s) := by
  unfold State.hostLost
  dsimp only
  repeat' first
    | with_reducible assumption
    | with_reducible apply ite
    | with_reducible apply ite_snd
    | with_reducible apply ite_fst
    | with_reducible apply each
    | with_reducible apply fallback
    | with_reducible apply notice
    | with_reducible apply puts
    | with_reducible apply trigger
    | with_reducible apply withMil
    | (intro _ _ _; try dsimp only)
    | exact rfl

theorem occupyFwd {lat tim : Bool} {s0 s : State} {c : Cmd} {op p : Nat} (hk : Keeps lat tim s0 s) : Keeps lat tim s0 (State.occupyFwd s c op p) := by
  unfold State.occupyFwd
  try dsimp only
  repeat' first
    | with_reducible assumption
    | with_reducible apply ite
    | with_reducible apply ite_snd
    | with_reducible apply ite_fst
    | with_reducible apply occupy
    | with_reducible apply withMil
    | exact rfl

theorem innerPacket {lat tim : Bool} {s0 s : State} {run : State → Nat → Cmd → State} {tr : Transport} {ws : List Nat}
    (hr : ∀ s n c, Keeps lat tim s0 s → Keeps lat tim s0 (run s n c)) (hk : Keeps lat tim s0 s) : Keeps lat tim s0 (s.innerPacket run tr ws) :=
  ite (refuse (bump hk)) (ite (refuse hk) (hr _ _ _ hk))

theorem forwardCmd {lat tim : Bool} {s0 s : State} {run : State → Nat → Cmd → State} {op : OpSpec} {c : Cmd}
    (hr : ∀ s n c, Keeps lat tim s0 s → Keeps lat tim s0 (run s n c)) (hk : Keeps lat tim s0 s) : Keeps lat tim s0 (s.forwardCmd run op c) := by
  unfold State.forwardCmd
  extract_lets p own ws s1 
  exact ite (refuse hk) (ite (refuse hk) (ite (refuse hk) (ite (innerPacket hr (occupyFwd hk)) (ite (fwdEnd (occupyFwd hk)) (hat (occupyFwd hk))))))

theorem runOp {lat tim : Bool} {s0 s : State} {op : OpSpec} {c : Cmd} (ho : Op op) (hk : Keeps lat tim s0 s) : Keeps lat tim s0 (s.runOp op c) := by
  unfold State.runOp
  refine ite (refuse hk) (ite (refuse hk) (ite (refuse hk) ?_))
  split
  · exact refuse hk
  · exact ite (capture (ho _ _ _ _ _ hk)) (ho _ _ _ _ _ hk)

theorem acceptOp {lat tim : Bool} {s0 s : State} {run : State → Nat → Cmd → State} {op : OpSpec} {c : Cmd}
    (hr : ∀ s n c, Keeps lat tim s0 s → Keeps lat tim s0 (run s n c)) (ho : Op op) (hk : Keeps lat tim s0 s) : Keeps lat tim s0 (s.acceptOp run op c) :=
  ite (refuse hk) (ite (forwardCmd hr hk) (runOp ho hk))

theorem acceptAt {lat tim : Bool} {s0 s : State} {f code : Nat} {c : Cmd} (hk : Keeps lat tim s0 s) : Keeps lat tim s0 (State.acceptAt f s code c) := by
  induction f generalizing s code c with
  | zero => exact hk
  | succ f ih =>
    unfold State.acceptAt
    split
    · next op ho => exact acceptOp (fun _ _ _ h => ih h) (table op (List.mem_of_find?_eq_some ho)) hk
    · exact refuse hk

theorem accept {lat tim : Bool} {s0 s : State} {code : Nat} {c : Cmd} (hk : Keeps lat tim s0 s) : Keeps lat tim s0 (s.accept code c) := acceptAt hk

theorem badLength {lat tim : Bool} {s0 s : State} {tr : Transport} (hk : Keeps lat tim s0 s) : Keeps lat tim s0 (State.badLength s tr) := by
  unfold State.badLength
  try dsimp only
  repeat' first
    | with_reducible assumption
    | with_reducible apply ite
    | with_reducible apply ite_snd
    | with_reducible apply ite_fst
    | with_reducible apply bump
    | with_reducible apply withMil
    | exact rfl

theorem deliver {lat tim : Bool} {s0 s : State} {op : OpSpec} {c : Cmd} (ho : Op op) (hk : Keeps lat tim s0 s) : Keeps lat tim s0 (s.deliver op c) :=
  ite hk (ite (refuse (badLength hk)) (acceptOp (fun _ _ _ h => acceptAt h) ho (refresh hk)))

end Sys2Proof.Machine.Keeps
end

