-- ==== Sys2Proof/Laws/KeepsTransports.lean ====
section
/-!
SUPPORT. The operations of Machine/Transports.lean are operations of the machine in the sense of `Keeps`.
-/
namespace Sys2Proof.Machine.Keeps

theorem packetIn {lat tim : Bool} {s0 s : State} {tr : Transport} {bs : List Byte} (hk : Keeps lat tim s0 s) : Keeps lat tim s0 (State.packetIn s tr bs) := by
  unfold State.packetIn
  dsimp only
  repeat' first
    | with_reducible assumption
    | with_reducible apply ite
    | with_reducible apply ite_snd
    | with_reducible apply ite_fst
    | with_reducible apply accept
    | with_reducible apply badLength
    | with_reducible apply bump
    | with_reducible apply refresh
    | with_reducible apply refuse

theorem packetLeft {lat tim : Bool} {s0 s : State} {i : Nat} {p : Packet} (hk : Keeps lat tim s0 s) : Keeps lat tim s0 (State.packetLeft s i p) := by
  unfold State.packetLeft
  dsimp only
  repeat' first
    | with_reducible assumption
    | with_reducible apply ite
    | with_reducible apply ite_snd
    | with_reducible apply ite_fst
    | with_reducible apply put

theorem spiWindow {lat tim : Bool} {s0 s : State} {mosi : List Byte} (hk : Keeps lat tim s0 s) : Keeps lat tim s0 (State.spiWindow s mosi) := by
  unfold State.spiWindow
  dsimp only
  repeat' first
    | with_reducible assumption
    | exact tail (by assumption) rfl
    | with_reducible apply ite
    | with_reducible apply ite_snd
    | with_reducible apply ite_fst
    | with_reducible apply markHead
    | with_reducible apply packetIn
    | with_reducible apply packetLeft
    | with_reducible apply shResetCheck
    | with_reducible apply withMil
    | with_reducible apply withPort
    | exact rfl
    | split

theorem uartIn {lat tim : Bool} {s0 s : State} {bs : List Byte} (hk : Keeps lat tim s0 s) : Keeps lat tim s0 (State.uartIn s bs) := by
  unfold State.uartIn
  repeat' first
    | with_reducible assumption
    | with_reducible apply ite
    | with_reducible apply ite_snd
    | with_reducible apply ite_fst
    | with_reducible apply packetIn

theorem uartGap {lat tim : Bool} {s0 s : State} {bs : List Byte} (hk : Keeps lat tim s0 s) : Keeps lat tim s0 (State.uartGap s bs) := by
  unfold State.uartGap
  dsimp only
  repeat' first
    | with_reducible assumption
    | with_reducible apply ite
    | with_reducible apply ite_snd
    | with_reducible apply ite_fst
    | with_reducible apply badLength
    | with_reducible apply bump
    | with_reducible apply refuse

theorem uartIdle {lat tim : Bool} {s0 s : State} (hk : Keeps lat tim s0 s) : Keeps lat tim s0 (State.uartIdle s) := by
  unfold State.uartIdle
  try dsimp only
  repeat' first
    | with_reducible assumption
    | with_reducible apply withMil
    | exact rfl

theorem uartSend {lat tim : Bool} {s0 s : State} (hk : Keeps lat tim s0 s) : Keeps lat tim s0 (State.uartSend s) := by
  unfold State.uartSend
  dsimp only
  repeat' first
    | with_reducible assumption
    | exact tail (by assumption) rfl
    | with_reducible apply ite
    | with_reducible apply ite_snd
    | with_reducible apply ite_fst
    | with_reducible apply markHead
    | with_reducible apply packetLeft
    | with_reducible apply shResetCheck
    | with_reducible apply withMil
    | with_reducible apply withPort
    | exact rfl
    | split

theorem putTun {lat tim : Bool} {s0 s : State} {k : Nat} {a : Option TunAsm} (hk : Keeps lat tim s0 s) : Keeps lat tim s0 (State.putTun s k a) := by
  unfold State.putTun
  try dsimp only
  repeat' first
    | with_reducible assumption
    | with_reducible apply withMil
    | exact rfl

theorem tunDead {lat tim : Bool} {s0 s : State} {k tag : Nat} {isLast : Bool} (hk : Keeps lat tim s0 s) : Keeps lat tim s0 (State.tunDead s k tag isLast) := by
  unfold State.tunDead
  repeat' first
    | with_reducible assumption
    | with_reducible apply ite
    | with_reducible apply ite_snd
    | with_reducible apply ite_fst
    | with_reducible apply putTun

theorem tunDrop {lat tim : Bool} {s0 s : State} {k tag : Nat} {isLast : Bool} (hk : Keeps lat tim s0 s) : Keeps lat tim s0 (State.tunDrop s k tag isLast) := by
  unfold State.tunDrop
  repeat' first
    | with_reducible assumption
    | with_reducible apply bump
    | with_reducible apply tunDead

theorem tunBadLength {lat tim : Bool} {s0 s : State} {k : Fin 4} {a : TunAsm} {isLast : Bool} {bs : List Byte} (hk : Keeps lat tim s0 s) : Keeps lat tim s0 (State.tunBadLength s k a isLast bs) := by
  unfold State.tunBadLength
  dsimp only
  repeat' first
    | with_reducible assumption
    | with_reducible apply bump
    | with_reducible apply refuse
    | with_reducible apply tunDead

theorem tunTake {lat tim : Bool} {s0 s : State} {k : Fin 4} {a : TunAsm} {isLast : Bool} {part : List Byte} (hk : Keeps lat tim s0 s) : Keeps lat tim s0 (State.tunTake s k a isLast part) := by
  unfold State.tunTake
  dsimp only
  repeat' first
    | with_reducible assumption
    | with_reducible apply ite
    | with_reducible apply ite_snd
    | with_reducible apply ite_fst
    | with_reducible apply bump
    | with_reducible apply packetIn
    | with_reducible apply putTun
    | with_reducible apply tunBadLength

theorem tunnelIn {lat tim : Bool} {s0 s : State} {k : Fin 4} {fd : Bool} {d : List Byte} (hk : Keeps lat tim s0 s) : Keeps lat tim s0 (State.tunnelIn s k fd d) := by
  unfold State.tunnelIn
  dsimp only
  repeat' first
    | with_reducible assumption
    | with_reducible apply ite
    | with_reducible apply ite_snd
    | with_reducible apply ite_fst
    | with_reducible apply bump
    | with_reducible apply putTun
    | with_reducible apply recDown
    | with_reducible apply tunDrop
    | with_reducible apply tunTake
    | split

theorem tunnelTimeout {lat tim : Bool} {s0 s : State} {k : Nat} (hk : Keeps lat tim s0 s) : Keeps lat tim s0 (State.tunnelTimeout s k) := by
  unfold State.tunnelTimeout
  repeat' first
    | with_reducible assumption
    | with_reducible apply ite
    | with_reducible apply ite_snd
    | with_reducible apply ite_fst
    | with_reducible apply tunDrop
    | split

theorem tunMark {lat tim : Bool} {s0 s : State} {k : Nat} (hk : Keeps lat tim s0 s) : Keeps lat tim s0 (State.tunMark s k) := by
  unfold State.tunMark
  repeat' first
    | with_reducible assumption
    | with_reducible apply ite
    | with_reducible apply ite_snd
    | with_reducible apply ite_fst
    | with_reducible apply markHead

theorem forwardedIn {lat tim : Bool} {s0 s : State} {pos : Fin 8} {ws : List Nat} (hk : Keeps lat tim s0 s) : Keeps lat tim s0 (State.forwardedIn s pos ws) := by
  unfold State.forwardedIn
  dsimp only
  repeat' first
    | with_reducible assumption
    | exact fun _ _ _ h => acceptAt h
    | with_reducible apply ite
    | with_reducible apply ite_snd
    | with_reducible apply ite_fst
    | with_reducible apply acceptAt
    | with_reducible apply bump
    | with_reducible apply innerPacket
    | with_reducible apply refuse

theorem forwardReply {lat tim : Bool} {s0 s : State} {pos : Nat} {ws : List Nat} (hk : Keeps lat tim s0 s) : Keeps lat tim s0 (State.forwardReply s pos ws) := by
  unfold State.forwardReply
  dsimp only
  repeat' first
    | with_reducible assumption
    | with_reducible apply ite
    | with_reducible apply ite_snd
    | with_reducible apply ite_fst
    | with_reducible apply fwdAnswer
    | split

theorem forwardTimeout {lat tim : Bool} {s0 s : State} {tag : Nat} (hk : Keeps lat tim s0 s) : Keeps lat tim s0 (s.forwardTimeout tag) := by
  unfold State.forwardTimeout
  split
  · exact hk
  · exact ite hk (fwdEnd hk)

theorem completionTimeout {lat tim : Bool} {s0 s : State} {tag : Nat} (hk : Keeps lat tim s0 s) : Keeps lat tim s0 (State.completionTimeout s tag) := by
  unfold State.completionTimeout
  split
  · exact hk
  · exact ite (completeB hk) (ite (commitEnd hk) (ite (completeB (puts hk)) (ite (completeB (setMode (put hk)))
      (ite (completeB (setMode (endSequences (turnOff hk)))) (ite (completeB (stopTest hk)) hk)))))

end Sys2Proof.Machine.Keeps
end

