-- ==== Sys2Proof/Laws/KeepsEvents.lean ====
section
/-!
SUPPORT. The operations of Machine/Events.lean are operations of the machine in the sense of `Keeps`.
-/
namespace Sys2Proof.Machine.Keeps

theorem onStn {lat tim : Bool} {s0 s t : State} {n : Nat} (hk : Keeps lat tim s0 s) (ht : Keeps lat tim s0 t) : Keeps lat tim s0 (s.onStn n t) := ite ht hk

theorem onGate {lat tim : Bool} {s0 s t : State} {n : Nat} (hk : Keeps lat tim s0 s) (ht : Keeps lat tim s0 t) : Keeps lat tim s0 (s.onGate n t) := ite ht hk

theorem onHalf {lat tim : Bool} {s0 s t : State} {h : Nat} (hk : Keeps lat tim s0 s) (ht : Keeps lat tim s0 t) : Keeps lat tim s0 (s.onHalf h t) := ite ht hk

theorem onSh {lat tim : Bool} {s0 s t : State} (hk : Keeps lat tim s0 s) (ht : Keeps lat tim s0 t) : Keeps lat tim s0 (s.onSh t) := ite ht hk

theorem onAxs {lat tim : Bool} {s0 s t : State} {n : Nat} (hk : Keeps lat tim s0 s) (ht : Keeps lat tim s0 t) : Keeps lat tim s0 (s.onAxs n t) := ite ht hk

theorem onCan {lat tim : Bool} {s0 s t : State} {c : Nat} (hk : Keeps lat tim s0 s) (ht : Keeps lat tim s0 t) : Keeps lat tim s0 (s.onCan c t) := ite ht hk

theorem fieldWrite {lat tim : Bool} {s0 s : State} {a mask v : Nat} (hk : Keeps lat tim s0 s) : Keeps lat tim s0 (State.fieldWrite s a mask v) := by
  unfold State.fieldWrite
  repeat' first
    | with_reducible assumption
    | with_reducible apply regWrite

theorem idle {lat : Bool} {s0 s : State} (hk : Keeps lat false s0 s) : Keeps lat false s0 s.idle :=
  ite (hk.trans ⟨fun h => { h with time := Nat.mod_lt _ (Nat.two_pow_pos 64) }, ⟨id, rfl, rfl, rfl, List.prefix_refl _⟩, rfl, Nat.le_refl _,
    fun _ => id, fun e => by cases e⟩) hk

theorem swapSnap {lat tim : Bool} {s0 s : State} {h g t : Nat} (hk : Keeps lat tim s0 s) : Keeps lat tim s0 (State.swapSnap s h g t) := by
  unfold State.swapSnap
  dsimp only
  repeat' first
    | with_reducible assumption
    | with_reducible apply capture
    | with_reducible apply each
    | with_reducible apply swapBoundary
    | (intro _ _ _; try dsimp only)

theorem launch {lat tim : Bool} {s0 s : State} {t : Nat} (hk : Keeps lat tim s0 s) : Keeps lat tim s0 (State.launch s t) := by
  unfold State.launch
  repeat' first
    | with_reducible assumption
    | with_reducible apply cycleStart
    | with_reducible apply shResetCheck

theorem canTake {lat tim : Bool} {s0 s : State} {c : Fin 4} {t : Nat} {rtr : Bool} {f : CanFrame} (hk : Keeps lat tim s0 s) : Keeps lat tim s0 (State.canTake s c t rtr f) := by
  unfold State.canTake
  repeat' first
    | with_reducible assumption
    | with_reducible apply ite
    | with_reducible apply ite_snd
    | with_reducible apply ite_fst
    | with_reducible apply advance
    | with_reducible apply canError
    | with_reducible apply canReceive
    | with_reducible apply canRemote
    | with_reducible apply tunnelIn

theorem tunArrive {lat tim : Bool} {s0 s : State} {c : Fin 4} {fd : Bool} {d : List Byte} (hk : Keeps lat tim s0 s) : Keeps lat tim s0 (State.tunArrive s c fd d) := by
  unfold State.tunArrive
  repeat' first
    | with_reducible assumption
    | with_reducible apply ite
    | with_reducible apply ite_snd
    | with_reducible apply ite_fst
    | with_reducible apply canFinish
    | with_reducible apply tunnelIn

theorem canArrive {lat tim : Bool} {s0 s : State} {c : Fin 4} {t : Nat} {rtr : Bool} {f : CanFrame} (hk : Keeps lat tim s0 s) : Keeps lat tim s0 (State.canArrive s c t rtr f) := by
  unfold State.canArrive
  dsimp only
  repeat' first
    | with_reducible assumption
    | with_reducible apply ite
    | with_reducible apply ite_snd
    | with_reducible apply ite_fst
    | with_reducible apply canFinish
    | with_reducible apply canOff
    | with_reducible apply canTake

theorem canLoop {lat tim : Bool} {s0 s : State} {c : Fin 4} (hk : Keeps lat tim s0 s) : Keeps lat tim s0 (State.canLoop s c) := by
  unfold State.canLoop
  repeat' first
    | with_reducible assumption
    | with_reducible apply ite
    | with_reducible apply ite_snd
    | with_reducible apply ite_fst
    | with_reducible apply canFilter
    | with_reducible apply tunnelIn
    | split

theorem refAttempt {lat tim : Bool} {s0 s : State} {c : Fin 4} {t : Nat} (hk : Keeps lat tim s0 s) : Keeps lat tim s0 (State.refAttempt s c t) := by
  unfold State.refAttempt
  repeat' first
    | with_reducible assumption
    | with_reducible apply ite
    | with_reducible apply ite_snd
    | with_reducible apply ite_fst
    | with_reducible apply canLoop
    | with_reducible apply timeSend

theorem refArrive {lat tim : Bool} {s0 s : State} {c : Fin 4} {t : Nat} {f : CanFrame} (hk : Keeps lat tim s0 s) : Keeps lat tim s0 (State.refArrive s c t f) := by
  unfold State.refArrive
  repeat' first
    | with_reducible assumption
    | with_reducible apply ite
    | with_reducible apply ite_snd
    | with_reducible apply ite_fst
    | with_reducible apply canArrive

theorem canAttempt {lat tim : Bool} {s0 s : State} {c : Fin 4} {acked : Bool} (hk : Keeps lat tim s0 s) : Keeps lat tim s0 (State.canAttempt s c acked) := by
  unfold State.canAttempt
  dsimp only
  repeat' first
    | with_reducible assumption
    | with_reducible apply ite
    | with_reducible apply ite_snd
    | with_reducible apply ite_fst
    | with_reducible apply canLeave
    | with_reducible apply canLoop
    | with_reducible apply canSent
    | with_reducible apply put
    | with_reducible apply shResetCheck
    | with_reducible apply tunMark

end Sys2Proof.Machine.Keeps
end

