-- ==== Sys2Proof/Laws/KeepsRows.lean ====
section
/-!
SUPPORT. The meaning of every row is an operation of the machine in the sense of `Keeps`.
-/
namespace Sys2Proof.Machine.Keeps

variable {lat tim : Bool} {bef s aft : State}

theorem execEcho {c : Cmd} (hk : Keeps lat tim bef s) (h : Machine.execEcho c s = .next aft) : Keeps lat tim bef aft :=
  Host.Outcome.next.inj h ▸ deliver (fun _ _ _ _ _ h => opEcho h) hk

theorem execIdentify {c : Cmd} (hk : Keeps lat tim bef s) (h : Machine.execIdentify c s = .next aft) : Keeps lat tim bef aft :=
  Host.Outcome.next.inj h ▸ deliver (fun _ _ _ _ _ h => opIdentify h) hk

theorem execReadReg {c : Cmd} (hk : Keeps lat tim bef s) (h : Machine.execReadReg c s = .next aft) : Keeps lat tim bef aft :=
  Host.Outcome.next.inj h ▸ deliver (fun _ _ _ _ _ h => opReadReg h) hk

theorem execWriteReg {c : Cmd} (hk : Keeps lat tim bef s) (h : Machine.execWriteReg c s = .next aft) : Keeps lat tim bef aft :=
  Host.Outcome.next.inj h ▸ deliver (fun _ _ _ _ _ h => opWriteReg h) hk

theorem execModifyReg {c : Cmd} (hk : Keeps lat tim bef s) (h : Machine.execModifyReg c s = .next aft) : Keeps lat tim bef aft :=
  Host.Outcome.next.inj h ▸ deliver (fun _ _ _ _ _ h => opModifyReg h) hk

theorem execStatusSnapshot {c : Cmd} (hk : Keeps lat tim bef s) (h : Machine.execStatusSnapshot c s = .next aft) : Keeps lat tim bef aft :=
  Host.Outcome.next.inj h ▸ deliver (fun _ _ _ _ _ h => opSnapshot h) hk

theorem execSleep {c : Cmd} (hk : Keeps lat tim bef s) (h : Machine.execSleep c s = .next aft) : Keeps lat tim bef aft :=
  Host.Outcome.next.inj h ▸ deliver (fun _ _ _ _ _ h => opSleep h) hk

theorem execResetRegion {c : Cmd} (hk : Keeps lat tim bef s) (h : Machine.execResetRegion c s = .next aft) : Keeps lat tim bef aft :=
  Host.Outcome.next.inj h ▸ deliver (fun _ _ _ _ _ h => opResetRegion h) hk

theorem execCfgRead {c : Cmd} (hk : Keeps lat tim bef s) (h : Machine.execCfgRead c s = .next aft) : Keeps lat tim bef aft :=
  Host.Outcome.next.inj h ▸ deliver (fun _ _ _ _ _ h => opCfgRead h) hk

theorem execCfgStage {c : Cmd} (hk : Keeps lat tim bef s) (h : Machine.execCfgStage c s = .next aft) : Keeps lat tim bef aft :=
  Host.Outcome.next.inj h ▸ deliver (fun _ _ _ _ _ h => opCfgStage h) hk

theorem execCfgCommit {c : Cmd} (hk : Keeps lat tim bef s) (h : Machine.execCfgCommit c s = .next aft) : Keeps lat tim bef aft :=
  Host.Outcome.next.inj h ▸ deliver (fun _ _ _ _ _ h => opCfgCommit h) hk

theorem execCfgSeal {c : Cmd} (hk : Keeps lat tim bef s) (h : Machine.execCfgSeal c s = .next aft) : Keeps lat tim bef aft :=
  Host.Outcome.next.inj h ▸ deliver (fun _ _ _ _ _ h => opCfgSeal h) hk

theorem execTableLoad {c : Cmd} (hk : Keeps lat tim bef s) (h : Machine.execTableLoad c s = .next aft) : Keeps lat tim bef aft :=
  Host.Outcome.next.inj h ▸ deliver (fun _ _ _ _ _ h => opTableLoad h) hk

theorem execStnArm {c : Cmd} (hk : Keeps lat tim bef s) (h : Machine.execStnArm c s = .next aft) : Keeps lat tim bef aft :=
  Host.Outcome.next.inj h ▸ deliver (fun _ _ _ _ _ h => opStnArm h) hk

theorem execStnRun {c : Cmd} (hk : Keeps lat tim bef s) (h : Machine.execStnRun c s = .next aft) : Keeps lat tim bef aft :=
  Host.Outcome.next.inj h ▸ deliver (fun _ _ _ _ _ h => opStnRun h) hk

theorem execStnSetpoint {c : Cmd} (hk : Keeps lat tim bef s) (h : Machine.execStnSetpoint c s = .next aft) : Keeps lat tim bef aft :=
  Host.Outcome.next.inj h ▸ deliver (fun _ _ _ _ _ h => opStnSetpoint h) hk

theorem execStnStop {c : Cmd} (hk : Keeps lat tim bef s) (h : Machine.execStnStop c s = .next aft) : Keeps lat tim bef aft :=
  Host.Outcome.next.inj h ▸ deliver (fun _ _ _ _ _ h => opStnStop h) hk

theorem execStnDiag {c : Cmd} (hk : Keeps lat tim bef s) (h : Machine.execStnDiag c s = .next aft) : Keeps lat tim bef aft :=
  Host.Outcome.next.inj h ▸ deliver (fun _ _ _ _ _ h => opStnDiag h) hk

theorem execStnSizing {c : Cmd} (hk : Keeps lat tim bef s) (h : Machine.execStnSizing c s = .next aft) : Keeps lat tim bef aft :=
  Host.Outcome.next.inj h ▸ deliver (fun _ _ _ _ _ h => opStnSizing h) hk

theorem execBankSwap {c : Cmd} (hk : Keeps lat tim bef s) (h : Machine.execBankSwap c s = .next aft) : Keeps lat tim bef aft :=
  Host.Outcome.next.inj h ▸ deliver (fun _ _ _ _ _ h => opBankSwap h) hk

theorem execAxisMove {c : Cmd} (hk : Keeps lat tim bef s) (h : Machine.execAxisMove c s = .next aft) : Keeps lat tim bef aft :=
  Host.Outcome.next.inj h ▸ deliver (fun _ _ _ _ _ h => opAxisMove h) hk

theorem execAxisRetarget {c : Cmd} (hk : Keeps lat tim bef s) (h : Machine.execAxisRetarget c s = .next aft) : Keeps lat tim bef aft :=
  Host.Outcome.next.inj h ▸ deliver (fun _ _ _ _ _ h => opAxisRetarget h) hk

theorem execAxisStop {c : Cmd} (hk : Keeps lat tim bef s) (h : Machine.execAxisStop c s = .next aft) : Keeps lat tim bef aft :=
  Host.Outcome.next.inj h ▸ deliver (fun _ _ _ _ _ h => opAxisStop h) hk

theorem execAxisGroup {c : Cmd} (hk : Keeps lat tim bef s) (h : Machine.execAxisGroup c s = .next aft) : Keeps lat tim bef aft :=
  Host.Outcome.next.inj h ▸ deliver (fun _ _ _ _ _ h => opAxisGroup h) hk

theorem execAxisFollow {c : Cmd} (hk : Keeps lat tim bef s) (h : Machine.execAxisFollow c s = .next aft) : Keeps lat tim bef aft :=
  Host.Outcome.next.inj h ▸ deliver (fun _ _ _ _ _ h => opAxisFollow h) hk

theorem execSvcStart {c : Cmd} (hk : Keeps lat tim bef s) (h : Machine.execSvcStart c s = .next aft) : Keeps lat tim bef aft :=
  Host.Outcome.next.inj h ▸ deliver (fun _ _ _ _ _ h => opSvcStart h) hk

theorem execSvcParam {c : Cmd} (hk : Keeps lat tim bef s) (h : Machine.execSvcParam c s = .next aft) : Keeps lat tim bef aft :=
  Host.Outcome.next.inj h ▸ deliver (fun _ _ _ _ _ h => opSvcParam h) hk

theorem execSvcStop {c : Cmd} (hk : Keeps lat tim bef s) (h : Machine.execSvcStop c s = .next aft) : Keeps lat tim bef aft :=
  Host.Outcome.next.inj h ▸ deliver (fun _ _ _ _ _ h => opSvcStop h) hk

theorem execShareCfg {c : Cmd} (hk : Keeps lat tim bef s) (h : Machine.execShareCfg c s = .next aft) : Keeps lat tim bef aft :=
  Host.Outcome.next.inj h ▸ deliver (fun _ _ _ _ _ h => opShareCfg h) hk

theorem execEvtArm {c : Cmd} (hk : Keeps lat tim bef s) (h : Machine.execEvtArm c s = .next aft) : Keeps lat tim bef aft :=
  Host.Outcome.next.inj h ▸ deliver (fun _ _ _ _ _ h => opEvtArm h) hk

theorem execEvtCancel {c : Cmd} (hk : Keeps lat tim bef s) (h : Machine.execEvtCancel c s = .next aft) : Keeps lat tim bef aft :=
  Host.Outcome.next.inj h ▸ deliver (fun _ _ _ _ _ h => opEvtCancel h) hk

theorem execRecRead {c : Cmd} (hk : Keeps lat tim bef s) (h : Machine.execRecRead c s = .next aft) : Keeps lat tim bef aft :=
  Host.Outcome.next.inj h ▸ deliver (fun _ _ _ _ _ h => opRecRead h) hk

theorem execRecTriggerCfg {c : Cmd} (hk : Keeps lat tim bef s) (h : Machine.execRecTriggerCfg c s = .next aft) : Keeps lat tim bef aft :=
  Host.Outcome.next.inj h ▸ deliver (fun _ _ _ _ _ h => opRecTriggerCfg h) hk

theorem execCanCfg {c : Cmd} (hk : Keeps lat tim bef s) (h : Machine.execCanCfg c s = .next aft) : Keeps lat tim bef aft :=
  Host.Outcome.next.inj h ▸ deliver (fun _ _ _ _ _ h => opCanCfg h) hk

theorem execCanRecover {c : Cmd} (hk : Keeps lat tim bef s) (h : Machine.execCanRecover c s = .next aft) : Keeps lat tim bef aft :=
  Host.Outcome.next.inj h ▸ deliver (fun _ _ _ _ _ h => opCanRecover h) hk

theorem execTimeMaster {c : Cmd} (hk : Keeps lat tim bef s) (h : Machine.execTimeMaster c s = .next aft) : Keeps lat tim bef aft :=
  Host.Outcome.next.inj h ▸ deliver (fun _ _ _ _ _ h => opTimeMaster h) hk

theorem execCanSend {c : Cmd} (hk : Keeps lat tim bef s) (h : Machine.execCanSend c s = .next aft) : Keeps lat tim bef aft :=
  Host.Outcome.next.inj h ▸ deliver (fun _ _ _ _ _ h => opCanSend h) hk

theorem execCanFetch {c : Cmd} (hk : Keeps lat tim bef s) (h : Machine.execCanFetch c s = .next aft) : Keeps lat tim bef aft :=
  Host.Outcome.next.inj h ▸ deliver (fun _ _ _ _ _ h => opCanFetch h) hk

theorem execCanAck {c : Cmd} (hk : Keeps lat tim bef s) (h : Machine.execCanAck c s = .next aft) : Keeps lat tim bef aft :=
  Host.Outcome.next.inj h ▸ deliver (fun _ _ _ _ _ h => opCanAck h) hk

theorem execMbxPost {c : Cmd} (hk : Keeps lat tim bef s) (h : Machine.execMbxPost c s = .next aft) : Keeps lat tim bef aft :=
  Host.Outcome.next.inj h ▸ deliver (fun _ _ _ _ _ h => opMbxPost h) hk

theorem execMbxFetch {c : Cmd} (hk : Keeps lat tim bef s) (h : Machine.execMbxFetch c s = .next aft) : Keeps lat tim bef aft :=
  Host.Outcome.next.inj h ▸ deliver (fun _ _ _ _ _ h => opMbxFetch h) hk

theorem execDblRing {c : Cmd} (hk : Keeps lat tim bef s) (h : Machine.execDblRing c s = .next aft) : Keeps lat tim bef aft :=
  Host.Outcome.next.inj h ▸ deliver (fun _ _ _ _ _ h => opDblRing h) hk

theorem execFaultRead {c : Cmd} (hk : Keeps lat tim bef s) (h : Machine.execFaultRead c s = .next aft) : Keeps lat tim bef aft :=
  Host.Outcome.next.inj h ▸ deliver (fun _ _ _ _ _ h => opFaultRead h) hk

theorem execFaultClear {c : Cmd} (hk : Keeps lat tim bef s) (h : Machine.execFaultClear c s = .next aft) : Keeps lat tim bef aft :=
  Host.Outcome.next.inj h ▸ deliver (fun _ _ _ _ _ h => opFaultClear h) hk

theorem execMastership {c : Cmd} (hk : Keeps lat tim bef s) (h : Machine.execMastership c s = .next aft) : Keeps lat tim bef aft :=
  Host.Outcome.next.inj h ▸ deliver (fun _ _ _ _ _ h => opMastership h) hk

theorem execTestmuxSel {c : Cmd} (hk : Keeps lat tim bef s) (h : Machine.execTestmuxSel c s = .next aft) : Keeps lat tim bef aft :=
  Host.Outcome.next.inj h ▸ deliver (fun _ _ _ _ _ h => opTestmux h) hk

theorem execSelftest {c : Cmd} (hk : Keeps lat tim bef s) (h : Machine.execSelftest c s = .next aft) : Keeps lat tim bef aft :=
  Host.Outcome.next.inj h ▸ deliver (fun _ _ _ _ _ h => opSelftest h) hk

theorem execRegisterWrite {a : Word} {v : Word} (hk : Keeps lat tim bef s) (h : Machine.execRegisterWrite a v s = .next aft) : Keeps lat tim bef aft :=
  Host.Outcome.next.inj h ▸ regWrite hk

theorem execPfPosWrite {n : Fin 4} {v : BitVec 64} (hk : Keeps lat tim bef s) (h : Machine.execPfPosWrite n v s = .next aft) : Keeps lat tim bef aft :=
  Host.Outcome.next.inj h ▸ regWrite hk

theorem execPfCtrlSourceChange {n : Fin 4} {v : Word} (hk : Keeps lat tim bef s) (h : Machine.execPfCtrlSourceChange n v s = .next aft) : Keeps lat tim bef aft :=
  Host.Outcome.next.inj h ▸ regWrite hk

theorem execAxsPosWrite {n : Fin 4} {v : BitVec 64} (hk : Keeps lat tim bef s) (h : Machine.execAxsPosWrite n v s = .next aft) : Keeps lat tim bef aft :=
  Host.Outcome.next.inj h ▸ regWrite hk

theorem execComOfsWrite {n : Fin 4} {v : Word} (hk : Keeps lat tim bef s) (h : Machine.execComOfsWrite n v s = .next aft) : Keeps lat tim bef aft :=
  Host.Outcome.next.inj h ▸ regWrite hk

theorem execPwmHperWrite {n : Fin 4} {v : Word} {p : Word} (hk : Keeps lat tim bef s) (h : Machine.execPwmHperWrite n v p s = .next aft) : Keeps lat tim bef aft :=
  Host.Outcome.next.inj h ▸ regWrite hk

theorem execVgdSetChange {v : BitVec 4} (hk : Keeps lat tim bef s) (h : Machine.execVgdSetChange v s = .next aft) : Keeps lat tim bef aft :=
  Host.Outcome.next.inj h ▸ fieldWrite hk

theorem execVgdSettled (hk : Keeps lat tim bef s) (h : Machine.execVgdSettled s = .next aft) : Keeps lat tim bef aft :=
  Host.Outcome.next.inj h ▸ vgdSettled hk

theorem execHostWatchdogArm {v : Word} (hk : Keeps lat tim bef s) (h : Machine.execHostWatchdogArm v s = .next aft) : Keeps lat tim bef aft :=
  Host.Outcome.next.inj h ▸ regWrite hk

theorem execLenCfgWrite {h : Fin 2} {m : Fin 48} {v : Word} (hk : Keeps lat tim bef s) (h : Machine.execLenCfgWrite h m v s = .next aft) : Keeps lat tim bef aft :=
  Host.Outcome.next.inj h ▸ regWrite hk

theorem execLenAccWrite {h : Fin 2} {m : Fin 48} {v : BitVec 64} (hk : Keeps lat tim bef s) (h : Machine.execLenAccWrite h m v s = .next aft) : Keeps lat tim bef aft :=
  Host.Outcome.next.inj h ▸ regWrite hk

theorem execCanEnable {c : Fin 4} (hk : Keeps lat tim bef s) (h : Machine.execCanEnable c s = .next aft) : Keeps lat tim bef aft :=
  Host.Outcome.next.inj h ▸ fieldWrite hk

theorem execCanDisable {c : Fin 4} (hk : Keeps lat tim bef s) (h : Machine.execCanDisable c s = .next aft) : Keeps lat tim bef aft :=
  Host.Outcome.next.inj h ▸ fieldWrite hk

theorem execHatbandEnable {v : Bool} (hk : Keeps lat tim bef s) (h : Machine.execHatbandEnable v s = .next aft) : Keeps lat tim bef aft :=
  Host.Outcome.next.inj h ▸ fieldWrite hk

theorem execRecSoftWrite {v : Word} (hk : Keeps lat tim bef s) (h : Machine.execRecSoftWrite v s = .next aft) : Keeps lat tim bef aft :=
  Host.Outcome.next.inj h ▸ regWrite hk

theorem execSpiWindow {mosi : List Byte} (hk : Keeps lat tim bef s) (h : Machine.execSpiWindow mosi s = .next aft) : Keeps lat tim bef aft :=
  Host.Outcome.next.inj h ▸ spiWindow hk

theorem execUartPacketReceived {bs : List Byte} (hk : Keeps lat tim bef s) (h : Machine.execUartPacketReceived bs s = .next aft) : Keeps lat tim bef aft :=
  Host.Outcome.next.inj h ▸ uartIn hk

theorem execUartGapTimeout {bs : List Byte} (hk : Keeps lat tim bef s) (h : Machine.execUartGapTimeout bs s = .next aft) : Keeps lat tim bef aft :=
  Host.Outcome.next.inj h ▸ uartGap hk

theorem execUartPacketSend (hk : Keeps lat tim bef s) (h : Machine.execUartPacketSend s = .next aft) : Keeps lat tim bef aft :=
  Host.Outcome.next.inj h ▸ uartSend hk

theorem execTunnelSegmentReceived {c : Fin 4} {fd : Bool} {d : List Byte} (hk : Keeps lat tim bef s) (h : Machine.execTunnelSegmentReceived c fd d s = .next aft) : Keeps lat tim bef aft :=
  Host.Outcome.next.inj h ▸ onCan hk (tunArrive hk)

theorem execTunnelSegmentTimeout {c : Fin 4} (hk : Keeps lat tim bef s) (h : Machine.execTunnelSegmentTimeout c s = .next aft) : Keeps lat tim bef aft :=
  Host.Outcome.next.inj h ▸ onSh hk (tunnelTimeout hk)

theorem execForwardedCommand {p : Fin 8} {ws : List Word} (hk : Keeps lat tim bef s) (h : Machine.execForwardedCommand p ws s = .next aft) : Keeps lat tim bef aft :=
  Host.Outcome.next.inj h ▸ forwardedIn hk

theorem execForwardTimeout {tag : BitVec 6} (hk : Keeps lat tim bef s) (h : Machine.execForwardTimeout tag s = .next aft) : Keeps lat tim bef aft :=
  Host.Outcome.next.inj h ▸ onSh hk (forwardTimeout hk)

theorem execCompletionTimeout {tag : BitVec 6} (hk : Keeps lat tim bef s) (h : Machine.execCompletionTimeout tag s = .next aft) : Keeps lat tim bef aft :=
  Host.Outcome.next.inj h ▸ onSh hk (completionTimeout hk)

theorem execHostWatchdogExpiry (hk : Keeps lat tim bef s) (h : Machine.execHostWatchdogExpiry s = .next aft) : Keeps lat tim bef aft :=
  Host.Outcome.next.inj h ▸ hostLost hk

theorem execPowerOn {b : Boot} (hk : Keeps lat false bef s) (h : Machine.execPowerOn b s = .next aft) : Keeps lat false bef aft :=
  Host.Outcome.next.inj h ▸ powerOn hk

theorem execStartUpComplete (hk : Keeps lat tim bef s) (h : Machine.execStartUpComplete s = .next aft) : Keeps lat tim bef aft :=
  Host.Outcome.next.inj h ▸ startUp hk

theorem execStartNoReference (hk : Keeps lat tim bef s) (h : Machine.execStartNoReference s = .next aft) : Keeps lat tim bef aft :=
  Host.Outcome.next.inj h ▸ startNoRef hk

theorem execResetN (hk : Keeps lat tim bef s) (h : Machine.execResetN s = .next aft) : Keeps lat tim bef aft :=
  Host.Outcome.next.inj h ▸ resetPin hk

theorem execResetNRelease {b : Boot} (hk : Keeps lat false bef s) (h : Machine.execResetNRelease b s = .next aft) : Keeps lat false bef aft :=
  Host.Outcome.next.inj h ▸ resetRelease hk

theorem execBrownout (hk : Keeps lat tim bef s) (h : Machine.execBrownout s = .next aft) : Keeps lat tim bef aft :=
  Host.Outcome.next.inj h ▸ brownout hk

theorem execPowerFailWarning (hk : Keeps lat tim bef s) (h : Machine.execPowerFailWarning s = .next aft) : Keeps lat tim bef aft :=
  Host.Outcome.next.inj h ▸ powerFail hk

theorem execPowerFailRecovery (hk : Keeps lat tim bef s) (h : Machine.execPowerFailRecovery s = .next aft) : Keeps lat tim bef aft :=
  Host.Outcome.next.inj h ▸ powerBack hk

theorem execFlushComplete (hk : Keeps lat false bef s) (h : Machine.execFlushComplete s = .next aft) : Keeps lat false bef aft :=
  Host.Outcome.next.inj h ▸ flushComplete hk

theorem execVinOvervoltage {above : Bool} (hk : Keeps lat tim bef s) (h : Machine.execVinOvervoltage above s = .next aft) : Keeps lat tim bef aft :=
  Host.Outcome.next.inj h ▸ vinOver hk

theorem execBuckBoostCurrentLimit {out : Bool} (hk : Keeps lat tim bef s) (h : Machine.execBuckBoostCurrentLimit out s = .next aft) : Keeps lat tim bef aft :=
  Host.Outcome.next.inj h ▸ buckLimit hk

theorem execVgdUv (hk : Keeps lat tim bef s) (h : Machine.execVgdUv s = .next aft) : Keeps lat tim bef aft :=
  Host.Outcome.next.inj h ▸ vgdUv hk

theorem execVgdCollapse (hk : Keeps lat tim bef s) (h : Machine.execVgdCollapse s = .next aft) : Keeps lat tim bef aft :=
  Host.Outcome.next.inj h ▸ vgdCollapse hk

theorem execShutdownLatchClear (hk : Keeps false tim bef s) (h : Machine.execShutdownLatchClear s = .next aft) : Keeps false tim bef aft :=
  Host.Outcome.next.inj h ▸ latchClear hk

theorem execReferenceLoss {r : Fin 3} (hk : Keeps lat tim bef s) (h : Machine.execReferenceLoss r s = .next aft) : Keeps lat tim bef aft :=
  Host.Outcome.next.inj h ▸ refLoss hk

theorem execReferenceReturn {r : Fin 3} (hk : Keeps lat tim bef s) (h : Machine.execReferenceReturn r s = .next aft) : Keeps lat tim bef aft :=
  Host.Outcome.next.inj h ▸ refReturn hk

theorem execSleepEntryComplete (hk : Keeps lat false bef s) (h : Machine.execSleepEntryComplete s = .next aft) : Keeps lat false bef aft :=
  Host.Outcome.next.inj h ▸ sleepDone hk

theorem execWake {w : WakeCause} {b : Boot} (hk : Keeps lat false bef s) (h : Machine.execWake w b s = .next aft) : Keeps lat false bef aft :=
  Host.Outcome.next.inj h ▸ wake hk

theorem execPresenceKeyValid {full : Bool} (hk : Keeps lat tim bef s) (h : Machine.execPresenceKeyValid full s = .next aft) : Keeps lat tim bef aft :=
  Host.Outcome.next.inj h ▸ keyValid hk

theorem execPresenceKeyRelease {full : Bool} (hk : Keeps lat tim bef s) (h : Machine.execPresenceKeyRelease full s = .next aft) : Keeps lat tim bef aft :=
  Host.Outcome.next.inj h ▸ keyRelease hk

theorem execCommitFinish {ok : Bool} (hk : Keeps lat tim bef s) (h : Machine.execCommitFinish ok s = .next aft) : Keeps lat tim bef aft :=
  Host.Outcome.next.inj h ▸ commitFinish hk

theorem execPositionCoarseEdge {n : Fin 4} {t : BitVec 64} {la : Bool} {lb : Bool} {hold : BitVec 16} (hk : Keeps lat tim bef s) (h : Machine.execPositionCoarseEdge n t la lb hold s = .next aft) : Keeps lat tim bef aft :=
  Host.Outcome.next.inj h ▸ onStn hk (coarseEdge hk)

theorem execPositionFineSample {n : Fin 4} {t : BitVec 64} {rs : BitVec 16} {rc : BitVec 16} {ph : BitVec 16} {neg : Bool} (hk : Keeps lat tim bef s) (h : Machine.execPositionFineSample n t rs rc ph neg s = .next aft) : Keeps lat tim bef aft :=
  Host.Outcome.next.inj h ▸ onStn hk (fineSample hk)

theorem execAcquisitionTimeout {n : Fin 4} (hk : Keeps lat tim bef s) (h : Machine.execAcquisitionTimeout n s = .next aft) : Keeps lat tim bef aft :=
  Host.Outcome.next.inj h ▸ onStn hk (acqTimeout hk)

theorem execPsFrameTrigger {h : Fin 2} {t : BitVec 64} (hk : Keeps lat tim bef s) (h : Machine.execPsFrameTrigger h t s = .next aft) : Keeps lat tim bef aft :=
  Host.Outcome.next.inj h ▸ onHalf hk (psTrigger hk)

theorem execPsFrameEnd {h : Fin 2} {t : BitVec 64} {slo : Bool} {start : Bool} {dly : BitVec 16} {bits : BitVec 64} {ne : Bool} {nw : Bool} {crc : BitVec 16} (hk : Keeps lat tim bef s) (h : Machine.execPsFrameEnd h t slo start dly bits ne nw crc s = .next aft) : Keeps lat tim bef aft :=
  Host.Outcome.next.inj h ▸ onHalf hk (psEnd hk)

theorem execRepeaterEdgeEmit {h : Fin 2} {t : BitVec 64} (hk : Keeps lat tim bef s) (h : Machine.execRepeaterEdgeEmit h t s = .next aft) : Keeps lat tim bef aft :=
  Host.Outcome.next.inj h ▸ onHalf hk (rpEmit hk)

theorem execSizingComplete {n : Fin 4} {t : BitVec 64} {still : Bool} (hk : Keeps lat tim bef s) (h : Machine.execSizingComplete n t still s = .next aft) : Keeps lat tim bef aft :=
  Host.Outcome.next.inj h ▸ onStn hk (sizingEnd hk)

theorem execSchedulerTick {h : Fin 2} {t : BitVec 64} (hk : Keeps lat tim bef s) (h : Machine.execSchedulerTick h t s = .next aft) : Keeps lat tim bef aft :=
  Host.Outcome.next.inj h ▸ schedTick hk

theorem execCurrentLoopUpdate {n : Fin 4} {t : BitVec 64} {i : CurIn} (hk : Keeps lat tim bef s) (h : Machine.execCurrentLoopUpdate n t i s = .next aft) : Keeps lat tim bef aft :=
  Host.Outcome.next.inj h ▸ onStn hk (currentLoop hk)

theorem execPwmSyncLoad {n : Fin 4} {t : BitVec 64} (hk : Keeps lat tim bef s) (h : Machine.execPwmSyncLoad n t s = .next aft) : Keeps lat tim bef aft :=
  Host.Outcome.next.inj h ▸ onStn hk (syncLoad hk)

theorem execPwmSyncEnd {n : Fin 4} (hk : Keeps lat tim bef s) (h : Machine.execPwmSyncEnd n s = .next aft) : Keeps lat tim bef aft :=
  Host.Outcome.next.inj h ▸ onStn hk (syncEnd hk)

theorem execSdstuck {n : Fin 4} (hk : Keeps lat tim bef s) (h : Machine.execSdstuck n s = .next aft) : Keeps lat tim bef aft :=
  Host.Outcome.next.inj h ▸ onStn hk (sdStuck hk)

theorem execAlignStep {n : Fin 4} {t : BitVec 64} (hk : Keeps lat tim bef s) (h : Machine.execAlignStep n t s = .next aft) : Keeps lat tim bef aft :=
  Host.Outcome.next.inj h ▸ onStn hk (alignStep hk)

theorem execBootstrapUndervoltage {n : Fin 4} {leg : Fin 3} {v : BitVec 8} (hk : Keeps lat tim bef s) (h : Machine.execBootstrapUndervoltage n leg v s = .next aft) : Keeps lat tim bef aft :=
  Host.Outcome.next.inj h ▸ onStn hk (bsUv hk)

theorem execBootstrapRefreshPulse {n : Fin 4} {leg : Fin 3} {v : BitVec 8} (hk : Keeps lat tim bef s) (h : Machine.execBootstrapRefreshPulse n leg v s = .next aft) : Keeps lat tim bef aft :=
  Host.Outcome.next.inj h ▸ onStn hk (bsRefresh hk)

theorem execArmComplete {n : Fin 4} {legs : BitVec 3} {low : BitVec 3} (hk : Keeps lat tim bef s) (h : Machine.execArmComplete n legs low s = .next aft) : Keeps lat tim bef aft :=
  Host.Outcome.next.inj h ▸ onStn hk (armEnd hk)

theorem execDiagComplete {n : Fin 4} {gu : BitVec 16} {gv : BitVec 16} {gw : BitVec 16} {ku : BitVec 16} {kv : BitVec 16} {kw : BitVec 16} {op : BitVec 3} {bs : BitVec 3} (hk : Keeps lat tim bef s) (h : Machine.execDiagComplete n gu gv gw ku kv kw op bs s = .next aft) : Keeps lat tim bef aft :=
  Host.Outcome.next.inj h ▸ onStn hk (diagEnd hk)

theorem execVdsTrip {n : Fin 4} {legs : BitVec 3} {high : Bool} {hard : Bool} (hk : Keeps lat tim bef s) (h : Machine.execVdsTrip n legs high hard s = .next aft) : Keeps lat tim bef aft :=
  Host.Outcome.next.inj h ▸ onStn hk (vdsTrip hk)

theorem execGateFollowFail {n : Fin 4} {legs : BitVec 3} (hk : Keeps lat tim bef s) (h : Machine.execGateFollowFail n legs s = .next aft) : Keeps lat tim bef aft :=
  Host.Outcome.next.inj h ▸ onStn hk (gateFollow hk)

theorem execOcSoftTrip {n : Fin 4} {legs : BitVec 3} {again : Bool} (hk : Keeps lat tim bef s) (h : Machine.execOcSoftTrip n legs again s = .next aft) : Keeps lat tim bef aft :=
  Host.Outcome.next.inj h ▸ onStn hk (ocSoft hk)

theorem execOchard {n : Fin 4} {legs : BitVec 3} (hk : Keeps lat tim bef s) (h : Machine.execOchard n legs s = .next aft) : Keeps lat tim bef aft :=
  Host.Outcome.next.inj h ▸ onStn hk (ocHard hk)

theorem execLflt {n : Fin 4} {low : Bool} (hk : Keeps lat tim bef s) (h : Machine.execLflt n low s = .next aft) : Keeps lat tim bef aft :=
  Host.Outcome.next.inj h ▸ onGate hk (lflt hk)

theorem execLrdy {n : Fin 4} {high : Bool} (hk : Keeps lat tim bef s) (h : Machine.execLrdy n high s = .next aft) : Keeps lat tim bef aft :=
  Host.Outcome.next.inj h ▸ onGate hk (lrdy hk)

theorem execTurnoffMidHoldEnd {n : Fin 4} (hk : Keeps lat tim bef s) (h : Machine.execTurnoffMidHoldEnd n s = .next aft) : Keeps lat tim bef aft :=
  Host.Outcome.next.inj h ▸ onGate hk (midEnd hk)

theorem execTurnoffComplete {n : Fin 4} (hk : Keeps lat tim bef s) (h : Machine.execTurnoffComplete n s = .next aft) : Keeps lat tim bef aft :=
  Host.Outcome.next.inj h ▸ onGate hk (offDone hk)

theorem execStoActive {h : Fin 2} {ch1 : Bool} {ch2 : Bool} (hk : Keeps lat tim bef s) (h : Machine.execStoActive h ch1 ch2 s = .next aft) : Keeps lat tim bef aft :=
  Host.Outcome.next.inj h ▸ stoActive hk

theorem execStoRelease {h : Fin 2} (hk : Keeps lat tim bef s) (h : Machine.execStoRelease h s = .next aft) : Keeps lat tim bef aft :=
  Host.Outcome.next.inj h ▸ stoRelease hk

theorem execStoDiscrepancy {h : Fin 2} (hk : Keeps lat tim bef s) (h : Machine.execStoDiscrepancy h s = .next aft) : Keeps lat tim bef aft :=
  Host.Outcome.next.inj h ▸ stoDisc hk

theorem execBusSample {h : Fin 2} {t : BitVec 64} {v : BitVec 16} {chi : BitVec 16} (hk : Keeps lat tim bef s) (h : Machine.execBusSample h t v chi s = .next aft) : Keeps lat tim bef aft :=
  Host.Outcome.next.inj h ▸ busSample hk

theorem execBusuv {h : Fin 2} (hk : Keeps lat tim bef s) (h : Machine.execBusuv h s = .next aft) : Keeps lat tim bef aft :=
  Host.Outcome.next.inj h ▸ busUv hk

theorem execChnofb {h : Fin 2} (hk : Keeps lat tim bef s) (h : Machine.execChnofb h s = .next aft) : Keeps lat tim bef aft :=
  Host.Outcome.next.inj h ▸ chNoFb hk

theorem execChoc {h : Fin 2} {desat : Bool} (hk : Keeps lat tim bef s) (h : Machine.execChoc h desat s = .next aft) : Keeps lat tim bef aft :=
  Host.Outcome.next.inj h ▸ chOc hk

theorem execChstuck {h : Fin 2} (hk : Keeps lat tim bef s) (h : Machine.execChstuck h s = .next aft) : Keeps lat tim bef aft :=
  Host.Outcome.next.inj h ▸ chStuck hk

theorem execZeroVectorBrakingEnd {n : Fin 4} (hk : Keeps lat tim bef s) (h : Machine.execZeroVectorBrakingEnd n s = .next aft) : Keeps lat tim bef aft :=
  Host.Outcome.next.inj h ▸ onGate hk (zvbEnd hk)

theorem execPrechargeDone {h : Fin 2} (hk : Keeps lat tim bef s) (h : Machine.execPrechargeDone h s = .next aft) : Keeps lat tim bef aft :=
  Host.Outcome.next.inj h ▸ preDone hk

theorem execPrechg {h : Fin 2} (hk : Keeps lat tim bef s) (h : Machine.execPrechg h s = .next aft) : Keeps lat tim bef aft :=
  Host.Outcome.next.inj h ▸ preFail hk

theorem execTemperatureConversion {r : Fin 3} {rd : List (BitVec 16)} (hk : Keeps lat tim bef s) (h : Machine.execTemperatureConversion r rd s = .next aft) : Keeps lat tim bef aft :=
  Host.Outcome.next.inj h ▸ temperature hk

theorem execExtTemperatureConversion {x : Fin 4} {code : BitVec 12} (hk : Keeps lat tim bef s) (h : Machine.execExtTemperatureConversion x code s = .next aft) : Keeps lat tim bef aft :=
  Host.Outcome.next.inj h ▸ extConvert hk

theorem execObserverOpenEval {n : Fin 4} {t : BitVec 64} {u : BitVec 16} {v : BitVec 16} {w : BitVec 16} (hk : Keeps lat tim bef s) (h : Machine.execObserverOpenEval n t u v w s = .next aft) : Keeps lat tim bef aft :=
  Host.Outcome.next.inj h ▸ onStn hk (openEval hk)

theorem execRotationCheck {n : Fin 4} (hk : Keeps lat tim bef s) (h : Machine.execRotationCheck n s = .next aft) : Keeps lat tim bef aft :=
  Host.Outcome.next.inj h ▸ onStn hk (rotCheckEv hk)

theorem execReverseWaitTimeout {n : Fin 4} (hk : Keeps lat tim bef s) (h : Machine.execReverseWaitTimeout n s = .next aft) : Keeps lat tim bef aft :=
  Host.Outcome.next.inj h ▸ onStn hk (revTimeout hk)

theorem execStartAlignEnd {n : Fin 4} (hk : Keeps lat tim bef s) (h : Machine.execStartAlignEnd n s = .next aft) : Keeps lat tim bef aft :=
  Host.Outcome.next.inj h ▸ onStn hk (startAlignEnd hk)

theorem execStartHandoverTimeout {n : Fin 4} (hk : Keeps lat tim bef s) (h : Machine.execStartHandoverTimeout n s = .next aft) : Keeps lat tim bef aft :=
  Host.Outcome.next.inj h ▸ onStn hk (handTimeout hk)

theorem execCatchStopped {n : Fin 4} (hk : Keeps lat tim bef s) (h : Machine.execCatchStopped n s = .next aft) : Keeps lat tim bef aft :=
  Host.Outcome.next.inj h ▸ onStn hk (catchStopped hk)

theorem execCatchTimeout {n : Fin 4} (hk : Keeps lat tim bef s) (h : Machine.execCatchTimeout n s = .next aft) : Keeps lat tim bef aft :=
  Host.Outcome.next.inj h ▸ onStn hk (catchTimeout hk)

theorem execLoopSlotUpdate {h : Fin 2} {m : Fin 48} {t : BitVec 64} (hk : Keeps lat tim bef s) (h : Machine.execLoopSlotUpdate h m t s = .next aft) : Keeps lat tim bef aft :=
  Host.Outcome.next.inj h ▸ slotUpdate hk

theorem execBankSwapBoundary {h : Fin 2} {g : Fin 16} {t : BitVec 64} (hk : Keeps lat tim bef s) (h : Machine.execBankSwapBoundary h g t s = .next aft) : Keeps lat tim bef aft :=
  Host.Outcome.next.inj h ▸ swapSnap hk

theorem execSetpointConversion {h : Fin 2} {t : BitVec 64} {code : BitVec 16} (hk : Keeps lat tim bef s) (h : Machine.execSetpointConversion h t code s = .next aft) : Keeps lat tim bef aft :=
  Host.Outcome.next.inj h ▸ portConv hk

theorem execSetpointPulseEdge {h : Fin 2} {t : BitVec 64} {rising : Bool} (hk : Keeps lat tim bef s) (h : Machine.execSetpointPulseEdge h t rising s = .next aft) : Keeps lat tim bef aft :=
  Host.Outcome.next.inj h ▸ portEdge hk

theorem execSplos {h : Fin 2} {pulse : Bool} (hk : Keeps lat tim bef s) (h : Machine.execSplos h pulse s = .next aft) : Keeps lat tim bef aft :=
  Host.Outcome.next.inj h ▸ splos hk

theorem execSloterr {h : Fin 2} {m : Fin 48} (hk : Keeps lat tim bef s) (h : Machine.execSloterr h m s = .next aft) : Keeps lat tim bef aft :=
  Host.Outcome.next.inj h ▸ slotErrEv hk

theorem execLenerr {h : Fin 2} (hk : Keeps lat tim bef s) (h : Machine.execLenerr h s = .next aft) : Keeps lat tim bef aft :=
  Host.Outcome.next.inj h ▸ lenErr hk

theorem execLinkUp {l : Link} {x : Ident} (hk : Keeps lat tim bef s) (h : Machine.execLinkUp l x s = .next aft) : Keeps lat tim bef aft :=
  Host.Outcome.next.inj h ▸ linkUp hk

theorem execLinkDelayMeasure {l : Link} {d : BitVec 20} (hk : Keeps lat tim bef s) (h : Machine.execLinkDelayMeasure l d s = .next aft) : Keeps lat tim bef aft :=
  Host.Outcome.next.inj h ▸ linkDelay hk

theorem execLnkloss {l : Link} (hk : Keeps lat tim bef s) (h : Machine.execLnkloss l s = .next aft) : Keeps lat tim bef aft :=
  Host.Outcome.next.inj h ▸ lnkLoss hk

theorem execLnklate {l : Link} (hk : Keeps lat tim bef s) (h : Machine.execLnklate l s = .next aft) : Keeps lat tim bef aft :=
  Host.Outcome.next.inj h ▸ lnkLate hk

theorem execLnkid {l : Link} {x : Ident} (hk : Keeps lat tim bef s) (h : Machine.execLnkid l x s = .next aft) : Keeps lat tim bef aft :=
  Host.Outcome.next.inj h ▸ lnkId hk

theorem execLnkflap {l : Link} (hk : Keeps lat tim bef s) (h : Machine.execLnkflap l s = .next aft) : Keeps lat tim bef aft :=
  Host.Outcome.next.inj h ▸ lnkFlap hk

theorem execLinkRetrain {l : Link} (hk : Keeps lat tim bef s) (h : Machine.execLinkRetrain l s = .next aft) : Keeps lat tim bef aft :=
  Host.Outcome.next.inj h ▸ linkRetrain hk

theorem execShareCycleStart {t : BitVec 64} (hk : Keeps lat tim bef s) (h : Machine.execShareCycleStart t s = .next aft) : Keeps lat tim bef aft :=
  Host.Outcome.next.inj h ▸ launch hk

theorem execHatbandFrameReceived {l : Link} {ws : List Word} {e : FrameEnd} {err : Bool} {rx : BitVec 68} {t : BitVec 64} {path : BitVec 20} {res : BitVec 20} (hk : Keeps lat tim bef s) (h : Machine.execHatbandFrameReceived l ws e err rx t path res s = .next aft) : Keeps lat tim bef aft :=
  Host.Outcome.next.inj h ▸ frameIn hk

theorem execShareCycleUse {t : BitVec 64} (hk : Keeps lat tim bef s) (h : Machine.execShareCycleUse t s = .next aft) : Keeps lat tim bef aft :=
  Host.Outcome.next.inj h ▸ cycleUse hk

theorem execAllocloss {n : Fin 4} (hk : Keeps lat tim bef s) (h : Machine.execAllocloss n s = .next aft) : Keeps lat tim bef aft :=
  Host.Outcome.next.inj h ▸ onStn hk (allocLoss hk)

theorem execRootTimeout (hk : Keeps lat tim bef s) (h : Machine.execRootTimeout s = .next aft) : Keeps lat tim bef aft :=
  Host.Outcome.next.inj h ▸ rootTimeout hk

theorem execAlone (hk : Keeps lat tim bef s) (h : Machine.execAlone s = .next aft) : Keeps lat tim bef aft :=
  Host.Outcome.next.inj h ▸ aloneEv hk

theorem execNosync (hk : Keeps lat tim bef s) (h : Machine.execNosync s = .next aft) : Keeps lat tim bef aft :=
  Host.Outcome.next.inj h ▸ noSync hk

theorem execServiceTick {t : BitVec 64} (hk : Keeps lat tim bef s) (h : Machine.execServiceTick t s = .next aft) : Keeps lat tim bef aft :=
  Host.Outcome.next.inj h ▸ svcTick hk

theorem execSpooldev {k : Fin 16} (hk : Keeps lat tim bef s) (h : Machine.execSpooldev k s = .next aft) : Keeps lat tim bef aft :=
  Host.Outcome.next.inj h ▸ onSh hk (spoolDev hk)

theorem execHeaveloss {k : Fin 16} (hk : Keeps lat tim bef s) (h : Machine.execHeaveloss k s = .next aft) : Keeps lat tim bef aft :=
  Host.Outcome.next.inj h ▸ onSh hk (heaveLoss hk)

theorem execPmsloss {k : Fin 16} (hk : Keeps lat tim bef s) (h : Machine.execPmsloss k s = .next aft) : Keeps lat tim bef aft :=
  Host.Outcome.next.inj h ▸ onSh hk (pmsLoss hk)

theorem execShedKeepEnd {k : Fin 16} (hk : Keeps lat tim bef s) (h : Machine.execShedKeepEnd k s = .next aft) : Keeps lat tim bef aft :=
  Host.Outcome.next.inj h ▸ onSh hk (shedKeepEnd hk)

theorem execServiceTokenTimeout (hk : Keeps lat tim bef s) (h : Machine.execServiceTokenTimeout s = .next aft) : Keeps lat tim bef aft :=
  Host.Outcome.next.inj h ▸ onSh hk (tokenTimeout hk)

theorem execBrakeReleaseDelayEnd {n : Fin 4} (hk : Keeps lat tim bef s) (h : Machine.execBrakeReleaseDelayEnd n s = .next aft) : Keeps lat tim bef aft :=
  Host.Outcome.next.inj h ▸ onGate hk (brakeDelayEnd hk)

theorem execStopDwellEnd {n : Fin 4} (hk : Keeps lat tim bef s) (h : Machine.execStopDwellEnd n s = .next aft) : Keeps lat tim bef aft :=
  Host.Outcome.next.inj h ▸ onGate hk (dwellEnd hk)

theorem execHoldBrakeUnload {n : Fin 4} (hk : Keeps lat tim bef s) (h : Machine.execHoldBrakeUnload n s = .next aft) : Keeps lat tim bef aft :=
  Host.Outcome.next.inj h ▸ onGate hk (holdUnload hk)

theorem execHoldBrakeEnd {n : Fin 4} (hk : Keeps lat tim bef s) (h : Machine.execHoldBrakeEnd n s = .next aft) : Keeps lat tim bef aft :=
  Host.Outcome.next.inj h ▸ onGate hk (holdEnd hk)

theorem execStopto {n : Fin 4} (hk : Keeps lat tim bef s) (h : Machine.execStopto n s = .next aft) : Keeps lat tim bef aft :=
  Host.Outcome.next.inj h ▸ onGate hk (stopTo hk)

theorem execIsolationEntry {h : Fin 2} (hk : Keeps lat tim bef s) (h : Machine.execIsolationEntry h s = .next aft) : Keeps lat tim bef aft :=
  Host.Outcome.next.inj h ▸ isolationEntry hk

theorem execIsolationEnd {h : Fin 2} (hk : Keeps lat tim bef s) (h : Machine.execIsolationEnd h s = .next aft) : Keeps lat tim bef aft :=
  Host.Outcome.next.inj h ▸ isolationEnd hk

theorem execPlannerTick {h : Fin 2} {t : BitVec 64} (hk : Keeps lat tim bef s) (h : Machine.execPlannerTick h t s = .next aft) : Keeps lat tim bef aft :=
  Host.Outcome.next.inj h ▸ plannerTick hk

theorem execAxisStep {n : Fin 4} {t : BitVec 64} (hk : Keeps lat tim bef s) (h : Machine.execAxisStep n t s = .next aft) : Keeps lat tim bef aft :=
  Host.Outcome.next.inj h ▸ onAxs hk (axStep hk)

theorem execAxisGroupStart {g : BitVec 4} {t : BitVec 64} (hk : Keeps lat tim bef s) (h : Machine.execAxisGroupStart g t s = .next aft) : Keeps lat tim bef aft :=
  Host.Outcome.next.inj h ▸ axGroupStart hk

theorem execAxisChopperCycle {n : Fin 4} {coilB : Bool} (hk : Keeps lat tim bef s) (h : Machine.execAxisChopperCycle n coilB s = .next aft) : Keeps lat tim bef aft :=
  Host.Outcome.next.inj h ▸ onAxs hk (axChop hk)

theorem execAxisChopperNoreach {n : Fin 4} {coilB : Bool} (hk : Keeps lat tim bef s) (h : Machine.execAxisChopperNoreach n coilB s = .next aft) : Keeps lat tim bef aft :=
  Host.Outcome.next.inj h ▸ onAxs hk (axNoReach hk)

theorem execAxoc {n : Fin 4} (hk : Keeps lat tim bef s) (h : Machine.execAxoc n s = .next aft) : Keeps lat tim bef aft :=
  Host.Outcome.next.inj h ▸ onAxs hk (axOc hk)

theorem execAxisStandby {n : Fin 4} (hk : Keeps lat tim bef s) (h : Machine.execAxisStandby n s = .next aft) : Keeps lat tim bef aft :=
  Host.Outcome.next.inj h ▸ onAxs hk (axStandbyEv hk)

theorem execAxisEnergised {n : Fin 4} {t : BitVec 64} (hk : Keeps lat tim bef s) (h : Machine.execAxisEnergised n t s = .next aft) : Keeps lat tim bef aft :=
  Host.Outcome.next.inj h ▸ onAxs hk (axEnergised hk)

theorem execAxisStepInputEdge {n : Fin 4} {t : BitVec 64} {dir : Bool} (hk : Keeps lat tim bef s) (h : Machine.execAxisStepInputEdge n t dir s = .next aft) : Keeps lat tim bef aft :=
  Host.Outcome.next.inj h ▸ onAxs hk (axEdge hk)

theorem execCanFrameReceived {c : Fin 4} {t : BitVec 64} {rtr : Bool} {f : CanFrame} (hk : Keeps lat tim bef s) (h : Machine.execCanFrameReceived c t rtr f s = .next aft) : Keeps lat tim bef aft :=
  Host.Outcome.next.inj h ▸ onCan hk (canArrive hk)

theorem execCanRxNoticeDelay {c : Fin 4} (hk : Keeps lat tim bef s) (h : Machine.execCanRxNoticeDelay c s = .next aft) : Keeps lat tim bef aft :=
  Host.Outcome.next.inj h ▸ onCan hk (canRxDelay hk)

theorem execCanFrameSent {c : Fin 4} {ack : Bool} (hk : Keeps lat tim bef s) (h : Machine.execCanFrameSent c ack s = .next aft) : Keeps lat tim bef aft :=
  Host.Outcome.next.inj h ▸ onCan hk (canAttempt hk)

theorem execCanTxTimeout {c : Fin 4} {ix : Fin 32} (hk : Keeps lat tim bef s) (h : Machine.execCanTxTimeout c ix s = .next aft) : Keeps lat tim bef aft :=
  Host.Outcome.next.inj h ▸ onCan hk (canTxTimeout hk)

theorem execCanRecoveryComplete {c : Fin 4} (hk : Keeps lat tim bef s) (h : Machine.execCanRecoveryComplete c s = .next aft) : Keeps lat tim bef aft :=
  Host.Outcome.next.inj h ▸ onCan hk (canRecovered hk)

theorem execTxdDominantTimeout {c : Fin 4} (hk : Keeps lat tim bef s) (h : Machine.execTxdDominantTimeout c s = .next aft) : Keeps lat tim bef aft :=
  Host.Outcome.next.inj h ▸ txdTimeout hk

theorem execTimeReferenceSend {c : Fin 4} {t : BitVec 64} (hk : Keeps lat tim bef s) (h : Machine.execTimeReferenceSend c t s = .next aft) : Keeps lat tim bef aft :=
  Host.Outcome.next.inj h ▸ onCan hk (refAttempt hk)

theorem execTimeReferenceReceived {c : Fin 4} {t : BitVec 64} {f : CanFrame} (hk : Keeps lat tim bef s) (h : Machine.execTimeReferenceReceived c t f s = .next aft) : Keeps lat tim bef aft :=
  Host.Outcome.next.inj h ▸ onCan hk (refArrive hk)

theorem execTimeBackupActivate {c : Fin 4} (hk : Keeps lat tim bef s) (h : Machine.execTimeBackupActivate c s = .next aft) : Keeps lat tim bef aft :=
  Host.Outcome.next.inj h ▸ onCan hk (timeBackup hk)

theorem execNtloss {c : Fin 4} (hk : Keeps lat tim bef s) (h : Machine.execNtloss c s = .next aft) : Keeps lat tim bef aft :=
  Host.Outcome.next.inj h ▸ onCan hk (ntLoss hk)

theorem execCellError {x : Cell} (hk : Keeps lat tim bef s) (h : Machine.execCellError x s = .next aft) : Keeps lat tim bef aft :=
  Host.Outcome.next.inj h ▸ cellError hk

theorem execBlockError {b : Block} (hk : Keeps lat tim bef s) (h : Machine.execBlockError b s = .next aft) : Keeps lat tim bef aft :=
  Host.Outcome.next.inj h ▸ blockError hk

theorem execSteamingEnd {x : Steamed} {ok : Bool} (hk : Keeps lat tim bef s) (h : Machine.execSteamingEnd x ok s = .next aft) : Keeps lat tim bef aft :=
  Host.Outcome.next.inj h ▸ steamingEnd hk

theorem execRamScrub {k : BitVec 16} (hk : Keeps lat tim bef s) (h : Machine.execRamScrub k s = .next aft) : Keeps lat tim bef aft :=
  Host.Outcome.next.inj h ▸ ramScrub hk

theorem execRegionError {r : Fin 3} {ram : Bool} (hk : Keeps lat tim bef s) (h : Machine.execRegionError r ram s = .next aft) : Keeps lat tim bef aft :=
  Host.Outcome.next.inj h ▸ regionError hk

theorem execRegionRestartComplete {r : Fin 3} (hk : Keeps lat tim bef s) (h : Machine.execRegionRestartComplete r s = .next aft) : Keeps lat tim bef aft :=
  Host.Outcome.next.inj h ▸ restartDone hk

theorem execArberr (hk : Keeps lat tim bef s) (h : Machine.execArberr s = .next aft) : Keeps lat tim bef aft :=
  Host.Outcome.next.inj h ▸ arbError hk

theorem execHeartbeatSend {h : Fin 2} (hk : Keeps lat tim bef s) (h : Machine.execHeartbeatSend h s = .next aft) : Keeps lat tim bef aft :=
  Host.Outcome.next.inj h ▸ heartSend hk

theorem execHeartbeatReceived {h : Fin 2} (hk : Keeps lat tim bef s) (h : Machine.execHeartbeatReceived h s = .next aft) : Keeps lat tim bef aft :=
  Host.Outcome.next.inj h ▸ heartReceived hk

theorem execHeartbeatMiss {h : Fin 2} (hk : Keeps lat tim bef s) (h : Machine.execHeartbeatMiss h s = .next aft) : Keeps lat tim bef aft :=
  Host.Outcome.next.inj h ▸ heartMiss hk

theorem execRecordCapture (hk : Keeps lat tim bef s) (h : Machine.execRecordCapture s = .next aft) : Keeps lat tim bef aft :=
  Host.Outcome.next.inj h ▸ recCapture hk

theorem execRecordNvaWrite (hk : Keeps lat tim bef s) (h : Machine.execRecordNvaWrite s = .next aft) : Keeps lat tim bef aft :=
  Host.Outcome.next.inj h ▸ recWrite hk

theorem execRecorderBucketRefill (hk : Keeps lat tim bef s) (h : Machine.execRecorderBucketRefill s = .next aft) : Keeps lat tim bef aft :=
  Host.Outcome.next.inj h ▸ recRefill hk

theorem execTapUpdateIr {ir : BitVec 8} (hk : Keeps lat false bef s) (h : Machine.execTapUpdateIr ir s = .next aft) : Keeps lat false bef aft :=
  Host.Outcome.next.inj h ▸ tapIr hk

theorem execTapReset (hk : Keeps lat false bef s) (h : Machine.execTapReset s = .next aft) : Keeps lat false bef aft :=
  Host.Outcome.next.inj h ▸ tapReset hk

theorem execPositionSpeedUpdate {n : Fin 4} {t : BitVec 64} (hk : Keeps lat tim bef s) (h : Machine.execPositionSpeedUpdate n t s = .next aft) : Keeps lat tim bef aft :=
  Host.Outcome.next.inj h ▸ onStn hk (speedTick hk)

theorem execUartIdleResync (hk : Keeps lat tim bef s) (h : Machine.execUartIdleResync s = .next aft) : Keeps lat tim bef aft :=
  Host.Outcome.next.inj h ▸ uartIdle hk

theorem execForwardedReplyReceived {p : Fin 8} {ws : List Word} (hk : Keeps lat tim bef s) (h : Machine.execForwardedReplyReceived p ws s = .next aft) : Keeps lat tim bef aft :=
  Host.Outcome.next.inj h ▸ forwardReply hk

theorem execCanBusIntegrated {c : Fin 4} (hk : Keeps lat tim bef s) (h : Machine.execCanBusIntegrated c s = .next aft) : Keeps lat tim bef aft :=
  Host.Outcome.next.inj h ▸ onCan hk (canIntegrated hk)

theorem execCanErrorDetected {c : Fin 4} {lec : Fin 8} {tx : Bool} {heavy : Bool} (hk : Keeps lat tim bef s) (h : Machine.execCanErrorDetected c lec tx heavy s = .next aft) : Keeps lat tim bef aft :=
  Host.Outcome.next.inj h ▸ onCan hk (canError hk)

theorem execLinkPulseInputEdge {n : Fin 4} {leg : Fin 3} {t : BitVec 64} {level : Bool} {en : Bool} (hk : Keeps lat tim bef s) (h : Machine.execLinkPulseInputEdge n leg t level en s = .next aft) : Keeps lat tim bef aft :=
  Host.Outcome.next.inj h ▸ onStn hk (linkEdge hk)

theorem execPwmCarrierEdge {n : Fin 4} {leg : Fin 3} {t : BitVec 64} (hk : Keeps lat tim bef s) (h : Machine.execPwmCarrierEdge n leg t s = .next aft) : Keeps lat tim bef aft :=
  Host.Outcome.next.inj h ▸ onStn hk (carrierEdge hk)

end Sys2Proof.Machine.Keeps
end

