-- ==== Sys2Proof/WellFormed.lean ====
section
/-!
DEFINITION. What the outside world can present. A row outside these bounds has a meaning all the same; no bus, pin or host produces it.
-/
namespace Sys2Proof

open Machine

/-- A command packet (Tables PK-1, PK-2): at most 255 payload words, on a transport of its own; an inner command for the chip's own
position exists only inside its outer command (R72). -/
def Cmd.wf (c : Cmd) : Bool :=
  decide (c.payload.length ≤ 255) && (match c.tr with | .own _ => false | _ => true)

/-- A frame on the bus: an 11-bit identifier unless extended, the data length of its DLC, and no BRS or ESI in a classical frame
(Table PK-13). -/
def CanFrame.wf (f : CanFrame) : Bool :=
  (f.ide || decide (f.id.toNat < 2048)) && f.data.length == dlcLen f.fdf f.dlc.val && (f.fdf || (!f.brs && !f.esi))

/-- The packet of a Milliner command row. -/
def Instr.cmd? : Instr → Option Cmd
  | .echo c
  | .identify c
  | .readReg c
  | .writeReg c
  | .modifyReg c
  | .statusSnapshot c
  | .sleep c
  | .resetRegion c
  | .cfgRead c
  | .cfgStage c
  | .cfgCommit c
  | .cfgSeal c
  | .tableLoad c
  | .stnArm c
  | .stnRun c
  | .stnSetpoint c
  | .stnStop c
  | .stnDiag c
  | .stnSizing c
  | .bankSwap c
  | .axisMove c
  | .axisRetarget c
  | .axisStop c
  | .axisGroup c
  | .axisFollow c
  | .svcStart c
  | .svcParam c
  | .svcStop c
  | .shareCfg c
  | .evtArm c
  | .evtCancel c
  | .recRead c
  | .recTriggerCfg c
  | .canCfg c
  | .canRecover c
  | .timeMaster c
  | .canSend c
  | .canFetch c
  | .canAck c
  | .mbxPost c
  | .mbxFetch c
  | .dblRing c
  | .faultRead c
  | .faultClear c
  | .mastership c
  | .testmuxSel c
  | .selftest c => some c
  | _ => none

/-- A staging entry of the recorder has an index below 64 (R391). -/
def Cell.wf : Cell → Bool
  | .record ix => decide (ix < 64)
  | _ => true

/-- A row's operands are ones that the outside world can present. -/
def Instr.wf : Instr → Bool
  | .canFrameReceived _ _ rtr f => rtr || f.wf
  | .timeReferenceReceived _ _ f => f.wf
  | .wake (.c0Frame f) _ => f.wf
  | .wake (.c1Frame f) _ => f.wf
  | .tunnelSegmentReceived _ _ d => decide (d.length ≤ 64)
  | .cellError x => x.wf
  | .canErrorDetected _ lec _ _ => decide (1 ≤ lec.val ∧ lec.val ≤ 6)
  | .forwardedCommand _ ws => decide (3 ≤ ws.length ∧ ws.length ≤ 258)
  | .forwardedReplyReceived _ ws => decide (3 ≤ ws.length ∧ ws.length ≤ 258)
  | .temperatureConversion r rd => decide (rd.length = if r = 0 then 2 else 4)
  | i =>
    match i.cmd? with
    | some c => c.wf
    | none => true

end Sys2Proof
end

