-- ==== Sys2Proof/Tests/Slice0.lean ====
section
/-!
SUPPORT. Tests. The operands that WellFormed refuses; a few rows of each family against the specification's words; and for every statement
with hypotheses a state and operands that meet them.
-/
namespace Sys2Proof.Tests
open Machine

/-- A running CX9440 with its ports open, STO released and no configuration. -/
def up : State :=
  (((State.reset.withChip fun c => { c with phase := .running, regions := Vector.replicate 3 .run, ready := true }).puts 0
    [(F.CHIP_ID_HALF_B, 1), (F.CHIP_ID_G_LAW, 1), (F.CHIP_STATUS_MASTER, 1)]).puts (halfB 0)
    [(F.SUP_STO_STAT_CH1, 1), (F.SUP_STO_STAT_CH2, 1), (F.SUP_STO_STAT_ACTIVE, 0)]).puts (halfB 1)
    [(F.SUP_STO_STAT_CH1, 1), (F.SUP_STO_STAT_CH2, 1), (F.SUP_STO_STAT_ACTIVE, 0)]

/-- `up` with station 0 in a mode and some of its fields set. -/
def stn (mode : Int) (l : List (Fld × Int)) : State := (up.put (stnB 0) F.STN_STAT_MODE mode).puts (stnB 0) l

/-- `up` in a ring of four chips, at position 0, both links up, every position reached. -/
def ring : State :=
  ((up.puts 0 [(F.HBD_CTRL_EN, 1), (F.HBD_RING_NCHIP_M1, 3), (F.HBD_RING_RING_NO, 0), (F.HBD_PUB_MBX_WIN, 4), (F.HBD_STAT_REACH, 15)]).put Link.west.base
    F.HBD_LNK_LSTATE 2).put Link.east.base F.HBD_LNK_LSTATE 2

/-- `up` with CAN controller 0 on the bus. -/
def can (l : List (Fld × Int)) : State := (up.puts (canB 0) [(F.CAN_CTRL_EN, 1), (F.CAN_STAT_ACT, 1)]).puts (canB 0) l

/-- `up` with axis 0 of class 1 in a state. -/
def axs (st : Int) (l : List (Fld × Int)) : State := (up.puts (axsB 0) [(F.AXS_CTRL_CLASS, 1), (F.AXS_STAT_STATE, st)]).puts (axsB 0) l

/-- A command of tag 5 on SPI. -/
def cmd (scope index : Nat) (ws : List Nat) : Cmd :=
  { tr := .spi, tag := 5, want := false, snap := false, scope := BitVec.ofNat 4 scope, index := BitVec.ofNat 4 index, rsv := 0,
    payload := ws.map (BitVec.ofNat 32) }

/-- A classical data frame. -/
def frame (id : Nat) (d : List Nat) : CanFrame :=
  { id := BitVec.ofNat 29 id, ide := false, fdf := false, brs := false, esi := false, dlc := Fin.ofNat 16 d.length, data := d.map (BitVec.ofNat 8) }

/-- The row answers a next state with the property. -/
def after (i : Instr) (s : State) (p : State → Bool) : Bool := match exec i s with | .next t => p t | _ => false

/-- Status, DETAIL and payload of the packets that wait on SPI. -/
def spi (s : State) : List (Nat × Nat × List Nat) := (s.port 0).out.map fun x => (x.2.status, x.2.detail, x.2.payload)

/-! ### WellFormed -/

set_option maxRecDepth 4000 in
theorem wf_payload : (Instr.echo { cmd 0 0 [] with payload := List.replicate 256 0 }).wf = false ∧
    (Instr.echo { cmd 0 0 [] with payload := List.replicate 255 0 }).wf = true := by decide
theorem wf_transport : (Instr.echo { cmd 0 0 [] with tr := .own ⟨0, 0, false, false, 0⟩ }).wf = false := by decide
theorem wf_identifier : (Instr.canFrameReceived 0 0 false (frame 2048 [])).wf = false ∧
    (Instr.canFrameReceived 0 0 false (frame 2047 [])).wf = true := by decide
theorem wf_data : (Instr.canFrameReceived 0 0 false { frame 1 [1, 2] with dlc := 3 }).wf = false ∧
    (Instr.timeReferenceReceived 0 0 { frame 1 [] with brs := true }).wf = false ∧
    (Instr.wake (.c0Frame { frame 1 [] with esi := true }) ⟨0, 0, 0, false, true⟩).wf = false ∧
    (Instr.wake (.c1Frame { frame 1 [] with dlc := 1 }) ⟨0, 0, 0, false, true⟩).wf = false := by decide
theorem wf_segment : (Instr.tunnelSegmentReceived 0 true (List.replicate 65 0)).wf = false := by decide
theorem wf_record : (Instr.cellError (.record 64)).wf = false ∧ (Instr.cellError (.record 63)).wf = true := by decide
theorem wf_lec : (Instr.canErrorDetected 0 0 true false).wf = false ∧ (Instr.canErrorDetected 0 7 true false).wf = false := by decide
set_option maxRecDepth 4000 in
theorem wf_forwarded : (Instr.forwardedCommand 1 [0, 0]).wf = false ∧ (Instr.forwardedReplyReceived 1 (List.replicate 259 0)).wf = false := by
  decide
theorem wf_readings : (Instr.temperatureConversion 0 [0]).wf = false ∧ (Instr.temperatureConversion 1 [0, 0, 0, 0]).wf = true := by decide

/-! ### Rows -/

/-- R82: ECHO answers its payload. -/
theorem test_echo : after (.echo (cmd 0 0 [7, 9])) up (fun t => spi t == [(0, 0, [7, 9])]) = true := by decide
/-- Table PK-4, Step 6: scope 8 is no scope of ECHO. -/
theorem test_bad_target : after (.echo (cmd 8 0 [])) up (fun t => spi t == [(0x13, 0, [])]) = true := by decide
set_option maxRecDepth 8000 in
/-- Register map of chapter 8: PWM_HPER resets to 10000. -/
theorem test_read : after (.readReg (cmd 0 0 [0x1022004, 1])) up (fun t => spi t == [(0, 0, [10000])]) = true := by decide
/-- R5: a write of read-only bits is accepted and changes nothing. -/
theorem test_write_ro : after (.writeReg (cmd 0 0 [0, 0])) up (fun t => spi t == [(0, 0, [])] && t.regs == up.regs) = true := by decide
/-- R83: an address that is no word address is refused, and nothing is written. -/
theorem test_write_refused : after (.writeReg (cmd 0 0 [0x60001, 1])) up (fun t => spi t == [(0x14, 0, [])] && t.regs == up.regs) = true := by decide
/-- R101, R102: sealing needs the presence key. -/
theorem test_seal_key : after (.cfgSeal (cmd 0 0 [0x5EA1])) up (fun t => spi t == [(0x20, 0, [])]) = true := by decide
/-- R96: staging of the protected area needs it, staging of a table does not. -/
theorem test_stage : after (.cfgStage (cmd 0 0 [0x1000, 5])) up (fun t => spi t == [(0x20, 0, [])]) = true ∧
    after (.cfgStage (cmd 0 0 [0x3000, 5])) up (fun t => spi t == [(0, 0, [])] && imgGet t.cfg.staging 0x3000 == 5) = true := by decide
/-- R188: STN_ARM with STO active is refused with STATE. -/
theorem test_arm_sto : after (.stnArm (cmd 2 0 [])) (up.puts (halfB 0) [(F.SUP_STO_STAT_ACTIVE, 1), (F.BGD_CTRL_PRE_EN, 0)])
    (fun t => spi t == [(0x22, 0, [])]) = true := by decide
/-- Table PK-8: STN_STOP of a station in OFF answers OK. -/
theorem test_stop_off : after (.stnStop (cmd 2 1 [0])) up (fun t => spi t == [(0, 0, [])]) = true := by decide
/-- Table PK-9: AXIS_MOVE with ACC 0 is BAD_PARAM; of an axis without class STATE. -/
theorem test_axis_move : after (.axisMove (cmd 3 0 [5, 0, 1, 0, 1, 0])) (up.puts (axsB 0) [(F.AXS_CTRL_CLASS, 1), (F.AXS_STAT_STATE, 1)])
    (fun t => spi t == [(0x14, 0, [])]) = true ∧ after (.axisMove (cmd 3 0 [5, 0, 1, 1, 1, 0])) up (fun t => spi t == [(0x22, 0, [])]) = true := by
  decide
/-- R344: CAN_RECOVER of a controller that is not bus-off is refused. -/
theorem test_recover : after (.canRecover (cmd 5 0 [])) (can []) (fun t => spi t == [(0x22, 0, [])]) = true := by decide
/-- R9, R117: the high word of PF_POS sets the count at once, the low word alone does not. -/
theorem test_pos_write : after (.pfPosWrite 0 (BitVec.ofInt 64 (-3))) up (fun t => t.get (stnB 0) F.PF_POS_POS == -3) = true := by decide
/-- R55: the die shutdown's latch holds the chip off when the supply rises. -/
theorem test_latch : after (.powerOn ⟨0, 0, 0, false, true⟩) (State.reset.withChip fun c => { c with dieLatch := true })
    (fun t => t.chip.phase == .shutdown) = true := by decide
/-- R49: a supply without a reference waits for START_NO_REFERENCE, which opens the restricted set. -/
theorem test_power_on : after (.powerOn ⟨2, 2, 3, false, false⟩) State.reset (fun t => t.chip.phase == .starting && t.time == 0) = true ∧
    after .startNoReference (State.reset.withChip fun c => { c with phase := .starting }) (fun t => t.chip.phase == .restricted) = true := by decide
/-- Table GD-7: the end of a turn-off confirms OFF. -/
theorem test_turnoff_end : after (.turnoffComplete 0) (stn 6 [(F.GC_STAT_TURNOFF, 1), (H.toPhase, 2)])
    (fun t => t.get (stnB 0) F.GC_STAT_OFF_CONF == 1) = true := by decide
/-- R328: a step input edge counts by its direction. -/
theorem test_step_edge : after (.axisStepInputEdge 0 400 false) (up.puts (axsB 0) [(F.AXS_CTRL_CLASS, 2)])
    (fun t => t.get (axsB 0) F.AXS_IN_IN == -1) = true := by decide
set_option maxRecDepth 8000 in
/-- R197, Table GD-8: a low STO channel turns RUN into FAULT and counts once. -/
theorem test_sto : after (.stoActive 0 true false) (stn 3 []) (fun t => t.mode 0 == 6 && t.get (halfB 0) F.SUP_STO_STAT_EVENTS == 1) = true := by
  decide
/-- R379: the heartbeat's number. -/
theorem test_heartbeat : after (.heartbeatSend 1) (up.put (halfB 1) F.SUP_MST_ROLE 2)
    (fun t => t.get (halfB 1) H.hbSeq == 1 && t.get (halfB 0) H.hbSeq == 0) = true := by decide
/-- R393: the bucket's limit. -/
theorem test_bucket : after .recorderBucketRefill up (fun t => t.log.bucket == 64) = true := by decide
/-- R344: an error while sending adds 8 to TEC. -/
theorem test_can_error : after (.canErrorDetected 0 5 true true) (can [(F.CAN_ERR_TEC, 120)])
    (fun t => t.get (canB 0) F.CAN_ERR_TEC == 128 && t.get (canB 0) F.CAN_STAT_ERRSTATE == 1) = true := by decide
/-- R267: LNKLOSS takes an UP link down. -/
theorem test_lnkloss : after (.lnkloss .west) ring (fun t => t.lnkSt .west == 0 && t.lnkSt .east == 2) = true := by decide
/-- R375: a second occurrence is counted in its entry. -/
theorem test_occ : ((up.raise (.stn 0) 0x2A000).raise (.stn 0) 0x2A000).flt.list.map (·.occ) = [2] := by decide
set_option maxRecDepth 8000 in
/-- R68: the check value of the CRC. -/
theorem test_crc : crc32 [0x31, 0x32, 0x33, 0x34, 0x35, 0x36, 0x37, 0x38, 0x39] = 0xCBF43926 := by decide

/-- Table PW-8: FAULT_N is high impedance in sleep; R35: low until start-up completes. -/
theorem test_fault_pin : (State.reset.withChip fun c => { c with phase := .asleep }).pin .faultN = .z ∧
    (State.reset.withChip fun c => { c with phase := .starting }).pin .faultN = .low := by decide
/-- R6, Table LE-5: a bank word that the slot's type does not use reads 0. -/
theorem test_reserved_word : after (.writeReg (cmd 0 0 [slotB 0 1 + 0x11028, 5])) (up.put (slotB 0 1) F.LEN_CFG_TYPE 1)
    (fun t => spi t == [(0, 0, [])] && t.rdWord (slotB 0 1 + 0x11028) == 0) = true := by decide +kernel
/-- R4: an s48 difference wraps. -/
theorem test_wrap48 : wrap48 (2 ^ 47) = -(2 ^ 47) := by decide

/-- R7, R361: a doorbell bit set in the clock of the write of 1 that clears it stays; in a later clock it is cleared. -/
theorem test_same_clock : after (.dblRing (cmd 0 0 [0, 6])) up (fun t =>
    after (.registerWrite 0x2000C 2) t (fun u => u.get 0 F.MBX_DBL_DBL == 6) &&
    after (.registerWrite 0x2000C 2) { t with time := 1 } (fun u => u.get 0 F.MBX_DBL_DBL == 4)) = true := by decide +kernel
/-- R426: the code of Test-Logic-Reset's instruction, of the CX9440. -/
theorem test_idcode : State.reset.idcode = 0x294409C7 := by decide
/-- R189, R195: a soft overcurrent below OC_N does not change the cause of the clock's record. -/
theorem test_oc_same_clock : after (.ocSoftTrip 0 1 false) (stn 6 [(H.gcT, 1), (F.GC_OC_OC_N, 2)])
    (fun t => t.get (stnB 0) H.ocRun == 1 && t.get (stnB 0) F.GC_FAULT_CAUSE == 0) = true := by decide +kernel

/-! ### What the hypotheses of each statement admit -/

theorem wit_StepRunsFront : ({ up with pending := [.vgdUv, .powerFailWarning] } : State).pending = .vgdUv :: [.powerFailWarning] := rfl
theorem wit_StepIdles : up.pending = [] ∧ up.chip.phase ∈ [Phase.starting, .restricted, .running, .sleepEntry, .resetFlush] ∧
    State.reset.pending = [] ∧ State.reset.chip.phase = .off ∧
    (let s := { up with chip := { up.chip with phase := .shutdown }, log := { up.log with flush := some .shutdown } }
     s.pending = [] ∧ s.chip.phase = .shutdown ∧ s.log.flush.isSome = true) := by decide

/-- `up` meets the invariant. -/
theorem up_sound : up.Sound :=
  ⟨by unfold Sparse.wf; decide, by unfold Sparse.wf; decide,
   ⟨by unfold Sparse.wf; decide, by unfold Sparse.wf; decide, by unfold Sparse.wf; decide, by decide⟩,
   by decide, by unfold Port.Bounded; decide, by decide⟩

theorem wit_StepKeepsSound : up.Sound ∧ ∃ t, step { up with pending := [.vgdSettled] } = .next t := ⟨up_sound, _, rfl⟩
theorem wit_StepKeepsLasting : ∃ t, step { up with cfg := { up.cfg with sealMark := true }, pending := [.vgdSettled] } = .next t := ⟨_, rfl⟩
theorem wit_QueueRuns : (∃ t, exec .vgdSettled up = .next t) ∧
    ∃ t, Host.Core.run Sys2Proof.core 2 { up with pending := [.vgdSettled, .recorderBucketRefill] } = .next t := ⟨⟨_, rfl⟩, ⟨_, rfl⟩⟩
theorem wit_DieShutdownLatched :
    (let s := up.withChip fun c => { c with dieLatch := true }
     s.chip.dieLatch = true ∧ Instr.vgdUv ≠ .shutdownLatchClear ∧ ∃ t, exec .vgdUv s = .next t) ∧
    (let s := State.reset.withChip fun c => { c with dieLatch := true }
     s.chip.phase = .off ∧ s.chip.dieLatch = true) := ⟨⟨rfl, by decide, _, rfl⟩, rfl, rfl⟩
theorem wit_TimeNeverFalls : (∃ t, exec .vgdUv up = .next t) ∧ (∃ t, exec (.powerOn ⟨2, 2, 3, false, false⟩) State.reset = .next t) ∧ State.reset.chip.phase = .off ∧ State.reset.chip.dieLatch = false ∧
    State.reset.chip.resetLow = false ∧ State.reset.chip.tapHold = false ∧ State.reset.chip.fuseA.isSome = true :=
  ⟨⟨_, rfl⟩, ⟨_, rfl⟩, by decide⟩

theorem wit_PacketCrc : 2 + lengthOf (([0x01000004, 0, 7, 9] : List Nat).getD 0 0) / 4 < 4 ∧ 2 + lengthOf (([0, 0, 9] : List Nat).getD 0 0) / 4 < 3 := by
  decide
set_option maxRecDepth 4000 in
theorem wit_FirstFailureAnswers :
    State.reset.hears (cmd 0 0 []).tr = false ∧ up.hears (cmd 0 0 []).tr = true ∧
    (up.withMil fun m => { m with uartBad := true }).hears .uart = false ∧
    255 < ({ cmd 0 0 [] with payload := List.replicate 256 0 } : Cmd).len ∧ (cmd 0 0 []).len ≤ 255 ∧
    (cmd 8 0 []).scope ≠ 7 ∧ up.firstFail opEcho (cmd 8 0 []) = some (0x13, 0) ∧
    ((up.occupy (cmd 0 0 []) 0x23 0).refresh .spi).tagBusy (cmd 7 0 []).tag.toNat = true ∧
    (up.occupy (cmd 0 0 []) 0x23 0).firstFail opEcho (cmd 7 0 []) = some (0x15, 0) := by decide
theorem wit_OutboundPackets : PortOf .spi 0 ∧ PortOf (.can 3) 5 ∧ (up.port 0).level .reject < 16 ∧
    16 ≤ ((up.withPort 0 fun q => { q with out := List.replicate 16 (.reject, rejection (cmd 0 0 []) 1 0x10 0) }).port 0).level .reject ∧
    bitN (up.nat 0 F.MIL_EVT_CFG_TYPE_EN) 3 = false ∧ (up.port 6).level .notice < 32 ∧
    32 ≤ ((up.withPort 6 fun q => { q with out := List.replicate 32 (.notice, rejection (cmd 0 0 []) 1 0x10 0) }).port 6).level .notice := by
  refine ⟨rfl, rfl, ?_⟩; decide +kernel
theorem wit_TagLifetime : PortOf (cmd 2 0 []).tr 0 ∧ up.tagBusy (cmd 2 0 []).tag.toNat = false ∧
    ∃ b ∈ (up.begin (cmd 2 0 []) 0x23 0).mil.busy, b.tag = (cmd 2 0 []).tag.toNat := ⟨rfl, by decide, by decide⟩
theorem wit_ForwardedCommands :
    let c := cmd 7 1 [0x00010000, 0, 0x12345678]
    let s := ring
    s.hears c.tr = true ∧ c.len ≤ 255 ∧ c.scope = 7 ∧ (s.refresh c.tr).tagBusy c.tag.toNat = false ∧
    (cmd 7 4 []).ix ≠ s.ownPos ∧ s.ringN ≤ (cmd 7 4 []).ix ∧
    c.rsv = 0 ∧ c.ix < 8 ∧ c.ix < (s.refresh c.tr).ringN ∧ c.ix ≠ (s.refresh c.tr).ownPos ∧ (s.refresh c.tr).restricted = false ∧
    (s.refresh c.tr).noPath = false ∧ ((s.put 0 F.HBD_PUB_MBX_WIN 0).refresh c.tr).noPath = true ∧ (cmd 7 1 [0, 0]).len < 3 ∧
    3 ≤ c.len ∧ 4 * c.len = 12 + lengthOf ((c.wordsFrom 0).getD 0 0) ∧ (s.refresh c.tr).reaches c.ix = true ∧
    ((s.put 0 F.HBD_STAT_REACH 1).refresh c.tr).reaches c.ix = false ∧
    (∀ b ∈ (s.refresh c.tr).mil.busy, b.index ≠ c.index.toNat ∨ b.fwd = none) ∧
    (cmd 7 0 []).ix = (s.refresh c.tr).ownPos := by decide

/-- `up` with the key held and an empty image in the staging area. -/
def keyed : State := { up.put 0 F.CHIP_PINS_PRES_VALID 1 with cfg := { up.cfg with staging := emptyImage } }

theorem wit_ReadingCommands :
    up.admits opEcho (cmd 0 0 [1]) = true ∧ up.admits opIdentify (cmd 0 0 []) = true ∧ up.admits opReadReg (cmd 0 0 [0, 2]) = true ∧
    up.admits opSnapshot (cmd 0 0 [0, 4]) = true ∧ up.admits opSnapshot (cmd 0 0 [1]) = true ∧
    (up.withMil fun m => { m with snap := some (1, 2, 3, 4, [5]) }).mil.snap = some (1, 2, 3, 4, [5]) ∧
    up.admits opCfgRead (cmd 0 0 [2, 0x1FFFC, 1]) = true ∧ up.admits opRecRead (cmd 0 0 [1, 0, 7]) = true ∧
    up.admits opFaultRead (cmd 2 3 [0, 63]) = true ∧ up.admits opCanFetch (cmd 5 0 [63, 12]) = true ∧
    up.admits opMbxFetch (cmd 0 0 [0, 254]) = true := by decide
theorem wit_ReadingCommands_plain :
    PortOf (cmd 0 0 []).tr 0 ∧ (up.hears .spi = true ∧ (cmd 0 0 [0, 2]).len ≤ 255 ∧ (cmd 0 0 []).rsv = 0 ∧ (up.refresh .spi).tagBusy 5 = false ∧
    (cmd 0 0 []).scope = 0 ∧ (cmd 0 0 []).ix = 0 ∧ (cmd 0 0 []).len = 0 ∧
    (cmd 0 0 [0, 2]).len = 2 ∧ (State.addrsFrom 0 2).all (fun a => a % 4 == 0 && (regionAt a).isSome && up.addrRuns a) = true ∧
    (cmd 0 0 [0, 4]).word 0 = 0 ∧ (4 % 4 == 0 && (regionAt 4).isSome) = true ∧
    (up.withMil fun m => { m with snap := some (1, 2, 3, 4, [5]) }).mil.snap = some (1, 2, 3, 4, [5]) ∧
    up.restricted = false ∧ (cmd 0 0 [1, 0, 7]).word 0 ≤ 1 ∧ (cmd 0 0 [0, 254]).word 0 = up.ownPos ∧ (cmd 0 0 [0, 254]).word 0 < up.ringN ∧
    ring.hatOn = true ∧ ring.get 0 F.HBD_PUB_MBX_WIN ≠ 0 ∧ 3 < ring.ringN ∧
    (cmd 5 0 [63, 12]).scope = 5 ∧ up.canPresent 0 = true ∧ up.halfDown (0 % 2) = false ∧ up.nat (canB 0) F.CAN_PART_RX_SVC ≤ 63 ∧
    (cmd 2 3 [0, 63]).scope.toNat ≤ 5 ∧ up.targetOk (cmd 2 3 [0, 63]) = true ∧ up.ownerDown (cmd 2 3 [0, 63]) = false) := ⟨rfl, by decide +kernel⟩

theorem wit_RegisterWrites :
    R.chipRegs.any (fun d => d.words == 1 && d.flds.any fun f => f.acc == .rw) = true ∧
    registerMap.any (fun d => d.words == 1 && d.flds.any fun f => f.acc == .rc) = true ∧
    registerMap.any (fun d => d.words == 1 && d.flds.any fun f => f.acc == .w1c) = true ∧
    registerMap.any (fun d => d.words == 2 && (match d.flds with
      | [f] => (f.acc == .rw || f.acc == .wk || f.acc == .ws) && !up.obsAcc (stnB 0) f.f | _ => false)) = true := by decide +kernel
theorem wit_WriteRows :
    ((regionAt 0x10004).isSome = true ∧ up.addrRuns 0x10004 = true ∧ up.writeCheck 0x10004 [5] = none) ∧
    (up.writeCheck (stnB 0 + 0x2004) [1, 0]).isSome = true ∧ (up.takeDownHalf 0 .restarting 0x30).addrRuns (stnB 0 + 0x5028) = false ∧
    (regionAt 0x5000000).isNone = true := by decide +kernel
theorem wit_WriteRows_generic :
    ((findReg 0x10010).any fun x => x.d.area == .abs && x.d.words == 1 && x.d.off == 0x10010) = true ∧ (regionAt 0x10010).isSome = true ∧
    up.addrRuns 0x10010 = true ∧ up.writeCheck 0x10010 [3] = none ∧ up.cfg.sealMark = false := by decide +kernel
theorem wit_WriteRows_station :
    up.stnPresent 0 = true ∧ up.regionRun 1 = true ∧ up.mode 0 ∈ [0, 1, 2] ∧
    up.get (stnB 0) F.PF_LIM_LO_LIM_LO ≤ F.PF_POS_POS.wrap 5 ∧ F.PF_POS_POS.wrap 5 ≤ up.get (stnB 0) F.PF_LIM_HI_LIM_HI ∧
    up.writeCheck (stnB 0 + 0x5000) [260] = none ∧ (axs 1 []).axSt 0 = 1 ∧ up.writeCheck (stnB 0 + 0x2004) [10000, 0] = none := by decide +kernel
theorem wit_WriteRows_rest :
    keyed.shRun = true ∧ keyed.writeCheck 0x60000 [State.mergeWord (keyed.rdWord 0x60000) 15 3] = none ∧ up.writeCheck 0x10004 [5] = none ∧
    up.halfPresent 1 = true ∧ up.regionRun 2 = true ∧ up.writeCheck (slotB 1 47 + 0x11000) [0x10001] = none ∧
    up.obsAcc (slotB 1 47) F.LEN_ACC_ACC = false ∧ up.writeCheck (slotB 1 47 + 0x11030) (u64Words 5) = none ∧
    up.canPresent 0 = true ∧ up.on (canB 0) F.CAN_CTRL_EN = false ∧ up.writeCheck (canB 0) [State.mergeWord (up.rdWord (canB 0)) 1 1] = none ∧
    (can []).txNext 0 = none ∧ (((can []).withCan 0 fun q => { q with tx := [{ ix := 31, fr := frame 1 [] }] }).txNext 0).isSome = true ∧
    (can []).on (canB 0) F.CAN_CTRL_EN = true ∧ (can []).writeCheck (canB 0) [State.mergeWord ((can []).rdWord (canB 0)) 1 0] = none ∧
    ring.writeCheck 0x50000 [State.mergeWord (ring.rdWord 0x50000) 1 0] = none ∧ ring.on 0 F.HBD_CTRL_EN = true ∧
    (let s := up.put (recT 15) F.REC_TCFG_EN 1
     s.trigOn 15 = true ∧ s.log.flush = none ∧ s.log.fifo.length < 32 ∧ s.log.staging.any (State.repeats 15 0 7) = false) := by decide +kernel
theorem wit_ArmedTimebaseKept :
    let s := up.put (State.ascB 1 3 7) F.ASC_SST_ARMED 1
    s.alive = true ∧ s.halfRun 1 = true ∧ s.halfPresent 1 = true ∧ s.on (State.ascB 1 3 7) F.ASC_SST_ARMED = true ∧
    (cmd 0 0 [halfB 1 + 0xA000C, 0]).len = 2 ∧ (cmd 0 0 [halfB 1 + 0xA000C, 0]).word 0 = halfB 1 + 0xA0000 + 4 * 3 := by decide

/-- `up` with a commit under way. -/
def committing (ok : Bool) : State :=
  { up with cfg := { up.cfg with commit := some { image := [], target := 0, sealing := false, tag := 9, seq := 1, keyed := ok, felt := false } } }

theorem wit_CommitRunning :
    let s := committing false
    s.cfg.commit.isSome = true ∧ s.hears .spi = true ∧ (s.refresh .spi).targetOk (cmd 0 0 []) = true ∧
    (s.refresh .spi).tagBusy 5 = false ∧ (cmd 0 0 [0, 0x40, 1]).word 0 = (if (s.refresh .spi).on 0 F.CHIP_STATUS_CFG_VALID then 1 else 0) ∧
    0 = (s.refresh .spi).commitTarget ∧ s.admits opCfgRead (cmd 0 0 [0, 0x40, 1]) = true := by decide
theorem wit_StagedAndLoadedWords : up.admits opCfgStage (cmd 0 0 [0x3000, 1, 2]) = true ∧ up.admits opTableLoad (cmd 0 0 [0x600, 63, 0]) = true ∧
    State.loadTable (cmd 0 0 [0x600, 63, 0]) = some (6, 0, ⟨64, 0x8400, 0⟩) := by decide +kernel
theorem wit_CommitAndSeal : up.admits opCfgCommit (cmd 0 0 []) = true ∧ keyed.admits opCfgSeal (cmd 0 0 [0x5EA1]) = true ∧
    (committing true).cfg.commit.any (!·.felt) = true ∧ up.feltWaits = false ∧ (up.setOos .recorder true).feltWaits = true ∧
    up.commitFault emptyImage = none ∧ up.commitFault (imgSet emptyImage 0x40 1) = some (3 * 8192) := by decide +kernel
theorem wit_ChipCommands :
    up.admits opWriteReg (cmd 0 0 [0x10004, 5]) = true ∧ up.admits opModifyReg (cmd 0 0 [0x10004, 15, 5]) = true ∧
    up.admits opResetRegion (cmd 1 0 []) = true ∧ up.admits opResetRegion (cmd 1 2 []) = true ∧ up.admits opSelftest (cmd 2 0 []) = true ∧
    up.admits opFaultClear (cmd 2 0 [0]) = true ∧ up.admits opMastership (cmd 0 0 [0]) = true ∧ up.admits opMastership (cmd 0 0 [1]) = true ∧
    keyed.admits opShareCfg (cmd 0 0 [7, 0, 0]) = true ∧ State.shareMembers (cmd 0 0 [7, 0, 0]) = some [] ∧
    (keyed.shareRestage 7 0 []).isSome = true ∧ keyed.admits opRecTriggerCfg (cmd 0 0 [15, 1, 1, 4]) = true ∧ (keyed.trigRestage 15 1 0 [4]).isSome = true ∧
    up.admits opMbxPost (cmd 0 0 [0, 1]) = true ∧ up.admits opDblRing (cmd 0 0 [0, 1]) = true ∧ (cmd 0 0 [0, 1]).word 0 = up.ownPos ∧
    ring.admits opDblRing (cmd 0 0 [3, 0xFFFFFF]) = true ∧ (cmd 0 0 [3, 0xFFFFFF]).word 0 ≠ ring.ownPos := by decide +kernel
theorem wit_SleepAndTestOutputs : up.admits opSleep (cmd 0 0 [0]) = true ∧ keyed.admits opTestmux (cmd 0 0 [0x05, 0x29, 0]) = true := by decide

theorem wit_StationStates : opStnArm.check (up.put (halfB 0) F.BGD_CTRL_PRE_EN 0) (cmd 2 0 []) = none ∧
    opStnStop.check up (cmd 2 0 [3]) = none ∧ opStnDiag.check up (cmd 2 0 [0]) = none ∧ opStnSizing.check up (cmd 2 0 [0]) = none ∧
    (up.put (halfB 0) F.BGD_CTRL_PRE_EN 0).admits opStnArm (cmd 2 0 []) = true := by decide
theorem wit_StationStates_run : opStnRun.check (stn 2 [(F.COM_STAT_OFS_VALID, 1), (F.GC_CTRL_PSRC, 1)]) (cmd 2 0 [0]) = none ∧
    opStnSetpoint.check (stn 3 []) (cmd 2 0 [0, 100, 0]) = none := by decide
theorem wit_SetpointTaken : (stn 3 []).admits opStnSetpoint (cmd 2 0 [0, 100, 0]) = true ∧ ((stn 3 []).refresh .spi).mode 0 = 3 ∧
    (stn 2 []).admits opStnSetpoint (cmd 2 0 [1, 100, 0]) = true ∧ ((stn 2 []).refresh .spi).mode 0 = 2 ∧ PortOf (cmd 2 0 []).tr 0 ∧
    0 ≤ 2048 * up.get (halfB 0) F.BGD_ILIM_ILIM0 ∧ 0 ≤ 2048 * up.get (stnB 0) F.STN_WMAX_W_MAX ∧
    up.get (stnB 0) F.PF_LIM_LO_LIM_LO ≤ up.get (stnB 0) F.PF_LIM_HI_LIM_HI := ⟨by decide, by decide, by decide, by decide, rfl, by decide⟩
theorem wit_StationCommands :
    up.mode 0 = 0 ∧ up.admits opStnStop (cmd 2 0 [3]) = true ∧ (stn 3 []).mode 0 ≠ 0 ∧ (stn 3 []).admits opStnStop (cmd 2 0 [0]) = true ∧
    (stn 2 [(F.COM_STAT_OFS_VALID, 1), (F.GC_CTRL_PSRC, 1)]).admits opStnRun (cmd 2 0 [0x77]) = true ∧
    (stn 2 [(F.COM_STAT_OFS_VALID, 1), (F.COM_CTRL_LAW, 2)]).admits opStnRun (cmd 2 0 [0]) = true ∧
    (stn 2 []).get (stnB 0) F.GC_CTRL_PSRC = 0 ∧ up.admits opStnDiag (cmd 2 0 [0]) = true ∧
    (up.puts (stnB 0) [(F.PF_CTRL_MODE, 1)]).admits opStnSizing (cmd 2 0 [7 % 2]) = true ∧ up.admits opStnSizing (cmd 2 0 [0]) = true := by decide
theorem wit_StationCommands_slots :
    (up.puts (slotB 1 47) [(F.LEN_CFG_TYPE, 1), (F.LEN_CFG_GROUP, 15)]).admits opBankSwap (cmd 6 2 [15]) = true ∧
    (up.puts (halfB 0) [(F.ASC_TB_SEL_SRC, 2)]).admits opEvtArm (cmd 2 0 [7, 0, 0, 0, 0]) = true ∧
    up.admits opEvtCancel (cmd 3 3 [7]) = true := by decide

theorem wit_AxisCommands :
    (axs 1 []).admits opAxisMove (cmd 3 0 [5, 0, 1000, 1, 1, 0]) = true ∧ bitN ((cmd 3 0 [5, 0, 1000, 1, 1, 0]).word 5) 1 = false ∧
    bitN ((cmd 3 0 [5, 0, 1000, 1, 1, 0]).word 5) 0 = false ∧ (axs 2 []).admits opAxisRetarget (cmd 3 0 [5, 0, 1000, 1, 1, 0]) = true ∧
    (axs 2 []).admits opAxisStop (cmd 3 0 []) = true ∧ ((axs 2 [(H.axV, 100)]).axArrive 0).axSt 0 ∈ [2, 3, 4, 5] ∧ ((axs 1 []).axArrive 0).axSt 0 ∉ [2, 3, 4, 5] ∧
    (axs 1 []).admits opAxisGroup (cmd 0 0 [1, 1000, 1, 1, 0, 9, 0]) = true ∧
    State.groupLen ((axs 1 []).groupMoves (cmd 0 0 [1, 1000, 1, 1, 0, 9, 0])) ≠ 0 ∧
    State.groupLen ((axs 1 []).groupMoves (cmd 0 0 [1, 1000, 1, 1, 0, 0, 0])) = 0 ∧
    (axs 1 []).admits opAxisFollow (cmd 3 0 [1, 1, 1, 1]) = true := by decide
theorem wit_ServiceCommands :
    let s := (stn 3 [])
    s.svcLive 0 = false ∧ s.admits opSvcStart (cmd 0 0 [6, 1, 8, 7]) = true ∧
    (up.put (svcB 15) F.SVC_STAT_SERVICE 6).admits opSvcParam (cmd 0 0 [15, 14, 32768]) = true ∧ ((up.put (svcB 0) F.SVC_STAT_SERVICE 2).svcLive 0 = true) ∧
    (up.put (svcB 15) F.SVC_STAT_SERVICE 2).admits opSvcStop (cmd 0 0 [15, 0]) = true := by decide
set_option maxRecDepth 8000 in
theorem wit_CanCommands :
    (can [(F.CAN_STAT_ERRSTATE, 2)]).admits opCanRecover (cmd 5 0 []) = true ∧
    (can []).admits opTimeMaster (cmd 5 0 [0, 7, 1000000]) = true ∧
    (can [(F.CAN_CTRL_TM_EN, 1)]).admits opTimeMaster (cmd 5 0 [1, 0, 1000]) = true ∧
    (can []).admits opCanSend (cmd 5 0 [0x7FF, 0]) = true ∧ (can []).txFree 0 ≠ [] ∧
    up.admits opCanCfg (cmd 5 0 ([0] ++ (List.range 8).map (fun k => up.rdWord (canB 0 + 4 + 4 * k)) ++ [0])) = true ∧
    (({ up with can := up.can.setIfInBounds 0 { CanS.zero with rx := [{ ix := 63, fr := frame 1 [], flt := 0, tick := 0 }] } } : State)).admits
      opCanAck (cmd 5 0 [63, 1]) = true := by decide
theorem wit_SupplyEvents : up.alive = true ∧ up.shRun = true ∧ up.chip.phase ≠ .off ∧ up.chip.phase ≠ .asleep ∧
    up.chip.phase ∈ [Phase.starting, .restricted, .running, .sleepEntry, .reset, .resetFlush] ∧ State.reset.chip.phase = .off ∧
    (committing true).cfg.commit.any (·.keyed) = true ∧ (committing false).cfg.commit.any (·.keyed) = false := by decide
set_option maxRecDepth 4000 in
theorem wit_StartBegins :
    State.reset.fusePart = some (.cx9440, false) ∧ State.reset.chip.phase = .off ∧ State.reset.chip.dieLatch = false ∧
    State.reset.chip.resetLow = false ∧ State.reset.chip.tapHold = false ∧
    (State.reset.withChip fun c => { c with phase := .asleep }).wakeArmed .c1Edge = true ∧
    (State.reset.withChip fun c => { c with phase := .reset, resetLow := true }).chip.resetLow = true ∧ (6 : BitVec 8) ∉ [(3 : BitVec 8), 4, 5] ∧
    (State.reset.withLog fun l => { l with flush := some .reset }).log.flush = some .reset := by decide
set_option maxRecDepth 4000 in
theorem wit_StartProceeds :
    (State.reset.withChip fun c => { c with fuseA := none, fuseB := none }).chip.fuseA = none ∧
    (up.withChip fun c => { c with phase := .sleepEntry }).wakeArmed (.pin true) = true ∧ up.chip.phase ∉ [Phase.asleep, .sleepEntry] ∧
    (State.reset.withChip fun c => { c with phase := .starting }).chip.phase = .starting ∧ up.dual = true ∧
    (State.reset.withChip fun c => { c with phase := .restricted }).chip.phase = .restricted := by decide
theorem wit_FuseCopies : State.reset.chip.fuseA = some .cx9440 ∧ State.reset.chip.fuseB = some .cx9440 ∧
    (State.reset.withChip fun c => { c with fuseB := none }).chip.fuseB = none ∧ State.reset.chip.grade.1 = State.reset.chip.grade.2 := by decide
theorem wit_ResetBegins : up.chip.phase ∈ [Phase.starting, .restricted, .running, .sleepEntry] ∧ (5 : BitVec 8) ∈ [(3 : BitVec 8), 4, 5] ∧
    (6 : BitVec 8) ∉ [(3 : BitVec 8), 4, 5] ∧ up.alive = true ∧ up.chip.phase ∉ [Phase.off, .asleep, .reset] ∧
    State.reset.chip.phase ∉ [Phase.starting, .restricted, .running, .sleepEntry] := by decide
theorem wit_PowerFailAndFlush : up.chip.phase = .running ∧ up.on 0 F.CHIP_PWR_STAT_PFW = false ∧ up.log.flush = none ∧
    up.on 0 F.CHIP_PWR_CTRL_PFW_STOP = false ∧ (up.put 0 F.CHIP_PWR_CTRL_PFW_STOP 1).on 0 F.CHIP_PWR_CTRL_PFW_STOP = true ∧
    up.oos .recorder = false ∧ (up.withChip fun c => { c with phase := .sleepEntry, resetLow := true }).chip.wakePend = none := by decide
theorem wit_ClockAndGateSupply : up.alive = true ∧ up.halfPresent (2 - 1) = true ∧ bitN (up.nat 0 F.CHIP_STATUS_CLK_FB) 2 = false ∧
    bitN ((up.put 0 F.CHIP_STATUS_CLK_FB 7).nat 0 F.CHIP_STATUS_CLK_FB) 2 = true ∧ (up.put 0 F.CHIP_CLK_CTRL_FB_RETURN 0).on 0 F.CHIP_CLK_CTRL_FB_RETURN = false ∧
    (up.put 0 F.CHIP_CLK_CTRL_FB_RETURN 1).on 0 F.CHIP_CLK_CTRL_FB_RETURN = true ∧ up.ringClock = true ∧ up.chip.phase ≠ .restricted ∧
    bitN (up.nat 0 H.refBad) 2 = false ∧ bitN ((up.put 0 H.refBad 4).nat 0 H.refBad) 2 = true ∧
    (up.put 0 F.CHIP_STATUS_CLK_FB 7).ringClock = false := by decide

/-- `up` with a reply of 12 bytes waiting on SPI and UART. -/
def replying : State :=
  (up.withPort 0 fun q => { q with out := [(.reply, rejection (cmd 0 0 []) 1 0 0)] }).withPort 1 fun q =>
    { q with out := [(.reply, rejection (cmd 0 0 []) 1 0 0)] }

theorem wit_PacketsArrive :
    up.portsUp = true ∧ up.oos .spi = false ∧ ((replying.markHead 0).port 0).out ≠ [] ∧ (rejection (cmd 0 0 []) 1 0 0).bytes.length = 12 ∧
    (List.replicate 4 (0 : Byte)).all (· == 0) = true ∧ ((up.markHead 0).port 0).out = [] ∧ (up.markHead 0).takes .spi = true ∧
    up.takes .uart = true ∧ up.mil.uartBad = false ∧ up.oos .uart = false ∧ up.on 0 H.shRst = false ∧ ((replying.markHead 1).port 1).out ≠ [] ∧
    (can [(F.CAN_CTRL_TUN_EN, 1)]).takes (.can 0) = true ∧ up.shRun = true ∧
    (((up.withMil fun m => { m with tun := m.tun.set 0 (some ⟨5, 1, [], false⟩) }).tunAsm 0).any fun a => !a.dead) = true ∧
    (((up.withMil fun m => { m with tun := m.tun.set 0 (some ⟨5, 1, [], true⟩) }).tunAsm 0).any fun a => a.dead) = true ∧
    (can [(F.CAN_CTRL_TUN_EN, 1)]).tunAsm 0 = none ∧ 2 ≤ ([192, 9] : List Byte).length := by decide +kernel
theorem wit_PacketsArrive_served : up.canServes 3 ∧ (can []).canOn 0 = true ∧ (can []).on (canB 0) F.CAN_CTRL_LBK = false ∧
    (can []).get (canB 0) H.cnFin ≠ 1 ∧ up.canOn 3 = false ∧ (can [(F.CAN_CTRL_LBK, 1)]).on (canB 0) F.CAN_CTRL_LBK = true :=
  ⟨⟨by decide, by decide⟩, by decide⟩
theorem wit_PacketsArrive_checks :
    (let bs : List Byte := List.replicate 12 0
     8 ≤ bs.length ∧ lengthOf ((wordsOf bs).getD 0 0) = 0 ∧ 12 + 0 ≤ bs.length ∧ crcOk (wordsOf bs) = false) ∧
    (let bs : List Byte := List.replicate 11 0
     8 ≤ bs.length ∧ bs.length < 12 + lengthOf ((wordsOf bs).getD 0 0)) ∧
    (let bs := ({ rejection (cmd 0 0 []) 1 0 0 with cls := 0 } : Packet).bytes
     8 ≤ bs.length ∧ crcOk (wordsOf bs) = true ∧ classOf ((wordsOf bs).getD 0 0) = 0) ∧
    (let bs := (rejection (cmd 0 0 []) 1 0 0).bytes
     crcOk (wordsOf bs) = true ∧ classOf ((wordsOf bs).getD 0 0) ≠ 0) := by decide +kernel

/-- The words of a reply packet. -/
def replyWords (cls st : Nat) : List Word := ({ rejection (cmd 0 0 []) 1 st 0 with cls := cls } : Packet).words.map (BitVec.ofNat 32)

theorem wit_WaitsAndHosts :
    (let s := up.occupy (cmd 2 0 []) 0x23 0
     s.shRun = true ∧ (s.mil.busy.find? fun x => x.tag == 5 && x.fwd == none).any (fun b => [0x09, 0x23, 0x42].contains b.op) = true) ∧
    (up.mil.busy.find? fun x => x.tag == 5 && x.fwd == none) = none ∧
    (let s := ring.occupyFwd (cmd 7 1 []) 1 1
     (s.mil.busy.find? fun x => x.tag == 5 && x.fwd.isSome).isSome = true ∧ 1 ≠ s.ownPos ∧ s.reaches 1 = true ∧
     (s.put 0 F.HBD_STAT_REACH 1).reaches 1 = false ∧ crcOk (natsOf (replyWords 1 0)) = true ∧
     (s.mil.busy.find? fun x => x.tag == (State.packetOf (natsOf (replyWords 1 0))).tag && x.fwd == some 1).isSome = true ∧
     (State.packetOf (natsOf (replyWords 2 0))).cls ≠ 1 ∧ (State.packetOf (natsOf (replyWords 1 1))).cls = 1 ∧
     (s.mil.busy.find? fun x => x.tag == 5 && x.fwd.isSome).any (fun b => b.fwd == some 1 && b.late == [] && b.arg == 0) = true ∧
     (State.packetOf (natsOf (replyWords 1 1))).status = 1 ∧ crcOk (natsOf [0, 0, 0]) = false) ∧
    (ring.hatOn = true ∧ ring.alive = true) ∧
    (let s := (up.put 0 F.MIL_HOST_WD_TIMEOUT_MS 5).withMil fun m => { m with wdArmed := true }
     s.alive = true ∧ s.shRun = true ∧ s.mil.wdArmed = true ∧ s.on 0 F.MIL_HOST_WD_TIMEOUT_MS = true ∧
     (s.put 0 H.wdStart 7).get 0 H.wdStart ≠ (s.time : Int) ∧ s.get 0 H.wdStart = (s.time : Int)) ∧ up.mil.wdArmed = false := by decide +kernel
theorem wit_WaitsAndHosts_replied :
    let q : Packet := { rejection (cmd 0 0 []) 1 1 0 with tag := 5 }
    let s := (ring.occupyFwd (cmd 7 1 []) 1 1).withMil fun m => { m with busy := m.busy.map fun b => { b with late := [q] } }
    let t := (ring.occupyFwd (cmd 7 1 []) 1 1).withMil fun m => { m with busy := m.busy.map fun b => { b with arg := 1 } }
    (s.mil.busy.find? fun x => x.tag == 5 && x.fwd == some 1).any (fun b => !b.late.any Packet.final && b.late != []) = true ∧
    (s.mil.busy.find? fun x => x.tag == 5 && x.fwd == some 1).any (fun b => ({ b with late := [{ q with status := 0 }] } : Busy).late.any Packet.final) = true ∧
    (t.mil.busy.find? fun x => x.tag == 5 && x.fwd == some 1).any (fun b => b.arg == 1 && !b.late.any Packet.final) = true := by decide
theorem wit_WaitsAndHosts_inner :
    let c := cmdOf (.ring 1 ⟨0, 0, false, false, 0⟩) (natsOf [0x0001000C, 0, 0x00010000, 0, 0x12345678, 0])
    3 ≤ c.len ∧ 4 * c.len = 12 + lengthOf ((c.wordsFrom 0).getD 0 0) := by decide
/-- Station `n` of a running chip is served. -/
theorem served : up.stnServes 0 ∧ up.stnServes 3 ∧ (stn 3 []).stnServes 0 ∧ (stn 0 []).stnServes 0 ∧ (stn 4 []).stnServes 0 :=
  ⟨⟨by decide, by decide⟩, ⟨by decide, by decide⟩, ⟨by decide, by decide⟩, ⟨by decide, by decide⟩, by decide, by decide⟩

theorem wit_PositionRows :
    (let s := stn 3 [(F.PF_CTRL_MODE, 3)]
     (s.stnLive 0 && !s.oos (.stn 0)) = true ∧ s.get (stnB 0) F.PF_CTRL_SRC = 0 ∧ s.get (stnB 0) F.PF_CTRL_MODE ∈ [1, 3] ∧ s.on (stnB 0) H.pfFlt = false) ∧
    (let s := stn 3 [(F.PF_CTRL_MODE, 2)]
     s.get (stnB 0) F.PF_CTRL_MODE ∉ [1, 3] ∧ s.get (stnB 0) F.PF_CTRL_MODE = 2 ∧
     (0x8000 : BitVec 16).toNat = (s.nat (stnB 0) F.PF_RES_RES_PHASE + (if true then 32768 else 0)) % 65536 ∧
     (0 : BitVec 16).toNat ≠ (s.nat (stnB 0) F.PF_RES_RES_PHASE + (if true then 32768 else 0)) % 65536) ∧
    (let s := stn 3 [(F.PF_CTRL_MODE, 1)]
     s.get (stnB 0) F.PF_CTRL_MODE = 1 ∧ s.mode 0 ≠ 1 ∧ s.on (stnB 0) F.PF_STAT_VALID = false ∧ s.on (stnB 0) H.pfAcq = false ∧
     s.on (stnB 0) H.psNew = false ∧ (0 : BitVec 16).toNat < s.nat (stnB 0) F.PF_CTRL_FLT_N ∧ s.nat (stnB 0) F.PF_CTRL_FLT_N ≤ (1 : BitVec 16).toNat) ∧
    (let s := stn 3 [(F.PF_CTRL_MODE, 2), (H.pfLast, 1000)]
     s.on (stnB 0) H.pfFlt = false ∧ (0 : Int) < ((1199 : BitVec 64).toNat : Int) - s.get (stnB 0) H.pfLast ∧
     ((1199 : BitVec 64).toNat : Int) - s.get (stnB 0) H.pfLast < 200 ∧ ((1200 : BitVec 64).toNat : Int) - s.get (stnB 0) H.pfLast = 200 ∧
     ((1399 : BitVec 64).toNat : Int) - s.get (stnB 0) H.pfLast < 400 ∧
     ((1399 : BitVec 64).toNat : Int) - s.get (stnB 0) H.pfLast < 2000 * s.get (stnB 0) F.PF_EXC_EXC_DIV) ∧
    (let s := stn 3 [(F.PF_CTRL_MODE, 1), (F.PF_STAT_VALID, 1)]
     let sn := State.corr 16000 (s.get (stnB 0) F.PF_CAL_SIN_OFS) (s.get (stnB 0) F.PF_CAL_SIN_GAIN)
     let cs := State.corr 16000 (s.get (stnB 0) F.PF_CAL_COS_OFS) (s.get (stnB 0) F.PF_CAL_COS_GAIN)
     let r : Int := isqrt (sn * sn + cs * cs).toNat
     s.on (stnB 0) F.PF_STAT_VALID = true ∧ s.on (stnB 0) F.PF_STAT_COARSE_ONLY = false ∧
     ¬(r * 100 < s.get (stnB 0) F.PF_AMP_CHK_RAD_LO * 24576 ∨ r * 100 > s.get (stnB 0) F.PF_AMP_CHK_RAD_HI * 24576) ∧
     1 ≤ s.get (stnB 0) F.PF_AMP_CHK_RAD_N) ∧
    (stn 3 [(H.pfAcq, 1)]).on (stnB 0) H.pfAcq = true ∧ 0x3F < 64 := by decide +kernel

/-- Lines that stand at 0 for a filter of 2: one line has held, both have at one tick, none has. -/
theorem wit_PositionRows_lines :
    let s := stn 3 [(F.PF_CTRL_MODE, 3), (F.PF_CTRL_FLT_N, 2)]
    let u (la lb : Bool) := (s.lineLevel 0 H.pfRA H.pfTA la 100).lineLevel 0 H.pfRB H.pfTB lb 100
    s.on (stnB 0) H.pfA = false ∧ s.on (stnB 0) H.pfLB = false ∧ s.on (stnB 0) H.pfRA = s.on (stnB 0) H.pfA ∧
    s.on (stnB 0) H.pfRB = s.on (stnB 0) H.pfLB ∧ (1 : BitVec 16).toNat < s.nat (stnB 0) F.PF_CTRL_FLT_N ∧
    (u true false).nat (stnB 0) H.pfTA + 4 * 2 ≤ 100 + 4 * 2 ∧ ¬((u true false).nat (stnB 0) H.pfTA + 4 * 2 ≤ 100 + 4 * 1) ∧
    (u false true).nat (stnB 0) H.pfTB + 4 * 2 ≤ 100 + 4 * 2 ∧ (u true true).nat (stnB 0) H.pfTA = (u true true).nat (stnB 0) H.pfTB := by decide +kernel

/-- What the current loop has before it conducts (`m` of CurrentLoop). -/
def sensed (s : State) (i : CurIn) : State :=
  let r := ((s.advance 400).rephaseStep 0 400 i.valley).put (stnB 0) H.vdcT0 (s.get (halfB 0) H.vdcf)
  let q := ((((r.idleSources 0).sense 0 i).psTake 0).speedUpdate 0 400).formAngle 0
  (((q.put (stnB 0) F.COM_ADV_ADV (q.advance16 0 (q.srcSpeed 0))).transform 0).alignUpdate 0).zvbStart 0

/-- Codes of zero current at a sampling instant after a valley, or a peak. -/
def quiet (valley : Bool) : CurIn := { u := 2048, v := 2048, w := 2048, valley := valley, late := false }

theorem wit_CurrentLoop :
    (stn 0 [(F.CS_CTRL_MODE, 0)]).isUpdate 0 true = false ∧ (stn 0 [(F.CS_CTRL_MODE, 0)]).isUpdate 0 false = true ∧
    (let m := sensed (stn 0 [(F.CS_CTRL_MODE, 0)]) (quiet false)
     m.get (stnB 0) F.GC_CTRL_PSRC = 0 ∧ m.runLike 0 = false ∧ m.mode 0 ≠ 5 ∧ m.driving 0 = false) ∧
    (let m := sensed (stn 1 [(F.CS_CTRL_MODE, 0), (F.PF_SIZ_DRIVE, 1), (H.sizItems, 2), (H.szNow, 2)]) (quiet false)
     m.get (stnB 0) F.GC_CTRL_PSRC = 0 ∧ m.runLike 0 = false ∧ m.mode 0 ≠ 5 ∧ m.driving 0 = true) := by decide +kernel
theorem wit_CurrentLoop_run :
    (let m := sensed (stn 3 [(F.CS_CTRL_MODE, 0)]) (quiet false)
     let y := m.obsLossCheck 0
     let r := if y.on (stnB 0) H.zvb then y else y.startUpdate 0 (y.tUpd 0)
     m.get (stnB 0) F.GC_CTRL_PSRC = 0 ∧ m.runLike 0 = true ∧ r.runLike 0 = true ∧ r.on (stnB 0) H.rotChk = false ∧ r.on (stnB 0) H.revWait = false) ∧
    (let m := sensed (stn 3 [(F.CS_CTRL_MODE, 0), (F.GC_CTRL_PSRC, 1)]) (quiet false)
     m.get (stnB 0) F.GC_CTRL_PSRC ≠ 0 ∧ m.runLike 0 = true) := by decide +kernel
theorem wit_CarrierAndAlignment :
    (stn 3 [(F.CS_CTRL_MODE, 1)]).on (stnB 0) F.CS_CTRL_MODE = true ∧ (stn 3 [(F.CS_CTRL_MODE, 0)]).on (stnB 0) F.CS_CTRL_MODE = false ∧
    up.on (stnB 0) H.syncPend = false ∧ (stn 3 [(H.syncPend, 1)]).on (stnB 0) H.syncPend = true ∧ up.on (stnB 0) F.COM_STAT_ALIGNING = false ∧
    (let s := stn 3 [(F.COM_STAT_ALIGNING, 1), (H.alStep, 1)]
     s.on (stnB 0) F.COM_STAT_ALIGNING = true ∧ s.get (stnB 0) H.alStep = 1) ∧
    (let s := stn 3 [(F.COM_STAT_ALIGNING, 1), (H.alStep, 2), (F.COM_MOTOR_PP, 1), (F.PF_ANGLE_THETA_M, -(2 ^ 30)), (H.alTh2, -(2 ^ 30))]
     let d := wrap32 ((s.get (stnB 0) F.PF_ANGLE_THETA_M - s.get (stnB 0) H.alTh1) * s.get (stnB 0) F.COM_MOTOR_PP)
     let st := wrap32 (s.get (stnB 0) F.PF_ANGLE_THETA_M * s.get (stnB 0) F.COM_MOTOR_PP - s.get (stnB 0) H.alTh2)
     s.get (stnB 0) H.alStep ≠ 1 ∧ -(2 ^ 28) ≤ d + 2 ^ 30 ∧ d + 2 ^ 30 ≤ 2 ^ 28 ∧ -(2 ^ 26) ≤ st ∧ st ≤ 2 ^ 26) ∧
    (let s := stn 3 [(F.COM_STAT_ALIGNING, 1), (H.alStep, 2), (F.COM_MOTOR_PP, 1)]
     2 ^ 28 < wrap32 ((s.get (stnB 0) F.PF_ANGLE_THETA_M - s.get (stnB 0) H.alTh1) * s.get (stnB 0) F.COM_MOTOR_PP) + 2 ^ 30) := by decide
theorem wit_GateTrips :
    (stn 0 [(H.arming, 1), (H.bsChgT, 5)]).on (stnB 0) H.arming = true ∧ (stn 0 [(H.arming, 1), (H.bsChgT, 5)]).on (stnB 0) H.bsChgT = true ∧
    up.on (stnB 0) H.arming = false ∧
    ((stn 6 [(H.gcT, 1)]).mode 0 = 6 ∧ (stn 6 [(H.gcT, 1)]).get (stnB 0) H.gcT = ((stn 6 [(H.gcT, 1)]).time : Int) + 1) ∧
    (let s := stn 6 [(F.GC_STAT_TURNOFF, 1)]
     s.mode 0 = 6 ∧ s.on (stnB 0) H.arming = false ∧ s.get (stnB 0) H.gcT ≠ (s.time : Int) + 1 ∧
     (s.put (stnB 0) H.gcT 1).get (stnB 0) H.gcT = (s.time : Int) + 1) ∧
    (stn 6 [(F.GC_STAT_TURNOFF, 1)]).on (stnB 0) F.GC_STAT_TURNOFF = true ∧ (stn 3 []).on (stnB 0) F.GC_STAT_TURNOFF = false ∧
    (stn 3 []).mode 0 ∈ [1, 2, 3, 4, 5, 7] ∧ up.mode 0 ∉ [1, 2, 3, 4, 5, 7] ∧ (stn 3 [(F.GC_CTRL_DMODE, 0)]).direct 0 = true ∧
    (stn 3 [(F.GC_CTRL_DMODE, 1)]).direct 0 = false ∧
    (stn 3 [(F.GC_OC_OC_N, 1)]).get (stnB 0) F.GC_OC_OC_N ≤ H.ocRun.wrap (min 15 ((if true then (stn 3 []).get (stnB 0) H.ocRun else 0) + 1)) ∧
    H.ocRun.wrap (min 15 (0 + 1)) < (stn 3 [(F.GC_OC_OC_N, 2)]).get (stnB 0) F.GC_OC_OC_N ∧
    ((stn 6 []).mode 0 = 6 ∧ (stn 6 []).get (stnB 0) H.gcT ≠ ((stn 6 []).time : Int) + 1) ∧
    (let s := stn 3 [(F.GC_CTRL_DMODE, 1), (F.GC_STAT_LRDY, 1), (F.GC_LINK_LRDY_REQ, 1)]
     s.on (stnB 0) F.GC_STAT_LRDY = true ∧ s.direct 0 = false ∧ s.on (stnB 0) F.GC_LINK_LRDY_REQ = true ∧ s.mode 0 ∈ [2, 3, 4, 7]) := by decide
theorem wit_TurnOff : up.stnLive 3 = true ∧ (1 : Fin 4) ≠ 0 ∧ (stn 6 [(F.GC_STAT_TURNOFF, 1), (H.toPhase, 1)]).on (stnB 0) F.GC_STAT_TURNOFF = true ∧
    (stn 6 [(F.GC_STAT_TURNOFF, 1), (H.toPhase, 1)]).get (stnB 0) H.toPhase = 1 ∧ (stn 6 [(F.GC_STAT_TURNOFF, 1), (H.toPhase, 1)]).stnLive 0 = true ∧
    up.on (stnB 3) F.GC_STAT_TURNOFF = false ∧ up.scanned = false ∧ (stn 4 [(H.zvb, 1)]).on (stnB 0) H.zvb = true ∧ up.on (stnB 3) H.zvb = false := by decide
theorem wit_GateSupplyAndEdges :
    (let s := stn 3 [(F.GC_CTRL_DMODE, 0), (H.enab, 7)]
     s.direct 0 = true ∧ s.on (stnB 0) F.GC_STAT_TURNOFF = false ∧ s.enOf 0 2 = true ∧ s.bsRise 0 < 255 ∧ 0 ≤ s.bsRise 0 ∧
     s.on (stnB 0) H.arming = false) ∧
    (stn 3 []).barred 0 = false ∧ (stn 3 []).charging 0 = false ∧ (stn 0 [(H.arming, 1)]).charging 0 = true ∧
    (stn 0 [(H.arming, 1), (F.GC_BS_CHG_MAX, 10), (H.chgN, 1)]).chargeDue 0 2 = true ∧
    (stn 2 [(H.bsLow, 4)]).refreshDue 0 2 = true ∧ (stn 3 []).refreshDue 0 2 = false ∧
    (let s := stn 3 [(H.bsFailW, 2), (State.bsFailT 2, 1)]
     s.get (stnB 0) (State.bsFailF 2) = 2 ∧ s.bsFollows 0 2 = true) ∧ (stn 3 []).bsFollows 0 2 = false ∧
    (stn 3 []).get (stnB 0) (State.lvlF 1) = b2i false ∧ (stn 3 []).get (stnB 0) (State.lvlF 1) ≠ b2i true ∧
    (stn 3 [(F.GC_CTRL_PSRC, 1)]).get (stnB 0) F.GC_CTRL_PSRC = 1 ∧ (stn 3 [(F.GC_CTRL_PSRC, 1)]).mode 0 = 3 ∧
    (stn 2 []).mode 0 ≠ 3 ∧ (stn 3 []).get (stnB 0) F.GC_CTRL_PSRC ≠ 1 := by decide
theorem wit_SequencesEnd :
    (let s := stn 0 [(H.arming, 1), (H.armItems, 3), (F.GC_CTRL_DMODE, 0), (F.PF_STAT_VALID, 1)]
     s.on (stnB 0) H.arming = true ∧ s.mode 0 = 0 ∧ s.direct 0 = true ∧ s.nat (stnB 0) H.armItems ≠ 0 ∧ (7 : BitVec 3) ≠ 0 ∧
     (stn 0 [(H.arming, 1)]).on (stnB 0) F.PF_STAT_VALID = false ∧ (stn 0 [(H.arming, 1)]).get (stnB 0) F.COM_CTRL_ASRC = 0 ∧
     s.on (stnB 0) F.PF_STAT_VALID = true) ∧
    (let s := stn 0 [(H.arming, 1), (H.chgNW, 1), (F.GC_CTRL_DMODE, 0)]
     s.on (stnB 0) (State.chgF 2) = true ∧ s.legCharged 0 2 = false ∧ s.uncharged 0 0 ≠ 0 ∧ (s.put (stnB 0) H.chgNW 0).uncharged 0 0 = 0 ∧
     (s.put (stnB 0) H.chgNW 0).uncharged 0 4 ≠ 0) ∧
    (stn 0 [(H.arming, 1)]).nat (stnB 0) H.armItems = 0 ∧ (stn 0 [(H.arming, 1), (F.GC_CTRL_DMODE, 1)]).direct 0 = false ∧
    (stn 0 [(F.GC_CTRL_DMODE, 1), (F.GC_STAT_LRDY, 1)]).linkOk 0 = true ∧
    ((stn 1 [(H.armItems, 16)]).mode 0 = 1 ∧ (stn 1 [(H.armItems, 16)]).get (stnB 0) H.armItems ≠ 0) ∧
    (stn 1 [(H.sizItems, 7)]).nat (stnB 0) H.sizItems ≠ 0 ∧ (stn 1 [(H.sizItems, 7)]).mode 0 = 1 ∧
    (((stn 0 [(H.arming, 1)]).begin (cmd 2 0 []) 0x20 0).owed 0x20 0).length = 1 := by decide
theorem wit_StartAndStopRows :
    (let s := stn 0 [(F.OBS_CTRL_OBS_EN, 1)]
     s.on (stnB 0) F.OBS_CTRL_OBS_EN = true ∧ s.get (stnB 0) H.enab = 0 ∧ s.on (stnB 0) F.GC_STAT_TURNOFF = false ∧
     (s.advance 400).sampleSkipped 0 (400 : BitVec 64).toNat = false) ∧ (stn 0 []).on (stnB 0) F.OBS_CTRL_OBS_EN = false ∧
    ((stn 3 [(H.rotChk, 1)]).mode 0 = 3 ∧ (stn 3 [(H.rotChk, 1)]).on (stnB 0) H.rotChk = true) ∧
    ((stn 3 [(H.revWait, 1)]).on (stnB 0) H.rotChk = false ∧ (stn 3 [(H.revWait, 1)]).on (stnB 0) H.revWait = true ∧
      (stn 3 [(H.revWait, 1)]).rotating 0 = false) ∧
    (stn 3 [(F.OBS_STAT_STARTING, 2)]).get (stnB 0) F.OBS_STAT_STARTING = 2 ∧ (stn 3 [(F.OBS_STAT_STARTING, 4)]).get (stnB 0) F.OBS_STAT_STARTING = 4 ∧
    (let s := stn 5 [(F.OBS_EMF_EMF_MIN, 100)]
     s.mode 0 = 5 ∧ s.on (stnB 0) F.OBS_STAT_LOCKED = false ∧ s.get (stnB 0) F.OBS_EMFV_MAG < s.get (stnB 0) F.OBS_EMF_EMF_MIN ∧
     s.on (stnB 0) H.catchStop = false) ∧
    (let s := stn 4 [(F.STN_STAT_STOP, 3), (F.STN_BRAKE_W_STOP, 200)]
     s.mode 0 = 4 ∧ s.on (stnB 0) H.zvb = false ∧ s.get (stnB 0) H.stopSeq = 0 ∧ s.on (stnB 0) H.stopRamp = false ∧
     (if s.speedW 0 < 0 then -s.speedW 0 else s.speedW 0) * 100 ≤ s.get (stnB 0) F.STN_BRAKE_W_STOP * 2 ^ 18 ∧
     s.get (stnB 0) F.STN_STAT_STOP = 3 ∧ s.get (stnB 0) H.stopSeq ≠ 3) ∧
    (stn 4 [(F.STN_STAT_STOP, 1)]).get (stnB 0) F.STN_STAT_STOP ∈ [0, 1] ∧ (stn 4 [(H.stopSeq, 1)]).get (stnB 0) H.stopSeq = 1 ∧
    (stn 4 [(H.stopSeq, 2)]).get (stnB 0) H.stopSeq = 2 ∧ (stn 3 []).mode 0 ≠ 4 := by decide
theorem wit_StopsEnd : (stn 4 [(F.STN_STAT_STOP, 1)]).mode 0 = 4 ∧ (stn 4 [(F.STN_STAT_STOP, 1)]).get (stnB 0) F.STN_STAT_STOP = 1 ∧
    (((stn 4 []).begin (cmd 2 0 []) 0x23 0).owed 0x23 0).length = 1 := by decide
theorem wit_SerialAndScheduler :
    up.halfRun 1 = true ∧ (up.put (serB 1) F.PS_CTRL_PROTO 0).on (serB 1) F.PS_CTRL_PROTO = false ∧
    (let s := up.puts (serB 1) [(F.PS_CTRL_PROTO, 2), (H.psRun, 1), (F.PS_CTRL_GRAY, 0)]
     s.on (serB 1) F.PS_CTRL_PROTO = true ∧ s.on (serB 1) H.psRun = true ∧ s.get (serB 1) F.PS_CTRL_PROTO ≠ 1 ∧
     s.on (serB 1) F.PS_CTRL_GRAY = false ∧ s.on (serB 1) H.psHave = false) ∧
    (let s := up.puts (serB 1) [(F.PS_CTRL_PROTO, 2), (F.PS_FMT_TOUT, 20), (H.psEndT, 1)]
     s.on (serB 1) H.psRun = false ∧ (s.advance 399).psReady 1 = false ∧ (s.advance 100000).psReady 1 = true) ∧
    (let s := up.puts (serB 0) [(F.RP_CTRL_EN, 1), (F.RP_CTRL_RP_INV, 0), (F.RP_CTRL_RP_LINES, 1023), (H.rpPos, 1025)]
     (s.get (serB 0) H.rpAng + wrapS 32 (s.rpTheta 0 - s.get (serB 0) H.rpAng)) * (4 * (s.get (serB 0) F.RP_CTRL_RP_LINES + 1)) / 2 ^ 32 -
       s.get (serB 0) H.rpPos = -1025) ∧
    (let s := up.puts (serB 0) [(F.RP_CTRL_EN, 1), (F.RP_CTRL_RP_INV, 0), (F.RP_CTRL_RP_LINES, 1023), (H.rpPos, -1)]
     let n4 := 4 * (s.get (serB 0) F.RP_CTRL_RP_LINES + 1)
     let d := (s.get (serB 0) H.rpAng + wrapS 32 (s.rpTheta 0 - s.get (serB 0) H.rpAng)) * n4 / 2 ^ 32 - s.get (serB 0) H.rpPos
     s.on (serB 0) F.RP_CTRL_EN = true ∧ s.on (serB 0) F.RP_STAT_SRC_FLT = false ∧ s.on (serB 0) F.RP_CTRL_RP_INV = false ∧ d = 1) ∧
    (let s := up.puts (serB 0) [(F.RP_CTRL_EN, 1), (F.RP_CTRL_RP_INV, 0), (F.RP_CTRL_RP_LINES, 1023), (H.rpPos, 1024)]
     (s.get (serB 0) H.rpAng + wrapS 32 (s.rpTheta 0 - s.get (serB 0) H.rpAng)) * (4 * (s.get (serB 0) F.RP_CTRL_RP_LINES + 1)) / 2 ^ 32 -
       s.get (serB 0) H.rpPos = -1024) ∧
    (let s := up.puts (serB 0) [(F.RP_CTRL_EN, 1), (F.RP_STAT_SRC_FLT, 1), (F.RP_CTRL_FLT_MODE, 1)]
     s.on (serB 0) F.RP_CTRL_EN = true ∧ s.on (serB 0) F.RP_STAT_SRC_FLT = true ∧ s.on (serB 0) F.RP_CTRL_FLT_MODE = true ∧
     s.chip.phase ∉ [Phase.off, .asleep]) ∧ (stn 3 [(H.psNew, 1)]).on (stnB 0) H.psNew = true ∧
    up.on (serB 0) F.RP_CTRL_EN = false ∧ State.reset.halfRun 0 = false ∧ up.oos (.asc 0) = false := by decide
/-- A BiSS frame of four bits, its CRC right; a jump; and the same of an SSI frame in Gray code. -/
theorem wit_SerialAndScheduler_frames :
    let s := up.puts (serB 1) [(F.PS_CTRL_PROTO, 1), (H.psRun, 1), (F.PS_FMT_ST_BITS, 4)]
    let g := s.puts (serB 1) [(F.PS_CTRL_PROTO, 2), (F.PS_CTRL_GRAY, 1)]
    let j := s.puts (serB 1) [(H.psHave, 1), (F.PS_FMT_JUMP, 1)]
    s.on (serB 1) H.psRun = true ∧ s.get (serB 1) F.PS_CTRL_PROTO = 1 ∧ (100 : BitVec 16).toNat + s.nat (serB 1) F.PS_CTRL_SLO_FLT_N ≤ 500 ∧
    (63 - State.crc6Bit (State.crc6Bit (State.crc6 5 4 0) true) true) % 64 = 63 - State.crc6Bit (State.crc6Bit (State.crc6 5 4 0) true) true ∧
    (500 : BitVec 16).toNat + s.nat (serB 1) F.PS_CTRL_SLO_FLT_N > 500 ∧ s.on (serB 1) H.psHave = false ∧
    g.get (serB 1) F.PS_CTRL_PROTO ≠ 1 ∧ g.on (serB 1) F.PS_CTRL_GRAY = true ∧
    (let d := wrapS 4 (((5 : Nat) : Int) - j.get (serB 1) H.psPrev)
     j.on (serB 1) H.psHave = true ∧ j.get (serB 1) F.PS_FMT_JUMP ≠ 0 ∧ j.get (serB 1) F.PS_FMT_JUMP * 2 ^ 4 < (if d < 0 then -d else d) * 1024) ∧
    s.counted (serB 1) H.psBad < s.get (serB 1) F.PS_CTRL_ERR_MAX ∧
    (s.put (serB 1) F.PS_CTRL_ERR_MAX 1).get (serB 1) F.PS_CTRL_ERR_MAX ≤ s.counted (serB 1) H.psBad ∧
    (stn 3 [(F.PF_CTRL_SRC, 1)]).on (stnB 0) F.PF_CTRL_SRC = true ∧ (stn 3 [(F.PF_CTRL_SRC, 1)]).on (stnB 0) H.pfFlt = false ∧
    (let s := up.put (serB 0) F.RP_CTRL_EN 1
     s.on (serB 0) F.RP_CTRL_EN = true ∧ s.on (serB 0) F.RP_STAT_SRC_FLT = false ∧ s.chip.phase ∉ [Phase.off, .asleep]) := by decide
theorem wit_SafeTorqueOff : up.halfPresent 1 = true ∧ (true && true) = true ∧ (true && false) = false ∧
    State.reset.on (halfB 0) F.SUP_STO_STAT_ACTIVE = true ∧ up.on (halfB 1) F.SUP_STO_STAT_ACTIVE = false ∧
    up.on (halfB 1) F.SUP_STO_STAT_DISC = false ∧
    (let s := up.puts (halfB 1) [(F.SUP_STO_STAT_DISC, 1), (F.SUP_STO_STAT_CH2, 0)]
     s.on (halfB 1) F.SUP_STO_STAT_DISC = true ∧ s.on (halfB 1) H.stoBoth = false) ∧
    up.get (halfB 1) F.SUP_STO_STAT_CH1 = up.get (halfB 1) F.SUP_STO_STAT_CH2 ∧
    (up.put (halfB 1) F.SUP_STO_STAT_CH2 0).get (halfB 1) F.SUP_STO_STAT_CH1 ≠ (up.put (halfB 1) F.SUP_STO_STAT_CH2 0).get (halfB 1) F.SUP_STO_STAT_CH2 := by
  decide
theorem wit_BusGuard :
    State.reset.bgdOn 0 = false ∧ up.bgdOn 1 = true ∧
    (asr (0 * up.get (halfB 1) F.BGD_SCALE_VSCALE) 16 < up.get (halfB 1) F.BGD_VTRIP_V_TRIP) ∧
    (let s := up.puts (halfB 1) [(F.BGD_SCALE_VSCALE, 65535), (F.BGD_VTRIP_V_TRIP, 900), (H.vdc1, 1000), (H.vdcN, 1)]
     s.get (halfB 1) F.BGD_VTRIP_V_TRIP ≤ asr ((1000 : BitVec 16).toNat * s.get (halfB 1) F.BGD_SCALE_VSCALE) 16 ∧
     s.get (halfB 1) F.BGD_VTRIP_V_TRIP ≤ s.get (halfB 1) H.vdc1 ∧ 1 ≤ s.get (halfB 1) H.vdcN) ∧
    (let s := up.puts (halfB 1) [(F.BGD_VTRIP_V_UV, 100), (F.BGD_STAT_PRE_DONE, 1)]
     s.get (halfB 1) H.vdcf < s.get (halfB 1) F.BGD_VTRIP_V_UV ∧ s.on (halfB 1) F.BGD_STAT_PRE_DONE = true) ∧
    (up.put (halfB 1) H.vdcf 2000).get (halfB 1) F.BGD_VTRIP_V_UV ≤ (up.put (halfB 1) H.vdcf 2000).get (halfB 1) H.vdcf ∧
    (up.put (halfB 1) F.BGD_STAT_CHOP_ON 1).on (halfB 1) F.BGD_STAT_CHOP_ON = true ∧ up.on (halfB 1) F.BGD_STAT_CHOP_ON = false ∧
    (let s := up.puts (halfB 1) [(F.BGD_CTRL_PRE_EN, 1), (F.BGD_PRE_V_PRE, 100), (H.vdcf, 100)]
     s.on (halfB 1) F.BGD_CTRL_PRE_EN = true ∧ s.on (halfB 1) F.BGD_STAT_PRE_DONE = false ∧ s.on (halfB 1) H.preStop = false ∧
     s.get (halfB 1) F.BGD_PRE_V_PRE ≤ s.get (halfB 1) H.vdcf ∧
     (s.put (halfB 1) H.vdcf 99).get (halfB 1) H.vdcf < s.get (halfB 1) F.BGD_PRE_V_PRE) := by decide
theorem wit_Temperatures : up.alive = true ∧ (up.tempConvert 1 [250, 250, 250, 250]).2 = false ∧ ((up.put 0 H.hotSh 3).tempConvert 0 [1650, 250]).2 = true ∧
    State.reset.shRun = false ∧ up.shRun = true ∧ (up.put 0 F.THM_EXT_CFG_TYPE 1).on (4 * 0) F.THM_EXT_CFG_TYPE = true ∧
    State.plausible ((up.put 0 F.THM_EXT_CFG_TYPE 1).curveTemp 0 8) = true ∧ State.plausible ((up.put 0 F.THM_EXT_CFG_TYPE 1).curveTemp 0 4087) = true ∧
    (7 : BitVec 12).toNat < 8 ∧ 4087 < (4088 : BitVec 12).toNat ∧ bitN (up.nat 0 F.THM_SH_STAT_EXT_BROKEN) 0 = false ∧
    bitN ((up.put 0 F.THM_SH_STAT_EXT_BROKEN 1).nat 0 F.THM_SH_STAT_EXT_BROKEN) 0 = true := by decide
theorem wit_LoopAndPort :
    (let s := (up.put (halfB 1) F.LEN_STAT_IN_SERVICE 1).puts (slotB 1 47) [(F.LEN_CFG_TYPE, 1), (F.LEN_CFG_RUNGATE, 0), (F.LEN_CFG_TRIG, 1), (F.LEN_CFG_TPARAM, 1)]
     s.halfRun 1 = true ∧ s.isSink 1 47 = false ∧ s.slotLive 1 47 = true ∧ s.nat (slotB 1 47) F.LEN_CFG_TRIG = 1 ∧
     s.nat (slotB 1 47) H.slTrigT / (400 * max 1 (s.nat (slotB 1 47) F.LEN_CFG_TPARAM)) <
       (400 : BitVec 64).toNat / (400 * max 1 (s.nat (slotB 1 47) F.LEN_CFG_TPARAM)) ∧
     s.dueAt 1 47 (400 : BitVec 64).toNat = some 400 ∧ (∀ k : Fin 48, k ≠ 47 → s.dueAt 1 k.val (400 : BitVec 64).toNat = none) ∧
     s.get (slotB 1 47) F.LEN_CFG_TYPE ≠ 0) ∧
    (let s := (up.put (halfB 1) F.LEN_STAT_IN_SERVICE 1).puts (slotB 1 47) [(F.LEN_CFG_TYPE, 1), (F.LEN_CFG_RUNGATE, 0), (F.LEN_CFG_TRIG, 3), (H.slReq, 1)]
     s.nat (slotB 1 47) F.LEN_CFG_TRIG ≠ 2 ∧ s.nat (slotB 1 47) F.LEN_CFG_TRIG ≠ 1 ∧ s.on (slotB 1 47) H.slReq = true ∧ s.slotLive 1 47 = true) ∧
    up.on (slotB 1 0) H.slReq = false ∧ up.nat (slotB 1 0) F.LEN_CFG_TRIG ≠ 1 ∧ up.slotLive 1 0 = false ∧
    (let s := up.puts (halfB 0) [(F.SPT_CTRL_AMODE, 1), (F.SPT_CTRL_PMODE, 1)]
     s.oos (.spt 0) = false ∧ s.get (halfB 0) F.SPT_CTRL_AMODE ∈ [1, 2] ∧ s.on (halfB 0) F.SPT_CTRL_PMODE = true ∧
     s.get (halfB 0) F.SPT_CNT_CNT = 0 ∧ s.on (halfB 0) F.SPT_STAT_LOS_P = false) ∧
    2 ≤ (up.put (halfB 0) F.SPT_CTRL_PMODE 2).nat (halfB 0) F.SPT_CTRL_PMODE ∧
    (up.puts (halfB 0) [(F.SPT_CTRL_AMODE, 3), (H.losBad, 2000)]).losDue 0 = true ∧ up.losDue 0 = false := by decide
theorem wit_Links :
    (let x : Ident := { ringNo := 0, pos := 3, nchip := 3, tSc := BitVec.ofNat 10 (ring.nat 0 F.HBD_CYC_T_SC), lmax := BitVec.ofNat 8 (ring.nat 0 F.HBD_RING_LMAX),
                        topo := ring.on 0 F.HBD_CTRL_TOPO }
     x.ringNo.toNat = ring.nat 0 F.HBD_RING_RING_NO ∧ x.pos.toNat = (ring.ownPos + ring.ringN - 1) % ring.ringN ∧
     x.nchip.toNat = ring.nat 0 F.HBD_RING_NCHIP_M1 ∧ x.tSc.toNat = ring.nat 0 F.HBD_CYC_T_SC ∧ x.lmax.toNat = ring.nat 0 F.HBD_RING_LMAX ∧
     x.topo = ring.on 0 F.HBD_CTRL_TOPO) ∧ (2 : BitVec 3).toNat ≠ (ring.ownPos + ring.ringN - 1) % ring.ringN ∧
    ring.hatOn = true ∧ ring.ringClock = true ∧ ring.lnkUsed .west = true ∧ ring.oos Link.west.block = false ∧
    ring.lnkSt .west = 2 ∧ (ring.put Link.west.base F.HBD_LNK_LSTATE 1).lnkSt .west ∈ [0, 1] ∧
    (ring.put Link.west.base F.HBD_LNK_LSTATE 1).lnkSt .west ∈ [1, 2] ∧ (ring.put Link.west.base F.HBD_LNK_LSTATE 0).lnkSt .west = 0 ∧
    (ring.put Link.west.base F.HBD_LNK_LSTATE 4).lnkSt .west = 4 ∧ (ring.put Link.west.base F.HBD_LNK_LSTATE 4).lnkSt .west ∉ [1, 2] ∧
    (let s := ring.put 0 (State.lateF .west).1 15
     (s.put 0 F.HBD_CYC_LATE_MAX 3).get 0 F.HBD_CYC_LATE_MAX ≤ s.get 0 (State.lateF .west).1) := by decide

/-- The words of a frame of position 2 in cycle 0 of ring 0. -/
def shared : List Nat :=
  let f : Frame := ⟨0xA5, 2, 0, 0, 0, false, false, false, 0, 0, 0, 0, [], [], []⟩
  f.words 0 ++ [crcWords (f.words 0)]

theorem wit_ShareCycle :
    (let f : Frame := ⟨0xA5, 2, 0, 5, 0, true, false, false, 0, 0, 0, 0, [], [], []⟩
     ring.joins f = true ∧ f.type = 0xA5 ∧ f.ringNo = ring.nat 0 F.HBD_RING_RING_NO ∧ f.origin < ring.ringN ∧ f.cycle ≠ ring.nat 0 H.hbM) ∧
    (ring.puts 0 [(F.HBD_STAT_ROOT, 1), (F.HBD_STAT_REACH, 1)]).hearsNobody = true ∧ ring.joins ⟨0xA5, 2, 0, 5, 0, false, false, false, 0, 0, 0, 0, [], [], []⟩ = false ∧ up.hatOn = false ∧ ring.hatOn = true ∧ ring.lnkSt .west = 2 ∧ FrameEnd.normal ≠ .abort ∧
    ([1, 2] : List Nat).getLastD 0 ≠ crcWords ([1, 2] : List Nat).dropLast ∧ shared.getLastD 0 = crcWords shared.dropLast ∧
    (match readFrame shared.dropLast with
     | some f => decide (f.type = 0xA5 ∧ f.ringNo = ring.nat 0 F.HBD_RING_RING_NO ∧ f.origin < ring.ringN ∧ f.cycle = ring.nat 0 H.hbM) | none => false) = true ∧
    (ring.put 0 F.HBD_RING_NCHIP_M1 1).ringN ≤ 2 ∧ (ring.advance 0).ringTime 0 ≤ (ring.advance 0).useTime 0 ∧ ring.on 0 H.hbUsed = false ∧
    (ring.put 0 H.hbUsed 1).on 0 H.hbUsed = true ∧
    (let s := (stn 3 [(F.STN_STAT_SOURCE, 2)])
     s.mode 0 = 3 ∧ s.get (stnB 0) F.STN_STAT_SOURCE = 2 ∧ s.on (8 * 0) F.HBD_ALLOC1_FRESH = false ∧ s.on (8 * 0) F.HBD_ALLOC1_FALLBACK = false) ∧
    ring.on 0 F.HBD_STAT_ROOT = false ∧ ring.on 0 F.HBD_STAT_SYNC_OK = false ∧ (ring.put 0 F.HBD_STAT_SYNC_OK 1).on 0 F.HBD_STAT_SYNC_OK = true ∧
    ((ring.put Link.west.base F.HBD_LNK_LSTATE 0).put Link.east.base F.HBD_LNK_LSTATE 0).lnkSt .east ≠ 2 := by decide +kernel
theorem wit_Services : up.shRun = true ∧ up.master ≠ 0 ∧ up.halfRun (up.master - 1) = true ∧ up.isolated (up.master - 1) = false ∧
    (up.put 0 F.CHIP_STATUS_MASTER 0).master = 0 ∧ State.reset.shRun = false ∧
    (up.put (svcB 15) F.SVC_STAT_SERVICE 3).get (svcB 15) F.SVC_STAT_SERVICE = 3 ∧ up.get (svcB 15) F.SVC_STAT_STATE ≠ 3 ∧
    up.on (State.svcH 15) H.svLost = false ∧ (up.put (svcB 0) F.SVC_STAT_SERVICE 4).get (svcB 0) F.SVC_STAT_SERVICE = 4 ∧
    (up.put (svcB 0) F.SVC_STAT_SERVICE 5).get (svcB 0) F.SVC_STAT_SERVICE = 5 ∧
    (up.put (svcB 0) F.SVC_STAT_SERVICE 6).get (svcB 0) F.SVC_STAT_SERVICE = 6 := by decide
theorem wit_AxisRows :
    (up.halfRun 0 = true ∧ up.oos (.axs 0) = false ∧ up.get (axsB 0) F.AXS_CTRL_CLASS = 0) ∧
    (let s := axs 2 [(F.AXS_CTRL_CLASS, 2), (H.axR, 5 * 2 ^ 40), (F.AXS_STAT_COIL, 3), (F.AXS_HOLD_T_ENER, 10)]
     s.get (axsB 0) F.AXS_STAT_COIL ∈ [0, 3] ∧ s.on (axsB 0) F.AXS_HOLD_T_ENER = true ∧ sgnI (wrap48 (s.axNear 0 - s.get (axsB 0) F.AXS_POS_POS)) ≠ 0) ∧
    (let s := axs 2 [(F.AXS_CTRL_CLASS, 2), (H.axR, 5 * 2 ^ 40), (H.axLast, 100), (F.AXS_STAT_COIL, 2)]
     s.get (axsB 0) F.AXS_STAT_COIL ∉ [0, 3] ∧
     s.get (axsB 0) F.AXS_CTRL_CLASS = 2 ∧ s.on (axsB 0) H.axEner = false ∧ sgnI (wrap48 (s.axNear 0 - s.get (axsB 0) F.AXS_POS_POS)) ≠ 0 ∧
     s.nat (axsB 0) H.axLast ≠ 0 ∧ 299 < s.nat (axsB 0) H.axLast + 200 ∧ s.nat (axsB 0) H.axLast + 200 ≤ 300) ∧
    (let s := axs 2 [(H.axR, -5 * 2 ^ 40), (F.AXS_STAT_COIL, 2)]
     let d := sgnI (wrap48 (s.axNear 0 - s.get (axsB 0) F.AXS_POS_POS))
     s.get (axsB 0) F.AXS_CTRL_CLASS = 1 ∧ d ≠ 0 ∧ s.get (axsB 0) F.AXS_STAT_COIL ∉ [0, 3] ∧
     s.get (axsB 0) H.axDirL ≠ (if (decide (d < 0)) != s.on (axsB 0) F.AXS_CTRL_DIR_INV then 1 else 0)) ∧
    (let s := axs 2 [(H.axR, -5 * 2 ^ 40), (H.axDirL, 1), (H.axDirT, 1000), (H.axLast, 900), (F.AXS_STAT_COIL, 2), (F.AXS_PULSE_PW, 160), (F.AXS_PULSE_DIR_SU, 200)]
     let d := sgnI (wrap48 (s.axNear 0 - s.get (axsB 0) F.AXS_POS_POS))
     s.get (axsB 0) H.axDirL = (if (decide (d < 0)) != s.on (axsB 0) F.AXS_CTRL_DIR_INV then 1 else 0) ∧
     1099 < s.nat (axsB 0) H.axLast + max 200 (s.nat (axsB 0) F.AXS_PULSE_PW + 40) ∧
     s.nat (axsB 0) H.axLast + max 200 (s.nat (axsB 0) F.AXS_PULSE_PW + 40) ≤ 1100 ∧ s.nat (axsB 0) H.axDirT ≠ 0 ∧
     1199 < s.nat (axsB 0) H.axDirT + s.nat (axsB 0) F.AXS_PULSE_DIR_SU ∧ s.nat (axsB 0) H.axDirT + s.nat (axsB 0) F.AXS_PULSE_DIR_SU ≤ 1200) ∧
    up.axChops 0 = false ∧ (axs 2 [(F.AXS_CTRL_CLASS, 2), (F.AXS_STAT_COIL, 2)]).axChops 0 = true ∧
    (axs 2 [(F.AXS_CTRL_CLASS, 2), (F.AXS_STAT_COIL, 2), (H.axSgB, -1)]).get (axsB 0) (State.axSgF true) ≠ 0 ∧
    (axs 2 [(F.AXS_CTRL_CLASS, 2), (F.AXS_STAT_COIL, 2)]).get (axsB 0) (State.axSgF true) = 0 ∧
    (let s := axs 1 [(F.AXS_HOLD_T_HOLD, 65535), (F.AXS_STAT_COIL, 1)]
     s.get (axsB 0) F.AXS_HOLD_T_HOLD = 65535) ∧
    (let s := axs 1 [(F.AXS_HOLD_T_HOLD, 100), (F.AXS_STAT_COIL, 1)]
     s.on (axsB 0) H.axEner = false ∧ s.get (axsB 0) F.AXS_STAT_COIL ∈ [1, 2] ∧ s.get (axsB 0) F.AXS_HOLD_T_HOLD ≠ 65535 ∧ s.get (axsB 0) F.AXS_STAT_COIL = 1) ∧
    (axs 3 [(H.axEner, 1)]).on (axsB 0) H.axEner = true ∧ (axs 3 [(H.axEner, 1)]).axSt 0 = 3 ∧ (axs 2 [(H.axEner, 1)]).axSt 0 ≠ 3 ∧
    State.reset.halfRun 1 = false ∧
    (let s := axs 4 [(H.axGrp, 1)]
     ((List.range 4).filter (bitN (1 : BitVec 4).toNat)).all (fun m => s.axSt m == 4 && s.nat (axsB m) H.axGrp == 1 && !s.on (axsB m) H.axGo && !s.on (axsB m) H.axEner &&
       decide (s.nat (axsB m) H.axT0 ≤ 0)) = true) ∧
    ((List.range 4).filter (bitN (2 : BitVec 4).toNat)).all (fun m => up.axSt m == 4 && up.nat (axsB m) H.axGrp == 2 && !up.on (axsB m) H.axGo && !up.on (axsB m) H.axEner &&
       decide (up.nat (axsB m) H.axT0 ≤ 0)) = false := by decide
theorem wit_CanRows :
    (can []).halfRun 0 = true ∧ (can []).oos (.can 0) = false ∧ up.canOn 0 = false ∧ (can []).canOn 0 = true ∧ (frame 1 []).fdf = false ∧
    (can [(F.CAN_CTRL_FD_EN, 0)]).on (canB 0) F.CAN_CTRL_FD_EN = false ∧
    (can [(F.CAN_CTRL_TUN_EN, 1), (F.CAN_TUN_RX_ID, 5)]).isTunnel 0 (frame 5 []) = true ∧ (can []).isTunnel 0 (frame 5 []) = false ∧
    (let s := up.puts (canB 0) [(H.cnFin, 1), (H.cnOffT, 400)]
     s.on (canB 0) F.CAN_CTRL_EN = false ∧ s.on (canB 0) F.CAN_CTRL_LBK = false ∧ s.get (canB 0) H.cnFin = 1 ∧
     ((400 : BitVec 64).toNat : Int) ≤ s.get (canB 0) H.cnOffT ∧ ¬((401 : BitVec 64).toNat : Int) ≤ s.get (canB 0) H.cnOffT) ∧
    (up.put (canB 0) H.cnFin 2).get (canB 0) H.cnFin = 2 ∧ up.get (canB 0) H.cnFin ∉ [1, 2] ∧
    (let s := (can [(H.cnDefer, 1)]).puts 0 [(F.MIL_EVT_CFG_TYPE_EN, 64), (F.MIL_EVT_CFG_ROUTE, 1)]
     ((s.notice 6 [0]).port 0).level .notice ≠ (s.port 0).level .notice ∧ ((can []).notice 6 [0]).port 0 = (can []).port 0) ∧
    up.on (canB 0) H.cnDefer = false ∧ (can [(H.cnDefer, 1)]).on (canB 0) H.cnDefer = true ∧
    (((can []).withCan 0 fun q => { q with tx := [{ ix := 31, fr := frame 1 [] }] }).canq 0).tx.any (fun e => e.ix == 31) = true ∧
    (can []).on (canB 0) F.CAN_STAT_RECOVERING = false ∧ (can [(F.CAN_STAT_RECOVERING, 1)]).on (canB 0) F.CAN_STAT_RECOVERING = true ∧
    (can []).on (canB 0) F.CAN_CTRL_LBK = false ∧ (can [(F.CAN_CTRL_LBK, 1)]).on (canB 0) F.CAN_CTRL_LBK = true ∧
    (let s := (can [(F.CAN_CTRL_LBK, 1)]).withCan 0 fun q => { q with tx := [{ ix := 31, fr := frame 1 [] }] }
     (s.txNext 0).isSome = true) ∧
    (let s := (can [(F.CAN_TM_ID_ID, 16), (F.CAN_TM_PRIO, 3)]).withCan 0 fun q => { q with tx := [{ ix := 31, fr := frame 1 [] }] }
     (s.txWinner 0).any (fun e => !s.refFirst 0 e) = true) ∧
    (let s := (can [(F.CAN_TM_ID_ID, 0), (F.CAN_TM_PRIO, 0)]).withCan 0 fun q => { q with tx := [{ ix := 31, fr := frame 1 [] }] }
     (s.txWinner 0).all (s.refFirst 0) = true) ∧
    ((can [(F.CAN_TM_SENDING, 1)]).canSends 0 = true ∧ (can [(F.CAN_TM_SENDING, 1)]).on (canB 0) F.CAN_TM_SENDING = true ∧
      (can [(F.CAN_CTRL_FD_EN, 1)]).on (canB 0) F.CAN_CTRL_FD_EN = true ∧ (can []).on (canB 0) F.CAN_CTRL_EN = true) ∧
    ((can [(F.CAN_CTRL_TM_EN, 1), (F.CAN_TM_ID_ID, 0)]).refPrio 0 { frame 0 (List.replicate 12 0) with fdf := true, dlc := 9 }).isSome = true ∧
    (let s := can [(F.CAN_TM_ROLE, 2)]
     s.get (canB 0) F.CAN_TM_ROLE = 2 ∧ s.on (canB 0) F.CAN_TM_SENDING = false ∧ s.on (canB 0) H.tmDup = false) ∧
    (can [(F.CAN_TM_NT_OK, 1)]).on (canB 0) F.CAN_TM_NT_OK = true ∧
    (let s := up.put (canB 0) F.CAN_CTRL_EN 1
     s.on (canB 0) F.CAN_CTRL_EN = true ∧ s.on (canB 0) F.CAN_STAT_ACT = false ∧ s.on (canB 0) F.CAN_STAT_CLKOFF = false ∧
     s.get (canB 0) F.CAN_STAT_ERRSTATE ≠ 2) ∧
    255 < (can [(F.CAN_ERR_TEC, 248)]).get (canB 0) F.CAN_ERR_TEC + 8 ∧ (can [(F.CAN_ERR_TEC, 247)]).get (canB 0) F.CAN_ERR_TEC + 8 ≤ 255 := by decide +kernel
theorem wit_FaultsAndBlocks :
    (up.raise (.stn 0) 7).hasFault (.stn 0) 7 = true ∧ up.hasFault (.stn 0) 7 = false ∧ (up.faultsOf (.stn 0)).length < FUnit.cap (.stn 0) ∧
    (let s := up.each (List.range (FUnit.cap (.stn 0))) fun k s => s.raise (.stn 0) (100 + k)
     s.hasFault (.stn 0) 7 = false ∧ FUnit.cap (.stn 0) ≤ (s.faultsOf (.stn 0)).length) ∧
    up.blockLive (.stn 3) = true ∧ State.reset.blockLive (.stn 3) = false ∧ up.blockLive (.can 3) = true ∧ up.alive = true ∧
    (let r : Recd := { felt := false, seq := 0, tick := 0, trig := 1, redir := false, part := false, region := 0, code := 0, rep := 0, lost := 0, rseq := 0, data := [] }
     0 < ({ up with log := { up.log with staging := [r] } } : State).log.staging.length) := by decide +kernel
theorem wit_RegionsAndMastership :
    up.alive = true ∧ up.regionRun 2 = true ∧
    (up.flt.restart.filter fun e => e.1 == 2 && decide (up.time < e.2 + 24000000000)).length < up.nat 0 F.FLT_CFG_REG_MAX ∧
    (let s := { up with flt := { up.flt with restart := [(2, 0), (2, 1), (2, 2)] } }
     s.nat 0 F.FLT_CFG_REG_MAX ≤ (s.flt.restart.filter fun e => e.1 == 2 && decide (s.time < e.2 + 24000000000)).length) ∧
    State.reset.regionRun 2 = false ∧ (up.takeDownHalf 1 .restarting 0x30).regionSt 2 = .restarting ∧ up.regionSt 2 ≠ .restarting ∧
    up.halfPresent 1 = true ∧ up.halfRun 1 = true ∧ up.isolated 1 = false ∧ (up.put (halfB 1) F.SUP_MST_ROLE 3).isolated 1 = true ∧ up.shRun = true ∧
    (let s := (up.put (halfB 1) F.SUP_MST_ROLE 2).put (halfB 0) F.SUP_MST_ROLE 1
     s.heartOn 1 = true ∧ s.heartOn 0 = true ∧ s.oos .abmbx = false ∧ s.get (halfB 1) H.hbRun = 0 ∧ s.get (halfB 1) H.hbRx ≠ (s.time : Int) + 1 ∧
     (s.put (halfB 1) H.hbRx 1).get (halfB 1) H.hbRx = (s.time : Int) + 1 ∧
     (s.put (halfB 1) H.hbRun 1).get (halfB 1) H.hbRun = 1) := by decide +kernel
theorem wit_RegionsAndMastership_takeover :
    let s := ((up.put (halfB 1) F.SUP_MST_ROLE 2).put (halfB 0) F.SUP_MST_ROLE 1).put (halfB 1) H.hbRun 1
    let u (h : Nat) := ((((s.bump (halfB h) F.SUP_HB_HB_MISS).put (halfB h) H.hbRun 2).put (halfB h) F.SUP_MST_PEER_UP 0).raiseBy (h + 1)
      (.region (Fin.ofNat 3 (2 - h))) (fcode 3 (2 - h) 0xD3))
    (u 1).on (halfB 1) H.tkLost = false ∧ ((u 1).put (halfB 1) H.tkLost 1).on (halfB 1) H.tkLost = true ∧ (u 1).get (halfB 1) F.SUP_MST_ROLE = 2 ∧ (u 1).master = 2 - 1 ∧ (u 1).shRun = true ∧ (u 0).get (halfB 0) F.SUP_MST_ROLE ≠ 2 := by decide

/-- A staged record. -/
def staged (felt : Bool) : Recd :=
  { felt := felt, seq := 0, tick := 0, trig := 4, redir := false, part := false, region := 0, code := 9, rep := 0, lost := 0, rseq := 0, data := [] }

theorem wit_RecorderRows :
    (let x : Trig := { trig := 4, region := 0, code := 9, tick := 0, rseq := 0, felt := false, redir := false, data := [] }
     let s : State := { up with log := { up.log with fifo := [x] } }
     s.log.fifo = x :: [] ∧ s.log.staging.length < 64 ∧ s.shRun = true ∧ s.log.staging.any (State.repeats x.trig x.region x.code) = false ∧
     [staged false].any (State.repeats x.trig x.region x.code) = true) ∧
    up.log.fifo = [] ∧ 64 ≤ (List.replicate 64 (staged false)).length ∧ up.oos .recorder = false ∧ up.chip.phase ∉ [Phase.off, .asleep] ∧
    (staged true).felt = true ∧ up.log.flush = none ∧ 0 < up.log.bucket ∧ (staged false).felt = false := by decide

end Sys2Proof.Tests
end

section
/-!
PROOFS. What a write of a register word stores (R5, R7, R9), field by field, and what the state before the first supply holds (R10, R48).
-/
namespace Sys2Proof.Machine

/-! ### Two states that differ in named fields -/

theorem State.Only.refl (s : State) : s.Only s [] := ⟨fun _ _ => rfl, rfl⟩

/-- Changes in a row: the fields named for either. -/
theorem State.Only.trans {s t u : State} {w w' : List (Nat × Fld)} (h : s.Only t w) (h' : t.Only u w') : s.Only u (w ++ w') where
  regs k hk := by
    rw [List.map_append, List.mem_append, not_or] at hk
    rw [h'.regs k hk.2, h.regs k hk.1]
  rest := by
    have hu : { u with regs := s.regs, marks := s.marks } = { t with regs := s.regs, marks := s.marks } :=
      congrArg (fun q : State => { q with regs := s.regs, marks := s.marks }) h'.rest
    exact hu.trans h.rest

/-- A field that is not among the named ones reads as before. -/
theorem State.Only.get_eq {s t : State} {w : List (Nat × Fld)} (h : s.Only t w) {b : Nat} {f : Fld}
    (hk : f.key b ∉ w.map fun p => p.2.key p.1) : t.get b f = s.get b f := by
  simp only [State.get, h.regs _ hk]

theorem State.Only.time_eq {s t : State} {w : List (Nat × Fld)} (h : s.Only t w) : t.time = s.time :=
  (congrArg State.time h.rest :)

theorem State.only_put (s : State) (b : Nat) (f : Fld) (v : Int) : s.Only (s.put b f v) [(b, f)] where
  regs k hk := Sparse.get_set_ne _ _ fun he => hk (by simp [he])
  rest := rfl

theorem State.only_clrSeen (s : State) (b : Nat) (f : Fld) (m : Nat) : s.Only (s.clrSeen b f m) [(b, f)] where
  regs k hk := Sparse.get_set_ne _ _ fun he => hk (by simp [he])
  rest := rfl

/-! ### The marks of the present tick -/

theorem Marks.addSet_at (m : Marks) (t k v : Nat) : (m.addSet t k v).at t = m.addSet t k v :=
  if_pos (by unfold addSet Marks.at; split <;> simp_all)

/-- What the chip sets in one field is no mark of another. -/
theorem Marks.bits_addSet_ne (m : Marks) (t v : Nat) {k k' : Nat} (h : k ≠ k') : (m.addSet t k v).bits t k' = m.bits t k' := by
  simp only [bits, addSet_at]
  simp [addSet, h]

/-- A write takes a field's bits, clears them, or leaves the field (Table SC-2). -/
theorem Acc.write_cases (a : Acc) : (a = .rw ∨ a = .wk ∨ a = .ws) ∨ a = .w1c ∨ (a = .ro ∨ a = .rc) := by
  cases a <;> decide

namespace State

theorem put_marks_bits_ne (s : State) {b b' : Nat} {f f' : Fld} (v : Int) (h : f.key b ≠ f'.key b') :
    (s.put b f v).marks.bits s.time (f'.key b') = s.marks.bits s.time (f'.key b') := by
  unfold put
  dsimp only
  split
  · exact Marks.bits_addSet_ne _ _ _ h
  · rfl

/-! ### One field of a one-word register -/

/-- What a write of the word `w` does with one field of the register, `w1` being the bits at which a W1C field clears (R5, R7). -/
def storeField (b w w1 : Nat) (d : FD) (s : State) : State :=
  match d.acc with
  | .rw | .wk | .ws => s.put b d.f (bitsN w d.f.lo d.f.w)
  | .w1c => s.clrSeen b d.f (bitsN w1 d.f.lo d.f.w)
  | .ro | .rc => s

/-- A word written to a one-word register goes to its fields in turn. -/
theorem storeWord_oneWord (s : State) {x : Hit} (w w1 : Nat) (h : x.d.words = 1) :
    s.storeWord x w w1 = s.each x.d.flds (storeField x.b w w1) := by
  rw [storeWord, if_pos h]
  rfl

variable {s : State} {b w w1 : Nat} {d e : FD}

theorem storeField_of_writable (h : d.acc = .rw ∨ d.acc = .wk ∨ d.acc = .ws) :
    s.storeField b w w1 d = s.put b d.f (bitsN w d.f.lo d.f.w) := by
  rcases h with h | h | h <;> simp only [storeField, h]

theorem storeField_of_w1c (h : d.acc = .w1c) : s.storeField b w w1 d = s.clrSeen b d.f (bitsN w1 d.f.lo d.f.w) := by
  simp only [storeField, h]

theorem storeField_of_readOnly (h : d.acc = .ro ∨ d.acc = .rc) : s.storeField b w w1 d = s := by
  rcases h with h | h <;> simp only [storeField, h]

variable (s b w w1)

theorem clrSeen_get_same (f : Fld) (m : Nat) :
    (s.clrSeen b f m).get b f = f.wrap (clrI (s.get b f) (m &&& ((2 ^ f.w - 1) ^^^ s.marks.bits s.time (f.key b) % 2 ^ f.w))) := by
  rw [clrSeen, clrBits_get, get_put_same]

theorem only_storeField (d : FD) : s.Only (s.storeField b w w1 d) [(b, d.f)] := by
  rcases Acc.write_cases d.acc with h | h | h
  · rw [storeField_of_writable h]; exact only_put ..
  · rw [storeField_of_w1c h]; exact only_clrSeen ..
  · rw [storeField_of_readOnly h]; exact ⟨fun _ _ => rfl, rfl⟩

theorem storeField_marks_bits_ne (h : d.f.key b ≠ e.f.key b) :
    (s.storeField b w w1 d).marks.bits s.time (e.f.key b) = s.marks.bits s.time (e.f.key b) := by
  rcases Acc.write_cases d.acc with hd | hd | hd
  · rw [storeField_of_writable hd]; exact put_marks_bits_ne _ _ h
  · rw [storeField_of_w1c hd]; rfl
  · rw [storeField_of_readOnly hd]

/-- What a write makes of one field does not depend on another that it has written before. -/
theorem storeField_get_storeField_ne (h : d.f.key b ≠ e.f.key b) :
    ((s.storeField b w w1 d).storeField b w w1 e).get b e.f = (s.storeField b w w1 e).get b e.f := by
  have hget : (s.storeField b w w1 d).get b e.f = s.get b e.f :=
    (only_storeField s b w w1 d).get_eq (by simpa using h.symm)
  rcases Acc.write_cases e.acc with he | he | he
  · simp only [storeField_of_writable he, get_put_same]
  · simp only [storeField_of_w1c he, clrSeen_get_same, hget, (only_storeField s b w w1 d).time_eq, storeField_marks_bits_ne s b w w1 h]
  · simp only [storeField_of_readOnly he, hget]

/-! ### All fields of a one-word register -/

/-- A write changes no field but those it goes to. -/
theorem only_each_storeField (l : List FD) : s.Only (s.each l (storeField b w w1)) (l.map fun d => (b, d.f)) := by
  induction l generalizing s with
  | nil => exact .refl s
  | cons e l ih => exact (only_storeField s b w w1 e).trans (ih _)

/-- Each field of a register takes what it would take alone. -/
theorem each_storeField_get {l : List FD} (hl : l.Pairwise fun d e => d.f.key b ≠ e.f.key b) (hd : d ∈ l) :
    (s.each l (storeField b w w1)).get b d.f = (s.storeField b w w1 d).get b d.f := by
  induction l generalizing s with
  | nil => cases hd
  | cons e l ih =>
    obtain ⟨he, hl⟩ := List.pairwise_cons.mp hl
    rw [each_cons]
    rcases List.mem_cons.mp hd with rfl | hd
    · exact (only_each_storeField _ b w w1 l).get_eq (by simpa using fun a ha => (he a ha).symm)
    · rw [ih _ hl hd, storeField_get_storeField_ne s b w w1 (he d hd)]

/-- No two fields of a one-word register of the map begin at the same bit. -/
theorem registerMap_fields_apart : ∀ d ∈ registerMap, d.words = 1 →
    d.flds.Pairwise fun a c => 8 * a.f.off + a.f.lo ≠ 8 * c.f.off + c.f.lo := by decide +kernel

/-- Each field of a one-word register of the map takes what it would take alone. -/
theorem storeWord_get {x : Hit} (hx : x.d ∈ registerMap) (h1 : x.d.words = 1) (hd : d ∈ x.d.flds) :
    (s.storeWord x w w1).get x.b d.f = (s.storeField x.b w w1 d).get x.b d.f := by
  rw [storeWord_oneWord _ _ _ h1]
  refine each_storeField_get s x.b w w1 ((registerMap_fields_apart _ hx h1).imp fun h => ?_) hd
  unfold Fld.key
  omega

/-! ### A quantity of two words -/

/-- The low word is held, and the other words that are held stay (R9). -/
theorem storeWord_low {x : Hit} (hj : x.j = 0) (h2 : x.d.words = 2) (hx : x.d.flds = [d]) (hd : d.acc = .rw ∨ d.acc = .wk ∨ d.acc = .ws)
    (ho : s.obsAcc x.b d.f = false) :
    s.storeWord x w w1 = { s with held := (shadowKey x, (w : Int)) :: s.held.filter (·.1 != shadowKey x) } := by
  rcases hd with hd | hd | hd <;> simp [storeWord, hj, h2, hx, hd, ho]

/-- The high word joins the low word that is held (R9). -/
theorem storeWord_high {x : Hit} {lo : Int} (hj : x.j ≠ 0) (h2 : x.d.words = 2) (hx : x.d.flds = [d]) (hd : d.acc = .rw ∨ d.acc = .wk ∨ d.acc = .ws)
    (ho : s.obsAcc x.b d.f = false) (hl : s.heldLow (shadowKey x) = some lo) :
    s.storeWord x w w1 =
      { s.put x.b d.f (lo + 2 ^ 32 * w) with held := s.held.filter (·.1 != shadowKey x) } := by
  rcases hd with hd | hd | hd <;> simp [storeWord, hj, h2, hx, hd, ho, hl]

end State

/-! ### The statements -/

/-- Settles O16: a one-word register takes its word field by field, each as if alone, since no two of its fields begin at the same bit; the high word
of a two-word quantity finds the low word that was held. -/
theorem registerWrites : Obligations.RegisterWrites := by
  refine ⟨fun s x w w1 hx h1 => ⟨fun d hd ha => ?_, fun d hd ha => ?_, fun d hd ha => ?_, ?_⟩, fun s x d lo hi h2 hx hd ho _ => ?_⟩
  · rw [State.storeWord_get s w w1 hx h1 hd, State.storeField_of_writable ha, State.get_put_same]
  · rw [State.storeWord_get s w w1 hx h1 hd, State.storeField_of_readOnly ha]
  · rw [State.storeWord_get s w w1 hx h1 hd, State.storeField_of_w1c ha, State.clrSeen_get_same]
  · rw [State.storeWord_oneWord _ _ _ h1]
    exact State.only_each_storeField ..
  · intro t
    have ht : t = { s with held := (State.shadowKey x, (lo : Int)) :: s.held.filter (·.1 != State.shadowKey x) } :=
      State.storeWord_low s lo lo rfl h2 hx hd ho
    have hheld : t.heldLow (State.shadowKey x) = some (lo : Int) := by simp [ht, State.heldLow]
    have hot : t.obsAcc x.b d.f = false := by rw [ht]; exact ho
    have hhigh : t.storeWord { x with j := 1 } hi hi =
        { t.put x.b d.f (lo + 2 ^ 32 * hi) with held := t.held.filter (·.1 != State.shadowKey x) } :=
      State.storeWord_high t hi hi Nat.one_ne_zero h2 hx hd hot hheld
    rw [hhigh]
    exact ⟨by rw [ht], State.get_put_same .., State.only_put ..⟩

/-- Settles O3: nothing is stored as a difference from a reset value, so every field reads its own. -/
theorem resetLeaves : Obligations.ResetLeaves := by
  have hget (b : Nat) (f : Fld) : State.reset.get b f = f.dflt := Int.add_zero _
  have hrun (r : Nat) : State.reset.regionRun r = false := by
    match r with
    | 0 | 1 | 2 => rfl
    | _ + 3 => rfl
  have hport (i : Nat) : (State.reset.port i).out = [] := by
    match i with
    | 0 | 1 | 2 | 3 | 4 | 5 | 6 => rfl
    | _ + 7 => rfl
  refine ⟨hget, fun _ => rfl, rfl, rfl, rfl, hrun, rfl, rfl, hport, rfl, rfl, rfl, ?_⟩
  simp only [hget]
  decide

end Sys2Proof.Machine
end

section
/-!
PROOFS. What a step does to the chip time (R22, R49): an empty queue counts one tick, a row that may start the chip anew keeps
it or begins it at 0, and no other row moves it back. The case split over the rows is made once, for everything that `Keeps` says.
-/
namespace Sys2Proof

/-- The rows that may start the chip anew: power-on, a wake, the end of a sleep entry, of a flush or of RESET_N, and the test port (log entry 8). -/
def Instr.startsAnew : Instr → Bool
  | .powerOn _ | .wake _ _ | .sleepEntryComplete | .flushComplete | .resetNRelease _ | .tapUpdateIr _ | .tapReset => true
  | _ => false

/-- The row that clears the latch of the die shutdown (R55). -/
def Instr.clearsLatch : Instr → Bool
  | .shutdownLatchClear => true
  | _ => false

end Sys2Proof

namespace Sys2Proof.Machine

/-! ### Every row is an operation of the machine -/

/-- Only SHUTDOWN_LATCH_CLEAR clears the latch of the die shutdown, and only the rows that start the chip anew move the chip time back. -/
theorem Keeps.of_exec {i : Instr} {s t : State} (h : exec i s = .next t) : Keeps (!i.clearsLatch) (!i.startsAnew) s t := by
  cases i with
  | echo _ => exact .execEcho (refl s) h
  | identify _ => exact .execIdentify (refl s) h
  | readReg _ => exact .execReadReg (refl s) h
  | writeReg _ => exact .execWriteReg (refl s) h
  | modifyReg _ => exact .execModifyReg (refl s) h
  | statusSnapshot _ => exact .execStatusSnapshot (refl s) h
  | sleep _ => exact .execSleep (refl s) h
  | resetRegion _ => exact .execResetRegion (refl s) h
  | cfgRead _ => exact .execCfgRead (refl s) h
  | cfgStage _ => exact .execCfgStage (refl s) h
  | cfgCommit _ => exact .execCfgCommit (refl s) h
  | cfgSeal _ => exact .execCfgSeal (refl s) h
  | tableLoad _ => exact .execTableLoad (refl s) h
  | stnArm _ => exact .execStnArm (refl s) h
  | stnRun _ => exact .execStnRun (refl s) h
  | stnSetpoint _ => exact .execStnSetpoint (refl s) h
  | stnStop _ => exact .execStnStop (refl s) h
  | stnDiag _ => exact .execStnDiag (refl s) h
  | stnSizing _ => exact .execStnSizing (refl s) h
  | bankSwap _ => exact .execBankSwap (refl s) h
  | axisMove _ => exact .execAxisMove (refl s) h
  | axisRetarget _ => exact .execAxisRetarget (refl s) h
  | axisStop _ => exact .execAxisStop (refl s) h
  | axisGroup _ => exact .execAxisGroup (refl s) h
  | axisFollow _ => exact .execAxisFollow (refl s) h
  | svcStart _ => exact .execSvcStart (refl s) h
  | svcParam _ => exact .execSvcParam (refl s) h
  | svcStop _ => exact .execSvcStop (refl s) h
  | shareCfg _ => exact .execShareCfg (refl s) h
  | evtArm _ => exact .execEvtArm (refl s) h
  | evtCancel _ => exact .execEvtCancel (refl s) h
  | recRead _ => exact .execRecRead (refl s) h
  | recTriggerCfg _ => exact .execRecTriggerCfg (refl s) h
  | canCfg _ => exact .execCanCfg (refl s) h
  | canRecover _ => exact .execCanRecover (refl s) h
  | timeMaster _ => exact .execTimeMaster (refl s) h
  | canSend _ => exact .execCanSend (refl s) h
  | canFetch _ => exact .execCanFetch (refl s) h
  | canAck _ => exact .execCanAck (refl s) h
  | mbxPost _ => exact .execMbxPost (refl s) h
  | mbxFetch _ => exact .execMbxFetch (refl s) h
  | dblRing _ => exact .execDblRing (refl s) h
  | faultRead _ => exact .execFaultRead (refl s) h
  | faultClear _ => exact .execFaultClear (refl s) h
  | mastership _ => exact .execMastership (refl s) h
  | testmuxSel _ => exact .execTestmuxSel (refl s) h
  | selftest _ => exact .execSelftest (refl s) h
  | registerWrite _ _ => exact .execRegisterWrite (refl s) h
  | pfPosWrite _ _ => exact .execPfPosWrite (refl s) h
  | pfCtrlSourceChange _ _ => exact .execPfCtrlSourceChange (refl s) h
  | axsPosWrite _ _ => exact .execAxsPosWrite (refl s) h
  | comOfsWrite _ _ => exact .execComOfsWrite (refl s) h
  | pwmHperWrite _ _ _ => exact .execPwmHperWrite (refl s) h
  | vgdSetChange _ => exact .execVgdSetChange (refl s) h
  | vgdSettled => exact .execVgdSettled (refl s) h
  | hostWatchdogArm _ => exact .execHostWatchdogArm (refl s) h
  | lenCfgWrite _ _ _ => exact .execLenCfgWrite (refl s) h
  | lenAccWrite _ _ _ => exact .execLenAccWrite (refl s) h
  | canEnable _ => exact .execCanEnable (refl s) h
  | canDisable _ => exact .execCanDisable (refl s) h
  | hatbandEnable _ => exact .execHatbandEnable (refl s) h
  | recSoftWrite _ => exact .execRecSoftWrite (refl s) h
  | spiWindow _ => exact .execSpiWindow (refl s) h
  | uartPacketReceived _ => exact .execUartPacketReceived (refl s) h
  | uartGapTimeout _ => exact .execUartGapTimeout (refl s) h
  | uartPacketSend => exact .execUartPacketSend (refl s) h
  | tunnelSegmentReceived _ _ _ => exact .execTunnelSegmentReceived (refl s) h
  | tunnelSegmentTimeout _ => exact .execTunnelSegmentTimeout (refl s) h
  | forwardedCommand _ _ => exact .execForwardedCommand (refl s) h
  | forwardTimeout _ => exact .execForwardTimeout (refl s) h
  | completionTimeout _ => exact .execCompletionTimeout (refl s) h
  | hostWatchdogExpiry => exact .execHostWatchdogExpiry (refl s) h
  | powerOn _ => exact .execPowerOn (refl s) h
  | startUpComplete => exact .execStartUpComplete (refl s) h
  | startNoReference => exact .execStartNoReference (refl s) h
  | resetN => exact .execResetN (refl s) h
  | resetNRelease _ => exact .execResetNRelease (refl s) h
  | brownout => exact .execBrownout (refl s) h
  | powerFailWarning => exact .execPowerFailWarning (refl s) h
  | powerFailRecovery => exact .execPowerFailRecovery (refl s) h
  | flushComplete => exact .execFlushComplete (refl s) h
  | vinOvervoltage _ => exact .execVinOvervoltage (refl s) h
  | buckBoostCurrentLimit _ => exact .execBuckBoostCurrentLimit (refl s) h
  | vgdUv => exact .execVgdUv (refl s) h
  | vgdCollapse => exact .execVgdCollapse (refl s) h
  | shutdownLatchClear => exact .execShutdownLatchClear (refl s) h
  | referenceLoss _ => exact .execReferenceLoss (refl s) h
  | referenceReturn _ => exact .execReferenceReturn (refl s) h
  | sleepEntryComplete => exact .execSleepEntryComplete (refl s) h
  | wake _ _ => exact .execWake (refl s) h
  | presenceKeyValid _ => exact .execPresenceKeyValid (refl s) h
  | presenceKeyRelease _ => exact .execPresenceKeyRelease (refl s) h
  | commitFinish _ => exact .execCommitFinish (refl s) h
  | positionCoarseEdge _ _ _ _ _ => exact .execPositionCoarseEdge (refl s) h
  | positionFineSample _ _ _ _ _ _ => exact .execPositionFineSample (refl s) h
  | acquisitionTimeout _ => exact .execAcquisitionTimeout (refl s) h
  | psFrameTrigger _ _ => exact .execPsFrameTrigger (refl s) h
  | psFrameEnd _ _ _ _ _ _ _ _ _ => exact .execPsFrameEnd (refl s) h
  | repeaterEdgeEmit _ _ => exact .execRepeaterEdgeEmit (refl s) h
  | sizingComplete _ _ _ => exact .execSizingComplete (refl s) h
  | schedulerTick _ _ => exact .execSchedulerTick (refl s) h
  | currentLoopUpdate _ _ _ => exact .execCurrentLoopUpdate (refl s) h
  | pwmSyncLoad _ _ => exact .execPwmSyncLoad (refl s) h
  | pwmSyncEnd _ => exact .execPwmSyncEnd (refl s) h
  | sdstuck _ => exact .execSdstuck (refl s) h
  | alignStep _ _ => exact .execAlignStep (refl s) h
  | bootstrapUndervoltage _ _ _ => exact .execBootstrapUndervoltage (refl s) h
  | bootstrapRefreshPulse _ _ _ => exact .execBootstrapRefreshPulse (refl s) h
  | armComplete _ _ _ => exact .execArmComplete (refl s) h
  | diagComplete _ _ _ _ _ _ _ _ _ => exact .execDiagComplete (refl s) h
  | vdsTrip _ _ _ _ => exact .execVdsTrip (refl s) h
  | gateFollowFail _ _ => exact .execGateFollowFail (refl s) h
  | ocSoftTrip _ _ _ => exact .execOcSoftTrip (refl s) h
  | ochard _ _ => exact .execOchard (refl s) h
  | lflt _ _ => exact .execLflt (refl s) h
  | lrdy _ _ => exact .execLrdy (refl s) h
  | turnoffMidHoldEnd _ => exact .execTurnoffMidHoldEnd (refl s) h
  | turnoffComplete _ => exact .execTurnoffComplete (refl s) h
  | stoActive _ _ _ => exact .execStoActive (refl s) h
  | stoRelease _ => exact .execStoRelease (refl s) h
  | stoDiscrepancy _ => exact .execStoDiscrepancy (refl s) h
  | busSample _ _ _ _ => exact .execBusSample (refl s) h
  | busuv _ => exact .execBusuv (refl s) h
  | chnofb _ => exact .execChnofb (refl s) h
  | choc _ _ => exact .execChoc (refl s) h
  | chstuck _ => exact .execChstuck (refl s) h
  | zeroVectorBrakingEnd _ => exact .execZeroVectorBrakingEnd (refl s) h
  | prechargeDone _ => exact .execPrechargeDone (refl s) h
  | prechg _ => exact .execPrechg (refl s) h
  | temperatureConversion _ _ => exact .execTemperatureConversion (refl s) h
  | extTemperatureConversion _ _ => exact .execExtTemperatureConversion (refl s) h
  | observerOpenEval _ _ _ _ _ => exact .execObserverOpenEval (refl s) h
  | rotationCheck _ => exact .execRotationCheck (refl s) h
  | reverseWaitTimeout _ => exact .execReverseWaitTimeout (refl s) h
  | startAlignEnd _ => exact .execStartAlignEnd (refl s) h
  | startHandoverTimeout _ => exact .execStartHandoverTimeout (refl s) h
  | catchStopped _ => exact .execCatchStopped (refl s) h
  | catchTimeout _ => exact .execCatchTimeout (refl s) h
  | loopSlotUpdate _ _ _ => exact .execLoopSlotUpdate (refl s) h
  | bankSwapBoundary _ _ _ => exact .execBankSwapBoundary (refl s) h
  | setpointConversion _ _ _ => exact .execSetpointConversion (refl s) h
  | setpointPulseEdge _ _ _ => exact .execSetpointPulseEdge (refl s) h
  | splos _ _ => exact .execSplos (refl s) h
  | sloterr _ _ => exact .execSloterr (refl s) h
  | lenerr _ => exact .execLenerr (refl s) h
  | linkUp _ _ => exact .execLinkUp (refl s) h
  | linkDelayMeasure _ _ => exact .execLinkDelayMeasure (refl s) h
  | lnkloss _ => exact .execLnkloss (refl s) h
  | lnklate _ => exact .execLnklate (refl s) h
  | lnkid _ _ => exact .execLnkid (refl s) h
  | lnkflap _ => exact .execLnkflap (refl s) h
  | linkRetrain _ => exact .execLinkRetrain (refl s) h
  | shareCycleStart _ => exact .execShareCycleStart (refl s) h
  | hatbandFrameReceived _ _ _ _ _ _ _ _ => exact .execHatbandFrameReceived (refl s) h
  | shareCycleUse _ => exact .execShareCycleUse (refl s) h
  | allocloss _ => exact .execAllocloss (refl s) h
  | rootTimeout => exact .execRootTimeout (refl s) h
  | alone => exact .execAlone (refl s) h
  | nosync => exact .execNosync (refl s) h
  | serviceTick _ => exact .execServiceTick (refl s) h
  | spooldev _ => exact .execSpooldev (refl s) h
  | heaveloss _ => exact .execHeaveloss (refl s) h
  | pmsloss _ => exact .execPmsloss (refl s) h
  | shedKeepEnd _ => exact .execShedKeepEnd (refl s) h
  | serviceTokenTimeout => exact .execServiceTokenTimeout (refl s) h
  | brakeReleaseDelayEnd _ => exact .execBrakeReleaseDelayEnd (refl s) h
  | stopDwellEnd _ => exact .execStopDwellEnd (refl s) h
  | holdBrakeUnload _ => exact .execHoldBrakeUnload (refl s) h
  | holdBrakeEnd _ => exact .execHoldBrakeEnd (refl s) h
  | stopto _ => exact .execStopto (refl s) h
  | isolationEntry _ => exact .execIsolationEntry (refl s) h
  | isolationEnd _ => exact .execIsolationEnd (refl s) h
  | plannerTick _ _ => exact .execPlannerTick (refl s) h
  | axisStep _ _ => exact .execAxisStep (refl s) h
  | axisGroupStart _ _ => exact .execAxisGroupStart (refl s) h
  | axisChopperCycle _ _ => exact .execAxisChopperCycle (refl s) h
  | axisChopperNoreach _ _ => exact .execAxisChopperNoreach (refl s) h
  | axoc _ => exact .execAxoc (refl s) h
  | axisStandby _ => exact .execAxisStandby (refl s) h
  | axisEnergised _ _ => exact .execAxisEnergised (refl s) h
  | axisStepInputEdge _ _ _ => exact .execAxisStepInputEdge (refl s) h
  | canFrameReceived _ _ _ _ => exact .execCanFrameReceived (refl s) h
  | canRxNoticeDelay _ => exact .execCanRxNoticeDelay (refl s) h
  | canFrameSent _ _ => exact .execCanFrameSent (refl s) h
  | canTxTimeout _ _ => exact .execCanTxTimeout (refl s) h
  | canRecoveryComplete _ => exact .execCanRecoveryComplete (refl s) h
  | txdDominantTimeout _ => exact .execTxdDominantTimeout (refl s) h
  | timeReferenceSend _ _ => exact .execTimeReferenceSend (refl s) h
  | timeReferenceReceived _ _ _ => exact .execTimeReferenceReceived (refl s) h
  | timeBackupActivate _ => exact .execTimeBackupActivate (refl s) h
  | ntloss _ => exact .execNtloss (refl s) h
  | cellError _ => exact .execCellError (refl s) h
  | blockError _ => exact .execBlockError (refl s) h
  | steamingEnd _ _ => exact .execSteamingEnd (refl s) h
  | ramScrub _ => exact .execRamScrub (refl s) h
  | regionError _ _ => exact .execRegionError (refl s) h
  | regionRestartComplete _ => exact .execRegionRestartComplete (refl s) h
  | arberr => exact .execArberr (refl s) h
  | heartbeatSend _ => exact .execHeartbeatSend (refl s) h
  | heartbeatReceived _ => exact .execHeartbeatReceived (refl s) h
  | heartbeatMiss _ => exact .execHeartbeatMiss (refl s) h
  | recordCapture => exact .execRecordCapture (refl s) h
  | recordNvaWrite => exact .execRecordNvaWrite (refl s) h
  | recorderBucketRefill => exact .execRecorderBucketRefill (refl s) h
  | tapUpdateIr _ => exact .execTapUpdateIr (refl s) h
  | tapReset => exact .execTapReset (refl s) h
  | positionSpeedUpdate _ _ => exact .execPositionSpeedUpdate (refl s) h
  | uartIdleResync => exact .execUartIdleResync (refl s) h
  | forwardedReplyReceived _ _ => exact .execForwardedReplyReceived (refl s) h
  | canBusIntegrated _ => exact .execCanBusIntegrated (refl s) h
  | canErrorDetected _ _ _ _ => exact .execCanErrorDetected (refl s) h
  | linkPulseInputEdge _ _ _ _ _ => exact .execLinkPulseInputEdge (refl s) h
  | pwmCarrierEdge _ _ _ => exact .execPwmCarrierEdge (refl s) h

/-! ### A start of the chip -/

/-- The chip time of `t` has not fallen since `s`, or begins at 0. -/
def State.OnOrAnew (s t : State) : Prop := s.time ≤ t.time ∨ t.time = 0

theorem State.OnOrAnew.ite {c : Prop} [Decidable c] {s a b : State} (ha : s.OnOrAnew a) (hb : s.OnOrAnew b) : s.OnOrAnew (if c then a else b) := by
  split <;> assumption

namespace State

theorem each_time {α : Type} {g : α → State → State} (hg : ∀ a s, (g a s).time = s.time) (s : State) (l : List α) :
    (s.each l g).time = s.time := by
  induction l generalizing s with
  | nil => rfl
  | cons a r ih => exact (ih (g a s)).trans (hg a s)

@[simp] theorem puts_time (s : State) (b : Nat) (l : List (Fld × Int)) : (s.puts b l).time = s.time := by
  induction l generalizing s with
  | nil => rfl
  | cons e r ih => exact ih (s.put b e.1 e.2)

@[simp] theorem puts_chip (s : State) (b : Nat) (l : List (Fld × Int)) : (s.puts b l).chip = s.chip := by
  induction l generalizing s with
  | nil => rfl
  | cons e r ih => exact ih (s.put b e.1 e.2)

@[simp] theorem putCause_chip (s : State) (fs : List Fld) : (s.putCause fs).chip = s.chip := puts_chip ..

@[simp] theorem enterRestricted_time (s : State) : s.enterRestricted.time = s.time :=
  each_time (g := fun r s => s.setRegion r .run) (fun _ _ => rfl) ..

/-- With no valid fuse copy the chip stays in reset (R28). -/
theorem bootChip_time_of_blank {s : State} (h : s.fusePart = none) : s.bootChip.time = s.time := by simp [bootChip, h]

/-- With a part the chip time begins at 0, with a reference or without (R49). -/
theorem bootChip_time_of_part {s : State} {p : Part × Bool} (h : s.fusePart = some p) : s.bootChip.time = 0 := by
  simp only [bootChip, h]
  split <;> simp

theorem fusePart_of_fuseA {s : State} (h : s.chip.fuseA.isSome = true) : ∃ p, s.fusePart = some p := by
  obtain ⟨a, ha⟩ := Option.isSome_iff_exists.mp h
  cases hb : s.chip.fuseB <;> simp [fusePart, ha, hb]

theorem bootChip_time_of_fuseA {s : State} (h : s.chip.fuseA.isSome = true) : s.bootChip.time = 0 := by
  obtain ⟨p, hp⟩ := fusePart_of_fuseA h
  exact bootChip_time_of_part hp

/-- A chip that nothing holds boots once its rails are up. -/
theorem railsUp_time {s : State} (b : Boot) (cause : List Fld) (hlow : s.chip.resetLow = false) (hhold : s.chip.tapHold = false)
    (hfuse : s.chip.fuseA.isSome = true) : (s.railsUp b cause).time = 0 := by
  simp only [railsUp, withChip_chip, putCause_chip, puts_chip, hlow, hhold, Bool.or_self, Bool.false_eq_true, if_false]
  exact bootChip_time_of_fuseA (by simpa using hfuse)

end State

/-! ### The rows that may start the chip anew

Each of them is an operation that does not move the chip time back, then at most a boot. -/

namespace Keeps

variable {lat : Bool} {s0 s : State}

theorem onOrAnew {t : State} (hk : Keeps lat true s0 t) : s0.OnOrAnew t := .inl (hk.time rfl)

theorem bootChip_onOrAnew (hk : Keeps lat true s0 s) : s0.OnOrAnew s.bootChip := by
  cases hp : s.fusePart with
  | none => exact .inl (State.bootChip_time_of_blank hp ▸ hk.time rfl)
  | some p => exact .inr (State.bootChip_time_of_part hp)

theorem leaveReset_onOrAnew (hk : Keeps lat true s0 s) : s0.OnOrAnew s.leaveReset := .ite (bootChip_onOrAnew hk) (onOrAnew hk)

theorem railsUp_onOrAnew {b : Boot} {cause : List Fld} (hk : Keeps lat true s0 s) : s0.OnOrAnew (s.railsUp b cause) := by
  have hup := withChip (g := fun c => { c with boot := b, vinLost := false, wakePend := none, mbxLost := true })
    (putCause (fs := cause) (puts (b := 0) (l := [(F.FLT_CHIP_CODE, 0), (F.CHIP_PWR_STAT_VIO_18, b2i b.vio18), (F.CHIP_PWR_STAT_VGD_OK, 1)]) hk))
    ⟨rfl, rfl, rfl, id⟩
  exact .ite (onOrAnew (withChip hup ⟨rfl, rfl, rfl, id⟩)) (bootChip_onOrAnew hup)

theorem powerOn_onOrAnew {b : Boot} (hk : Keeps lat true s0 s) : s0.OnOrAnew (s.powerOn b) :=
  .ite (onOrAnew hk) (.ite (onOrAnew (withChip hk ⟨rfl, rfl, rfl, id⟩)) (railsUp_onOrAnew hk))

theorem wake_onOrAnew {c : WakeCause} {b : Boot} (hk : Keeps lat true s0 s) : s0.OnOrAnew (s.wake c b) :=
  have hp := pinLevel (c := c) hk
  .ite (onOrAnew hp) (.ite (railsUp_onOrAnew hp) (.ite (onOrAnew (withChip hp ⟨rfl, rfl, rfl, id⟩)) (onOrAnew hp)))

theorem sleepDone_onOrAnew (hk : Keeps lat true s0 s) : s0.OnOrAnew s.sleepDone := by
  have hoff := withChip (g := fun c => { State.tapDark c with phase := .asleep, wakePend := none })
    (wipe (kept := State.pinFields) (ite (c := s.log.flush.isSome = true) (flushWork (k := .sleep) hk) hk)) ⟨rfl, rfl, rfl, id⟩
  refine .ite (onOrAnew hk) ?_
  dsimp only
  split
  · exact railsUp_onOrAnew hoff
  · exact onOrAnew hoff

theorem enterReset_onOrAnew (hk : Keeps lat true s0 s) : s0.OnOrAnew s.enterReset :=
  leaveReset_onOrAnew (withChip (putCause (wipe (ite hk (put hk)))) ⟨rfl, rfl, rfl, id⟩)

theorem flushComplete_onOrAnew (hk : Keeps lat true s0 s) : s0.OnOrAnew s.flushComplete := by
  unfold State.flushComplete
  split
  · exact onOrAnew hk
  · next k _ =>
    have hw := flushWork (k := k) hk
    cases k with
    | powerFail => exact onOrAnew (put hw)
    | reset => exact enterReset_onOrAnew hw
    | shutdown => exact onOrAnew (withChip (wipe hw) ⟨rfl, rfl, rfl, id⟩)
    | sleep => exact onOrAnew hw

theorem resetRelease_onOrAnew {b : Boot} (hk : Keeps lat true s0 s) : s0.OnOrAnew (s.resetRelease b) :=
  .ite (onOrAnew hk) (leaveReset_onOrAnew (withChip hk ⟨rfl, rfl, rfl, id⟩))

theorem tapIr_onOrAnew {code : Nat} (hk : Keeps lat true s0 s) : s0.OnOrAnew (s.tapIr code) :=
  have hi := withChip (g := fun c => { c with ir := State.tapInstr code, tapOff := false, tapHold := State.intrusive (State.tapInstr code) })
    (loadLatches (i := State.tapInstr code) hk) ⟨rfl, rfl, rfl, id⟩
  .ite (onOrAnew hk) (.ite (onOrAnew (ite (resetTaken hi) hi)) (leaveReset_onOrAnew hi))

theorem tapReset_onOrAnew (hk : Keeps lat true s0 s) : s0.OnOrAnew s.tapReset := leaveReset_onOrAnew (withChip hk ⟨rfl, rfl, rfl, id⟩)

/-- A row that may start the chip anew moves the chip time back to 0 alone. -/
theorem exec_onOrAnew {i : Instr} {t : State} (hi : i.startsAnew = true) (h : Machine.exec i s = .next t) : s.OnOrAnew t := by
  have hs : Keeps true true s s := refl s
  unfold Instr.startsAnew at hi
  split at hi
  · exact Host.Outcome.next.inj h ▸ powerOn_onOrAnew hs
  · exact Host.Outcome.next.inj h ▸ wake_onOrAnew hs
  · exact Host.Outcome.next.inj h ▸ sleepDone_onOrAnew hs
  · exact Host.Outcome.next.inj h ▸ flushComplete_onOrAnew hs
  · exact Host.Outcome.next.inj h ▸ resetRelease_onOrAnew hs
  · exact Host.Outcome.next.inj h ▸ tapIr_onOrAnew hs
  · exact Host.Outcome.next.inj h ▸ tapReset_onOrAnew hs
  · cases hi

end Keeps

/-! ### An empty queue -/

/-- The chip timebase runs from Step 4 of Table PW-5 until the arbiter is in reset, and through the flush of a die shutdown (R22, R49). -/
theorem State.ticking_iff (s : State) :
    s.ticking = true ↔ s.chip.phase ∈ [Phase.starting, .restricted, .running, .sleepEntry, .resetFlush] ∨
      (s.chip.phase = .shutdown ∧ s.log.flush.isSome = true) := by
  cases hp : s.chip.phase <;> simp [ticking, hp]

theorem step_of_empty {s : State} (hs : s.pending = []) : step s = .next s.idle := by rw [step, hs]

/-! ### The statements -/

/-- Settles O2: an empty queue idles, and the count goes on exactly in the phases in which the timebase runs. -/
theorem stepIdles : Obligations.StepIdles := by
  intro s hs
  rw [step_of_empty hs, State.idle]
  simp only [State.ticking_iff]

/-- Settles O9: a row that starts nothing anew keeps the time as `Keeps` has it; the others end, at most, in a boot, which begins it at 0. A chip
off that nothing holds, with a valid fuse copy, does boot at power-on. -/
theorem timeNeverFalls : Obligations.TimeNeverFalls := by
  refine ⟨fun i s t h => ?_, fun s b hoff hlatch hlow hhold hfuse => ⟨_, rfl, ?_⟩⟩
  · have hkeep : i.startsAnew = false → s.time ≤ t.time := fun hi => (Keeps.of_exec h).time (by rw [hi]; rfl)
    have hanew : i.startsAnew = true → s.OnOrAnew t := fun hi => Keeps.exec_onOrAnew hi h
    split
    iterate 7 exact hanew rfl
    · exact hkeep (by simp [Instr.startsAnew])
  · rw [State.powerOn, if_neg (not_not_intro hoff), if_neg (by simp [hlatch])]
    exact State.railsUp_time b _ hlow hhold hfuse

end Sys2Proof.Machine
end

section
/-!
PROOFS. The part that the two copies of the fuses give (R28): `partRank` orders the parts by the half B first and the G law second, so the
copy of lower rank is the one that enables fewer functions.
-/
namespace Sys2Proof.Machine

namespace State

/-! ### The order of the parts -/

theorem gLaw_le_one (p : Part) : (partBits p).2.2 ≤ 1 := by cases p <;> decide

/-- The rank of a part is the number whose two bits are `HALF_B` and `G_LAW`. -/
theorem partRank_eq_bits (p : Part) : partRank p = 2 * (partBits p).2.1 + (partBits p).2.2 := by cases p <;> rfl

theorem halfB_le_of_partRank_le {a b : Part} (h : partRank a ≤ partRank b) : (partBits a).2.1 ≤ (partBits b).2.1 := by
  have hb := gLaw_le_one b
  rw [partRank_eq_bits, partRank_eq_bits] at h
  omega

theorem gLaw_le_of_partRank_le {a b : Part} (h : partRank a ≤ partRank b) (hhalf : (partBits a).2.1 = (partBits b).2.1) :
    (partBits a).2.2 ≤ (partBits b).2.2 := by
  rw [partRank_eq_bits, partRank_eq_bits] at h
  omega

/-! ### What the copies give -/

variable {s : State} {a b : Part}

theorem fusePart_of_both (ha : s.chip.fuseA = some a) (hb : s.chip.fuseB = some b) :
    s.fusePart = some (if partRank a ≤ partRank b then a else b, a != b || s.chip.grade.1 != s.chip.grade.2) := by
  simp only [fusePart, ha, hb]

theorem fusePart_of_fuseA_alone (ha : s.chip.fuseA = some a) (hb : s.chip.fuseB = none) : s.fusePart = some (a, true) := by
  simp only [fusePart, ha, hb]

theorem fusePart_of_fuseB_alone (ha : s.chip.fuseA = none) (hb : s.chip.fuseB = some b) : s.fusePart = some (b, true) := by
  simp only [fusePart, ha, hb]

theorem fusePart_of_blank (ha : s.chip.fuseA = none) (hb : s.chip.fuseB = none) : s.fusePart = none := by
  simp only [fusePart, ha, hb]

end State

/-! ### The statement -/

/-- Settles O33: of two valid copies the one of lower rank is used, and the lower rank has the lesser `HALF_B` and, with `HALF_B` alike, the lesser
`G_LAW`. -/
theorem fuseCopies : Obligations.FuseCopies := by
  intro s a b
  refine ⟨fun ha hb => ⟨_, State.fusePart_of_both ha hb, ?_⟩, State.fusePart_of_fuseA_alone, State.fusePart_of_fuseB_alone, State.fusePart_of_blank⟩
  split
  · next hle =>
    exact ⟨.inl rfl, (min_eq_left (State.halfB_le_of_partRank_le hle)).symm,
      fun hhalf => (min_eq_left (State.gLaw_le_of_partRank_le hle hhalf)).symm⟩
  · next hnot =>
    have hle := Nat.le_of_not_ge hnot
    exact ⟨.inr rfl, (min_eq_right (State.halfB_le_of_partRank_le hle)).symm,
      fun hhalf => (min_eq_right (State.gLaw_le_of_partRank_le hle hhalf.symm)).symm⟩

end Sys2Proof.Machine
end

section
/-!
PROOFS. What the work of the blocks leaves alone, said once per operation: `RegWork` for an operation on register fields only, `Calm` for one that also
sends packets, records triggers and enters faults. Neither touches the chip-level state, nor which flush runs, nor makes a tag busy.
-/
namespace Sys2Proof.Machine

/-- `t` comes from `s` by writes of register fields alone, and by what an axis drops of the table it had. -/
structure RegWork (s t : State) : Prop where
  rest : { t with regs := s.regs, marks := s.marks, axOld := s.axOld } = s

/-- `t` comes from `s` with the chip-level state and the kind of the flush that runs as they were, and with no tag busy that was not. -/
structure Calm (s t : State) : Prop where
  chip  : t.chip = s.chip
  flush : t.log.flush = s.log.flush
  tags  : ∀ tag, s.tagBusy tag = false → t.tagBusy tag = false

/-! ### Work on registers alone -/

namespace RegWork

variable {s0 s t : State}

theorem refl (s : State) : RegWork s s := ⟨rfl⟩

theorem trans {u : State} (h : RegWork s t) (k : RegWork t u) : RegWork s u where
  rest :=
    have hu : { u with regs := s.regs, marks := s.marks, axOld := s.axOld } = { t with regs := s.regs, marks := s.marks, axOld := s.axOld } :=
      congrArg (fun q : State => { q with regs := s.regs, marks := s.marks, axOld := s.axOld }) k.rest
    hu.trans h.rest

theorem chip (h : RegWork s t) : t.chip = s.chip := (congrArg State.chip h.rest :)
theorem mil (h : RegWork s t) : t.mil = s.mil := (congrArg State.mil h.rest :)
theorem log (h : RegWork s t) : t.log = s.log := (congrArg State.log h.rest :)
theorem cfg (h : RegWork s t) : t.cfg = s.cfg := (congrArg State.cfg h.rest :)
theorem flt (h : RegWork s t) : t.flt = s.flt := (congrArg State.flt h.rest :)
theorem tabs (h : RegWork s t) : t.tabs = s.tabs := (congrArg State.tabs h.rest :)

theorem ite {c : Prop} [Decidable c] {a b : State} (ha : RegWork s0 a) (hb : RegWork s0 b) : RegWork s0 (if c then a else b) := by
  split <;> assumption

theorem each {α : Type} {l : List α} {g : α → State → State} (h : RegWork s0 s) (hg : ∀ a s, RegWork s0 s → RegWork s0 (g a s)) :
    RegWork s0 (s.each l g) := by
  induction l generalizing s with
  | nil => exact h
  | cons a r ih => exact ih (hg a s h)

/-- A fold that carries a state beside what it collects. -/
theorem foldl_proj {α β : Type} (p : β → State) {l : List α} {g : β → α → β} {b : β} (h : RegWork s0 (p b))
    (hg : ∀ b a, RegWork s0 (p b) → RegWork s0 (p (g b a))) : RegWork s0 (p (l.foldl g b)) := by
  induction l generalizing b with
  | nil => exact h
  | cons a r ih => exact ih (hg b a h)

theorem put {b : Nat} {f : Fld} {v : Int} (h : RegWork s0 s) : RegWork s0 (s.put b f v) := h.trans ⟨rfl⟩
theorem regs {x : Sparse} (h : RegWork s0 s) : RegWork s0 { s with regs := x } := h.trans ⟨rfl⟩
theorem flag {b : Nat} {f : Fld} {v : Bool} (h : RegWork s0 s) : RegWork s0 (s.flag b f v) := put h
theorem bump {b : Nat} {f : Fld} (h : RegWork s0 s) : RegWork s0 (s.bump b f) := h.trans ⟨rfl⟩

theorem setBit {b : Nat} {f : Fld} {i : Nat} {v : Bool} (h : RegWork s0 s) : RegWork s0 (s.setBit b f i v) :=
  ite (h.trans ⟨rfl⟩) (h.trans ⟨rfl⟩)

theorem puts {b : Nat} {l : List (Fld × Int)} (h : RegWork s0 s) : RegWork s0 (s.puts b l) := by
  induction l generalizing s with
  | nil => exact h
  | cons e r ih => exact ih (put h)

/-! Stations and axes -/

theorem dropEnables {n : Nat} (h : RegWork s0 s) : RegWork s0 (s.dropEnables n) := puts (puts (puts (puts h)))
theorem putStoOff {k : Nat} (h : RegWork s0 s) : RegWork s0 (s.putStoOff k) := flag h

theorem turnOff {n : Nat} (h : RegWork s0 s) : RegWork s0 (s.turnOff n) :=
  have hd := dropEnables (n := n) h
  ite (putStoOff (puts hd)) (ite hd (puts hd))

theorem endSequences {n : Nat} (h : RegWork s0 s) : RegWork s0 (s.endSequences n) := puts (setBit h)
theorem axPutV {n : Nat} {v : Int} (h : RegWork s0 s) : RegWork s0 (s.axPutV n v) := puts h
theorem axLag {n : Nat} (h : RegWork s0 s) : RegWork s0 (s.axLag n) := put h
theorem axCut {n : Nat} (h : RegWork s0 s) : RegWork s0 (s.axCut n) := axLag (axPutV (put (ite (put h) h)))
theorem axFresh {n : Nat} {k : Bool} (h : RegWork s0 s) : RegWork s0 (s.axFresh n k) := h.trans ⟨rfl⟩
theorem axRenew {n : Nat} (h : RegWork s0 s) : RegWork s0 (s.axRenew n) := each h fun _ _ h => ite (put h) h
theorem axCoil {n : Nat} {c : Int} (h : RegWork s0 s) : RegWork s0 (s.axCoil n c) := axRenew (puts (ite h (axFresh (axFresh h))))
theorem axStandby {n : Nat} (h : RegWork s0 s) : RegWork s0 (s.axStandby n) := axCoil h

theorem cutHalf {k : Nat} (h : RegWork s0 s) : RegWork s0 (s.cutHalf k) :=
  each (each h fun _ _ h => put (ite h (endSequences (turnOff h)))) fun _ _ h => axCoil (axCut h)

theorem chgLow {k : Nat} (h : RegWork s0 s) : RegWork s0 (s.chgLow k) := put h
theorem preLow {k : Nat} (h : RegWork s0 s) : RegWork s0 (s.preLow k) := puts h
theorem cutOutputs (h : RegWork s0 s) : RegWork s0 s.cutOutputs := each h fun _ _ h => preLow (chgLow (ite (cutHalf h) h))

theorem startCarrier {n : Nat} (h : RegWork s0 s) : RegWork s0 (s.startCarrier n) := puts h
theorem putAngle {n : Nat} {c a : Int} (h : RegWork s0 s) : RegWork s0 (s.putAngle n c a) := puts h
theorem setValid {n : Nat} (h : RegWork s0 s) : RegWork s0 (s.setValid n) := flag (puts h)

theorem startAcq {n : Nat} {again : Bool} (h : RegWork s0 s) : RegWork s0 (s.startAcq n again) := by
  unfold State.startAcq
  extract_lets b s1 s2 s3 s4 c
  have h1 : RegWork s0 s1 := puts h
  have h2 : RegWork s0 s2 := ite (put h1) h1
  have h3 : RegWork s0 s3 := ite (put h2) h2
  have h4 : RegWork s0 s4 := ite (ite h3 (put h3)) (put h3)
  exact ite (setValid (putAngle (put (ite h4 (put h4))))) h4

theorem startStn {n : Nat} (h : RegWork s0 s) : RegWork s0 (s.startStn n) :=
  have ha := startAcq (n := n) (again := false) (startCarrier (n := n) (put (b := stnB n) (f := F.GC_STAT_OFF_CONF) (v := 1) h))
  ite ha (put ha)

theorem startAxs {n : Nat} (h : RegWork s0 s) : RegWork s0 (s.startAxs n) := ite (put h) (ite (axStandby (put h)) h)

/-! Slots, loads and the ring -/

theorem maskSlot {k m : Nat} (h : RegWork s0 s) : RegWork s0 (s.maskSlot k m) := each (put h) fun _ _ h => put h
theorem resetSlot {k m : Nat} (h : RegWork s0 s) : RegWork s0 (s.resetSlot k m) := puts h
theorem putLoad {k : Nat} (h : RegWork s0 s) : RegWork s0 (s.putLoad k) := put h
theorem putK {k : Nat} (h : RegWork s0 s) : RegWork s0 (s.putK k) := puts h
theorem putRing (h : RegWork s0 s) : RegWork s0 s.putRing := each (each (puts h) fun _ _ h => puts h) fun _ _ h => put h
theorem putSync {v : Bool} (h : RegWork s0 s) : RegWork s0 (s.putSync v) := flag (flag h)
theorem lnkEnter {l : Link} {st : Nat} (h : RegWork s0 s) : RegWork s0 (s.lnkEnter l st) := bump (put h)
theorem tmPause {c : Nat} (h : RegWork s0 s) : RegWork s0 (s.tmPause c) := puts h

theorem applyAlloc {n : Nat} (h : RegWork s0 s) : RegWork s0 (s.applyAlloc n) := by
  unfold State.applyAlloc
  refine ite (puts h) (ite h ?_)
  extract_lets rsn ap hit ok hold
  have hh : RegWork s0 (hold s) := puts h
  clear_value hit
  cases hit with
  | none => exact hh
  | some x => exact ite (bump (put hh)) (ite hh (put (puts h)))

/-! The values of an image -/

theorem putDefaultList {k : Nat} (h : RegWork s0 s) : RegWork s0 (s.putDefaultList k) := each (put h) fun _ _ h => put h
theorem trigDefault {k : Nat} (h : RegWork s0 s) : RegWork s0 (s.trigDefault k) := ite (putDefaultList (puts (regs h))) (puts (regs h))
theorem recDefaults (h : RegWork s0 s) : RegWork s0 s.recDefaults := each h fun _ _ h => trigDefault h
theorem clipLists (h : RegWork s0 s) : RegWork s0 s.clipLists := each h fun _ _ h => each h fun _ _ h => put h

theorem applyRecord {a m v : Nat} (h : RegWork s0 s) : RegWork s0 (s.applyRecord a m v) := by
  unfold State.applyRecord
  split
  · exact h
  · exact each h fun _ _ h => ite h (ite (put h) (put h))

theorem fixLaw {k : Nat} (h : RegWork s0 s) : RegWork s0 (s.fixLaw k) := ite h (each h fun _ _ h => ite (put h) h)

theorem fixRanges {l : List (Nat × Nat × Nat)} (h : RegWork s0 s) : RegWork s0 (s.fixRanges l).1 := by
  refine foldl_proj Prod.fst h fun a r ha => ?_
  split
  · exact ha
  · refine foldl_proj Prod.fst ha fun a d ha => ?_
    split
    · exact put ha
    · exact ha

theorem fixRels {r : Nat} (h : RegWork s0 s) : RegWork s0 (s.fixRels r).1 := by
  refine foldl_proj Prod.fst h fun a x ha => ?_
  split
  · exact ha
  · exact foldl_proj id ha fun _ _ h => put h

theorem fixLoad {k : Nat} (h : RegWork s0 s) : RegWork s0 (s.fixLoad k).1 := each h fun _ _ h => each h fun _ _ h => put h

end RegWork
end Sys2Proof.Machine
end

section
/-!
PROOFS. `Calm`, operation by operation: the work of the blocks, and what goes to the host, the recorder and the fault lists.
-/
namespace Sys2Proof.Machine

/-! ### The work of the blocks -/

/-- The commands that `unblock` leaves are among those it was given. -/
theorem tag_mem_of_unblock {ix : Nat} {l : List Busy} {b : Busy} (h : b ∈ (unblock ix l).1) : b.tag ∈ l.map (·.tag) := by
  induction l with
  | nil => cases h
  | cons a r ih =>
    rw [List.map_cons, List.mem_cons]
    simp only [unblock] at h
    split at h
    · rcases List.mem_cons.mp h with rfl | h
      · exact .inl rfl
      · exact .inr (ih h)
    · split at h
      · rcases List.mem_cons.mp h with rfl | h
        · exact .inl rfl
        · exact .inr (List.mem_map_of_mem h)
      · split at h
        · exact .inr (ih h)
        · rcases List.mem_cons.mp h with rfl | h
          · exact .inl rfl
          · exact .inr (ih h)

theorem State.tagBusy_eq_false_iff (s : State) (tag : Nat) : s.tagBusy tag = false ↔ tag ∉ s.mil.busy.map (·.tag) := by
  simp [State.tagBusy]

namespace Calm

variable {s0 s t : State}

theorem refl (s : State) : Calm s s := ⟨rfl, rfl, fun _ => id⟩

theorem trans {u : State} (h : Calm s t) (k : Calm t u) : Calm s u :=
  ⟨k.chip.trans h.chip, k.flush.trans h.flush, fun tag x => k.tags tag (h.tags tag x)⟩

theorem of_regWork (h : RegWork s t) : Calm s t :=
  ⟨h.chip, congrArg Recorder.flush h.log, fun _ hx => by rwa [State.tagBusy, h.mil]⟩

/-- Work on registers alone is calm wherever it comes. -/
theorem regWork (h : Calm s0 s) (k : RegWork s t) : Calm s0 t := h.trans (of_regWork k)

theorem ite {c : Prop} [Decidable c] {a b : State} (ha : Calm s0 a) (hb : Calm s0 b) : Calm s0 (if c then a else b) := by
  split <;> assumption

theorem each {α : Type} {l : List α} {g : α → State → State} (h : Calm s0 s) (hg : ∀ a s, Calm s0 s → Calm s0 (g a s)) :
    Calm s0 (s.each l g) := by
  induction l generalizing s with
  | nil => exact h
  | cons a r ih => exact ih (hg a s h)

theorem foldl {α : Type} {l : List α} {g : State → α → State} (h : Calm s0 s) (hg : ∀ s a, Calm s0 s → Calm s0 (g s a)) :
    Calm s0 (l.foldl g s) := by
  induction l generalizing s with
  | nil => exact h
  | cons a r ih => exact ih (hg s a h)

/-- A fold that carries a state beside what it collects. -/
theorem foldl_proj {α β : Type} (p : β → State) {l : List α} {g : β → α → β} {b : β} (h : Calm s0 (p b))
    (hg : ∀ b a, Calm s0 (p b) → Calm s0 (p (g b a))) : Calm s0 (p (l.foldl g b)) := by
  induction l generalizing b with
  | nil => exact h
  | cons a r ih => exact ih (hg b a h)

theorem put {b : Nat} {f : Fld} {v : Int} (h : Calm s0 s) : Calm s0 (s.put b f v) := regWork h (.put (.refl s))
theorem puts {b : Nat} {l : List (Fld × Int)} (h : Calm s0 s) : Calm s0 (s.puts b l) := regWork h (.puts (.refl s))
theorem flag {b : Nat} {f : Fld} {v : Bool} (h : Calm s0 s) : Calm s0 (s.flag b f v) := put h
theorem bump {b : Nat} {f : Fld} (h : Calm s0 s) : Calm s0 (s.bump b f) := regWork h (.bump (.refl s))

/-- What leaves the chip-level state, the recorder and Milliner's tags alone. -/
theorem other (h : Calm s0 s) (hc : t.chip = s.chip) (hl : t.log.flush = s.log.flush) (hm : t.mil.busy = s.mil.busy) : Calm s0 t :=
  h.trans ⟨hc, hl, fun _ hx => by rwa [State.tagBusy, hm]⟩

theorem withCan {c : Nat} {g : CanS → CanS} (h : Calm s0 s) : Calm s0 (s.withCan c g) := other h rfl rfl rfl
theorem withFlt {g : Faults → Faults} (h : Calm s0 s) : Calm s0 (s.withFlt g) := other h rfl rfl rfl
theorem withCfg {g : CfgStore → CfgStore} (h : Calm s0 s) : Calm s0 (s.withCfg g) := other h rfl rfl rfl
theorem withPort {i : Nat} {g : Port → Port} (h : Calm s0 s) : Calm s0 (s.withPort i g) := other h rfl rfl rfl
theorem withLog {g : Recorder → Recorder} (h : Calm s0 s) (hg : (g s.log).flush = s.log.flush) : Calm s0 (s.withLog g) :=
  other h rfl hg rfl

theorem withMil {g : Mil → Mil} (h : Calm s0 s) (hg : ∀ b ∈ (g s.mil).busy, b.tag ∈ s.mil.busy.map (·.tag)) : Calm s0 (s.withMil g) := by
  refine h.trans ⟨rfl, rfl, fun tag hx => ?_⟩
  rw [State.tagBusy_eq_false_iff] at hx ⊢
  intro hin
  obtain ⟨b, hb, rfl⟩ := List.mem_map.mp hin
  exact hx (hg b hb)

/-! Packets, triggers and faults -/

theorem queueReply {i : Nat} {p : Packet} (h : Calm s0 s) : Calm s0 (s.queueReply i p) := withPort h

theorem queueNotice {i ty : Nat} {body : List Nat} (h : Calm s0 s) : Calm s0 (s.queueNotice i ty body) :=
  ite (withPort h) (put (bump (withPort h)))

theorem notice {ty : Nat} {body : List Nat} (h : Calm s0 s) : Calm s0 (s.notice ty body) := by
  unfold State.notice
  split
  · extract_lets r b s1 s2
    have h1 : Calm s0 s1 := ite (queueNotice h) h
    have h2 : Calm s0 s2 := ite (queueNotice h1) h1
    exact ite (each h2 fun _ _ h => queueNotice h) h2
  · exact h

theorem freeTag {tag : Nat} (h : Calm s0 s) : Calm s0 (s.freeTag tag) :=
  withMil h fun _ hb => List.mem_map_of_mem (List.mem_filter.mp hb).1

theorem fwdTake {b : Busy} {p : Packet} (h : Calm s0 s) : Calm s0 (s.fwdTake b p).1 := by
  unfold State.fwdTake
  split
  · exact ite (freeTag h) h
  · dsimp only
    refine withMil h fun e he => ?_
    have htags : (s.mil.busy.map fun e => if e.tag == b.tag then { e with late := e.late ++ [p] } else e).map (·.tag) =
        s.mil.busy.map (·.tag) := by
      rw [List.map_map]
      refine List.map_congr_left fun e _ => ?_
      simp only [Function.comp]
      split <;> rfl
    exact htags ▸ tag_mem_of_unblock he

theorem answerAt {f : Nat} {tr : Transport} {p : Packet} (h : Calm s0 s) : Calm s0 (State.answerAt f s tr p) := by
  induction f generalizing s tr p with
  | zero =>
    cases tr with
    | own _ => exact h
    | _ => exact queueReply h
  | succ f ih =>
    cases tr with
    | own _ =>
      unfold State.answerAt
      split
      · exact foldl (fwdTake h) fun _ _ h => ih h
      · exact h
    | _ => exact queueReply h

theorem answer {tr : Transport} {p : Packet} (h : Calm s0 s) : Calm s0 (s.answer tr p) := answerAt h
theorem fwdAnswer {b : Busy} {p : Packet} (h : Calm s0 s) : Calm s0 (s.fwdAnswer b p) := foldl (fwdTake h) fun _ _ h => answer h

theorem completeB {b : Busy} {st d : Nat} {pay : List Nat} (h : Calm s0 s) : Calm s0 (s.completeB b st d pay) := answer (freeTag h)

theorem completeAll {op arg st d : Nat} {pay : List Nat} (h : Calm s0 s) : Calm s0 (s.completeAll op arg st d pay) :=
  each h fun _ _ h => completeB h

theorem loseTrig {k : Nat} (h : Calm s0 s) : Calm s0 (s.loseTrig k) := other h rfl rfl rfl
theorem addRepeat {t r code : Nat} (h : Calm s0 s) : Calm s0 (s.addRepeat t r code) := withLog h rfl

theorem fifoEnter {t r code q : Nat} {data : List Nat} (h : Calm s0 s) : Calm s0 (s.fifoEnter t r code q data) :=
  ite (loseTrig h) (ite (addRepeat h) (ite (loseTrig h) (withLog h rfl)))

theorem trigger {r t code : Nat} {data : List Nat} (h : Calm s0 s) : Calm s0 (s.trigger r t code data) := by
  unfold State.trigger
  split
  · exact h
  · extract_lets q s1 k s2
    have h1 : Calm s0 s1 := withLog h rfl
    have h2 : Calm s0 s2 := ite h1 (loseTrig h1)
    exact ite (fifoEnter h1) (ite (loseTrig h1) (ite (fifoEnter (withLog h2 rfl)) (withLog h1 rfl)))

theorem enterList {u : FUnit} {code : Nat} (h : Calm s0 s) : Calm s0 (s.enterList u code) :=
  ite (withFlt h) (ite (withFlt h) (notice (withFlt h)))

theorem raise {u : FUnit} {code : Nat} {data : List Nat} (h : Calm s0 s) : Calm s0 (s.raise u code data) :=
  ite (enterList h) (trigger (enterList h))

/-! CAN controllers -/

theorem canAbort {c st : Nat} (h : Calm s0 s) : Calm s0 (s.canAbort c st) := by
  unfold State.canAbort
  exact withCan (each h fun _ _ h => completeAll h)

theorem tmPause {c : Nat} (h : Calm s0 s) : Calm s0 (s.tmPause c) := regWork h (.tmPause (.refl s))
theorem canLeave {c : Nat} (h : Calm s0 s) : Calm s0 (s.canLeave c) := puts (tmPause (completeAll (canAbort h)))
theorem canFinish {c : Nat} (h : Calm s0 s) : Calm s0 (s.canFinish c) := ite (canLeave h) h

theorem canClkOff {c : Nat} (h : Calm s0 s) : Calm s0 (s.canClkOff c) :=
  have hf := canFinish (c := c) h
  ite hf (raise (puts (tmPause (completeAll (canAbort hf)))))

theorem canEnable {c : Nat} (h : Calm s0 s) : Calm s0 (s.canEnable c) :=
  have hf := puts (b := canB c) (canFinish (c := c) h)
  ite h (ite (canClkOff hf) hf)

theorem canStart {c : Nat} (h : Calm s0 s) : Calm s0 (s.canStart c) := ite (canEnable (put h)) h
theorem sleepCheck (h : Calm s0 s) : Calm s0 s.sleepCheck := ite (each h fun _ _ h => canLeave h) h

/-! The hatband -/

theorem checkSig (h : Calm s0 s) : Calm s0 s.checkSig := by
  unfold State.checkSig
  extract_lets s1 ok s2
  have h1 : Calm s0 s1 := ite (put h) h
  have h2 : Calm s0 s2 := flag h1
  exact ite (ite h1 (put h1)) (ite h2 (raise h2))

theorem putRing (h : Calm s0 s) : Calm s0 s.putRing := regWork h (.putRing (.refl s))

theorem putGroup {g mode : Nat} {ms : List (Nat × Nat × Nat)} (h : Calm s0 s) : Calm s0 (s.putGroup g mode ms) := by
  unfold State.putGroup
  extract_lets b s1 s2 s3
  have h1 : Calm s0 s1 := regWork h (.regs (.refl s))
  clear_value s1
  have h2 : Calm s0 s2 := puts h1
  clear_value s2
  have h3 : Calm s0 s3 := each h2 fun _ _ h => puts h
  clear_value s3
  exact checkSig (putRing h3)

theorem hatState (h : Calm s0 s) : Calm s0 s.hatState := by
  unfold State.hatState
  extract_lets up every old st s1 s2
  have h1 : Calm s0 s1 := put h
  clear_value s1
  have h2 : Calm s0 s2 := ite (puts h1) h1
  clear_value s2
  exact ite (raise h2) h2

theorem flapCheck {l : Link} (h : Calm s0 s) : Calm s0 (s.flapCheck l) := ite (raise (put (put h))) h
theorem strapCheck (h : Calm s0 s) : Calm s0 s.strapCheck := ite (raise h) h

theorem lnkEnter {l : Link} {st : Nat} (h : Calm s0 s) : Calm s0 (s.lnkEnter l st) := regWork h (.lnkEnter (.refl s))
theorem lnkNoted {l : Link} (h : Calm s0 s) : Calm s0 (s.lnkNoted l) := other h rfl rfl rfl

theorem lnkEnable {l : Link} {v : Bool} (h : Calm s0 s) : Calm s0 (s.lnkEnable l v) := by
  unfold State.lnkEnable
  exact ite h (ite (put h) (ite (flapCheck (lnkNoted (lnkEnter h))) (put h)))

theorem fwdEnd {tag : Nat} (h : Calm s0 s) : Calm s0 (s.fwdEnd tag) := by
  unfold State.fwdEnd
  split
  · exact h
  · extract_lets p headOut hat s1 s2
    have h1 : Calm s0 s1 := other h rfl rfl rfl
    clear_value s1
    have h2 : Calm s0 s2 := withMil h1 fun b hb => by
      obtain ⟨e, he, rfl⟩ := List.mem_map.mp hb
      refine List.mem_map.mpr ⟨e, he, ?_⟩
      split
      · split <;> rfl
      · rfl
    exact fwdAnswer (bump h2)

theorem fwdDrop (h : Calm s0 s) : Calm s0 s.fwdDrop := each h fun _ _ h => fwdEnd h

theorem hatEnable {en : Bool} (h : Calm s0 s) : Calm s0 (s.hatEnable en) := by
  unfold State.hatEnable
  extract_lets s1 s2 hat s3 on s4 s5 s6
  have h2 : Calm s0 s2 := puts (flag h)
  clear_value s2
  have h3 : Calm s0 s3 := other h2 rfl rfl rfl
  clear_value s3
  have h4 : Calm s0 s4 := each (strapCheck h3) fun _ _ h => lnkEnable h
  clear_value s4
  have h5 : Calm s0 s5 := fwdDrop (puts (regWork h4 (.putSync (.refl s4))))
  clear_value s5
  have h6 : Calm s0 s6 := each h5 fun _ s h => regWork h (.applyAlloc (.refl s))
  clear_value s6
  exact ite (hatState h4) (hatState (each h6 fun _ _ h => put h))

/-! Loading a region -/

theorem fixOwned (h : Calm s0 s) : Calm s0 s.fixOwned.1 := by
  refine foldl_proj Prod.fst (foldl_proj Prod.fst h fun a i ha => ?_) fun a g ha => ?_
  · split
    · exact ha
    · exact regWork ha (.trigDefault (.refl _))
  · split
    · exact ha
    · dsimp only
      exact putGroup ha

theorem loadValues {m : Sparse} {r : Nat} (h : Calm s0 s) : Calm s0 (s.loadValues m r).1 := by
  unfold State.loadValues
  extract_lets recs skip s1 s2 law s3 a b c
  have h1 : Calm s0 s1 := ite (regWork h (.recDefaults (.refl s))) h
  clear_value s1
  have h2 : Calm s0 s2 := each h1 fun _ s h => regWork h (.applyRecord (.refl s))
  clear_value s2
  have h3 : Calm s0 s3 := ite h2 (regWork h2 (.fixLaw (.refl s2)))
  clear_value s3
  have ha : Calm s0 a.1 := regWork h3 (.fixRanges (.refl s3))
  clear_value a
  have hb : Calm s0 b.1 := regWork ha (.fixRels (.refl a.1))
  clear_value b
  have hc : Calm s0 c.1 := by
    dsimp only [c]
    split
    · dsimp only
      exact regWork (fixOwned hb) (.clipLists (.refl b.1.fixOwned.1))
    · exact regWork hb (.fixLoad (.refl b.1))
  clear_value c
  split
  · exact h2
  · exact hc

theorem loadTables {m : Sparse} {r : Nat} (h : Calm s0 s) : Calm s0 (s.loadTables m r).1 := by
  unfold State.loadTables
  extract_lets bad inBad tabs
  exact other h rfl rfl rfl

theorem defaultTables {r : Nat} (h : Calm s0 s) : Calm s0 (s.defaultTables r) := other h rfl rfl rfl

theorem loadRegion {r : Nat} (h : Calm s0 s) : Calm s0 (s.loadRegion r) := by
  unfold State.loadRegion
  extract_lets m a b s1
  have hb : Calm s0 b.1 := loadTables (loadValues h)
  clear_value b
  have h1 : Calm s0 s1 := ite (put hb) hb
  exact ite (defaultTables (ite (regWork h (.recDefaults (.refl s))) h)) (ite (raise (put h1)) h1)

/-! Start-up -/

theorem startSh (h : Calm s0 s) : Calm s0 s.startSh := by
  unfold State.startSh
  extract_lets s1 s2
  have h1 : Calm s0 s1 := each h fun _ _ h => putGroup h
  exact hatEnable (putRing h1)

theorem startHalf {k : Nat} (h : Calm s0 s) : Calm s0 (s.startHalf k) := by
  unfold State.startHalf
  extract_lets s1 s2 s3 s4 s5
  have h1 : Calm s0 s1 := each h fun _ s h => regWork h (.startAxs (.startStn (.refl s)))
  clear_value s1
  have h2 : Calm s0 s2 := regWork h1 (.putStoOff (.refl s1))
  clear_value s2
  have h3 : Calm s0 s3 := each h2 fun _ s h => regWork h (.resetSlot (.maskSlot (.refl s)))
  clear_value s3
  have h4 : Calm s0 s4 := put (regWork h3 (.putLoad (.refl s3)))
  clear_value s4
  have h5 : Calm s0 s5 := each h4 fun _ _ h => canStart h
  clear_value s5
  exact regWork h5 (.putK (.refl s5))

theorem masterNote (h : Calm s0 s) : Calm s0 s.masterNote := trigger (notice h)

theorem takeToken {k : Nat} {seen : Bool} (h : Calm s0 s) : Calm s0 (s.takeToken k seen) := by
  unfold State.takeToken
  extract_lets old s1 s2 s3 s4 s5
  have h2 : Calm s0 s2 := puts (puts h)
  clear_value s2
  have h3 : Calm s0 s3 := ite (put h2) h2
  clear_value s3
  have h4 : Calm s0 s4 := put h3
  exact masterNote (ite (ite (put h4) (ite h4 (put h4))) h3)

theorem firstToken (h : Calm s0 s) : Calm s0 s.firstToken := ite (put (takeToken h)) (takeToken h)

theorem mbxStart {power : Bool} (h : Calm s0 s) : Calm s0 (s.mbxStart power) := by
  unfold State.mbxStart
  extract_lets ep peer s1 s2
  have h1 : Calm s0 s1 := other h rfl rfl rfl
  clear_value s1
  have h2 : Calm s0 s2 := ite h1 (other h1 rfl rfl rfl)
  clear_value s2
  exact put (withLog h2 rfl)

theorem recScan (h : Calm s0 s) : Calm s0 s.recScan := withLog h rfl
theorem selectCopy (h : Calm s0 s) : Calm s0 s.selectCopy := puts (withCfg h)

theorem startRecord (h : Calm s0 s) : Calm s0 s.startRecord := by
  unfold State.startRecord
  extract_lets d
  exact withLog (trigger h) rfl

theorem localNote (h : Calm s0 s) : Calm s0 s.localNote := notice h

/-! The end of a commit, and a half in reset -/

theorem stopCommit (h : Calm s0 s) : Calm s0 s.stopCommit := by
  unfold State.stopCommit
  split
  · exact h
  · exact ite (withLog (withCfg h) rfl) (withCfg h)

theorem commitEnd {st d : Nat} (h : Calm s0 s) : Calm s0 (s.commitEnd st d) := by
  unfold State.commitEnd
  split
  · exact h
  · exact each (puts (ite (withLog (withCfg h) rfl) (withCfg h))) fun _ _ h => completeB h

theorem clearHalf {k : Nat} (h : Calm s0 s) : Calm s0 (s.clearHalf k) :=
  each (puts (puts (puts (other h rfl rfl rfl)))) fun _ _ h => withCan h

end Calm
end Sys2Proof.Machine
end

section
/-!
PROOFS. The register fields that a row of the power, start and clock families sets: each write is an exact change of named fields, and changes of fields
that do not overlap add up.
-/
namespace Sys2Proof.Machine

/-! ### Exact changes of named fields -/

theorem State.Sets.refl (s : State) : s.Sets s [] := ⟨by simp, .refl s⟩

/-- The bit addresses that a list of settings names. -/
def setKeys (w : List (Nat × Fld × Int)) : List Nat := w.map fun x => x.2.1.key x.1

theorem setKeys_fields (w : List (Nat × Fld × Int)) :
    ((w.map fun x => (x.1, x.2.1)).map fun p => p.2.key p.1) = setKeys w := by
  rw [List.map_map]; rfl

/-- A change of other fields leaves what has been set as it is. -/
theorem State.Sets.trans {s t u : State} {w w' : List (Nat × Fld × Int)} (h : s.Sets t w) (h' : t.Sets u w')
    (hk : ∀ k ∈ setKeys w, k ∉ setKeys w') : s.Sets u (w ++ w') := by
  refine ⟨fun x hx => ?_, ?_⟩
  · rcases List.mem_append.mp hx with hx | hx
    · rw [h'.2.get_eq (by rw [setKeys_fields]; exact hk _ (List.mem_map_of_mem hx)), h.1 x hx]
    · exact h'.1 x hx
  · rw [List.map_append]
    exact h.2.trans h'.2

/-- A field whose bit address is not among those set reads as before. -/
theorem State.Sets.get_of_notMem {s t : State} {w : List (Nat × Fld × Int)} (h : s.Sets t w) {b : Nat} {f : Fld} (hk : f.key b ∉ setKeys w) :
    t.get b f = s.get b f := h.2.get_eq (by rwa [setKeys_fields])

theorem State.Sets.chip_eq {s t : State} {w : List (Nat × Fld × Int)} (h : s.Sets t w) : t.chip = s.chip := (congrArg State.chip h.2.rest :)
theorem State.Sets.time_eq {s t : State} {w : List (Nat × Fld × Int)} (h : s.Sets t w) : t.time = s.time := h.2.time_eq

namespace State

theorem sets_put (s : State) (b : Nat) (f : Fld) (v : Int) : s.Sets (s.put b f v) [(b, f, f.wrap v)] :=
  ⟨by simp, only_put s b f v⟩

/-- A write that notes its own marks (R7). -/
theorem sets_put_marks (s : State) (b : Nat) (f : Fld) (v : Int) (m : Marks) : s.Sets { s.put b f v with marks := m } [(b, f, f.wrap v)] :=
  have h := sets_put s b f v
  ⟨h.1, h.2.regs, rfl⟩

theorem sets_bump (s : State) (b : Nat) (f : Fld) : s.Sets (s.bump b f) [(b, f, s.counted b f)] := sets_put_marks ..

theorem sets_setBit_true (s : State) (b : Nat) (f : Fld) (i : Nat) :
    s.Sets (s.setBit b f i true) [(b, f, f.wrap (orI (s.get b f) (2 ^ i)))] := sets_put_marks ..

theorem sets_setBit_false (s : State) (b : Nat) (f : Fld) (i : Nat) :
    s.Sets (s.setBit b f i false) [(b, f, f.wrap (clrI (s.get b f) (2 ^ i)))] := sets_put_marks ..

/-- Writes of fields of one unit, no two at one bit address. -/
theorem sets_puts (s : State) (b : Nat) {l : List (Fld × Int)} (hl : (l.map fun x => x.1.key b).Nodup) :
    s.Sets (s.puts b l) (l.map fun x => (b, x.1, x.1.wrap x.2)) := by
  induction l generalizing s with
  | nil => exact .refl s
  | cons e r ih =>
    rw [List.map_cons, List.nodup_cons] at hl
    refine (sets_put s b e.1 e.2).trans (ih (s.put b e.1 e.2) hl.2) fun k hk => ?_
    rw [List.mem_singleton.mp hk, setKeys, List.map_map]
    exact hl.1

/-- Writes of fields of several units in turn, no two at one bit address. -/
theorem sets_each_puts (s : State) {l : List (Nat × List (Fld × Int))} (hl : (l.flatMap fun p => p.2.map fun x => x.1.key p.1).Nodup) :
    s.Sets (s.each l fun p s => s.puts p.1 p.2) (l.flatMap fun p => p.2.map fun x => (p.1, x.1, x.1.wrap x.2)) := by
  induction l generalizing s with
  | nil => exact .refl s
  | cons p r ih =>
    rw [List.flatMap_cons, List.nodup_append] at hl
    obtain ⟨hp, hr, hne⟩ := hl
    rw [List.flatMap_cons, each_cons]
    refine (sets_puts s p.1 hp).trans (ih _ hr) fun k hk hin => ?_
    refine hne k ?_ k ?_ rfl
    · simpa [setKeys] using hk
    · simpa [setKeys, List.map_flatMap, Function.comp_def] using hin

end State

end Sys2Proof.Machine
end

section
/-!
PROOFS. A chip whose regions are all wiped keeps the levels of input pins alone (R30, R36, R48), and so does one that loses its supply (R43, R53 to R55).
-/
namespace Sys2Proof.Machine

namespace State

/-! ### Every region in reset -/

/-- The state that `wipe` begins with: no register, table, packet, frame or fault. -/
def bare (s : State) : State :=
  { s with regs := [], tabs := [], shadows := [], held := [], mil := Mil.zero, hat := Hat.zero, can := Vector.replicate 4 CanS.zero, axOld := [],
           svcNew := [], flt := Faults.zero }

/-- What `wipe` puts back, by unit: the named fields of the chip, and the pins of the stations. -/
def putBack (s : State) (kept : List Fld) : List (Nat × List (Fld × Int)) :=
  (0, kept.map fun f => (f, s.get 0 f)) :: (List.range 4).map fun n => (stnB n, stnPins.map fun f => (f, s.get (stnB n) f))

/-- `bare` with what `wipe` puts back. -/
def barePins (s : State) (kept : List Fld) : State := s.bare.each (s.putBack kept) fun p s => s.puts p.1 p.2

/-- Wiping is `bare`, what stands, and the configuration store and the recorder as a reset leaves them. -/
theorem exists_wipe (s : State) (kept : List Fld) : ∃ t : State, t = s.barePins kept ∧ RegWork s.bare t ∧
    s.wipe kept = ((t.withCfg fun c => { c with inForce := [], staging := [], commit := none }).recReset).withChip fun c =>
      { c with regions := Vector.replicate 3 .down, ready := false } := by
  refine ⟨_, rfl, .each (.refl _) fun _ _ h => .puts h, ?_⟩
  unfold wipe barePins putBack bare
  rw [each_cons]

variable (s : State) (kept : List Fld)

theorem wipe_regs : (s.wipe kept).regs = (s.barePins kept).regs := by
  obtain ⟨t, rfl, -, he⟩ := s.exists_wipe kept
  rw [he]; rfl

theorem wipe_chip : (s.wipe kept).chip = { s.chip with regions := Vector.replicate 3 .down, ready := false } := by
  obtain ⟨t, -, ht, he⟩ := s.exists_wipe kept
  rw [he]
  exact congrArg (fun c : Chip => { c with regions := Vector.replicate 3 .down, ready := false }) ht.chip

theorem wipe_mil : (s.wipe kept).mil = Mil.zero := by
  obtain ⟨t, -, ht, he⟩ := s.exists_wipe kept
  rw [he]; exact ht.mil

theorem wipe_tabs : (s.wipe kept).tabs = [] := by
  obtain ⟨t, -, ht, he⟩ := s.exists_wipe kept
  rw [he]; exact ht.tabs

theorem wipe_flt : (s.wipe kept).flt = Faults.zero := by
  obtain ⟨t, -, ht, he⟩ := s.exists_wipe kept
  rw [he]; exact ht.flt

theorem wipe_slots : (s.wipe kept).cfg.slots = s.cfg.slots := by
  obtain ⟨t, -, ht, he⟩ := s.exists_wipe kept
  rw [he]; exact (congrArg CfgStore.slots ht.cfg :)

theorem wipe_sealMark : (s.wipe kept).cfg.sealMark = s.cfg.sealMark := by
  obtain ⟨t, -, ht, he⟩ := s.exists_wipe kept
  rw [he]; exact (congrArg CfgStore.sealMark ht.cfg :)

theorem wipe_flush : (s.wipe kept).log.flush = none := by
  obtain ⟨t, -, -, he⟩ := s.exists_wipe kept
  rw [he]; rfl

theorem wipe_felt : (s.wipe kept).log.felt = s.log.felt := by
  obtain ⟨t, -, ht, he⟩ := s.exists_wipe kept
  rw [he]; exact (congrArg Recorder.felt ht.log :)

/-- No region runs once every region is down. -/
theorem regionRun_of_down {t : State} (h : t.chip.regions = Vector.replicate 3 .down) (r : Nat) : t.regionRun r = false := by
  rw [regionRun, h]
  match r with
  | 0 | 1 | 2 => rfl
  | _ + 3 => rfl

theorem port_of_zero {t : State} (h : t.mil = Mil.zero) (i : Nat) : (t.port i).out = [] := by
  rw [port, h]
  match i with
  | 0 | 1 | 2 | 3 | 4 | 5 | 6 => rfl
  | _ + 7 => rfl

/-! ### The levels of input pins -/

/-- No two pins show at one bit address. -/
theorem pinKeys_nodup :
    (((0, pinFields) :: (List.range 4).map fun n => (stnB n, stnPins)).flatMap fun p => p.2.map fun f => f.key p.1).Nodup := by decide +kernel

/-- A register that is no pin's level is at its reset value, and the pins' levels stand. -/
theorem pinsOnly_barePins : s.PinsOnly (s.barePins pinFields) := by
  have hsets := sets_each_puts s.bare (l := s.putBack pinFields) (by
    simpa [putBack, List.flatMap_cons, List.flatMap_map, Function.comp_def] using pinKeys_nodup)
  refine ⟨fun f hf => hsets.1 (0, f, _) ?_, fun n f hf => hsets.1 (stnB n.val, f, _) ?_, fun k hk hn => ?_⟩
  · exact List.mem_flatMap.mpr ⟨_, List.mem_cons_self .., List.mem_map.mpr ⟨_, List.mem_map_of_mem hf, rfl⟩⟩
  · refine List.mem_flatMap.mpr ⟨_, List.mem_cons_of_mem _ (List.mem_map.mpr ⟨n.val, List.mem_range.mpr n.isLt, rfl⟩), ?_⟩
    exact List.mem_map.mpr ⟨_, List.mem_map_of_mem hf, rfl⟩
  · refine hsets.2.regs k fun hin => ?_
    simp only [putBack, List.map_flatMap, List.map_map, Function.comp_def, List.mem_flatMap, List.mem_cons, List.mem_map, List.mem_range] at hin
    obtain ⟨p, rfl | ⟨n, hlt, rfl⟩, x, hx, rfl⟩ := hin
    · obtain ⟨f, hf, rfl⟩ := List.mem_map.mp hx
      exact hk (List.mem_map_of_mem hf)
    · obtain ⟨f, hf, rfl⟩ := List.mem_map.mp hx
      exact hn ⟨n, hlt⟩ (List.mem_map_of_mem hf)

/-- States with the same registers have the same levels of pins. -/
theorem PinsOnly.congr {s s' t t' : State} (h : s.PinsOnly t) (hs : s'.regs = s.regs) (ht : t'.regs = t.regs) : s'.PinsOnly t' := by
  obtain ⟨hchip, hstns, hother⟩ := h
  refine ⟨fun f hf => ?_, fun n f hf => ?_, fun k hk hn => ?_⟩
  · simpa only [get, hs, ht] using hchip f hf
  · simpa only [get, hs, ht] using hstns n f hf
  · rw [ht]; exact hother k hk hn

theorem pinsOnly_wipe : s.PinsOnly (s.wipe pinFields) := .congr s.pinsOnly_barePins rfl (s.wipe_regs _)

/-! ### Loss of the supply -/

/-- A record torn by the loss changes what the recorder holds, and of that no felt record. -/
theorem tornWrite_cases : s.tornWrite = s ∨ ∃ g : Recorder → Recorder, s.tornWrite = s.withLog g ∧ (g s.log).felt = s.log.felt := by
  unfold tornWrite
  split
  · exact .inl rfl
  · split
    · exact .inl rfl
    · exact .inr ⟨_, rfl, by split <;> rfl⟩

/-- A wiped chip is without supply once its regions and READY are left as they are. -/
theorem unpowered_wipe {t : State} {p : Phase} (g : Chip → Chip) (hfelt : t.log.felt = s.log.felt) (hregs : t.regs = s.regs) (hcfg : t.cfg = s.cfg)
    (hphase : ∀ c, (g c).phase = p) (hready : ∀ c, (g c).ready = c.ready) (hregions : ∀ c, (g c).regions = c.regions) :
    s.Unpowered ((t.wipe pinFields).withChip g) p where
  phase := by rw [withChip_chip]; exact hphase _
  ready := by rw [withChip_chip, hready, wipe_chip]
  regions := regionRun_of_down (by rw [withChip_chip, hregions, wipe_chip])
  regs := .congr t.pinsOnly_wipe hregs.symm (withChip_regs ..)
  tabs := by rw [withChip_tabs, wipe_tabs]
  busy := by rw [withChip_mil, wipe_mil]; rfl
  ports := port_of_zero (by rw [withChip_mil, wipe_mil])
  faults := by rw [withChip_flt, wipe_flt]; rfl
  slots := by rw [withChip_cfg, wipe_slots, hcfg]
  sealed := by rw [withChip_cfg, wipe_sealMark, hcfg]
  felt := by rw [withChip_log, wipe_felt, hfelt]

theorem unpowered_powerLost : s.Unpowered s.powerLost .off := by
  unfold powerLost
  obtain ht | ⟨k, ht, hk⟩ := s.tornWrite_cases
  · rw [ht]
    exact s.unpowered_wipe _ rfl rfl rfl (fun _ => rfl) (fun _ => rfl) (fun _ => rfl)
  · rw [ht]
    exact s.unpowered_wipe _ hk rfl rfl (fun _ => rfl) (fun _ => rfl) (fun _ => rfl)

/-- A change of the chip-level state that leaves the phase, READY and the regions leaves the chip without supply. -/
theorem Unpowered.withChip {s t : State} {p : Phase} {g : Chip → Chip} (h : s.Unpowered t p) (hphase : ∀ c, (g c).phase = c.phase)
    (hready : ∀ c, (g c).ready = c.ready) (hregions : ∀ c, (g c).regions = c.regions) : s.Unpowered (t.withChip g) p :=
  { h with
    phase := (hphase _).trans h.phase
    ready := (hready _).trans h.ready
    regions := fun r => by rw [regionRun, withChip_chip, hregions]; exact h.regions r
    regs := .congr h.regs rfl rfl }

end State

end Sys2Proof.Machine
end

section
/-!
PROOFS. A chip with supply, its overvoltage flag (R38), and the latch of a die shutdown (R55).
-/
namespace Sys2Proof.Machine

namespace State

/-! ### What holds of a chip with supply -/

variable {s : State}

theorem supplied_of_phase (hoff : s.chip.phase ≠ .off) (hsleep : s.chip.phase ≠ .asleep) : s.supplied = true := by
  simp [supplied, hoff, hsleep]

theorem phase_of_alive (h : s.alive = true) : s.chip.phase = .restricted ∨ s.chip.phase = .running := by
  simpa [alive] using h

theorem awake_of_alive (h : s.alive = true) : s.awake = true := by simp [awake, h]

theorem supplied_of_alive (h : s.alive = true) : s.supplied = true := by
  rcases phase_of_alive h with hp | hp <;> simp [supplied, hp]

/-! ### Supply flags and the presence key -/

/-- A field that is not written reads as it did. -/
theorem sets_same (s : State) (b : Nat) (f : Fld) : s.Sets s [(b, f, s.get b f)] := by
  refine ⟨by simp, fun _ _ => rfl, rfl⟩

/-- A level that has just risen sets its latched bit, and another leaves it. -/
theorem vinOver_sets (s : State) (above : Bool) (h : s.supplied = true) : s.Sets (s.vinOver above) [(0, F.CHIP_PWR_STAT_VIN_OV, b2i above),
    (0, F.CHIP_PWR_STAT_VIN_OV_SEEN, if above && !s.on 0 F.CHIP_PWR_STAT_VIN_OV then 1 else s.get 0 F.CHIP_PWR_STAT_VIN_OV_SEEN)] := by
  have hflag : s.Sets (s.flag 0 F.CHIP_PWR_STAT_VIN_OV above) [(0, F.CHIP_PWR_STAT_VIN_OV, b2i above)] := by
    cases above <;> exact sets_put ..
  have hphase : ¬(s.chip.phase = .off ∨ s.chip.phase = .asleep) := by simpa [supplied] using h
  have hother : ∀ k ∈ [F.CHIP_PWR_STAT_VIN_OV.key 0], k ∉ [F.CHIP_PWR_STAT_VIN_OV_SEEN.key 0] := by decide
  rw [vinOver, if_neg (by simpa using hphase)]
  dsimp only
  split
  · exact hflag.trans (sets_put ..) hother
  · have hseen := sets_same (s.flag 0 F.CHIP_PWR_STAT_VIN_OV above) 0 F.CHIP_PWR_STAT_VIN_OV_SEEN
    rw [hflag.get_of_notMem (show F.CHIP_PWR_STAT_VIN_OV_SEEN.key 0 ∉ [F.CHIP_PWR_STAT_VIN_OV.key 0] by decide)] at hseen
    exact hflag.trans hseen hother

end State

/-! ### The statements -/

/-- Settles O8: `Keeps` has the latch stand through every other row; a chip that is off and latched goes no further than the shutdown. -/
theorem dieShutdownLatched : Obligations.DieShutdownLatched := by
  refine ⟨fun i s t hlatch hi h => ?_, fun s => ⟨_, rfl, rfl, ?_⟩, fun s b hoff hlatch => ?_⟩
  · refine (Keeps.of_exec h).latch ?_ hlatch
    have hrow : i.clearsLatch = false := by
      unfold Instr.clearsLatch
      split
      · exact absurd rfl hi
      · rfl
    rw [hrow]; rfl
  · rw [State.latchClear, State.withChip_chip]
    split
    · assumption
    · exact s.unpowered_powerLost.phase
  · show Host.Outcome.next (s.powerOn b) = _
    rw [State.powerOn, if_neg (not_not_intro hoff), if_pos hlatch]
    rfl

end Sys2Proof.Machine
end

section
/-!
PROOFS. The rows of the supply, the buck-boost and the presence key (R38, R43, R44, R95), and the loss of the supply (R53, R54).
-/
namespace Sys2Proof.Machine
namespace State
variable {s : State}

/-- The buck-boost at its limit is seen; out of its window VGD is not good. -/
theorem buckLimit_eq (out : Bool) (h : s.alive = true) : s.buckLimit out =
    s.puts 0 ((F.CHIP_PWR_STAT_BB_ILIM_SEEN, 1) :: if out then [(F.CHIP_PWR_STAT_VGD_OK, 0)] else []) := by
  simp only [buckLimit, supplied_of_alive h, awake_of_alive h, when, Bool.not_true, Bool.false_eq_true, if_false, if_true]
  cases out <;> rfl

theorem keyValid_full (h : s.alive = true) (hsh : s.shRun = true) :
    s.keyValid true = s.puts 0 [(F.CHIP_PINS_PRES_LOW, 1), (F.CHIP_PINS_PRES_VALID, 1)] := by
  simp only [keyValid, h, hsh, Bool.and_self, when, if_true]
  rfl

/-- The key's release ends a commit that needs the key. -/
theorem keyRelease_full (h : s.alive = true) : s.keyRelease true =
    let t := s.puts 0 [(F.CHIP_PINS_PRES_LOW, 0), (F.CHIP_PINS_PRES_VALID, 0)]
    if s.cfg.commit.any (·.keyed) then t.commitEnd stNoKey 0 else t := by
  have ha : (s.put 0 F.CHIP_PINS_PRES_LOW 0).alive = true := h
  simp only [keyRelease, ha, Bool.not_true, Bool.or_self, Bool.false_eq_true, if_false]
  rfl

end State

/-- Settles O30: each level's row is a list of writes of fields at distinct addresses, and each loss of supply is `powerLost`. -/
theorem supplyEvents : Obligations.SupplyEvents := by
  refine ⟨fun s above => ⟨fun hoff hsleep => ?_, fun ha => ⟨?_, ?_⟩, fun hoff hsleep => ?_, ?_, ?_, ?_, fun ha hsh => ?_, fun ha hkey => ?_,
    fun j ha hj hkey => ?_⟩, fun s => ⟨fun hoff => ?_, fun hphase => ?_, fun hoff => ?_, fun hoff => ?_⟩⟩
  · refine ⟨_, rfl, ?_⟩
    rw [State.vgdSettled, if_pos (State.supplied_of_phase hoff hsleep)]
    exact s.sets_puts 0 (by decide)
  · refine ⟨_, rfl, ?_⟩
    rw [State.buckLimit_eq true ha]
    exact s.sets_puts 0 (by decide)
  · refine ⟨_, rfl, ?_⟩
    rw [State.buckLimit_eq false ha]
    exact s.sets_puts 0 (by decide)
  · exact ⟨_, rfl, s.vinOver_sets above (State.supplied_of_phase hoff hsleep)⟩
  · exact ⟨_, rfl, s.sets_put ..⟩
  · exact ⟨_, rfl, s.sets_put ..⟩
  · exact ⟨_, rfl, s.sets_put ..⟩
  · refine ⟨_, rfl, ?_⟩
    rw [State.keyValid_full ha hsh]
    exact s.sets_puts 0 (by decide)
  · refine ⟨_, rfl, ?_⟩
    have hany : s.cfg.commit.any (·.keyed) = false := by
      cases hc : s.cfg.commit with
      | none => rfl
      | some j => exact hkey j hc
    rw [State.keyRelease_full ha, hany]
    exact s.sets_puts 0 (by decide)
  · show Host.Outcome.next (s.keyRelease true) = _
    rw [State.keyRelease_full ha, hj, Option.any_some, hkey]
    rfl
  · refine ⟨_, rfl, ?_⟩
    rw [State.brownout, if_neg hoff]
    exact s.unpowered_powerLost
  · refine ⟨_, rfl, ?_⟩
    have hin : (s.resettable || s.chip.phase = .reset || s.chip.phase = .resetFlush : Bool) = true := by
      simp only [List.mem_cons, List.not_mem_nil, or_false] at hphase
      rcases hphase with h | h | h | h | h | h <;> simp [State.resettable, h]
    rw [State.vgdCollapse, if_pos (by simpa using hin)]
    exact s.unpowered_powerLost
  · refine ⟨_, rfl, ?_, rfl⟩
    rw [State.latchClear, if_neg hoff]
    exact s.unpowered_powerLost.withChip (fun _ => rfl) (fun _ => rfl) (fun _ => rfl)
  · show Host.Outcome.next s.latchClear = _
    rw [State.latchClear, if_pos hoff]
    rfl

end Sys2Proof.Machine
end

section
/-!
PROOFS. Loss and return of the reference (R46, R47), and a gate supply below its limit (R43).
-/
namespace Sys2Proof.Machine
namespace State
variable {s : State} {r : Fin 3}

/-- What the loss of the reference counts and shows. -/
def lossSets (s : State) (r : Nat) : List (Nat × Fld × Int) :=
  [(0, H.refBad, H.refBad.wrap (orI (s.get 0 H.refBad) (2 ^ r))), (0, F.CHIP_CLK_STAT_XTAL_LOST, 1), (0, F.CHIP_CLK_STAT_XTAL_OK, 0),
    (0, F.CHIP_CLK_STAT_XTAL_LOSS_CNT, s.counted 0 F.CHIP_CLK_STAT_XTAL_LOSS_CNT)]

/-- The loss counted and shown. -/
def lossShown (s : State) (r : Nat) : State :=
  ((s.setBit 0 H.refBad r true).puts 0 [(F.CHIP_CLK_STAT_XTAL_LOST, 1), (F.CHIP_CLK_STAT_XTAL_OK, 0)]).bump 0 F.CHIP_CLK_STAT_XTAL_LOSS_CNT

theorem lossShown_sets (s : State) (r : Nat) : s.Sets (s.lossShown r) (s.lossSets r) := by
  have hbad := s.sets_setBit_true 0 H.refBad r
  have hputs := (s.setBit 0 H.refBad r true).sets_puts 0 (l := [(F.CHIP_CLK_STAT_XTAL_LOST, 1), (F.CHIP_CLK_STAT_XTAL_OK, 0)]) (by decide)
  have hshown := hbad.trans hputs (show ∀ k ∈ [H.refBad.key 0], k ∉ [F.CHIP_CLK_STAT_XTAL_LOST.key 0, F.CHIP_CLK_STAT_XTAL_OK.key 0] by decide)
  have hcount := sets_bump ((s.setBit 0 H.refBad r true).puts 0 [(F.CHIP_CLK_STAT_XTAL_LOST, 1), (F.CHIP_CLK_STAT_XTAL_OK, 0)]) 0
    F.CHIP_CLK_STAT_XTAL_LOSS_CNT
  rw [counted, hshown.get_of_notMem (show F.CHIP_CLK_STAT_XTAL_LOSS_CNT.key 0 ∉
    [H.refBad.key 0, F.CHIP_CLK_STAT_XTAL_LOST.key 0, F.CHIP_CLK_STAT_XTAL_OK.key 0] by decide)] at hcount
  exact hshown.trans hcount (show ∀ k ∈ [H.refBad.key 0, F.CHIP_CLK_STAT_XTAL_LOST.key 0, F.CHIP_CLK_STAT_XTAL_OK.key 0],
    k ∉ [F.CHIP_CLK_STAT_XTAL_LOSS_CNT.key 0] by decide)

/-- A region changes its source through holdover, on top of settings that name neither its source nor its holdover (R46, R47; log entry 66). -/
theorem sets_switchOver {t : State} {w : List (Nat × Fld × Int)} {v : Bool} {x : Int} (h : s.Sets t w)
    (hk : ∀ k ∈ setKeys w, k ∉ [F.CHIP_STATUS_CLK_FB.key 0, H.holdEnd.key (8 * r.val)])
    (hset : t.Sets (t.setBit 0 F.CHIP_STATUS_CLK_FB r v) [(0, F.CHIP_STATUS_CLK_FB, x)]) :
    s.Sets ((t.setBit 0 F.CHIP_STATUS_CLK_FB r v).switchOver r)
      (w ++ [(0, F.CHIP_STATUS_CLK_FB, x), (8 * r.val, H.holdEnd, H.holdEnd.wrap (s.time + 40000 : Nat))]) := by
  have htime : (t.setBit 0 F.CHIP_STATUS_CLK_FB r v).time = s.time := hset.time_eq.trans h.time_eq
  have hhold := (t.setBit 0 F.CHIP_STATUS_CLK_FB r v).sets_put (8 * r.val) H.holdEnd ((s.time + 40000 : Nat) : Int)
  rw [switchOver, htime, show (s.time : Int) + 40000 = (s.time + 40000 : Nat) from (Nat.cast_add s.time 40000).symm]
  refine h.trans (hset.trans hhold ?_) hk
  exact (show ∀ r : Fin 3, ∀ k ∈ [F.CHIP_STATUS_CLK_FB.key 0], k ∉ [H.holdEnd.key (8 * r.val)] by decide) r

/-! ### Loss and return of the reference -/

theorem clockOf_eq (h : r = 0 ∨ s.halfPresent (r.val - 1) = true) : s.clockOf r.val = true := by
  rcases h with rfl | h
  · rfl
  · rw [clockOf, h, Bool.or_true]

/-- A loss that has been counted counts again only after the reference's return. -/
theorem refLoss_of_bad (hbad : bitN (s.nat 0 H.refBad) r.val = true) : s.refLoss r.val = s := by
  rw [refLoss, hbad, Bool.or_true, if_pos rfl]

theorem refLoss_eq (ha : s.alive = true) (hr : s.clockOf r.val = true) (hbad : bitN (s.nat 0 H.refBad) r.val = false) :
    s.refLoss r.val = if bitN ((s.lossShown r.val).nat 0 F.CHIP_STATUS_CLK_FB) r.val then s.lossShown r.val
      else ((((s.lossShown r.val).setBit 0 F.CHIP_STATUS_CLK_FB r.val true).switchOver r.val).each (halfCans r.val)
        fun c v => if v.halfRun (c % 2) then v.canClkOff c else v).linksFollow := by
  rw [refLoss, ha, hr, hbad]
  rfl

theorem lossShown_clkFb (s : State) (r : Nat) : (s.lossShown r).nat 0 F.CHIP_STATUS_CLK_FB = s.nat 0 F.CHIP_STATUS_CLK_FB := by
  rw [nat, nat, (s.lossShown_sets r).get_of_notMem (show F.CHIP_STATUS_CLK_FB.key 0 ∉
    [H.refBad.key 0, F.CHIP_CLK_STAT_XTAL_LOST.key 0, F.CHIP_CLK_STAT_XTAL_OK.key 0, F.CHIP_CLK_STAT_XTAL_LOSS_CNT.key 0] by decide)]

theorem lossSwitched_sets (s : State) (r : Fin 3) :
    s.Sets (((s.lossShown r.val).setBit 0 F.CHIP_STATUS_CLK_FB r.val true).switchOver r.val)
      (s.lossSets r.val ++ [(0, F.CHIP_STATUS_CLK_FB, F.CHIP_STATUS_CLK_FB.wrap (orI (s.get 0 F.CHIP_STATUS_CLK_FB) (2 ^ r.val))),
        (8 * r.val, H.holdEnd, H.holdEnd.wrap (s.time + 40000 : Nat))]) := by
  have hshown := s.lossShown_sets r.val
  have hset := (s.lossShown r.val).sets_setBit_true 0 F.CHIP_STATUS_CLK_FB r.val
  rw [hshown.get_of_notMem (show F.CHIP_STATUS_CLK_FB.key 0 ∉
    [H.refBad.key 0, F.CHIP_CLK_STAT_XTAL_LOST.key 0, F.CHIP_CLK_STAT_XTAL_OK.key 0, F.CHIP_CLK_STAT_XTAL_LOSS_CNT.key 0] by decide)] at hset
  refine sets_switchOver hshown ?_ hset
  exact (show ∀ r : Fin 3, ∀ k ∈ [H.refBad.key 0, F.CHIP_CLK_STAT_XTAL_LOST.key 0, F.CHIP_CLK_STAT_XTAL_OK.key 0,
    F.CHIP_CLK_STAT_XTAL_LOSS_CNT.key 0], k ∉ [F.CHIP_STATUS_CLK_FB.key 0, H.holdEnd.key (8 * r.val)] by decide) r

/-- The reference shown good again for a region. -/
def returnShown (s : State) (r : Nat) : State :=
  let t := s.setBit 0 H.refBad r false
  t.flag 0 F.CHIP_CLK_STAT_XTAL_OK (!t.on 0 H.refBad)

/-- What the return of the reference shows. -/
def returnSets (s : State) (r : Nat) : List (Nat × Fld × Int) :=
  let bad := H.refBad.wrap (clrI (s.get 0 H.refBad) (2 ^ r))
  [(0, H.refBad, bad), (0, F.CHIP_CLK_STAT_XTAL_OK, b2i (decide (bad = 0)))]

theorem returnShown_sets (s : State) (r : Nat) : s.Sets (s.returnShown r) (s.returnSets r) := by
  have hbad := s.sets_setBit_false 0 H.refBad r
  have hon : (!(s.setBit 0 H.refBad r false).on 0 H.refBad) = decide (H.refBad.wrap (clrI (s.get 0 H.refBad) (2 ^ r)) = 0) := by
    rw [on, hbad.1 _ (List.mem_singleton_self _)]
    rw [bne, Bool.not_not, beq_eq_decide]
  have hok := (s.setBit 0 H.refBad r false).sets_put 0 F.CHIP_CLK_STAT_XTAL_OK
    (b2i (decide (H.refBad.wrap (clrI (s.get 0 H.refBad) (2 ^ r)) = 0)))
  have hwrap (v : Bool) : F.CHIP_CLK_STAT_XTAL_OK.wrap (b2i v) = b2i v := by cases v <;> rfl
  rw [hwrap] at hok
  rw [returnShown, hon]
  exact hbad.trans hok (show ∀ k ∈ [H.refBad.key 0], k ∉ [F.CHIP_CLK_STAT_XTAL_OK.key 0] by decide)

theorem returnShown_get (s : State) (r : Nat) {f : Fld} (hf : f.key 0 ∉ [H.refBad.key 0, F.CHIP_CLK_STAT_XTAL_OK.key 0]) :
    (s.returnShown r).get 0 f = s.get 0 f := (s.returnShown_sets r).get_of_notMem hf

theorem refReturn_of_reference (hfb : bitN (s.nat 0 F.CHIP_STATUS_CLK_FB) r.val = false) : s.refReturn r.val = s := by
  rw [refReturn, hfb, Bool.not_false, Bool.or_true, if_pos rfl]

theorem refReturn_eq (ha : s.alive = true) (hr : s.clockOf r.val = true) (hfb : bitN (s.nat 0 F.CHIP_STATUS_CLK_FB) r.val = true) :
    s.refReturn r.val = if !(s.returnShown r.val).on 0 F.CHIP_CLK_CTRL_FB_RETURN || (s.returnShown r.val).chip.phase = .restricted then s.returnShown r.val
      else
        let t := (((s.returnShown r.val).setBit 0 F.CHIP_STATUS_CLK_FB r.val false).switchOver r.val).each (halfCans r.val)
          fun c v => if v.halfRun (c % 2) then v.canClkOn c else v
        if s.ringClock then t else t.each [Link.west, Link.east] fun l v => v.linkRetrain l := by
  rw [refReturn, ha, hr, hfb]
  rfl

theorem returnSwitched_sets (s : State) (r : Fin 3) :
    s.Sets (((s.returnShown r.val).setBit 0 F.CHIP_STATUS_CLK_FB r.val false).switchOver r.val)
      (s.returnSets r.val ++ [(0, F.CHIP_STATUS_CLK_FB, F.CHIP_STATUS_CLK_FB.wrap (clrI (s.get 0 F.CHIP_STATUS_CLK_FB) (2 ^ r.val))),
        (8 * r.val, H.holdEnd, H.holdEnd.wrap (s.time + 40000 : Nat))]) := by
  have hset := (s.returnShown r.val).sets_setBit_false 0 F.CHIP_STATUS_CLK_FB r.val
  rw [returnShown_get s r.val (by decide)] at hset
  refine sets_switchOver (s.returnShown_sets r.val) ?_ hset
  exact (show ∀ r : Fin 3, ∀ k ∈ [H.refBad.key 0, F.CHIP_CLK_STAT_XTAL_OK.key 0],
    k ∉ [F.CHIP_STATUS_CLK_FB.key 0, H.holdEnd.key (8 * r.val)] by decide) r

/-! ### A low gate supply -/

theorem vgdUv_eq (ha : s.alive = true) :
    let t := s.puts 0 [(F.CHIP_PWR_STAT_VGD_UV_SEEN, 1), (F.CHIP_PWR_STAT_VGD_OK, 0), (H.vgdLow, 1)]
    s.vgdUv = t.each (t.stations.filter fun n => s.halfRun (n / 2)) fun n u => u.supplyTrip n := by
  rw [vgdUv, supplied_of_alive ha, awake_of_alive ha]
  rfl

end State

/-- Settles O36: what is counted and shown is an exact change of fields, and the change of the region's source comes on top of it. -/
theorem clockAndGateSupply : Obligations.ClockAndGateSupply := by
  intro s r ha hr
  have hclock := State.clockOf_eq hr
  have hmoves (hret : s.on 0 F.CHIP_CLK_CTRL_FB_RETURN = true) (hphase : s.chip.phase ≠ .restricted) :
      ¬((!(s.returnShown r.val).on 0 F.CHIP_CLK_CTRL_FB_RETURN || (s.returnShown r.val).chip.phase = .restricted : Bool) = true) := by
    rw [State.on, State.returnShown_get s r.val (by decide), (s.returnShown_sets r.val).chip_eq]
    rw [State.on] at hret
    simp [hret, hphase]
  refine ⟨fun hbad => ⟨fun hfb => ⟨_, rfl, ?_⟩, fun hfb => ⟨_, s.lossSwitched_sets r, ?_⟩⟩, fun hbad => ?_,
    fun hfb => ⟨fun hstay => ⟨_, rfl, ?_⟩, fun hret hphase => ⟨_, s.returnSwitched_sets r, fun hring => ?_, fun hring => ?_⟩⟩, fun hfb => ?_, ?_⟩
  · rw [State.refLoss_eq ha hclock hbad, State.lossShown_clkFb, if_pos hfb]
    exact s.lossShown_sets r.val
  · show Host.Outcome.next (s.refLoss r.val) = _
    rw [State.refLoss_eq ha hclock hbad, State.lossShown_clkFb, hfb, if_neg Bool.false_ne_true]
  · exact congrArg Host.Outcome.next (State.refLoss_of_bad hbad)
  · rw [State.refReturn_eq ha hclock hfb, if_pos]
    · exact s.returnShown_sets r.val
    · rw [State.on, State.returnShown_get s r.val (by decide), (s.returnShown_sets r.val).chip_eq]
      rcases hstay with h | h
      · rw [State.on] at h
        rw [h]; rfl
      · simp [h]
  · show Host.Outcome.next (s.refReturn r.val) = _
    rw [State.refReturn_eq ha hclock hfb, if_neg (hmoves hret hphase), hring]
    rfl
  · show Host.Outcome.next (s.refReturn r.val) = _
    rw [State.refReturn_eq ha hclock hfb, if_neg (hmoves hret hphase), hring]
    rfl
  · exact congrArg Host.Outcome.next (State.refReturn_of_reference hfb)
  · exact congrArg Host.Outcome.next (State.vgdUv_eq ha)

end Sys2Proof.Machine
end

section
/-!
PROOFS. How the chip starts (R28, R34, R49, R54, R58, R59): the rails, what holds a start, the boot with the fuses' part, and start-up.
-/
namespace Sys2Proof.Machine
namespace State

/-! ### The regions at the restricted command set -/

/-- Regions that begin to run, one after another. -/
theorem each_setRegion (s : State) (l : List Nat) (v : RegSt) : s.each l (fun r s => s.setRegion r v) =
    s.withChip fun c => { c with regions := l.foldl (fun w r => w.setIfInBounds r v) c.regions } := by
  induction l generalizing s with
  | nil => rfl
  | cons r l ih => rw [each_cons, ih]; rfl

theorem enterRestricted_eq (s : State) : s.enterRestricted = s.withChip fun c =>
    { c with phase := .restricted, regions := (0 :: s.halves.map (· + 1)).foldl (fun w r => w.setIfInBounds r .run) c.regions } := by
  rw [enterRestricted, each_setRegion]; rfl

/-- SH and Half A run, and Half B where the part has one. -/
theorem enterRestricted_regionRun (s : State) : s.enterRestricted.regionRun 0 = true ∧ s.enterRestricted.regionRun 1 = true ∧
    (s.dual = true → s.enterRestricted.regionRun 2 = true) := by
  rw [enterRestricted_eq]
  cases hd : s.dual <;>
    simp [regionRun, halves, hd, Vector.toList_setIfInBounds]

/-! ### The boot -/

/-- The identity that the boot loads, the straps among it (R28, R34). -/
def bootId (s : State) (p : Part) (alt : Bool) : List (Fld × Int) :=
  let x := s.chip.boot
  let maj := (x.id0 &&& x.id1) ||| (x.id0 &&& x.id2) ||| (x.id1 &&& x.id2)
  [(F.CHIP_ID_PART, (partBits p).1), (F.CHIP_ID_GRADE, s.fuseGrade), (F.CHIP_ID_STEP_LETTER, 0xB), (F.CHIP_ID_STEP_NUM, 2),
   (F.CHIP_ID_HALF_B, (partBits p).2.1), (F.CHIP_ID_G_LAW, (partBits p).2.2), (F.CHIP_PINS_FUSE_ALT, b2i alt), (F.CHIP_PINS_ID_STRAP, maj.toNat),
   (F.CHIP_PINS_STRAP_UNST, b2i (!(x.id0 == x.id1 && x.id1 == x.id2)))]

/-- The chip at time 0 with its identity loaded. -/
def identified (s : State) (p : Part) (alt : Bool) : State := { s with time := 0, marks := ⟨0, [], []⟩ }.puts 0 (s.bootId p alt)

/-- The bit addresses of the identity. -/
def idKeys : List Nat :=
  [F.CHIP_ID_PART.key 0, F.CHIP_ID_GRADE.key 0, F.CHIP_ID_STEP_LETTER.key 0, F.CHIP_ID_STEP_NUM.key 0, F.CHIP_ID_HALF_B.key 0, F.CHIP_ID_G_LAW.key 0,
   F.CHIP_PINS_FUSE_ALT.key 0, F.CHIP_PINS_ID_STRAP.key 0, F.CHIP_PINS_STRAP_UNST.key 0]

/-- The bit addresses of the clock's state that the boot sets. -/
def bootClockKeys : List Nat := [F.CHIP_CLK_STAT_XTAL_OK.key 0, F.CHIP_CLK_STAT_PLL_LOCK.key 0, F.CHIP_STATUS_TB_SRC.key 0]

variable {s : State} {p : Part} {alt : Bool}

theorem bootChip_eq (h : s.fusePart = some (p, alt)) : s.bootChip =
    if s.chip.boot.reference then
      ((s.identified p alt).puts 0 [(F.CHIP_CLK_STAT_XTAL_OK, 1), (F.CHIP_CLK_STAT_PLL_LOCK, (s.identified p alt).regionMask)]).enterRestricted
    else ((s.identified p alt).put 0 F.CHIP_STATUS_TB_SRC 3).withChip fun c => { c with phase := .starting } := by
  rw [bootChip, h]; rfl

theorem identified_sets (s : State) (p : Part) (alt : Bool) : ({ s with time := 0, marks := ⟨0, [], []⟩ } : State).Sets (s.identified p alt)
    ((s.bootId p alt).map fun x => (0, x.1, x.1.wrap x.2)) :=
  sets_puts _ 0 (show idKeys.Nodup by decide)

/-- The boot changes no field but the identity and the clock's state. -/
theorem bootChip_get_identified (h : s.fusePart = some (p, alt)) {f : Fld} (hf : f.key 0 ∉ bootClockKeys) :
    s.bootChip.get 0 f = (s.identified p alt).get 0 f := by
  simp only [bootClockKeys, List.mem_cons, List.not_mem_nil, or_false, not_or] at hf
  obtain ⟨hok, hlock, hsrc⟩ := hf
  rw [bootChip_eq h]
  split
  · rw [enterRestricted_eq, withChip_get, puts_cons, puts_cons, puts_nil, get_put_ne _ _ (Ne.symm hlock), get_put_ne _ _ (Ne.symm hok)]
  · rw [withChip_get, get_put_ne _ _ (Ne.symm hsrc)]

theorem bootChip_get {f : Fld} (h : s.fusePart = some (p, alt)) (hid : f.key 0 ∉ idKeys) (hclock : f.key 0 ∉ bootClockKeys) :
    s.bootChip.get 0 f = s.get 0 f := by
  rw [bootChip_get_identified h hclock, (s.identified_sets p alt).get_of_notMem hid]
  rfl

theorem bootChip_chip (h : s.fusePart = some (p, alt)) : ∃ regions, s.bootChip.chip =
    { s.chip with phase := if s.chip.boot.reference then .restricted else .starting, regions := regions } := by
  have hchip : (s.identified p alt).chip = s.chip := (s.identified_sets p alt).chip_eq
  rw [bootChip_eq h]
  split
  · rw [enterRestricted_eq, withChip_chip, puts_chip, hchip]
    exact ⟨_, rfl⟩
  · rw [withChip_chip, put_chip, hchip]
    exact ⟨_, rfl⟩

theorem started_bootChip (h : s.fusePart = some (p, alt)) : s.bootChip.Started s.chip.boot p alt := by
  have hget (i : Nat) {f : Fld} {v : Int} (hi : (s.bootId p alt)[i]? = some (f, v)) (hf : f.key 0 ∉ bootClockKeys) :
      s.bootChip.get 0 f = f.wrap v := by
    rw [bootChip_get_identified h hf]
    exact (s.identified_sets p alt).1 (0, f, f.wrap v) (List.mem_map.mpr ⟨_, List.mem_of_getElem? hi, rfl⟩)
  obtain ⟨regions, hchip⟩ := bootChip_chip h
  exact {
    time := bootChip_time_of_part h
    phase := by rw [hchip]
    part := (hget 0 rfl (by decide)).trans (by cases p <;> rfl)
    halfB := (hget 4 rfl (by decide)).trans (by cases p <;> rfl)
    law := (hget 5 rfl (by decide)).trans (by cases p <;> rfl)
    alt := (hget 6 rfl (by decide)).trans (by cases alt <;> rfl)
    strap := (hget 7 rfl (by decide)).trans (wrap_unsigned rfl (by positivity) (by exact_mod_cast BitVec.isLt _)) }

theorem fusePart_congr {t : State} (ha : t.chip.fuseA = s.chip.fuseA) (hb : t.chip.fuseB = s.chip.fuseB) (hg : t.chip.grade = s.chip.grade) :
    t.fusePart = s.fusePart := by
  simp only [fusePart, ha, hb, hg]

/-! ### The rails -/

/-- The rails up and VIO_SEL sampled, with the cause shown. -/
def risen (s : State) (b : Boot) (cause : List Fld) : State :=
  ((s.puts 0 [(F.FLT_CHIP_CODE, 0), (F.CHIP_PWR_STAT_VIO_18, b2i b.vio18), (F.CHIP_PWR_STAT_VGD_OK, 1)]).putCause cause).withChip fun c =>
    { c with boot := b, vinLost := false, wakePend := none, mbxLost := true }

theorem risen_chip (s : State) (b : Boot) (cause : List Fld) :
    (s.risen b cause).chip = { s.chip with boot := b, vinLost := false, wakePend := none, mbxLost := true } := by
  rw [risen, withChip_chip, putCause_chip, puts_chip]

/-- A cause that is shown reads 1. -/
theorem putCause_get (s : State) {fs : List Fld} {f : Fld} (hnodup : (fs.map (·.key 0)).Nodup) (hf : f ∈ fs) (hone : f.wrap 1 = 1) :
    (s.putCause fs).get 0 f = 1 := by
  have hsets := s.sets_puts 0 (l := fs.map fun f => (f, (1 : Int))) (by simpa [Function.comp_def] using hnodup)
  rw [← hone]
  exact hsets.1 (0, f, f.wrap 1) (List.mem_map.mpr ⟨(f, 1), List.mem_map_of_mem hf, rfl⟩)

theorem railsUp_eq (s : State) (b : Boot) (cause : List Fld) : s.railsUp b cause =
    if s.chip.resetLow || s.chip.tapHold then (s.risen b cause).withChip fun c => { c with phase := .reset } else (s.risen b cause).bootChip := by
  have hheld : (s.chip.resetLow || s.chip.tapHold) = ((s.risen b cause).chip.resetLow || (s.risen b cause).chip.tapHold) := by rw [risen_chip]
  rw [hheld]
  rfl

variable {b : Boot} {cause : List Fld} {f : Fld}

/-- A chip that something holds waits in reset, its regions and READY as they were. -/
theorem railsUp_of_held (h : s.chip.resetLow = true ∨ s.chip.tapHold = true) :
    (s.railsUp b cause).chip = { s.chip with phase := .reset, boot := b, vinLost := false, wakePend := none, mbxLost := true } := by
  rw [railsUp_eq, if_pos (by simpa using h), withChip_chip, risen_chip]

theorem railsUp_of_free (hlow : s.chip.resetLow = false) (hhold : s.chip.tapHold = false) : s.railsUp b cause = (s.risen b cause).bootChip := by
  rw [railsUp_eq, hlow, hhold]; rfl

/-- Without a valid copy of the fuse a chip that nothing holds stays in reset (R28). -/
theorem bootChip_of_blank (h : s.fusePart = none) : s.bootChip = s.withChip fun c => { c with phase := .reset } := by
  rw [bootChip, h]

theorem risen_fusePart (s : State) (b : Boot) (cause : List Fld) : (s.risen b cause).fusePart = s.fusePart :=
  fusePart_congr (by rw [risen_chip]) (by rw [risen_chip]) (by rw [risen_chip])

/-- The rails of a chip that nothing holds start it, with the causes shown. -/
theorem railsUp_starts (h : s.fusePart = some (p, alt)) (hlow : s.chip.resetLow = false) (hhold : s.chip.tapHold = false)
    (hnodup : (cause.map (·.key 0)).Nodup) (hcause : ∀ f ∈ cause, f.wrap 1 = 1 ∧ f.key 0 ∉ idKeys ∧ f.key 0 ∉ bootClockKeys) :
    (s.railsUp b cause).Started b p alt ∧ ∀ f ∈ cause, (s.railsUp b cause).get 0 f = 1 := by
  have hfuse : (s.risen b cause).fusePart = some (p, alt) := by rw [risen_fusePart, h]
  rw [railsUp_of_free hlow hhold]
  refine ⟨?_, fun f hf => ?_⟩
  · have hboot : (s.risen b cause).chip.boot = b := by rw [risen_chip]
    exact hboot ▸ started_bootChip hfuse
  · obtain ⟨hone, hid, hclock⟩ := hcause f hf
    rw [bootChip_get hfuse hid hclock, risen, withChip_get, putCause_get _ hnodup hf hone]

/-! ### Power-on and wakes -/

theorem powerOn_of_off (hoff : s.chip.phase = .off) (hlatch : s.chip.dieLatch = false) :
    s.powerOn b = s.railsUp b [if s.chip.vinLost then F.CHIP_RST_CAUSE_POR else F.CHIP_RST_CAUSE_BROWNOUT] := by
  rw [powerOn, if_neg (not_not_intro hoff), hlatch]
  rfl

/-- Every wake path shows a cause of its own, beside the one of any wake (Table PW-13). -/
theorem wakeField_shown (w : WakeCause) : ([F.CHIP_RST_CAUSE_WAKE, wakeField w].map (·.key 0)).Nodup ∧
    ∀ f ∈ [F.CHIP_RST_CAUSE_WAKE, wakeField w], f.wrap 1 = 1 ∧ f.key 0 ∉ idKeys ∧ f.key 0 ∉ bootClockKeys := by
  cases w <;> simp only [wakeField] <;> decide

/-- What a wake leaves of the chip: the level of its pin. -/
theorem pinLevel_chip (s : State) (w : WakeCause) : (s.pinLevel w).chip = s.chip := by cases w <;> rfl

theorem wakeArmed_congr {t : State} (w : WakeCause) (h : t.chip = s.chip) : t.wakeArmed w = s.wakeArmed w := by
  have hfuse : t.fusePart = s.fusePart := fusePart_congr (by rw [h]) (by rw [h]) (by rw [h])
  unfold wakeArmed
  rw [h, hfuse]

theorem wake_eq (s : State) (w : WakeCause) (b : Boot) : s.wake w b =
    if !s.wakeArmed w then s.pinLevel w
    else if s.chip.phase = .asleep then (s.pinLevel w).railsUp b [F.CHIP_RST_CAUSE_WAKE, wakeField w]
    else if s.chip.phase = .sleepEntry then
      (s.pinLevel w).withChip fun q => { q with boot := b, wakePend := some (q.wakePend.getD w) }
    else s.pinLevel w := by
  rw [← wakeArmed_congr w (s.pinLevel_chip w), ← s.pinLevel_chip w]
  rfl

/-! ### The end of a reset -/

theorem leaveReset_of_free (hphase : s.chip.phase = .reset) (hlow : s.chip.resetLow = false) (hhold : s.chip.tapHold = false) :
    s.leaveReset = s.bootChip := by
  rw [leaveReset, hphase, hlow, hhold]
  rfl

theorem leaveReset_of_held (h : s.chip.resetLow = true ∨ s.chip.tapHold = true) : s.leaveReset = s := by
  rw [leaveReset]
  rcases h with h | h <;> rw [h] <;> simp

/-- A chip in reset that a row no longer holds starts, with the causes that it showed. -/
theorem leaveReset_starts {g : Chip → Chip} (h : s.fusePart = some (p, alt))
    (hfuse : (g s.chip).fuseA = s.chip.fuseA ∧ (g s.chip).fuseB = s.chip.fuseB ∧ (g s.chip).grade = s.chip.grade)
    (hphase : (g s.chip).phase = .reset) (hlow : (g s.chip).resetLow = false) (hhold : (g s.chip).tapHold = false) :
    (s.withChip g).leaveReset = (s.withChip g).bootChip ∧ (s.withChip g).leaveReset.Started (g s.chip).boot p alt ∧
    ∀ f, f.key 0 ∉ idKeys → f.key 0 ∉ bootClockKeys → (s.withChip g).leaveReset.get 0 f = s.get 0 f := by
  obtain ⟨ha, hb, hg⟩ := hfuse
  have hpart : (s.withChip g).fusePart = some (p, alt) := (fusePart_congr ha hb hg).trans h
  have hleave : (s.withChip g).leaveReset = (s.withChip g).bootChip := leaveReset_of_free hphase hlow hhold
  rw [hleave]
  exact ⟨rfl, started_bootChip hpart, fun f hid hclock => bootChip_get hpart hid hclock⟩

end State
end Sys2Proof.Machine
end

section
/-!
PROOFS. The end of a flush (R394): what waits in the FIFO is captured or lost, the staging buffer is written out, and no register but two counts of the
recorder changes.
-/
namespace Sys2Proof.Machine

/-- The counts that the recorder's stages move: lost triggers and redirected records (R392, R396). -/
def recCounts : List Nat := [F.REC_CNT_LOST.key 0, F.REC_CNT_REDIR.key 0]

/-- `t` comes from `s` by stages of the recorder: the chip-level state and every register but `recCounts` are as they were. -/
structure Recorded (s t : State) : Prop where
  chip : t.chip = s.chip
  regs : ∀ k, k ∉ recCounts → t.regs.get k = s.regs.get k

namespace Recorded

variable {s0 s t : State}

theorem refl (s : State) : Recorded s s := ⟨rfl, fun _ _ => rfl⟩
theorem trans {u : State} (h : Recorded s t) (k : Recorded t u) : Recorded s u :=
  ⟨k.chip.trans h.chip, fun x hx => (k.regs x hx).trans (h.regs x hx)⟩

theorem get {b : Nat} {f : Fld} (h : Recorded s t) (hf : f.key b ∉ recCounts) : t.get b f = s.get b f := by
  rw [State.get, State.get, h.regs _ hf]

theorem withLog {g : Recorder → Recorder} (h : Recorded s0 s) : Recorded s0 (s.withLog g) := h.trans ⟨rfl, fun _ _ => rfl⟩

theorem loseTrig {k : Nat} (h : Recorded s0 s) : Recorded s0 (s.loseTrig k) :=
  h.trans ⟨rfl, fun _ hx => Sparse.get_set_ne _ _ fun he => hx (by simp [recCounts, he])⟩

theorem bumpRedir (h : Recorded s0 s) : Recorded s0 (s.bump 0 F.REC_CNT_REDIR) :=
  h.trans ⟨rfl, fun _ hx => Sparse.get_set_ne _ _ fun he => hx (by simp [recCounts, he])⟩

theorem each {α : Type} {l : List α} {g : α → State → State} (h : Recorded s0 s) (hg : ∀ a s, Recorded s0 s → Recorded s0 (g a s)) :
    Recorded s0 (s.each l g) := by
  induction l generalizing s with
  | nil => exact h
  | cons a r ih => exact ih (hg a s h)

theorem ite {c : Prop} [Decidable c] {a b : State} (ha : Recorded s0 a) (hb : Recorded s0 b) : Recorded s0 (if c then a else b) := by
  split <;> assumption

theorem stageTrig {x : Trig} (h : Recorded s0 s) : Recorded s0 (s.stageTrig x) := ite (withLog h) (ite (bumpRedir (withLog h)) (withLog h))

theorem recPop (h : Recorded s0 s) : Recorded s0 s.recPop := by
  unfold State.recPop
  split
  · exact h
  · exact stageTrig (withLog h)

theorem flushPop (h : Recorded s0 s) : Recorded s0 s.flushPop := ite (recPop h) (loseTrig (withLog h))

end Recorded

namespace State

variable {s : State}

/-! ### The FIFO -/

theorem stageTrig_fifo (s : State) (x : Trig) : (s.stageTrig x).log.fifo = s.log.fifo := by
  unfold stageTrig
  split
  · rfl
  · dsimp only
    split <;> (show (takeSeq _ _).fifo = _; unfold takeSeq; split <;> rfl)

theorem recPop_fifo (s : State) : s.recPop.log.fifo = s.log.fifo.drop 1 := by
  unfold recPop
  split
  · next h => rw [h]; rfl
  · next h => rw [stageTrig_fifo, h]; rfl

theorem flushPop_fifo (s : State) : s.flushPop.log.fifo = s.log.fifo.drop 1 := by
  unfold flushPop
  split
  · exact s.recPop_fifo
  · rfl

/-- Each pop takes one trigger. -/
theorem each_pop_fifo {α : Type} {g : State → State} (hg : ∀ s : State, (g s).log.fifo = s.log.fifo.drop 1) (s : State) (l : List α) :
    (s.each l fun _ s => g s).log.fifo = s.log.fifo.drop l.length := by
  induction l generalizing s with
  | nil => rfl
  | cons a r ih => rw [each_cons, ih, hg, List.drop_drop, List.length_cons, Nat.add_comm]

theorem ownOf_length_le (k : FlushKind) (l : List Trig) : (ownOf k l).length ≤ l.length :=
  (List.length_filter_le ..).trans (by rw [List.length_drop]; omega)

/-! ### The work of a flush -/

/-- The FIFO taken out, the flush's own record last. -/
def flushTaken (s : State) (k : FlushKind) : State :=
  (s.each (List.range (s.log.fifo.length - (ownOf k s.log.fifo).length)) fun _ s => s.flushPop).each (ownOf k s.log.fifo) fun _ s => s.recPop

/-- The staging buffer written out, unless the recorder is out of service. -/
def flushWritten (s : State) : State :=
  if s.oos .recorder then s else (s.each s.log.staging fun r s => s.nvaPut r).withLog fun l => { l with staging := [] }

theorem flushWork_eq (s : State) (k : FlushKind) : s.flushWork k = (s.flushTaken k).flushWritten.withLog fun l =>
    { l with flush := none, flushSh := false, lostWord := min l.pendLost 0xFFFFFFFE } := rfl

theorem flushTaken_recorded (s : State) (k : FlushKind) : Recorded s (s.flushTaken k) :=
  .each (.each (.refl s) fun _ _ h => .flushPop h) fun _ _ h => .recPop h

theorem flushTaken_fifo (s : State) (k : FlushKind) : (s.flushTaken k).log.fifo = [] := by
  rw [flushTaken, each_pop_fifo recPop_fifo, each_pop_fifo flushPop_fifo, List.length_range, List.drop_drop,
    Nat.sub_add_cancel (ownOf_length_le k s.log.fifo), List.drop_length]

theorem nvaPut_fifo (s : State) (r : Recd) : (s.nvaPut r).log.fifo = s.log.fifo := by
  unfold nvaPut
  rw [withLog_log]
  split <;> rfl

theorem each_nvaPut_fifo (s : State) (l : List Recd) : (s.each l fun r s => s.nvaPut r).log.fifo = s.log.fifo := by
  induction l generalizing s with
  | nil => rfl
  | cons r l ih => rw [each_cons, ih, nvaPut_fifo]

theorem flushWritten_fifo (s : State) : s.flushWritten.log.fifo = s.log.fifo := by
  unfold flushWritten
  split
  · rfl
  · exact each_nvaPut_fifo ..

theorem flushWork_recorded (s : State) (k : FlushKind) : Recorded s (s.flushWork k) := by
  rw [flushWork_eq]
  refine .withLog (.ite (s.flushTaken_recorded k) (.withLog (.each (s.flushTaken_recorded k) fun _ _ h => .withLog h)))

theorem flushWork_flush (s : State) (k : FlushKind) : (s.flushWork k).log.flush = none := by rw [flushWork_eq]; rfl

theorem flushWork_fifo (s : State) (k : FlushKind) : (s.flushWork k).log.fifo = [] := by
  rw [flushWork_eq, withLog_log]
  exact (flushWritten_fifo _).trans (s.flushTaken_fifo k)

/-- The staging buffer is empty once the recorder has written it out. -/
theorem flushWork_staging (k : FlushKind) (h : s.oos .recorder = false) : (s.flushWork k).log.staging = [] := by
  have hoos : (s.flushTaken k).oos .recorder = false := by
    rw [← h]
    simp only [oos, on, (s.flushTaken_recorded k).get (show F.FLT_SH_OOS_REC.key 0 ∉ recCounts by decide)]
  rw [flushWork_eq, flushWritten, hoos]
  rfl

end State
end Sys2Proof.Machine
end

section
/-!
PROOFS. What starts the chip: the end of a chip-wide reset's flush (R48, R58), and the test port that holds it no longer (R428).
-/
namespace Sys2Proof.Machine
namespace State

variable {s : State} {p : Part} {alt : Bool}

/-! ### The end of a chip-wide reset's flush -/

/-- The cause that the end of a chip-wide reset shows. -/
def resetCause (s : State) : Fld := if s.chip.arbPend then F.CHIP_RST_CAUSE_ARBITER else F.CHIP_RST_CAUSE_RESET_PIN

/-- SH in reset too, the supply's levels and the cause standing. -/
def resetEntered (s : State) : State :=
  (((if s.get 0 F.CHIP_PWR_CTRL_VGD_SET == 4 then s else s.put 0 F.CHIP_PWR_STAT_VGD_OK 0).wipe keptReset).putCause [s.resetCause]).withChip fun c =>
    { c with phase := .reset, arbPend := false }

theorem enterReset_eq (s : State) : s.enterReset = s.resetEntered.leaveReset := rfl

theorem resetEntered_chip (s : State) :
    s.resetEntered.chip = { s.chip with phase := .reset, arbPend := false, regions := Vector.replicate 3 .down, ready := false } := by
  rw [resetEntered, withChip_chip, putCause_chip, wipe_chip]
  split <;> rfl

theorem resetCause_shown (s : State) : s.resetCause.wrap 1 = 1 ∧ s.resetCause.key 0 ∉ idKeys ∧ s.resetCause.key 0 ∉ bootClockKeys := by
  unfold resetCause
  split <;> decide

theorem resetEntered_cause (s : State) : s.resetEntered.get 0 s.resetCause = 1 := by
  rw [resetEntered, withChip_get]
  exact putCause_get _ (by simp) (by simp) s.resetCause_shown.1

/-- A chip that something holds waits in reset. -/
theorem enterReset_of_held (h : s.chip.resetLow = true ∨ s.chip.tapHold = true) : s.enterReset = s.resetEntered := by
  rw [enterReset_eq]
  exact leaveReset_of_held (by rw [resetEntered_chip]; exact h)

theorem enterReset_of_free (hlow : s.chip.resetLow = false) (hhold : s.chip.tapHold = false) : s.enterReset = s.resetEntered.bootChip := by
  rw [enterReset_eq]
  exact leaveReset_of_free (by rw [resetEntered_chip]) (by rw [resetEntered_chip]; exact hlow) (by rw [resetEntered_chip]; exact hhold)

theorem resetEntered_fusePart (s : State) : s.resetEntered.fusePart = s.fusePart :=
  fusePart_congr (by rw [resetEntered_chip]) (by rw [resetEntered_chip]) (by rw [resetEntered_chip])

theorem enterReset_starts (h : s.fusePart = some (p, alt)) (hlow : s.chip.resetLow = false) (hhold : s.chip.tapHold = false) :
    s.enterReset.Started s.chip.boot p alt := by
  have hboot : s.resetEntered.chip.boot = s.chip.boot := by rw [resetEntered_chip]
  rw [enterReset_of_free hlow hhold, ← hboot]
  exact started_bootChip (s.resetEntered_fusePart.trans h)

/-- The cause shows whether the chip starts or waits. -/
theorem enterReset_cause (h : s.fusePart = some (p, alt)) : s.enterReset.get 0 s.resetCause = 1 := by
  obtain ⟨-, hid, hclock⟩ := s.resetCause_shown
  rw [enterReset_eq, leaveReset]
  split
  · rw [bootChip_get (s.resetEntered_fusePart.trans h) hid hclock, resetEntered_cause]
  · exact s.resetEntered_cause

/-! ### The test port -/

theorem mem_intrusive_codes {ir : BitVec 8} (h : ir ∉ [3, 4, 5]) : tapInstr ir.toNat = .idcode ∨ tapInstr ir.toNat = .samplePreload ∨
    tapInstr ir.toNat = .bypass := by
  have hne (v : BitVec 8) (hv : v ∈ [(3 : BitVec 8), 4, 5]) : ir.toNat ≠ v.toNat := fun he => h (BitVec.eq_of_toNat_eq he ▸ hv)
  unfold tapInstr
  split
  · exact .inl rfl
  · exact .inr (.inl rfl)
  · next he => exact absurd he (hne 3 (by simp))
  · next he => exact absurd he (hne 4 (by simp))
  · next he => exact absurd he (hne 5 (by simp))
  · exact .inr (.inr rfl)

/-- An instruction that is not intrusive holds nothing (R428). -/
theorem tapIr_of_plain {ir : BitVec 8} (hir : ir ∉ [3, 4, 5]) (hoff : s.chip.phase ≠ .off) (hsleep : s.chip.phase ≠ .asleep) :
    s.tapIr ir.toNat = (s.withChip fun c => { c with ir := tapInstr ir.toNat, tapOff := false, tapHold := false }).leaveReset := by
  rw [tapIr, if_neg (by simp [hoff, hsleep])]
  rcases mem_intrusive_codes hir with h | h | h <;> rw [h] <;> rfl

end State

/-- Settles O31: every source that finds nothing to hold the chip comes to `bootChip`, which changes the identity and the clock's state alone; so the
causes stand as they were shown. -/
theorem startBegins : Obligations.StartBegins := by
  intro s b p alt hpart
  have hkept : ∀ f ∈ [F.CHIP_RST_CAUSE_POR, F.CHIP_RST_CAUSE_RESET_PIN, F.CHIP_RST_CAUSE_BROWNOUT, F.CHIP_RST_CAUSE_ARBITER,
      F.CHIP_RST_CAUSE_WAKE], f.key 0 ∉ State.idKeys ∧ f.key 0 ∉ State.bootClockKeys := by decide
  refine ⟨fun hoff hlatch hlow hhold => ⟨_, rfl, ?_⟩, fun w hsleep harmed hlow hhold => ⟨_, rfl, ?_⟩,
    fun hreset => ⟨fun hlow hhold => ⟨_, rfl, ?_⟩, fun hlow => ⟨_, rfl, ?_⟩, fun ir hir hlow => ⟨_, rfl, ?_⟩⟩, fun hflush => ⟨_, rfl, ?_⟩⟩
  · rw [State.powerOn_of_off hoff hlatch]
    obtain ⟨hstart, hcause⟩ := State.railsUp_starts (b := b) hpart hlow hhold
      (cause := [if s.chip.vinLost then F.CHIP_RST_CAUSE_POR else F.CHIP_RST_CAUSE_BROWNOUT]) (by simp) (by split <;> decide)
    exact ⟨hstart, hcause _ (List.mem_singleton_self _)⟩
  · obtain ⟨hnodup, hshown⟩ := State.wakeField_shown w
    have hchip := s.pinLevel_chip w
    obtain ⟨hstart, hcause⟩ := State.railsUp_starts (s := s.pinLevel w) (b := b) (p := p) (alt := alt)
      ((State.fusePart_congr (by rw [hchip]) (by rw [hchip]) (by rw [hchip])).trans hpart) (by rw [hchip, hlow]) (by rw [hchip, hhold]) hnodup hshown
    rw [State.wake_eq, harmed, if_neg (by simp), if_pos hsleep]
    exact ⟨hstart, hcause _ (by simp), hcause _ (by simp)⟩
  · obtain ⟨-, hstart, hget⟩ := State.leaveReset_starts (g := fun c => { c with resetLow := false, boot := b }) hpart ⟨rfl, rfl, rfl⟩ hreset rfl hhold
    rw [State.resetRelease, hlow, if_neg (by simp)]
    exact ⟨hstart, fun f hf => hget f (hkept f hf).1 (hkept f hf).2⟩
  · obtain ⟨hboot, hstart, hget⟩ := State.leaveReset_starts (g := fun c => { c with ir := .idcode, tapOff := true, tapHold := false }) hpart
      ⟨rfl, rfl, rfl⟩ hreset hlow rfl
    refine ⟨hstart, ?_, fun f hf => hget f (hkept f hf).1 (hkept f hf).2⟩
    obtain ⟨regions, hchip⟩ := State.bootChip_chip (s := s.withChip fun c => { c with ir := .idcode, tapOff := true, tapHold := false }) (p := p)
      (alt := alt) hpart
    rw [State.tapReset, hboot, hchip]
    rfl
  · obtain ⟨-, hstart, hget⟩ := State.leaveReset_starts (g := fun c => { c with ir := State.tapInstr ir.toNat, tapOff := false, tapHold := false }) hpart
      ⟨rfl, rfl, rfl⟩ hreset hlow rfl
    rw [State.tapIr_of_plain hir (by simp [hreset]) (by simp [hreset])]
    exact ⟨hstart, fun f hf => hget f (hkept f hf).1 (hkept f hf).2⟩
  · have hchip := (s.flushWork_recorded .reset).chip
    have hpart' : (s.flushWork .reset).fusePart = some (p, alt) :=
      (State.fusePart_congr (by rw [hchip]) (by rw [hchip]) (by rw [hchip])).trans hpart
    simp only [State.flushComplete, hflush]
    refine ⟨?_, fun hheld => ?_, fun hlow hhold => ?_⟩
    · have hcause := State.enterReset_cause hpart'
      rwa [State.resetCause, hchip] at hcause
    · rw [State.enterReset_of_held (by rw [hchip]; exact hheld), State.resetEntered_chip]
    · rw [← hchip]
      exact State.enterReset_starts hpart' (by rw [hchip, hlow]) (by rw [hchip, hhold])

end Sys2Proof.Machine
end

section
/-!
PROOFS. What holds a start, and how start-up goes on (R28, R49, R59).
-/
namespace Sys2Proof.Machine
namespace State

variable {s : State}

/-- A chip that something holds, or whose fuses give no part, waits in reset with its regions and READY as they were (R28, R49). -/
theorem railsUp_waits {b : Boot} {cause : List Fld} (h : s.chip.resetLow = true ∨ s.chip.tapHold = true ∨ s.fusePart = none) :
    (s.railsUp b cause).chip.phase = .reset ∧ (s.railsUp b cause).chip.regions = s.chip.regions ∧ (s.railsUp b cause).chip.ready = s.chip.ready := by
  by_cases hheld : s.chip.resetLow = true ∨ s.chip.tapHold = true
  · rw [railsUp_of_held hheld]
    exact ⟨rfl, rfl, rfl⟩
  · obtain ⟨hlow, hhold⟩ := not_or.mp hheld
    have hblank : s.fusePart = none := (h.resolve_left hlow).resolve_left hhold
    rw [railsUp_of_free (by simpa using hlow) (by simpa using hhold), bootChip_of_blank ((s.risen_fusePart b cause).trans hblank), withChip_chip,
      risen_chip]
    exact ⟨rfl, rfl, rfl⟩

/-- What START_NO_REFERENCE sets (Table PW-5 Step 5F). -/
def noRefSets (s : State) : List (Fld × Int) :=
  [(F.CHIP_CLK_STAT_PLL_LOCK, s.regionMask), (F.CHIP_STATUS_CLK_FB, s.regionMask), (F.CHIP_STATUS_TB_SRC, 0), (H.refBad, s.regionMask)]

theorem noRef_sets (s : State) : s.Sets (s.puts 0 s.noRefSets) (s.noRefSets.map fun x => (0, x.1, x.1.wrap x.2)) :=
  sets_puts _ 0 (show [F.CHIP_CLK_STAT_PLL_LOCK.key 0, F.CHIP_STATUS_CLK_FB.key 0, F.CHIP_STATUS_TB_SRC.key 0, H.refBad.key 0].Nodup by decide)

theorem noRef_dual (s : State) : (s.puts 0 s.noRefSets).dual = s.dual := by
  rw [dual, on, (s.noRef_sets).get_of_notMem (show F.CHIP_ID_HALF_B.key 0 ∉
    [F.CHIP_CLK_STAT_PLL_LOCK.key 0, F.CHIP_STATUS_CLK_FB.key 0, F.CHIP_STATUS_TB_SRC.key 0, H.refBad.key 0] by decide)]
  rfl

theorem startNoRef_of_starting (h : s.chip.phase = .starting) : s.startNoRef = (s.puts 0 s.noRefSets).enterRestricted := by
  rw [startNoRef, if_pos h]; rfl

theorem startMailboxes_phase (s : State) : s.startMailboxes.chip.phase = s.chip.phase :=
  (congrArg Chip.phase (Calm.mbxStart (power := s.chip.mbxLost) (.refl s)).chip :)

/-- Start-up leaves the chip running with READY high: what it loads and begins in the regions leaves the chip-level state alone. -/
theorem startUp_runs (h : s.chip.phase = .restricted) : s.startUp.chip.phase = .running ∧ s.startUp.chip.ready = true := by
  rw [startUp, if_neg (not_not_intro h)]
  extract_lets s1 s2 s3 s4 s5 s6
  have h1 : s1.chip.phase = .running :=
    (congrArg Chip.phase (Calm.selectCopy (.recScan (.refl _))).chip).trans (startMailboxes_phase (s.withChip fun c => { c with phase := .running }))
  clear_value s1
  have h2 : Calm s1 s2 := .loadRegion (.refl s1)
  clear_value s2
  have h3 : Calm s1 s3 := .ite h2 (.put h2)
  clear_value s3
  have h4 : Calm s1 s4 := .each h3 fun _ _ h => .startHalf (.loadRegion h)
  clear_value s4
  have h5 : Calm s1 s5 := .startSh (.firstToken h4)
  clear_value s5
  have h6 : Calm s6 s6.startRecord.localNote := .localNote (.startRecord (.refl s6))
  rw [h6.chip]
  exact ⟨(congrArg Chip.phase h5.chip).trans h1, rfl⟩

end State

/-- Settles O32: held rails change the phase alone, a wake is `wake_eq`'s cases, and start-up is work that leaves the chip-level state alone. -/
theorem startProceeds : Obligations.StartProceeds := by
  refine ⟨fun s b => ⟨fun hoff hlatch hwait => ⟨_, rfl, ?_⟩, fun w => ?_⟩,
    fun s => ⟨fun hstart => ⟨_, rfl, ?_⟩, fun hphase => ⟨_, rfl, State.startUp_runs hphase⟩⟩⟩
  · rw [State.powerOn_of_off hoff hlatch]
    exact State.railsUp_waits (hwait.imp_right (Or.imp_right fun ⟨ha, hb⟩ => State.fusePart_of_blank ha hb))
  · have hpin : (match w with | .pin low => s.put 0 F.CHIP_PINS_WAKE_LOW (b2i low) | _ => s) = s.pinLevel w := by cases w <;> rfl
    intro u
    have hu : u = s.pinLevel w := hpin
    rw [hu]
    refine ⟨fun hentry harmed => ?_, fun hother => ?_⟩
    · show Host.Outcome.next (s.wake w b) = _
      rw [State.wake_eq, harmed, hentry, ← s.pinLevel_chip w]
      rfl
    · show Host.Outcome.next (s.wake w b) = _
      rw [State.wake_eq]
      rcases hother with hphase | harmed
      · simp only [List.mem_cons, List.not_mem_nil, or_false, not_or] at hphase
        obtain ⟨hasleep, hentry⟩ := hphase
        rw [if_neg hasleep, if_neg hentry, ite_self]
      · rw [harmed, Bool.not_false, if_pos rfl]
  · have hsets := s.noRef_sets
    obtain ⟨hsh, hha, hhb⟩ := (s.puts 0 s.noRefSets).enterRestricted_regionRun
    rw [State.startNoRef_of_starting hstart]
    refine ⟨by rw [State.enterRestricted_eq]; rfl, hsh, hha, fun hdual => hhb (s.noRef_dual.trans hdual), ?_, ?_⟩
    · rw [State.enterRestricted_eq, State.withChip_get]
      refine (hsets.1 (0, F.CHIP_STATUS_CLK_FB, F.CHIP_STATUS_CLK_FB.wrap s.regionMask) (by simp [State.noRefSets])).trans ?_
      unfold State.regionMask
      split <;> rfl
    · rw [State.enterRestricted_eq, State.withChip_get]
      exact hsets.1 (0, F.CHIP_STATUS_TB_SRC, F.CHIP_STATUS_TB_SRC.wrap 0) (by simp [State.noRefSets])

end Sys2Proof.Machine
end

section
/-!
PROOFS. The chip-wide reset (R48, R374, R428): what takes it begins the same flush, with ports, tags and regions down and every output of the halves in its
reset state.
-/
namespace Sys2Proof.Machine
namespace State

variable {s t : State}

/-! ### Outputs in reset -/

/-- While the flush of a reset runs, the pins of a half whose region is down are in their reset states. -/
theorem halfQuiet_of_resetFlush (hphase : t.chip.phase = .resetFlush) (hdown : ∀ r, t.regionRun r = false) (h : Nat) : t.HalfQuiet h := by
  have hpin (p : OutPin) : t.pin p = t.pinOn p := by simp [pin, supplied, scanned, hphase]
  have hhalf (k : Nat) : t.halfRun k = false := by rw [halfRun, hdown, Bool.false_and]
  have hstn (n : Nat) : t.stnDrives n = false := by rw [stnDrives, hhalf, Bool.false_and]
  have haxs (n : Nat) : t.axsDrives n = false := by rw [axsDrives, hhalf, Bool.false_and]
  refine ⟨fun n leg _ => ?_, ?_⟩
  · simp [hpin, pinOn, gatePin, linkPin, axisPin, coilPin, drive, hstn, haxs]
  · simp [hpin, pinOn, canPin, rpPin, drive, hhalf]

/-! ### What a reset takes down -/

theorem stopCommit_mil (s : State) : s.stopCommit.mil = s.mil := by
  unfold stopCommit
  split
  · rfl
  · dsimp only
    split <;> rfl

theorem each_withCan_mil {α : Type} (c : α → Nat) (g : CanS → CanS) (s : State) (l : List α) : (s.each l fun a s => s.withCan (c a) g).mil = s.mil := by
  induction l generalizing s with
  | nil => rfl
  | cons a r ih => exact ih _

theorem clearHalf_mil (s : State) (h : Nat) : (s.clearHalf h).mil = s.mil := by
  unfold clearHalf
  extract_lets g c1 c2 pins l0 l1 s1
  have h1 : RegWork (s.clearBytes g (g + 0x1000000)) s1 := .puts (.puts (.puts (.refl _)))
  clear_value s1
  exact (each_withCan_mil id _ s1 _).trans h1.mil

theorem each_clearHalf_mil (s : State) (l : List Nat) : (s.each l fun h s => s.clearHalf h).mil = s.mil := by
  induction l generalizing s with
  | nil => rfl
  | cons h l ih => rw [each_cons, ih, clearHalf_mil]

/-- The chip-wide reset as it begins: the chip-level state, ports and tags, and the flush. -/
theorem resetTaken_begins (s : State) (arb : Bool) :
    (s.resetTaken arb).chip = { s.chip with phase := .resetFlush, regions := Vector.replicate 3 .down, ready := false, arbPend := arb, wakePend := none } ∧
    (s.resetTaken arb).mil = Mil.zero ∧ (s.resetTaken arb).log.flush = some .reset := by
  unfold resetTaken
  extract_lets sh s1 s2 s3
  have h1 : Calm (s.withMil fun _ => Mil.zero) s1 := .regWork (.stopCommit (.refl _)) (.cutOutputs (.refl _))
  have hm1 : s1.mil = Mil.zero := (RegWork.cutOutputs (.refl _)).mil.trans (stopCommit_mil _)
  clear_value s1
  have h3 : Calm s2 s3 := .each (.refl s2) fun _ _ h => .clearHalf h
  have hm3 : s3.mil = Mil.zero := (each_clearHalf_mil s2 _).trans hm1
  clear_value s3
  exact ⟨h3.chip.trans (congrArg (fun c : Chip => { c with phase := .resetFlush, regions := Vector.replicate 3 .down, ready := false, arbPend := arb,
                                                             wakePend := none }) h1.chip), hm3, rfl⟩

/-- What is in reset while the flush of a chip-wide reset runs. -/
structure Down (t : State) : Prop where
  phase   : t.chip.phase = .resetFlush
  ready   : t.chip.ready = false
  regions : ∀ r, t.regionRun r = false
  busy    : t.mil.busy = []
  ports   : ∀ i, (t.port i).out = []
  flush   : t.log.flush = some .reset
  quiet   : ∀ h, t.HalfQuiet h

theorem down_resetTaken (s : State) (arb : Bool) : (s.resetTaken arb).Down := by
  obtain ⟨hchip, hmil, hflush⟩ := s.resetTaken_begins arb
  have hphase : (s.resetTaken arb).chip.phase = .resetFlush := by rw [hchip]
  have hregions : ∀ r, (s.resetTaken arb).regionRun r = false := regionRun_of_down (by rw [hchip])
  exact ⟨hphase, by rw [hchip], hregions, by rw [hmil]; rfl, port_of_zero hmil, hflush, halfQuiet_of_resetFlush hphase hregions⟩

theorem resettable_iff (s : State) : s.resettable = true ↔ s.chip.phase ∈ [Phase.starting, .restricted, .running, .sleepEntry] := by
  cases hp : s.chip.phase <;> simp [resettable, hp]

/-! ### What begins it -/

theorem resetPin_eq (s : State) : s.resetPin =
    if s.resettable then (s.withChip fun c => { c with resetLow := true }).resetTaken false else s.withChip fun c => { c with resetLow := true } := rfl

theorem arbError_of_resettable (h : s.resettable = true) : s.arbError =
    ((s.raise .chip (fcode 4 0 0xD7)).put 0 F.FLT_CHIP_CODE (fcode 4 0 0xD7)).resetTaken true := by
  rw [arbError, h]; rfl

theorem intrusive_of_mem {ir : BitVec 8} (h : ir ∈ [(3 : BitVec 8), 4, 5]) : intrusive (tapInstr ir.toNat) = true := by
  simp only [List.mem_cons, List.not_mem_nil, or_false] at h
  rcases h with rfl | rfl | rfl <;> rfl

theorem loadLatches_chip (s : State) (i : TapInstr) : ∃ x, (s.loadLatches i).chip = { s.chip with latches := x } := by
  unfold loadLatches
  split
  · exact ⟨_, rfl⟩
  · exact ⟨s.chip.latches, rfl⟩

/-- An intrusive instruction acts as RESET_N while the chip is out of reset, and holds it (R428). -/
theorem tapIr_of_intrusive {code : Nat} (hi : intrusive (tapInstr code) = true) (h : s.resettable = true) : ∃ t : State, s.tapIr code = t.resetTaken false ∧
    t.chip.ir = tapInstr code ∧ t.chip.tapHold = true := by
  obtain ⟨x, hx⟩ := s.loadLatches_chip (tapInstr code)
  have hphase := s.resettable_iff.mp h
  have hpower : s.chip.phase ≠ .off ∧ s.chip.phase ≠ .asleep := by
    constructor <;> rintro hp <;> simp [hp] at hphase
  let t := (s.loadLatches (tapInstr code)).withChip fun c =>
    { c with ir := tapInstr code, tapOff := false, tapHold := intrusive (tapInstr code) }
  have hres : t.resettable = true := by
    rw [resettable_iff, withChip_chip, hx]
    exact hphase
  refine ⟨t, ?_, rfl, hi⟩
  rw [tapIr, if_neg (by simpa using hpower)]
  dsimp only
  rw [if_pos hi, if_pos hres]

end State

/-- Settles O34: every row that begins a chip-wide reset comes to `resetTaken`, which takes everything down whatever begins it. -/
theorem resetBegins : Obligations.ResetBegins := by
  intro s down
  have hdown {t : State} (h : t.Down) : down t := by
    obtain ⟨hphase, hready, hregions, hbusy, hports, hflush, hquiet⟩ := h
    exact ⟨hphase, hready, hregions, hbusy, hports, hflush, hquiet⟩
  refine ⟨fun hphase => ⟨⟨_, rfl, ?_⟩, fun ir hir => ⟨_, rfl, ?_⟩⟩, fun hphase => ?_, fun hphase => ⟨_, rfl, ?_⟩, fun ir hir hphase => ?_⟩
  · have hres := s.resettable_iff.mpr hphase
    rw [State.resetPin_eq, if_pos hres]
    refine ⟨hdown (State.down_resetTaken ..), ?_⟩
    rw [(State.resetTaken_begins _ false).1]
    rfl
  · obtain ⟨t, ht, hinstr, hhold⟩ := State.tapIr_of_intrusive (State.intrusive_of_mem hir) (s.resettable_iff.mpr hphase)
    rw [ht]
    refine ⟨hdown (t.down_resetTaken false), ?_⟩
    rw [(t.resetTaken_begins false).1]
    exact ⟨hinstr, hhold⟩
  · have hres : ¬ s.resettable = true := fun h => hphase (s.resettable_iff.mp h)
    show Host.Outcome.next s.resetPin = _
    rw [State.resetPin_eq, if_neg hres]
    rfl
  · show down s.arbError ∧ s.arbError.chip.arbPend = true
    rw [State.arbError_of_resettable (s.resettable_iff.mpr hphase)]
    refine ⟨hdown (State.down_resetTaken ..), ?_⟩
    rw [(State.resetTaken_begins _ true).1]
  · simp only [List.mem_cons, List.not_mem_nil, or_false, not_or] at hphase
    obtain ⟨hoff, hsleep, hreset⟩ := hphase
    show Host.Outcome.next (s.tapIr ir.toNat) = _
    rw [State.tapIr_of_plain hir hoff hsleep, State.leaveReset, if_neg (by simp [hreset])]
    rfl

end Sys2Proof.Machine
end

section
/-!
PROOFS. The power-fail warning (R52, R53), and what follows the end of each flush (R48, R52, R57, R394).
-/
namespace Sys2Proof.Machine

/-- `t` comes from `s` by packets, records and writes of the registers at the bit addresses `ks`: every other register and the configuration store are as
they were. -/
structure Told (ks : List Nat) (s t : State) : Prop where
  regs : ∀ k, k ∉ ks → t.regs.get k = s.regs.get k
  cfg  : t.cfg = s.cfg

namespace Told

variable {ks : List Nat} {s0 s t : State}

theorem refl (s : State) : Told ks s s := ⟨fun _ _ => rfl, rfl⟩

theorem trans {u : State} (h : Told ks s t) (k : Told ks t u) : Told ks s u := ⟨fun x hx => (k.regs x hx).trans (h.regs x hx), k.cfg.trans h.cfg⟩

theorem get {b : Nat} {f : Fld} (h : Told ks s t) (hf : f.key b ∉ ks) : t.get b f = s.get b f := by
  rw [State.get, State.get, h.regs _ hf]

theorem ite {c : Prop} [Decidable c] {a b : State} (ha : Told ks s0 a) (hb : Told ks s0 b) : Told ks s0 (if c then a else b) := by
  split <;> assumption

theorem each {α : Type} {l : List α} {g : α → State → State} (h : Told ks s0 s) (hg : ∀ a s, Told ks s0 s → Told ks s0 (g a s)) :
    Told ks s0 (s.each l g) := by
  induction l generalizing s with
  | nil => exact h
  | cons a r ih => exact ih (hg a s h)

theorem foldl {α : Type} {l : List α} {g : State → α → State} (h : Told ks s0 s) (hg : ∀ s a, Told ks s0 s → Told ks s0 (g s a)) :
    Told ks s0 (l.foldl g s) := by
  induction l generalizing s with
  | nil => exact h
  | cons a r ih => exact ih (hg s a h)

/-- What touches no register and not the configuration store. -/
theorem other (h : Told ks s0 s) (hr : t.regs = s.regs) (hc : t.cfg = s.cfg) : Told ks s0 t := h.trans ⟨fun _ _ => by rw [hr], hc⟩

theorem put {b : Nat} {f : Fld} {v : Int} (h : Told ks s0 s) (hf : f.key b ∈ ks) : Told ks s0 (s.put b f v) :=
  h.trans ⟨fun _ hx => Sparse.get_set_ne _ _ fun he => hx (he ▸ hf), rfl⟩

theorem bump {b : Nat} {f : Fld} (h : Told ks s0 s) (hf : f.key b ∈ ks) : Told ks s0 (s.bump b f) :=
  h.trans ⟨fun _ hx => Sparse.get_set_ne _ _ fun he => hx (he ▸ hf), rfl⟩

theorem withPort {i : Nat} {g : Port → Port} (h : Told ks s0 s) : Told ks s0 (s.withPort i g) := other h rfl rfl

theorem queueReply {i : Nat} {p : Packet} (h : Told ks s0 s) : Told ks s0 (s.queueReply i p) := withPort h

theorem fwdTake {b : Busy} {p : Packet} (h : Told ks s0 s) : Told ks s0 (s.fwdTake b p).1 := by
  unfold State.fwdTake
  split
  · exact ite (other h rfl rfl) h
  · exact other h rfl rfl

theorem answerAt {f : Nat} {tr : Transport} {p : Packet} (h : Told ks s0 s) : Told ks s0 (State.answerAt f s tr p) := by
  induction f generalizing s tr p with
  | zero =>
    cases tr with
    | own _ => exact h
    | _ => exact queueReply h
  | succ f ih =>
    cases tr with
    | own _ =>
      unfold State.answerAt
      split
      · exact foldl (fwdTake h) fun _ _ h => ih h
      · exact h
    | _ => exact queueReply h

theorem completeB {b : Busy} {st d : Nat} {pay : List Nat} (h : Told ks s0 s) : Told ks s0 (s.completeB b st d pay) :=
  answerAt (s := s.freeTag b.tag) (other h rfl rfl)

end Told

namespace State

variable {s : State}

/-! ### The power-fail warning -/

/-- What an event notice that is lost sets and counts (R78). -/
def noticeKeys : List Nat := [F.MIL_ERR_CNT_EVT_LOST.key 0, F.MIL_STAT_EVT_LOST_SEEN.key 0]

/-- What the end of a commit shows (R99). -/
def lastErrKeys : List Nat := [F.CFG_LAST_ERR_STATUS.key 0, F.CFG_LAST_ERR_DETAIL.key 0]

theorem notice_told {ks : List Nat} (hks : noticeKeys ⊆ ks) (s : State) (ty : Nat) (body : List Nat) : Told ks s (s.notice ty body) := by
  have hone (s : State) (i : Nat) (b : List Nat) : Told ks s (s.queueNotice i ty b) :=
    .ite (.withPort (.refl s)) (.put (.bump (.withPort (.refl s)) (hks (by simp [noticeKeys]))) (hks (by simp [noticeKeys])))
  unfold notice
  split
  · extract_lets r b s1 s2
    have h1 : Told ks s s1 := .ite (hone s 0 b) (.refl s)
    have h2 : Told ks s s2 := .ite (h1.trans (hone s1 1 b)) h1
    exact .ite (.each h2 fun _ t h => h.trans (hone t _ b)) h2
  · exact .refl s

/-- The end of a commit shows its error and answers its command; no commit is left. -/
theorem commitEnd_told {ks : List Nat} (hks : lastErrKeys ⊆ ks) (s : State) (st d : Nat) :
    Told ks (s.withCfg fun c => { c with commit := none }) (s.commitEnd st d) := by
  unfold commitEnd
  split
  · next h =>
    have hcfg : s.withCfg (fun c => { c with commit := none }) = s := by
      rw [withCfg, ← h]
    rw [hcfg]
    exact .refl s
  · extract_lets s1 s2 s3
    have h2 : Told ks s1 s2 := .ite (.other (.refl s1) rfl rfl) (.refl s1)
    have h3 : Told ks s1 s3 := .put (.put h2 (hks (by simp [lastErrKeys]))) (hks (by simp [lastErrKeys]))
    exact .each h3 fun _ _ h => .completeB h

theorem commitEnd_told_of {ks : List Nat} {t : State} (h : Told ks s t) (hks : lastErrKeys ⊆ ks) (st d : Nat) :
    Told ks (s.withCfg fun c => { c with commit := none }) (t.commitEnd st d) :=
  have hended : Told ks (s.withCfg fun c => { c with commit := none }) (t.withCfg fun c => { c with commit := none }) :=
    ⟨h.regs, congrArg (fun c : CfgStore => { c with commit := none }) h.cfg⟩
  hended.trans (commitEnd_told hks t st d)

/-- The warning's levels. -/
def failShown (s : State) : State := s.puts 0 [(F.CHIP_PWR_STAT_PFW, 1), (F.CHIP_PWR_STAT_PFW_SEEN, 1), (F.CHIP_PWR_STAT_FLUSH_DONE, 0)]

/-- The warning reported to the host. -/
def failTold (s : State) : State := s.failShown.notice 7 [s.failShown.rdWord 0x60004]

/-- The warning of a running chip up to the stops: reported, recorded, the flush begun, a commit ended. -/
def failWarned (s : State) : State :=
  ((s.failTold.ownTrigger 8 (s.failTold.rdWord 0x60004 % 65536)).startFlush .powerFail).commitEnd 0x30 0

theorem failTold_flush (h : s.log.flush = none) : s.failTold.log.flush = none :=
  (Calm.notice (.puts (.refl s))).flush.trans h

/-- Beyond the levels of the warning, only what notices and the end of a commit show changes. -/
theorem failWarned_told (s : State) : Told (noticeKeys ++ lastErrKeys) (s.failShown.withCfg fun c => { c with commit := none }) s.failWarned := by
  have htold : Told (noticeKeys ++ lastErrKeys) s.failShown s.failTold := notice_told (List.subset_append_left ..) ..
  have hlog (t : State) (c k : Nat) : Told (noticeKeys ++ lastErrKeys) t ((t.ownTrigger c k).startFlush .powerFail) := by
    unfold ownTrigger
    split <;> exact ⟨fun _ _ => rfl, rfl⟩
  exact commitEnd_told_of (htold.trans (hlog _ _ _)) (List.subset_append_right ..) 0x30 0

theorem failWarned_commit (s : State) : s.failWarned.cfg.commit = none := by
  rw [s.failWarned_told.cfg]; rfl

theorem failWarned_flush (s : State) : s.failWarned.log.flush = some .powerFail := (Calm.commitEnd (.refl _)).flush

theorem failWarned_get {b : Nat} {f : Fld} (hf : f.key b ∉ noticeKeys ++ lastErrKeys) : s.failWarned.get b f = s.failShown.get b f :=
  s.failWarned_told.get hf

theorem failShown_sets (s : State) : s.Sets s.failShown
    [(0, F.CHIP_PWR_STAT_PFW, 1), (0, F.CHIP_PWR_STAT_PFW_SEEN, 1), (0, F.CHIP_PWR_STAT_FLUSH_DONE, 0)] :=
  s.sets_puts 0 (by decide)

theorem failWarned_levels (s : State) : s.failWarned.get 0 F.CHIP_PWR_STAT_PFW = 1 ∧ s.failWarned.get 0 F.CHIP_PWR_STAT_PFW_SEEN = 1 ∧
    s.failWarned.get 0 F.CHIP_PWR_STAT_FLUSH_DONE = 0 := by
  have hsets := s.failShown_sets.1
  exact ⟨(failWarned_get (by decide)).trans (hsets (0, F.CHIP_PWR_STAT_PFW, 1) (by simp)),
    (failWarned_get (by decide)).trans (hsets (0, F.CHIP_PWR_STAT_PFW_SEEN, 1) (by simp)),
    (failWarned_get (by decide)).trans (hsets (0, F.CHIP_PWR_STAT_FLUSH_DONE, 0) (by simp))⟩

/-- The warning writes no register of a half: they all stand above those it writes. -/
theorem failWarned_get_half {b : Nat} (hb : 0x1000000 ≤ b) (f : Fld) : s.failWarned.get b f = s.get b f := by
  have hkey : 0x8000000 ≤ f.key b := by unfold Fld.key; omega
  have hlow : ∀ k ∈ noticeKeys ++ lastErrKeys ++ [F.CHIP_PWR_STAT_PFW.key 0, F.CHIP_PWR_STAT_PFW_SEEN.key 0, F.CHIP_PWR_STAT_FLUSH_DONE.key 0],
      k < 0x8000000 := by decide
  have hout {l : List Nat} (hl : ∀ k ∈ l, k < 0x8000000) : f.key b ∉ l := fun hin => absurd (hl _ hin) (Nat.not_lt.mpr hkey)
  rw [failWarned_get (hout fun k hk => hlow k (List.mem_append_left _ hk)),
    s.failShown_sets.get_of_notMem (hout fun k hk => hlow k (List.mem_append_right _ hk))]

theorem halfB_ge (h : Nat) : 0x1000000 ≤ halfB h := by unfold halfB; omega

theorem failWarned_mode (s : State) (n : Nat) : s.failWarned.mode n = s.mode n := by
  rw [mode, mode, nat, nat, failWarned_get_half (by unfold stnB; have := halfB_ge (n / 2); omega)]

theorem failWarned_axSt (s : State) (n : Nat) : s.failWarned.axSt n = s.axSt n := by
  rw [axSt, axSt, nat, nat, failWarned_get_half (by unfold axsB; have := halfB_ge (n / 2); omega)]

/-- The stops that the warning asks for with PFW_STOP. -/
def failStops (t : State) : State :=
  let u := t.each (t.stations.filter fun n => t.halfRun (n / 2)) fun n u =>
    if u.mode n = mOff then u
    else if u.mode n = mFault then (u.put (stnB n) F.STN_STAT_MBRK 0).stnRaise n (stnCode n 2 0xDA)
    else u.faultStop n (stnCode n 2 0xDA) true
  u.each (u.axes.filter fun n => u.halfRun (n / 2)) fun n v => v.axPowerFail n

theorem powerFail_eq (hphase : s.chip.phase = .running) (hpfw : s.on 0 F.CHIP_PWR_STAT_PFW = false) (hflush : s.log.flush = none) :
    s.powerFail = if s.on 0 F.CHIP_PWR_CTRL_PFW_STOP then s.failWarned.failStops else s.failWarned := by
  have hawake : s.awake = true := by simp [awake, alive, hphase]
  have hwarn : s.powerFail =
      let t := if s.failTold.log.flush.isSome then s.failTold.trigger 0 8 (s.failTold.rdWord 0x60004 % 65536) else s.failWarned
      if t.on 0 F.CHIP_PWR_CTRL_PFW_STOP then t.failStops else t := by
    rw [powerFail, hawake, hpfw, hflush]
    rfl
  have hstop : s.failWarned.on 0 F.CHIP_PWR_CTRL_PFW_STOP = s.on 0 F.CHIP_PWR_CTRL_PFW_STOP := by
    rw [on, on, failWarned_get (by decide), s.failShown_sets.get_of_notMem (show F.CHIP_PWR_CTRL_PFW_STOP.key 0 ∉
      [F.CHIP_PWR_STAT_PFW.key 0, F.CHIP_PWR_STAT_PFW_SEEN.key 0, F.CHIP_PWR_STAT_FLUSH_DONE.key 0] by decide)]
  rw [hwarn, failTold_flush hflush]
  dsimp only
  rw [Option.isSome_none, if_neg Bool.false_ne_true, hstop]

end State
end Sys2Proof.Machine
end

section
/-!
PROOFS. What follows the end of each flush (R48, R52, R57, R394), and the end of a sleep entry (R57).
-/
namespace Sys2Proof.Machine

/-- The recorder's counts are no pin's levels: what is wiped after its stages keeps the levels that stood before them. -/
theorem Recorded.pinsOnly {s t u : State} (h : Recorded s t) (k : t.PinsOnly u) : s.PinsOnly u := by
  have hchip : ∀ f ∈ State.pinFields, f.key 0 ∉ recCounts := by decide
  have hstns : ∀ n : Fin 4, ∀ f ∈ State.stnPins, f.key (stnB n.val) ∉ recCounts := by decide
  exact ⟨fun f hf => (k.chip f hf).trans (congrArg f.wrap (h.get (hchip f hf))),
    fun n f hf => (k.stns n f hf).trans (congrArg f.wrap (h.get (hstns n f hf))), k.other⟩

namespace State

variable {s : State}

/-! ### The ends of the flushes -/

theorem flushComplete_of_flush {k : FlushKind} (h : s.log.flush = some k) : s.flushComplete =
    match k with
    | .powerFail => (s.flushWork k).put 0 F.CHIP_PWR_STAT_FLUSH_DONE 1
    | .reset => (s.flushWork k).enterReset
    | .shutdown => ((s.flushWork k).wipe pinFields).withChip fun c => { c with phase := .shutdown }
    | .sleep => s.flushWork k := by
  cases k <;> simp only [flushComplete, h]

theorem putCause_flush (s : State) (fs : List Fld) : (s.putCause fs).log.flush = s.log.flush :=
  congrArg Recorder.flush (RegWork.puts (.refl s)).log

theorem resetEntered_flush (s : State) : s.resetEntered.log.flush = none := by
  rw [resetEntered, withChip_log, putCause_flush, wipe_flush]

/-- What is wiped after the work of a flush keeps the levels of its pins. -/
theorem pinsOnly_flushed (s : State) (k : FlushKind) (g : Chip → Chip) : s.PinsOnly (((s.flushWork k).wipe pinFields).withChip g) :=
  .congr ((s.flushWork_recorded k).pinsOnly (pinsOnly_wipe _)) rfl (withChip_regs ..)

theorem after_shutdownFlush (h : s.log.flush = some .shutdown) :
    After .flushComplete s fun t => t.log.flush = none ∧ t.chip.phase = .shutdown ∧ s.PinsOnly t := by
  refine ⟨s.flushComplete, rfl, ?_⟩
  rw [flushComplete_of_flush h]
  exact ⟨by rw [withChip_log, wipe_flush], by rw [withChip_chip], s.pinsOnly_flushed _ _⟩

/-- A reset that is still held waits once its flush has ended. -/
theorem after_resetFlush (h : s.log.flush = some .reset) (hlow : s.chip.resetLow = true) :
    After .flushComplete s fun t => t.log.flush = none ∧ t.chip.phase = .reset := by
  refine ⟨s.flushComplete, rfl, ?_⟩
  rw [flushComplete_of_flush h]
  dsimp only
  rw [enterReset_of_held (.inl (by rw [(s.flushWork_recorded _).chip]; exact hlow))]
  exact ⟨resetEntered_flush _, by rw [resetEntered_chip]⟩

/-! ### The end of a sleep entry -/

/-- The chip asleep: everything in reset but the levels of its pins. -/
def sleptFrom (s : State) : State := (s.wipe pinFields).withChip fun c => { tapDark c with phase := .asleep, wakePend := none }

theorem sleepDone_of_flush (hphase : s.chip.phase = .sleepEntry) (hpend : s.chip.wakePend = none) :
    s.sleepDone = if s.log.flush.isSome then (s.flushWork .sleep).sleptFrom else s.sleptFrom := by
  have hwork : (s.flushWork .sleep).chip.wakePend = none := by rw [(s.flushWork_recorded _).chip, hpend]
  rw [sleepDone, if_neg (not_not.mpr hphase)]
  split
  · dsimp only
    rw [hwork]
    rfl
  · dsimp only
    rw [hpend]
    rfl

/-- A chip without supply shows no level of its own (R30). -/
theorem pin_of_asleep {t : State} (h : t.chip.phase = .asleep) (p : OutPin) : t.pin p = pinOff p := by
  rw [pin, supplied, h]
  rfl

theorem pinsOnly_sleepDone (hphase : s.chip.phase = .sleepEntry) (hpend : s.chip.wakePend = none) : s.PinsOnly s.sleepDone := by
  rw [sleepDone_of_flush hphase hpend]
  split
  · exact s.pinsOnly_flushed _ _
  · exact .congr s.pinsOnly_wipe rfl (withChip_regs ..)

/-- The end of the entry wipes `s`, or what the work of its flush leaves of it. -/
theorem sleepDone_cases (hphase : s.chip.phase = .sleepEntry) (hpend : s.chip.wakePend = none) : ∃ u : State, s.sleepDone = u.sleptFrom := by
  rw [sleepDone_of_flush hphase hpend]
  split
  · exact ⟨_, rfl⟩
  · exact ⟨_, rfl⟩

theorem after_sleepEntry (hphase : s.chip.phase = .sleepEntry) (hpend : s.chip.wakePend = none) :
    After .sleepEntryComplete s fun t => t.chip.phase = .asleep ∧ s.PinsOnly t ∧
      (∀ n leg, t.pin (.gateHigh n leg) = .low ∧ t.pin (.gateLow n leg) = .low ∧ t.pin (.mbrk n) = .low ∧ t.pin .faultN = .z) ∧ t.tabs = [] ∧
      (∀ r, t.regionRun r = false) ∧ t.log.flush = none := by
  have hpins := pinsOnly_sleepDone hphase hpend
  obtain ⟨u, hu⟩ := sleepDone_cases hphase hpend
  rw [hu] at hpins
  have hasleep : u.sleptFrom.chip.phase = .asleep := by rw [sleptFrom, withChip_chip]
  have hregions : u.sleptFrom.chip.regions = Vector.replicate 3 .down := by rw [sleptFrom, withChip_chip, wipe_chip]; rfl
  have htabs : u.sleptFrom.tabs = [] := by rw [sleptFrom, withChip_tabs, wipe_tabs]
  have hflush : u.sleptFrom.log.flush = none := by rw [sleptFrom, withChip_log, wipe_flush]
  refine ⟨s.sleepDone, rfl, ?_⟩
  rw [hu]
  refine ⟨hasleep, hpins, fun n leg => ?_, htabs, regionRun_of_down hregions, hflush⟩
  simp only [pin_of_asleep hasleep]
  exact ⟨rfl, rfl, rfl, rfl⟩

end State

/-- Settles O35: what the warning shows and begins is read off `failWarned` before the stops; the end of each flush is the flush's work, which leaves the
chip and all registers but the recorder's counts, and then a wipe or a report. -/
theorem powerFailAndFlush : Obligations.PowerFailAndFlush := by
  refine ⟨fun s hphase hpfw hflush => ?_, fun s => ⟨fun h => ?_, State.after_shutdownFlush, fun h => ?_,
    State.after_resetFlush, State.after_sleepEntry⟩⟩
  · obtain ⟨hpfwShown, hpfwSeen, hdone⟩ := s.failWarned_levels
    refine ⟨hpfwShown, hpfwSeen, hdone, s.failWarned_flush, s.failWarned_commit, s.failWarned_mode, s.failWarned_axSt, fun hstop => ?_, fun hstop => ?_⟩
    · exact congrArg Host.Outcome.next ((State.powerFail_eq hphase hpfw hflush).trans (by rw [hstop]; rfl))
    · exact congrArg Host.Outcome.next ((State.powerFail_eq hphase hpfw hflush).trans (by rw [hstop]; rfl))
  · refine ⟨s.flushComplete, rfl, ?_⟩
    rw [State.flushComplete_of_flush h]
    exact ⟨s.flushWork_flush _, s.flushWork_fifo _, State.flushWork_staging _, State.get_put_same _ _ _ _⟩
  · refine ⟨s.flushComplete, rfl, ?_⟩
    rw [State.flushComplete_of_flush h]
    exact ⟨s.flushWork_flush _, s.flushWork_fifo _, State.flushWork_staging _, (s.flushWork_recorded _).chip⟩

end Sys2Proof.Machine
end

section
/-!
PROOFS. A command that passes every check (Table PK-4): what is delivered is its effect, and a reply touches the host interface alone. With that, SLEEP
(R57) and TESTMUX_SEL (R431).
-/
namespace Sys2Proof.Machine

/-- `t` comes from `s` by packets to the host and by snapshots: nothing outside the host interface changes, and no tag becomes busy or free. -/
structure Replied (s t : State) : Prop where
  rest : { s with mil := t.mil } = t
  busy : t.mil.busy = s.mil.busy

namespace Replied

variable {s t u : State}

theorem trans (h : Replied s t) (k : Replied t u) : Replied s u where
  rest := (congrArg (fun q : State => { q with mil := u.mil }) h.rest).trans k.rest
  busy := k.busy.trans h.busy

theorem tagBusy (h : Replied s t) (tag : Nat) : t.tagBusy tag = s.tagBusy tag := by rw [State.tagBusy, h.busy]; rfl

theorem chip (h : Replied s t) : t.chip = s.chip := (congrArg State.chip h.rest :).symm

theorem log (h : Replied s t) : t.log = s.log := (congrArg State.log h.rest :).symm

/-- What is set before the host is told is set but for the host interface. -/
theorem sets {w : List (Nat × Fld × Int)} (h : Replied t u) (k : s.Sets t w) : { s with mil := u.mil }.Sets u w := by
  obtain ⟨hset, hregs, hrest⟩ := k
  rw [← h.rest]
  exact ⟨hset, hregs, congrArg (fun q : State => { q with mil := u.mil }) hrest⟩

end Replied

namespace State

variable {s : State} {op : OpSpec} {c : Cmd}

/-! ### Delivery of an admitted command -/

/-- What an admitted command has passed, check by check. -/
theorem admits_iff : s.admits op c = true ↔
    s.hears c.tr = true ∧ c.len ≤ 255 ∧ (s.refresh c.tr).tagBusy c.tag.toNat = false ∧ c.scope ≠ 7 ∧ op.scopes.contains c.scope.toNat = true ∧
    (s.refresh c.tr).targetOk c = true ∧ op.absent (s.refresh c.tr) c = false ∧ op.down (s.refresh c.tr) c = false ∧
    ((s.refresh c.tr).restricted && !op.startup) = false ∧ op.check (s.refresh c.tr) c = none := by
  have hstart : (op.startup || !(s.refresh c.tr).restricted) = true ↔ ((s.refresh c.tr).restricted && !op.startup) = false := by
    cases op.startup <;> simp
  simp only [admits, Bool.and_eq_true, Bool.not_eq_true', bne_iff_ne, decide_eq_true_eq, Option.isNone_iff_eq_none, hstart, and_assoc]

/-- The checks of Table PK-4 passed: the command takes effect, and `SNAP` captures then (R79). -/
theorem deliver_of_admits (h : s.admits op c = true) (hcode : op.code ≠ 0x28) :
    s.deliver op c = (op.run (s.refresh c.tr) c).snapped c op.code := by
  obtain ⟨hhears, hlen, htag, hfwd, hscope, htarget, habsent, hdown, hrestricted, hcheck⟩ := admits_iff.mp h
  have hrun : (s.refresh c.tr).runOp op c = (op.run (s.refresh c.tr) c).snapped c op.code := by
    rw [runOp, hscope, htarget, habsent, hdown, hrestricted, hcheck]
    simp [snapped, hcode]
  rw [deliver, hhears, acceptOp, htag, if_neg (by simp), if_neg (Nat.not_lt.mpr hlen), if_neg (by simp), if_neg hfwd, hrun]

/-- A command of the chip's own position comes with its outer command, and is not admitted by itself (R72). -/
theorem tr_of_admits (h : s.admits op c = true) (o : OuterHdr) : c.tr ≠ .own o := by
  intro hown
  obtain ⟨hhears, -⟩ := admits_iff.mp h
  rw [hown] at hhears
  simp [hears, takes] at hhears

/-- The watchdog's refresh makes no tag busy or free (R80). -/
theorem refresh_tagBusy (s : State) (tr : Transport) (tag : Nat) : (s.refresh tr).tagBusy tag = s.tagBusy tag := by
  unfold refresh
  split
  · rfl
  · split
    · dsimp only
      split <;> rfl
    · rfl

/-! ### Replies and snapshots -/

theorem queueReply_replied (s : State) (i : Nat) (p : Packet) : Replied s (s.queueReply i p) := ⟨rfl, rfl⟩

/-- On every transport but the own position an answer is queued (R78). -/
theorem answer_replied {tr : Transport} (h : ∀ o, tr ≠ .own o) (s : State) (p : Packet) : Replied s (s.answer tr p) := by
  cases tr with
  | own o => exact absurd rfl (h o)
  | _ => exact queueReply_replied ..

theorem reply_replied (h : ∀ o, c.tr ≠ .own o) (s : State) (code st d : Nat) (pay : List Nat) : Replied s (s.reply c code st d pay) :=
  answer_replied h s _

theorem snapped_replied (s : State) (c : Cmd) (code : Nat) : Replied s (s.snapped c code) := by
  unfold snapped
  split <;> exact ⟨rfl, rfl⟩

/-! ### SLEEP -/

/-- What SLEEP begins, before the transports that have sent their replies leave. -/
def sleepStarted (s : State) (c : Cmd) : State := (s.reply c 0x08 stOK 0 []).sleepBegin (c.word 0 == 1) (c.wordsFrom 1)

theorem sleep_run (s : State) (c : Cmd) : opSleep.run s c = (s.sleepStarted c).sleepCheck := rfl

/-- The chip-level state and the flush once SLEEP has begun, the transports that have nothing more to send having left. -/
theorem sleepChecked_shown (s : State) (c : Cmd) : ((s.sleepStarted c).sleepCheck).chip.phase = .sleepEntry ∧
    ((s.sleepStarted c).sleepCheck).chip.ready = false ∧ ((s.sleepStarted c).sleepCheck).chip.selective = (c.word 0 == 1) ∧
    ((s.sleepStarted c).sleepCheck).chip.wakeFrame = c.wordsFrom 1 ∧ ((s.sleepStarted c).sleepCheck).log.flush = some .sleep := by
  have hcalm : Calm (s.sleepStarted c) (s.sleepStarted c).sleepCheck := .sleepCheck (.refl _)
  rw [hcalm.chip, hcalm.flush]
  exact ⟨rfl, rfl, rfl, rfl, rfl⟩

/-- SLEEP answers at once and owes no packet: a tag that was free is free. -/
theorem sleepChecked_tagBusy (h : ∀ o, c.tr ≠ .own o) {tag : Nat} (hfree : s.tagBusy tag = false) : (s.sleepStarted c).sleepCheck.tagBusy tag = false :=
  (Calm.sleepCheck (.refl _)).tags tag (((reply_replied h s 0x08 stOK 0 []).tagBusy tag).trans hfree)

/-! ### TESTMUX_SEL -/

/-- The settings of a TESTMUX_SEL: each output with its byte of the payload. -/
def testSettings (c : Cmd) : List (Fld × Nat) :=
  [F.TST_SEL_A_TMA0, F.TST_SEL_A_TMA1, F.TST_SEL_A_TMA2, F.TST_SEL_A_TMA3].zip (wordBytes (c.word 0)) ++
    [F.TST_SEL_D0_TMD0, F.TST_SEL_D0_TMD1, F.TST_SEL_D0_TMD2, F.TST_SEL_D0_TMD3].zip (wordBytes (c.word 1)) ++
    [F.TST_SEL_D1_TMD4, F.TST_SEL_D1_TMD5, F.TST_SEL_D1_TMD6, F.TST_SEL_D1_TMD7].zip (wordBytes (c.word 2))

theorem testmux_run (s : State) (c : Cmd) :
    opTestmux.run s c = (s.puts 0 ((testSettings c).map fun x => (x.1, (x.2 : Int)))).reply c 0xF0 stOK 0 [] := rfl

theorem wordBytes_lt {w b : Nat} (h : b ∈ wordBytes w) : b < 256 := by
  simp only [wordBytes, List.mem_cons, List.not_mem_nil, or_false] at h
  omega

/-- Each output's field holds a whole byte. -/
theorem wrap_of_mem_zip_wordBytes {fs : List Fld} (hfs : ∀ f ∈ fs, f.sgn = false ∧ f.w = 8) {w : Nat} {x : Fld × Nat} (h : x ∈ fs.zip (wordBytes w)) :
    x.1.wrap x.2 = x.2 := by
  obtain ⟨hsgn, hw⟩ := hfs x.1 (List.of_mem_zip h).1
  have hlt := wordBytes_lt (List.of_mem_zip h).2
  exact wrap_unsigned hsgn (by omega) (by rw [hw]; omega)

theorem wrap_of_mem_testSettings {x : Fld × Nat} (h : x ∈ testSettings c) : x.1.wrap x.2 = x.2 := by
  rcases List.mem_append.mp h with h | h
  · rcases List.mem_append.mp h with h | h
    · exact wrap_of_mem_zip_wordBytes (by decide) h
    · exact wrap_of_mem_zip_wordBytes (by decide) h
  · exact wrap_of_mem_zip_wordBytes (by decide) h

/-- No two outputs are selected at one bit address. -/
theorem testSettings_nodup (c : Cmd) : ((testSettings c).map fun x => x.1.key 0).Nodup := by
  have hkeys : (testSettings c).map (fun x => x.1.key 0) =
      [F.TST_SEL_A_TMA0, F.TST_SEL_A_TMA1, F.TST_SEL_A_TMA2, F.TST_SEL_A_TMA3, F.TST_SEL_D0_TMD0, F.TST_SEL_D0_TMD1, F.TST_SEL_D0_TMD2,
        F.TST_SEL_D0_TMD3, F.TST_SEL_D1_TMD4, F.TST_SEL_D1_TMD5, F.TST_SEL_D1_TMD6, F.TST_SEL_D1_TMD7].map (·.key 0) := rfl
  rw [hkeys]
  decide

theorem sets_testSettings (s : State) (c : Cmd) :
    s.Sets (s.puts 0 ((testSettings c).map fun x => (x.1, (x.2 : Int)))) ((testSettings c).map fun x => (0, x.1, (x.2 : Int))) := by
  have hsets := s.sets_puts 0 (l := (testSettings c).map fun x => (x.1, (x.2 : Int))) (by
    rw [List.map_map]; exact testSettings_nodup c)
  have hvalues : ((testSettings c).map fun x => (x.1, (x.2 : Int))).map (fun x => (0, x.1, x.1.wrap x.2)) =
      (testSettings c).map fun x => (0, x.1, (x.2 : Int)) := by
    rw [List.map_map]
    exact List.map_congr_left fun x hx => by simp only [Function.comp_apply, wrap_of_mem_testSettings hx]
  rwa [hvalues] at hsets

end State

/-- Settles O23: an admitted command has the effect of its row and no other; sleep entry's release of the buses and the reply touch neither the chip-level
state nor the flush, and the reply of TESTMUX_SEL touches no register. -/
theorem sleepAndTestOutputs : Obligations.SleepAndTestOutputs := by
  refine ⟨fun c s h => ?_, fun c s h => ?_⟩
  · refine ⟨_, congrArg Host.Outcome.next (State.deliver_of_admits h (by decide)), ?_⟩
    rw [State.sleep_run]
    have hsnap := (((s.refresh c.tr).sleepStarted c).sleepCheck).snapped_replied c opSleep.code
    obtain ⟨-, -, hfree, -⟩ := State.admits_iff.mp h
    have hbefore : s.tagBusy c.tag.toNat = false := (s.refresh_tagBusy c.tr _).symm.trans hfree
    obtain ⟨hphase, hready, hselective, hframe, hflush⟩ := (s.refresh c.tr).sleepChecked_shown c
    beta_reduce
    rw [hsnap.chip, hsnap.log, hsnap.tagBusy, State.sleepChecked_tagBusy (State.tr_of_admits h) hfree, hbefore]
    exact ⟨hphase, hready, hselective, hframe, hflush, rfl⟩
  · refine ⟨_, congrArg Host.Outcome.next (State.deliver_of_admits h (by decide)), ?_⟩
    rw [State.testmux_run]
    have hreply := State.reply_replied (State.tr_of_admits h) ((s.refresh c.tr).puts 0 ((State.testSettings c).map fun x => (x.1, (x.2 : Int)))) 0xF0 stOK 0 []
    exact (hreply.trans (State.snapped_replied ..)).sets ((s.refresh c.tr).sets_testSettings c)

end Sys2Proof.Machine
end

section
/-!
PROOFS. The invariant (R22, R78, R393): it holds before the first supply, and a step keeps it, on an empty queue as with a command waiting.
-/
namespace Sys2Proof.Machine

/-- Which commands wait is no part of the invariant. -/
theorem State.Sound.withPending {s : State} (h : s.Sound) (l : List Instr) : ({ s with pending := l } : State).Sound := { h with }

/-- The chip time stays a 64-bit count as it goes on by a tick (R22). -/
theorem State.Sound.idle {s : State} (h : s.Sound) : s.idle.Sound := by
  unfold State.idle
  split
  · exact { h with time := Nat.mod_lt _ (by norm_num) }
  · exact h

/-- Settles O4: nothing is stored, every slot and queue is empty, and the bucket is full. -/
theorem resetSound : Obligations.ResetSound where
  regs := Sparse.wf_nil
  tabs := Sparse.wf_nil
  cfg := by
    refine ⟨fun m hm => ?_, Sparse.wf_nil, Sparse.wf_nil, fun j hj => by cases hj⟩
    have hempty : m = [] := by simpa [State.reset, CfgStore.zero] using hm
    exact hempty ▸ Sparse.wf_nil
  time := Nat.two_pow_pos 64
  ports p hp := by
    have hzero : p = Port.zero := by simpa [State.reset, Mil.zero] using hp
    exact hzero ▸ ⟨Nat.zero_le _, Nat.zero_le _⟩
  bucket := Nat.le_refl _

/-- Settles O5: with a command waiting, the step is that command's row, of which `Keeps` says that it keeps the invariant; else it is a tick. -/
theorem stepKeepsSound : Obligations.StepKeepsSound := by
  intro s t hs h
  cases hp : s.pending with
  | nil =>
    rw [step_of_empty hp] at h
    exact Host.Outcome.next.inj h ▸ hs.idle
  | cons i rest =>
    have hexec : exec i { s with pending := rest } = .next t := by rwa [step, hp] at h
    exact (Keeps.of_exec hexec).sound (hs.withPending rest)

end Sys2Proof.Machine
end

section
/-!
PROOFS. The CRC of a packet (R68): the reflected register of `crc32`, which takes a byte at a time, is the register of `crcOfBits` read in reverse bit
order, which takes a bit at a time.
-/
namespace Sys2Proof.Machine

/-! ### The reflected register, a bit at a time -/

/-- One bit into the reflected register: the polynomial is added where the bit differs from the register's lowest. -/
def crcNext (c : Nat) (b : Bool) : Nat := if c.testBit 0 = b then c / 2 else (c / 2) ^^^ 0xEDB88320

/-- Of what is added to the register beforehand, one step takes the lowest bit in and leaves the rest added. -/
theorem crcBit_xor (c b : Nat) : crcBit (c ^^^ b) = crcNext c (b.testBit 0) ^^^ (b / 2) := by
  have hbit : (c ^^^ b) % 2 = 1 ↔ c.testBit 0 ≠ b.testBit 0 := by
    simp only [Nat.xor_mod_two_eq_one, Nat.testBit_zero, ne_eq, decide_eq_decide]
  unfold crcBit crcNext
  rw [Nat.xor_div_two]
  by_cases h : c.testBit 0 = b.testBit 0
  · rw [if_neg (by rw [hbit]; exact not_not_intro h), if_pos h]
  · rw [if_pos (hbit.mpr h), if_neg h, Nat.xor_assoc, Nat.xor_assoc, Nat.xor_comm (b / 2)]

/-- `n` steps take the `n` lowest bits in, lowest first. -/
theorem crcBit_iterate_xor (n c b : Nat) :
    crcBit^[n] (c ^^^ b) = ((List.range n).map fun i => b.testBit i).foldl crcNext c ^^^ (b / 2 ^ n) := by
  induction n with
  | zero => simp
  | succ n ih =>
    rw [Function.iterate_succ_apply', ih, crcBit_xor, Nat.testBit_div_two_pow, Nat.zero_add, List.range_succ, List.map_append, List.foldl_append,
      Nat.div_div_eq_div_mul, ← Nat.pow_succ]
    rfl

/-- A byte's bits go in lowest first. -/
theorem crcByte_eq_foldl (c : Nat) {b : Nat} (hb : b < 256) :
    crcByte c b = ((List.range 8).map fun i => b.testBit i).foldl crcNext c := by
  have h := crcBit_iterate_xor 8 c b
  rw [Nat.div_eq_of_lt (show b < 2 ^ 8 from hb), Nat.xor_zero] at h
  exact h

theorem foldl_crcByte_eq (c : Nat) {bs : List Nat} (hbs : ∀ b ∈ bs, b < 256) :
    bs.foldl crcByte c = (bs.flatMap fun b => (List.range 8).map fun i => b.testBit i).foldl crcNext c := by
  induction bs generalizing c with
  | nil => rfl
  | cons b bs ih =>
    rw [List.foldl_cons, crcByte_eq_foldl c (hbs b List.mem_cons_self), ih _ fun x hx => hbs x (List.mem_cons_of_mem b hx), List.flatMap_cons,
      List.foldl_append]

/-! ### The register read in reverse -/

theorem reverse_shiftLeft_one (r : BitVec 32) : (r <<< 1).reverse = r.reverse >>> 1 := by
  ext i hi
  simp [← BitVec.getLsbD_eq_getElem, BitVec.getLsbD_reverse, BitVec.getLsbD_ushiftRight, Nat.add_comm]

theorem reverse_xor (x y : BitVec 32) : (x ^^^ y).reverse = x.reverse ^^^ y.reverse := by
  ext i hi
  simp [← BitVec.getLsbD_eq_getElem, BitVec.getLsbD_reverse]

/-- A step of the register that shifts toward its most significant bit is one of the reflected register. -/
theorem crcShift_reverse (r : BitVec 32) (b : Bool) : (crcShift r b).reverse.toNat = crcNext r.reverse.toNat b := by
  have hlow : r.reverse.toNat.testBit 0 = r.msb := by
    rw [BitVec.testBit_toNat, BitVec.getLsbD_reverse, BitVec.msb_eq_getMsbD_zero]
  have hhalf : (r.reverse >>> 1).toNat = r.reverse.toNat / 2 := by rw [BitVec.toNat_ushiftRight, Nat.shiftRight_eq_div_pow]
  have hpoly : (0x04C11DB7#32).reverse.toNat = 0xEDB88320 := by decide +kernel
  unfold crcShift crcNext
  rw [hlow]
  split
  · rw [reverse_shiftLeft_one, hhalf]
  · rw [reverse_xor, reverse_shiftLeft_one, BitVec.toNat_xor, hhalf, hpoly]

theorem foldl_crcShift_reverse (r : BitVec 32) (l : List Bool) : (l.foldl crcShift r).reverse.toNat = l.foldl crcNext r.reverse.toNat := by
  induction l generalizing r with
  | nil => rfl
  | cons b l ih => rw [List.foldl_cons, List.foldl_cons, ih, crcShift_reverse]

/-- The two forms of the CRC agree on bytes. -/
theorem crc32_eq_crcOfBits {bs : List Nat} (hbs : ∀ b ∈ bs, b < 256) : crc32 bs = crcOfBits bs := by
  have hstart : (0xFFFFFFFF#32).reverse.toNat = 0xFFFFFFFF := by decide +kernel
  rw [crc32, crcOfBits, BitVec.toNat_xor, foldl_crcShift_reverse, hstart, foldl_crcByte_eq _ hbs]
  rfl

theorem crcWords_eq_crcOfBits (ws : List Nat) : crcWords ws = crcOfBits (ws.flatMap wordBytes) :=
  crc32_eq_crcOfBits fun _ hb =>
    have ⟨_, _, hw⟩ := List.mem_flatMap.mp hb
    State.wordBytes_lt hw

/-! ### The statement -/

/-- A packet is two header words, its payload and their CRC (R66). -/
theorem Packet.words_eq (p : Packet) : ∃ w0 w1 : Nat, p.words = (w0 :: w1 :: p.payload) ++ [crcWords (w0 :: w1 :: p.payload)] := ⟨_, _, rfl⟩

/-- Settles O10: a packet ends in the reflected CRC of its words, and a received one is checked against it. -/
theorem packetCrc : Obligations.PacketCrc := by
  refine ⟨?_, fun p => ?_, fun ws _ => ?_⟩
  · rw [← crc32_eq_crcOfBits (by decide)]
    decide +kernel
  · obtain ⟨w0, w1, hw⟩ := p.words_eq
    rw [crcWords_eq_crcOfBits] at hw
    refine ⟨w0, w1, hw, ?_⟩
    rw [Packet.bytes, hw, List.flatMap_append, List.flatMap_singleton]
  · rw [crcOk, beq_iff_eq, crcWords_eq_crcOfBits]

end Sys2Proof.Machine
end

section
/-!
PROOFS. The checks of a command in the order of Table PK-4 (R73): what each command row delivers, and what its first failing check answers.
-/
namespace Sys2Proof.Machine

/-! ### The command rows -/

/-- Every command row delivers its packet to its operation. -/
theorem exec_of_commandRows {p : (Cmd → Instr) × OpSpec} (hp : p ∈ commandRows) (c : Cmd) (s : State) :
    exec (p.1 c) s = .next (s.deliver p.2 c) := by
  have hrows : ∀ p ∈ commandRows, exec (p.1 c) s = .next (s.deliver p.2 c) := by
    unfold commandRows
    iterate 47 refine List.forall_mem_cons.mpr ⟨rfl, ?_⟩
    exact List.forall_mem_nil _
  exact hrows p hp

namespace State

variable {s : State} {op : OpSpec} {c : Cmd}

/-! ### Delivery -/

theorem deliver_of_deaf (h : s.hears c.tr = false) : s.deliver op c = s := by rw [deliver, h]; rfl

theorem deliver_of_long (h : s.hears c.tr = true) (hlen : 255 < c.len) :
    s.deliver op c = (s.badLength c.tr).refuse c op.code stBadLength 0 := by
  rw [deliver, h, if_neg (by simp), if_pos hlen]

theorem deliver_of_hears (h : s.hears c.tr = true) (hlen : c.len ≤ 255) :
    s.deliver op c = (s.refresh c.tr).acceptOp (acceptAt 100) op c := by
  rw [deliver, h, if_neg (by simp), if_neg (Nat.not_lt.mpr hlen)]

/-- BAD_LENGTH is counted, and of the transports the UART alone resynchronises (R70). -/
theorem badLength_eq (s : State) (tr : Transport) :
    s.badLength tr = ({ s with mil := { s.mil with uartBad := tr == Transport.uart || s.mil.uartBad } } : State).bump 0 F.MIL_ERR_CNT_LEN := by
  unfold badLength
  cases tr <;> rfl

/-! ### The first failing check -/

/-- Steps 6 to 11 for a target on this chip. -/
theorem runOp_of_firstFail {st d : Nat} (htag : s.tagBusy c.tag.toNat = false) (h : s.firstFail op c = some (st, d)) :
    s.runOp op c = s.refuse c op.code st d := by
  unfold firstFail at h
  rw [htag, if_neg Bool.false_ne_true] at h
  unfold runOp
  split at h
  · next hbad => rw [if_pos hbad]; cases h; rfl
  next hgood =>
  rw [if_neg hgood]
  split at h
  · next hdown => rw [if_pos hdown]; cases h; rfl
  next hup =>
  rw [if_neg hup]
  split at h
  · next hrestricted => rw [if_pos hrestricted]; cases h; rfl
  next hopen => rw [if_neg hopen, h]

/-- Step 4 on: a busy tag comes before everything, the forwarding of SCOPE 7 included. -/
theorem acceptOp_of_firstFail {st d : Nat} {run : State → Nat → Cmd → State} (hlocal : c.scope ≠ 7 ∨ s.tagBusy c.tag.toNat = true)
    (h : s.firstFail op c = some (st, d)) : s.acceptOp run op c = s.refuse c op.code st d := by
  unfold acceptOp
  cases htag : s.tagBusy c.tag.toNat with
  | true =>
    rw [firstFail, htag, if_pos rfl] at h
    cases h
    rfl
  | false =>
    have hscope : c.scope ≠ 7 := hlocal.resolve_right (by rw [htag]; exact Bool.false_ne_true)
    rw [if_neg Bool.false_ne_true, if_neg hscope, runOp_of_firstFail htag h]

end State

/-! ### The statement -/

/-- Settles O11: a row delivers its packet, and delivery takes the checks in the order in which `firstFail` lists them. -/
theorem firstFailureAnswers : Obligations.FirstFailureAnswers := by
  intro p hp c s
  rw [exec_of_commandRows hp]
  refine ⟨fun h => ?_, fun h hlen => ?_, fun st d h hlen hlocal hfail => ?_⟩
  · rw [State.deliver_of_deaf h]
  · rw [State.deliver_of_long h hlen, State.badLength_eq]
    rfl
  · rw [State.deliver_of_hears h hlen, State.acceptOp_of_firstFail hlocal hfail]

end Sys2Proof.Machine
end

section
/-!
PROOFS. What the outbound queues take (R78): replies, rejections and notices, each in the queue of its transport; and the life of a tag from ACCEPTED to
the final reply (R74, R76).
-/
namespace Sys2Proof.Machine

namespace State

variable {s : State} {tr : Transport} {c : Cmd} {i : Nat}

/-! ### The queue of a host transport -/

theorem answer_of_portOf (h : PortOf tr i) (s : State) (p : Packet) : s.answer tr p = s.queueReply i p := by
  cases tr with
  | spi | uart | can _ => cases h; rfl
  | ring _ _ | own _ => cases h

theorem reply_of_portOf (h : PortOf c.tr i) (s : State) (op st d : Nat) (pay : List Nat) :
    s.reply c op st d pay = s.queueReply i { rejection c op st d with payload := pay } := answer_of_portOf h s _

theorem refuse_of_portOf (h : PortOf c.tr i) (s : State) (op st d : Nat) : s.refuse c op st d = s.queueReject i (rejection c op st d) := by
  unfold refuse
  cases htr : c.tr with
  | spi | uart | can _ => rw [htr] at h; cases h; rfl
  | ring _ _ | own _ => rw [htr] at h; cases h

/-! ### Full queues -/

theorem queueReject_of_room (h : (s.port i).level .reject < 16) (p : Packet) :
    s.queueReject i p = s.withPort i fun q => { q with out := q.out ++ [(.reject, p)] } := if_pos h

/-- A rejection that finds no place is counted and marks the next (R78). -/
theorem queueReject_of_full (h : 16 ≤ (s.port i).level .reject) (p : Packet) :
    (s.withPort i fun q => { q with rejLost := true }).Sets (s.queueReject i p)
      [(0, F.MIL_REJ_CNT_REJ_LOST, s.counted 0 F.MIL_REJ_CNT_REJ_LOST)] := by
  rw [queueReject, if_neg (Nat.not_lt.mpr h)]
  exact sets_bump ..

/-- A notice that finds no place is counted, shown, and marks the next (R78). -/
theorem queueNotice_of_full (h : 32 ≤ (s.port i).level .notice) (ty : Nat) (body : List Nat) :
    (s.withPort i fun q => { q with evtLost := true }).Sets (s.queueNotice i ty body)
      [(0, F.MIL_ERR_CNT_EVT_LOST, s.counted 0 F.MIL_ERR_CNT_EVT_LOST), (0, F.MIL_STAT_EVT_LOST_SEEN, 1)] := by
  rw [queueNotice, if_neg (Nat.not_lt.mpr h)]
  exact (sets_bump ..).trans (sets_put _ 0 F.MIL_STAT_EVT_LOST_SEEN 1)
    (show ∀ k ∈ [F.MIL_ERR_CNT_EVT_LOST.key 0], k ∉ [F.MIL_STAT_EVT_LOST_SEEN.key 0] by decide)

theorem shRun_eq (s : State) : (s.chip.regions.toList.getD 0 .down == .run) = s.shRun := by
  unfold shRun regionRun
  simp

/-- A notice goes to no queue while SH does not run or its type is not enabled. -/
theorem notice_of_off {ty : Nat} (h : s.shRun = false ∨ bitN (s.nat 0 F.MIL_EVT_CFG_TYPE_EN) ty = false) (body : List Nat) : s.notice ty body = s := by
  have hoff : (s.shRun && bitN (s.nat 0 F.MIL_EVT_CFG_TYPE_EN) ty) = false := by
    rcases h with h | h <;> simp [h]
  rw [notice, shRun_eq, hoff, if_neg Bool.false_ne_true]

end State

/-- Settles O12: each transport of a host has one queue, whose kinds have their own capacities. -/
theorem outboundPackets : Obligations.OutboundPackets := by
  refine ⟨fun s c op st d i pay h => State.reply_of_portOf h s op st d pay, fun c s op st d i h => ?_,
    fun s ty body h => State.notice_of_off h body, fun s i ty body _ h => ?_, fun s i ty body _ h => State.queueNotice_of_full h ty body⟩
  · rw [State.refuse_of_portOf h]
    exact ⟨fun hroom => State.queueReject_of_room hroom _, fun hfull => State.queueReject_of_full hfull _⟩
  · exact ⟨_, rfl, rfl, rfl, rfl, if_pos h⟩

/-! ### The life of a tag -/

namespace State

variable {s : State} {c : Cmd} {i : Nat} {b : Busy}

theorem portOf_lt {tr : Transport} (h : PortOf tr i) : i < 7 := by
  cases tr with
  | spi | uart => cases h; decide
  | can k => cases h; have := k.isLt; omega
  | ring _ _ | own _ => cases h

theorem port_withPort_same (s : State) (hi : i < 7) (g : Port → Port) : (s.withPort i g).port i = g (s.port i) := by
  simp [withPort, port, Vector.toList_setIfInBounds, hi]

theorem port_queueReply_same (s : State) (hi : i < 7) (p : Packet) : ((s.queueReply i p).port i).out = (s.port i).out ++ [(.reply, p)] := by
  rw [queueReply, port_withPort_same s hi]

/-- What ACCEPTED makes busy. -/
def occupied (c : Cmd) (op arg : Nat) : Busy :=
  { tag := c.tag.toNat, op := op, want := c.want, snap := c.snap, scope := c.scope.toNat, index := c.index.toNat, tr := c.tr, fwd := none, arg := arg }

theorem occupy_busy (s : State) (c : Cmd) (op arg : Nat) : (s.occupy c op arg).mil.busy = s.mil.busy ++ [occupied c op arg] := rfl

theorem occupy_tagBusy (s : State) (c : Cmd) (op arg : Nat) : (s.occupy c op arg).tagBusy c.tag.toNat = true := by
  simp [tagBusy, occupy_busy, occupied]

theorem freeTag_tagBusy (s : State) (tag : Nat) : (s.freeTag tag).tagBusy tag = false := by
  rw [tagBusy_eq_false_iff]
  simp [freeTag]

theorem completeB_of_portOf (h : PortOf b.tr i) (s : State) (st d : Nat) (pay : List Nat) :
    s.completeB b st d pay = (s.freeTag b.tag).queueReply i (b.packet 2 st d pay) := answer_of_portOf h _ _

/-- On a free tag the busy entry of a command is the one that ACCEPTED made. -/
theorem eq_occupied_of_mem {op arg : Nat} (hfree : s.tagBusy c.tag.toNat = false) (hb : b ∈ (s.occupy c op arg).mil.busy) (htag : b.tag = c.tag.toNat) :
    b = occupied c op arg := by
  rw [occupy_busy, List.mem_append, List.mem_singleton] at hb
  refine hb.resolve_left fun hold => ?_
  rw [tagBusy_eq_false_iff] at hfree
  exact hfree (htag ▸ List.mem_map_of_mem hold)

end State

/-- Settles O13: on a free tag the entry that ACCEPTED makes is the only one of the tag, and the completion takes it out. -/
theorem tagLifetime : Obligations.TagLifetime := by
  intro s c op arg st d i pay hport hfree
  have hi := State.portOf_lt hport
  have hbegin : s.begin c op arg = (s.occupy c op arg).queueReply i (rejection c op 1 0) := State.reply_of_portOf hport _ op 1 0 []
  rw [hbegin]
  refine ⟨⟨s.occupy_tagBusy c op arg, State.port_queueReply_same _ hi _⟩, fun b hb htag => ?_⟩
  obtain rfl : b = State.occupied c op arg := State.eq_occupied_of_mem hfree hb htag
  have hdone : ((s.occupy c op arg).queueReply i (rejection c op 1 0)).completeB (State.occupied c op arg) st d pay = _ :=
    State.completeB_of_portOf hport _ st d pay
  rw [hdone]
  refine ⟨State.freeTag_tagBusy _ _, ?_⟩
  have hout := State.port_queueReply_same (s.occupy c op arg) hi (rejection c op 1 0)
  rw [State.port_queueReply_same _ hi]
  exact (congrArg (· ++ _) hout).trans (List.append_assoc ..)

end Sys2Proof.Machine
end

section
/-!
PROOFS. Answers touch Milliner's state alone, and commands for other ring positions (R72): what a forwarded command makes busy, how one ends, and what
`SCOPE` 7 leads to.
-/
namespace Sys2Proof.Machine

/-- `t` comes from `s` by a change of Milliner's state alone. -/
structure MilWork (s t : State) : Prop where
  rest : { s with mil := t.mil } = t

namespace MilWork

variable {s0 s t u : State}

theorem refl (s : State) : MilWork s s := ⟨rfl⟩

theorem trans (h : MilWork s t) (k : MilWork t u) : MilWork s u :=
  ⟨(congrArg (fun q : State => { q with mil := u.mil }) h.rest).trans k.rest⟩

theorem regs (h : MilWork s t) : t.regs = s.regs := (congrArg State.regs h.rest :).symm

theorem get (h : MilWork s t) (b : Nat) (f : Fld) : t.get b f = s.get b f := by rw [State.get, State.get, h.regs]

theorem foldl {α : Type} {l : List α} {g : State → α → State} (h : MilWork s0 s) (hg : ∀ s a, MilWork s0 s → MilWork s0 (g s a)) :
    MilWork s0 (l.foldl g s) := by
  induction l generalizing s with
  | nil => exact h
  | cons a r ih => exact ih (hg s a h)

theorem withMil {g : Mil → Mil} (h : MilWork s0 s) : MilWork s0 (s.withMil g) := h.trans ⟨rfl⟩
theorem queueReply {i : Nat} {p : Packet} (h : MilWork s0 s) : MilWork s0 (s.queueReply i p) := h.trans ⟨rfl⟩
theorem freeTag {tag : Nat} (h : MilWork s0 s) : MilWork s0 (s.freeTag tag) := withMil h

theorem fwdTake {b : Busy} {p : Packet} (h : MilWork s0 s) : MilWork s0 (s.fwdTake b p).1 := by
  unfold State.fwdTake
  split
  · dsimp only
    split
    · exact freeTag h
    · exact h
  · dsimp only
    exact withMil h

theorem answerAt {f : Nat} {tr : Transport} {p : Packet} (h : MilWork s0 s) : MilWork s0 (State.answerAt f s tr p) := by
  induction f generalizing s tr p with
  | zero =>
    cases tr with
    | own _ => exact h
    | _ => exact queueReply h
  | succ f ih =>
    cases tr with
    | own _ =>
      unfold State.answerAt
      split
      · exact foldl (fwdTake h) fun _ _ h => ih h
      · exact h
    | _ => exact queueReply h

theorem answer {tr : Transport} {p : Packet} (h : MilWork s0 s) : MilWork s0 (s.answer tr p) := answerAt h
theorem fwdAnswer {b : Busy} {p : Packet} (h : MilWork s0 s) : MilWork s0 (s.fwdAnswer b p) := foldl (fwdTake h) fun _ _ h => answer h

end MilWork

/-! ### The order of answers to one position (R76) -/

/-- Commands that stand in nobody's way stay as they are. -/
theorem unblock_append {ix : Nat} {l : List Busy} (hl : ∀ b ∈ l, b.index ≠ ix ∨ b.fwd = none) (r : List Busy) :
    unblock ix (l ++ r) = (l ++ (unblock ix r).1, (unblock ix r).2) := by
  induction l with
  | nil => rfl
  | cons b l ih =>
    have hb : b.index ≠ ix ∨ b.fwd = none ∨ b.arg = 1 := (hl b List.mem_cons_self).imp_right .inl
    rw [List.cons_append, unblock, if_pos hb, ih fun x hx => hl x (List.mem_cons_of_mem b hx)]
    rfl

namespace State

variable {s : State} {c : Cmd} {b : Busy}

/-! ### The entry of a forwarded command -/

/-- What a command forwarded to position `p` makes busy. -/
def forwarded (c : Cmd) (op p : Nat) : Busy := { occupied c op 0 with fwd := some p }

/-- A change of the entry of a free tag changes nothing. -/
theorem map_of_tag_free {g : Busy → Busy} {tag : Nat} (hfree : s.tagBusy tag = false) :
    (s.mil.busy.map fun b => if b.tag == tag then g b else b) = s.mil.busy := by
  rw [tagBusy_eq_false_iff] at hfree
  refine (List.map_congr_left fun b hb => ?_).trans (List.map_id _)
  have hne : b.tag ≠ tag := fun he => hfree (he ▸ List.mem_map_of_mem hb)
  rw [beq_eq_false_iff_ne.mpr hne]
  rfl

theorem occupyFwd_busy (hfree : s.tagBusy c.tag.toNat = false) (op p : Nat) :
    (s.occupyFwd c op p).mil.busy = s.mil.busy ++ [forwarded c op p] := by
  have h : (s.occupyFwd c op p).mil.busy =
      (s.mil.busy ++ [occupied c op 0]).map fun b => if b.tag == c.tag.toNat then { b with fwd := some p } else b := rfl
  rw [h, List.map_append, map_of_tag_free hfree]
  simp [forwarded, occupied]

theorem occupyFwd_tagBusy (s : State) (c : Cmd) (op p : Nat) : (s.occupyFwd c op p).tagBusy c.tag.toNat = true := by
  have h : (s.occupyFwd c op p).tagBusy c.tag.toNat =
    ((s.occupy c op 0).mil.busy.map fun b => if b.tag == c.tag.toNat then { b with fwd := some p } else b).any (·.tag == c.tag.toNat) := rfl
  rw [h, occupy_busy]
  simp [occupied]

/-- The forwarded command of a tag that was free is the one that was made busy. -/
theorem occupyFwd_find (hfree : s.tagBusy c.tag.toNat = false) (op p : Nat) :
    (s.occupyFwd c op p).mil.busy.find? (fun b => b.tag == c.tag.toNat && b.fwd.isSome) = some (forwarded c op p) := by
  have hold : s.mil.busy.find? (fun b => b.tag == c.tag.toNat && b.fwd.isSome) = none := by
    rw [tagBusy_eq_false_iff] at hfree
    refine List.find?_eq_none.mpr fun b hb => ?_
    have hne : b.tag ≠ c.tag.toNat := fun he => hfree (he ▸ List.mem_map_of_mem hb)
    simp [hne]
  rw [occupyFwd_busy hfree, List.find?_append, hold]
  simp [forwarded, occupied]

/-! ### The end of a forwarded command -/

/-- An inner command of an outer one whose tag ends has nobody to answer any more. -/
def orphan (tag : Nat) (e : Busy) : Busy :=
  match e.tr with
  | .own o => if o.tag.toNat == tag then { e with tr := .own { o with op := 0 } } else e
  | _ => e

/-- The packet of a forwarded command. -/
def packetOfFwd (p tag : Nat) (x : Nat × List Nat) : Bool := x.1 == p && x.2.getD 0 0 / 2 ^ 26 % 64 == tag

/-- A forwarded command to position `p` that ends with TIMEOUT, counted, before its answer. -/
def fwdEnded (s : State) (tag p : Nat) : State :=
  let headOut := match s.hat.fwdOut.head? with
    | some (d, ws) => d == p && ws.getD 0 0 / 2 ^ 26 % 64 == tag
    | none => false
  let s := { s with hat := { s.hat with fwdOut := s.hat.fwdOut.filter fun x => !packetOfFwd p tag x, cmdSent := if headOut then 0 else s.hat.cmdSent } }
  (s.withMil fun m => { m with busy := m.busy.map (orphan tag) }).bump 0 F.MIL_TUN_STAT_FWD_TO

theorem fwdEnd_eq {tag : Nat} (h : s.mil.busy.find? (fun b => b.tag == tag && b.fwd.isSome) = some b) :
    s.fwdEnd tag = (s.fwdEnded tag (b.fwd.getD 0)).fwdAnswer b (b.packet (if b.arg = 1 || !b.late.isEmpty then 2 else 1) stTimeout 0 []) := by
  rw [fwdEnd, h]
  rfl

/-- A timeout of a forwarded command is counted (R72). -/
theorem fwdEnd_counted {tag : Nat} (h : s.mil.busy.find? (fun b => b.tag == tag && b.fwd.isSome) = some b) :
    (s.fwdEnd tag).get 0 F.MIL_TUN_STAT_FWD_TO = s.counted 0 F.MIL_TUN_STAT_FWD_TO := by
  rw [fwdEnd_eq h, (MilWork.fwdAnswer (.refl _)).get]
  exact (sets_bump ..).1 _ (List.mem_singleton_self _)

theorem orphan_of_portOf {i tag : Nat} (h : PortOf b.tr i) : orphan tag b = b := by
  unfold orphan
  cases htr : b.tr with
  | own _ => rw [htr] at h; cases h
  | _ => rfl

theorem orphan_keeps (tag : Nat) (b : Busy) : (orphan tag b).tag = b.tag ∧ (orphan tag b).index = b.index ∧ (orphan tag b).fwd = b.fwd := by
  unfold orphan
  split
  · split <;> exact ⟨rfl, rfl, rfl⟩
  · exact ⟨rfl, rfl, rfl⟩

/-- A final packet for the latest forwarded command, with no earlier one to its position in the way, ends the tag and goes out at once (R76). -/
theorem fwdTake_of_last {l : List Busy} {p : Packet} (hbusy : s.mil.busy = l ++ [b]) (hl : ∀ e ∈ l, e.tag ≠ b.tag ∧ (e.index ≠ b.index ∨ e.fwd = none))
    (harg : b.arg ≠ 1) (hfwd : b.fwd ≠ none) (hlate : b.late = []) (hfinal : p.final = true) :
    s.fwdTake b p = (s.withMil fun m => { m with busy := l }, [(b.tr, p)]) := by
  have hmap : (s.mil.busy.map fun e => if e.tag == b.tag then { e with late := e.late ++ [p] } else e) = l ++ [{ b with late := [p] }] := by
    rw [hbusy, List.map_append]
    congr 1
    · refine (List.map_congr_left fun e he => ?_).trans (List.map_id _)
      rw [beq_eq_false_iff_ne.mpr (hl e he).1]
      rfl
    · simp [hlate]
  have hlast : unblock b.index [{ b with late := [p] }] = ([], [(b.tr, p)]) := by simp [unblock, harg, hfwd, hfinal]
  rw [fwdTake, if_neg harg, hmap, unblock_append fun e he => (hl e he).2, hlast]
  simp

/-! ### SCOPE 7 -/

/-- A command to a position that is not reached, with none before it to that position: its TIMEOUT goes out at once, and its tag is free. -/
theorem fwdEnd_of_occupied {i op p : Nat} (hport : PortOf c.tr i) (hfree : s.tagBusy c.tag.toNat = false)
    (hnone : ∀ b ∈ s.mil.busy, b.index ≠ c.index.toNat ∨ b.fwd = none) :
    (((s.occupyFwd c op p).fwdEnd c.tag.toNat).port i).out = (s.port i).out ++ [(.reply, rejection c op stTimeout 0)] ∧
      ((s.occupyFwd c op p).fwdEnd c.tag.toNat).tagBusy c.tag.toNat = false := by
  have htags := (tagBusy_eq_false_iff s c.tag.toNat).mp hfree
  have hbusy : ((s.occupyFwd c op p).fwdEnded c.tag.toNat p).mil.busy = s.mil.busy.map (orphan c.tag.toNat) ++ [forwarded c op p] := by
    show (s.occupyFwd c op p).mil.busy.map (orphan c.tag.toNat) = _
    rw [occupyFwd_busy hfree, List.map_append, List.map_singleton, orphan_of_portOf (b := forwarded c op p) hport]
  have hothers : ∀ e ∈ s.mil.busy.map (orphan c.tag.toNat), e.tag ≠ (forwarded c op p).tag ∧ (e.index ≠ (forwarded c op p).index ∨ e.fwd = none) := by
    intro e he
    obtain ⟨x, hx, rfl⟩ := List.mem_map.mp he
    obtain ⟨htag, hindex, hfwd⟩ := orphan_keeps c.tag.toNat x
    rw [htag, hindex, hfwd]
    exact ⟨fun h => htags ((show x.tag = c.tag.toNat from h) ▸ List.mem_map_of_mem hx), hnone x hx⟩
  have htake := fwdTake_of_last (p := rejection c op stTimeout 0) hbusy hothers Nat.zero_ne_one (by simp [forwarded]) rfl rfl
  have hend : (s.occupyFwd c op p).fwdEnd c.tag.toNat =
      (((s.occupyFwd c op p).fwdEnded c.tag.toNat p).withMil fun m => { m with busy := s.mil.busy.map (orphan c.tag.toNat) }).queueReply i
        (rejection c op stTimeout 0) := by
    have hpacket : (forwarded c op p).packet (if (forwarded c op p).arg = 1 || !(forwarded c op p).late.isEmpty then 2 else 1) stTimeout 0 [] =
        rejection c op stTimeout 0 := rfl
    have hto : (forwarded c op p).fwd.getD 0 = p := rfl
    rw [fwdEnd_eq (occupyFwd_find hfree op p), hpacket, hto, fwdAnswer, htake]
    exact answer_of_portOf hport _ _
  rw [hend]
  refine ⟨port_queueReply_same _ (portOf_lt hport) _, (tagBusy_eq_false_iff ..).mpr fun hin => ?_⟩
  obtain ⟨e, he, htag⟩ := List.mem_map.mp hin
  exact (hothers e he).1 htag

variable {op : OpSpec} {run : State → Nat → Cmd → State}

theorem forwardCmd_of_badTarget (h : c.rsv ≠ 0 ∨ 8 ≤ c.ix ∨ (c.ix ≠ s.ownPos ∧ s.ringN ≤ c.ix)) :
    s.forwardCmd run op c = s.refuse c op.code stBadTarget 0 := by
  rw [forwardCmd]
  exact if_pos (by simpa using h)

/-- Past the target and the state, an inner packet has to fill the outer one. -/
theorem forwardCmd_of_target (hrsv : c.rsv = 0) (hix : c.ix < 8) (hring : c.ix = s.ownPos ∨ c.ix < s.ringN) (hrestricted : s.restricted = false) :
    s.forwardCmd run op c =
      if c.ix ≠ s.ownPos ∧ s.noPath = true then s.refuse c op.code stState 0
      else if ¬(3 ≤ c.len ∧ 4 * c.len = 12 + lengthOf ((c.wordsFrom 0).getD 0 0)) then s.refuse c op.code stBadParam 0
      else if c.ix = s.ownPos then (s.occupyFwd c op.code c.ix).innerPacket run (.own (c.outer op.code)) (c.wordsFrom 0)
      else if (s.occupyFwd c op.code c.ix).reaches c.ix = false then (s.occupyFwd c op.code c.ix).fwdEnd c.tag.toNat
      else { s.occupyFwd c op.code c.ix with hat := { s.hat with fwdOut := s.hat.fwdOut ++ [(c.ix, c.packet op.code)] } } := by
  have htarget : ¬(c.rsv ≠ 0 ∨ 8 ≤ c.ix ∨ ((c.ix == s.ownPos) = false ∧ s.ringN ≤ c.ix)) := by
    rintro (h | h | ⟨hne, hout⟩)
    · exact h hrsv
    · omega
    · exact absurd hout (Nat.not_le.mpr (hring.resolve_left (beq_eq_false_iff_ne.mp hne)))
  have hwhole : (c.len < 3 ∨ 4 * c.len ≠ 12 + lengthOf ((c.wordsFrom 0).getD 0 0)) ↔
      ¬(3 ≤ c.len ∧ 4 * c.len = 12 + lengthOf ((c.wordsFrom 0).getD 0 0)) := by omega
  rw [forwardCmd]
  dsimp only
  rw [if_neg htarget, hrestricted]
  simp only [Bool.false_and, Bool.false_or, Bool.and_eq_true, Bool.not_eq_true', beq_eq_false_iff_ne, beq_iff_eq, hwhole]
  rfl

/-- A command of SCOPE 7 on a free tag goes its way (R72). -/
theorem acceptOp_of_forward (hscope : c.scope = 7) (hfree : s.tagBusy c.tag.toNat = false) :
    s.acceptOp run op c = s.forwardCmd run op c := by
  rw [acceptOp, hfree, if_neg Bool.false_ne_true, if_pos hscope]

end State

/-! ### The statement -/

/-- Settles O14: the checks of `SCOPE` 7 are taken in their order; the busy entry that a forwarded command makes is the last, and ends as such. -/
theorem forwardedCommands : Obligations.ForwardedCommands := by
  intro p hp c s hhears hlen hscope hfree r whole
  have hexec : exec (p.1 c) s = .next (r.forwardCmd (State.acceptAt 100) p.2 c) := by
    rw [exec_of_commandRows hp, State.deliver_of_hears hhears hlen, State.acceptOp_of_forward hscope hfree]
  refine ⟨fun h => ?_, fun hrsv hix hring hother hrestricted => ?_, fun hrsv hix hown hrestricted => ?_⟩
  · rw [hexec, State.forwardCmd_of_badTarget h]
    rfl
  · have hgo := State.forwardCmd_of_target (run := State.acceptAt 100) (op := p.2) hrsv hix (.inr hring) hrestricted
    refine ⟨fun hpath => ?_, fun hpath => ⟨fun hpart => ?_, fun hwhole hreach => ⟨_, hexec, ?_⟩, fun hwhole hreach => ⟨_, hexec, ?_⟩⟩⟩
    · rw [hexec, hgo, if_pos ⟨hother, hpath⟩]
      rfl
    · rw [hexec, hgo, if_neg (by simp [hpath]), if_pos hpart]
      rfl
    · rw [hgo, if_neg (by simp [hpath]), if_neg (not_not_intro hwhole), if_neg hother,
        if_neg (show ¬(r.occupyFwd c p.2.code c.ix).reaches c.ix = false by rw [Bool.not_eq_false]; exact hreach)]
      exact ⟨r.occupyFwd_tagBusy c _ _, rfl, rfl, rfl⟩
    · rw [hgo, if_neg (by simp [hpath]), if_neg (not_not_intro hwhole), if_neg hother, if_pos (show (r.occupyFwd c p.2.code c.ix).reaches c.ix = false from hreach)]
      exact ⟨State.fwdEnd_counted (State.occupyFwd_find hfree ..), fun i hport hnone => State.fwdEnd_of_occupied hport hfree hnone⟩
  · have hgo := State.forwardCmd_of_target (run := State.acceptAt 100) (op := p.2) hrsv hix (.inl hown) hrestricted
    refine ⟨fun hpart => ?_, fun hwhole => ⟨?_, r.occupyFwd_tagBusy c _ _, rfl⟩⟩
    · rw [hexec, hgo, if_neg fun h => h.1 hown, if_pos hpart]
      rfl
    · rw [hexec, hgo, if_neg fun h => h.1 hown, if_neg (not_not_intro hwhole), if_pos hown]

end Sys2Proof.Machine
end

section
/-!
PROOFS. O37, refuted. A tunnel packet may switch off the controller that carries it: a WRITE_REG that clears `CAN_CTRL.EN` while a TX entry waits
leaves the controller finishing its frame (`cnFin` = 1), and TUNNEL_SEGMENT_RECEIVED then lets it leave the bus (R339), which the
statement's `tunnelIn` alone does not do.
-/
namespace Sys2Proof.Machine

/-- A running chip whose controller 0 is on the bus with its tunnel on and a frame waiting in TX entry 8. -/
def State.tunnelWithFrame : State :=
  (((State.reset.withChip fun c => { c with phase := .running, regions := Vector.replicate 3 .run, ready := true }).puts 0
    [(F.CHIP_ID_HALF_B, 1)]).puts (canB 0)
    [(F.CAN_CTRL_EN, 1), (F.CAN_CTRL_FD_EN, 1), (F.CAN_CTRL_TUN_EN, 1), (F.CAN_STAT_ACT, 1)]).withCan 0 fun q =>
      { q with tx := [{ ix := 8, fr := ⟨1, false, false, false, false, 0, []⟩ }] }

/-- The one segment of a message that writes 0 to `CAN_CTRL` of controller 0: its header with FIRST and LAST, then the packet. -/
def switchOffSegment : List Byte :=
  [0xC0, 0] ++ { cls := 0, tag := 5, opcode := 0x04, want := false, snap := false, scope := 0, index := 0, status := 0, detail := 0,
                 payload := [canB 0, 0] : Packet }.bytes

/-- The controller meets what the statement asks for: it serves, it is on the bus, not in loopback, and it finishes no frame. -/
theorem State.tunnelWithFrame_hears :
    State.tunnelWithFrame.canServes 0 ∧ State.tunnelWithFrame.canOn 0 = true ∧
      State.tunnelWithFrame.on (canB 0) F.CAN_CTRL_LBK = false ∧ State.tunnelWithFrame.get (canB 0) H.cnFin ≠ 1 := by
  refine ⟨⟨?_, ?_⟩, ?_, ?_, ?_⟩ <;> decide +kernel

/-- Taken through the tunnel alone, the write leaves the controller on the bus to finish its frame. -/
theorem State.tunnelWithFrame_tunnelIn_act :
    (State.tunnelWithFrame.tunnelIn 0 true switchOffSegment).get (canB 0) F.CAN_STAT_ACT = 1 := by
  decide +kernel

/-- The row takes it off the bus. -/
theorem State.tunnelWithFrame_tunArrive_act :
    (State.tunnelWithFrame.onCan 0 (State.tunnelWithFrame.tunArrive 0 true switchOffSegment)).get (canB 0) F.CAN_STAT_ACT = 0 := by
  decide +kernel

/-- Refutes O37: the packet that TUNNEL_SEGMENT_RECEIVED carries can clear `CAN_CTRL.EN` of its own controller, which then leaves the bus in the same
row; the statement says that the row is `tunnelIn` and nothing more. -/
theorem not_packetsArrive : ¬ Obligations.PacketsArrive := by
  intro h
  obtain ⟨-, -, -, -, -, -, hTunnel, -⟩ := h.1 State.tunnelWithFrame
  obtain ⟨hserves, hon, hlbk, hfin⟩ := State.tunnelWithFrame_hears
  have hrow := (hTunnel 0 true switchOffSegment hserves).1 hon hlbk hfin
  have hstates : State.tunnelWithFrame.onCan 0 (State.tunnelWithFrame.tunArrive 0 true switchOffSegment) =
      State.tunnelWithFrame.tunnelIn 0 true switchOffSegment := Host.Outcome.next.inj hrow
  have hact := congrArg (fun t : State => t.get (canB 0) F.CAN_STAT_ACT) hstates
  exact absurd (State.tunnelWithFrame_tunArrive_act.symm.trans (hact.trans State.tunnelWithFrame_tunnelIn_act)) (by decide)

end Sys2Proof.Machine
end

section
/-!
PROOFS. O38, refuted. ACCEPTED for a forwarded command lets the commands behind it to the same position send what waits for its turn (R76). One of
these may be an inner command whose outer command is that very one: its final reply then ends the outer command, whose tag the statement says is
still busy.
-/
namespace Sys2Proof.Machine

/-- The outer command: tag 5, forwarded to position 1, without a reply yet. -/
def outerWaiting : Busy :=
  { tag := 5, op := 0x01, want := false, snap := false, scope := 7, index := 1, tr := .spi, fwd := some 1, arg := 0 }

/-- The final reply of the command of tag 6. -/
def innerReply : Packet :=
  { cls := 1, tag := 6, opcode := 0x01, want := false, snap := false, scope := 7, index := 1, status := 0, detail := 0, payload := [] }

/-- A command of tag 6 to the same position, inside the one of tag 5: its final reply waits behind it. -/
def innerBehind : Busy :=
  { outerWaiting with tag := 6, tr := .own { tag := 5, op := 0x01, want := false, snap := false, index := 1 }, late := [innerReply] }

/-- A running chip with these two commands busy. -/
def State.twoForwarded : State :=
  (State.reset.withChip fun c => { c with phase := .running, regions := Vector.replicate 3 .run }).withMil fun m =>
    { m with busy := [outerWaiting, innerBehind] }

/-- ACCEPTED for tag 5, as position 1 sends it. -/
def acceptedForOuter : List Word := { innerReply with tag := 5, status := 1 : Packet }.words.map (BitVec.ofNat 32)

/-- The reply is whole, and it is the outer command's. -/
theorem State.twoForwarded_finds :
    State.twoForwarded.shRun = true ∧ State.twoForwarded.alive = true ∧ crcOk (natsOf acceptedForOuter) = true ∧
      (State.packetOf (natsOf acceptedForOuter)).tag = 5 ∧ (State.packetOf (natsOf acceptedForOuter)).cls = 1 ∧
      (State.packetOf (natsOf acceptedForOuter)).status = 1 ∧
      State.twoForwarded.mil.busy.find? (fun x => x.tag == (State.packetOf (natsOf acceptedForOuter)).tag && x.fwd == some (1 : Fin 8).val) =
        some outerWaiting := by
  decide +kernel

/-- The inner command's reply goes out through the outer one and frees its tag. -/
theorem State.twoForwarded_reply_frees :
    (State.twoForwarded.forwardReply (1 : Fin 8).val (natsOf acceptedForOuter)).tagBusy 5 = false := by
  decide +kernel

/-- Refutes O38: a forwarded command whose ACCEPTED comes back need not stay busy, when a command inside it is next in the order of R76. -/
theorem not_waitsAndHosts : ¬ Obligations.WaitsAndHosts := by
  intro h
  obtain ⟨hsh, halive, hcrc, htag, hcls, hstatus, hfind⟩ := State.twoForwarded_finds
  obtain ⟨-, -, -, hreplies, -⟩ := h.1 State.twoForwarded 5 outerWaiting hsh
  obtain ⟨-, -, -, haccepted⟩ := hreplies 1 acceptedForOuter halive hcrc hfind
  obtain ⟨t, hexec, hbusy, -⟩ := haccepted hcls hstatus
  have ht : State.twoForwarded.forwardReply (1 : Fin 8).val (natsOf acceptedForOuter) = t := Host.Outcome.next.inj hexec
  rw [← ht, htag, State.twoForwarded_reply_frees] at hbusy
  cases hbusy

end Sys2Proof.Machine
end

section
/-!
PROOFS. What an admitted command of the chip leads to (Tables PK-6, PK-9 and PK-10): the effect of its row on the state with the watchdog refreshed.
-/
namespace Sys2Proof.Machine

namespace State

variable {s t : State} {c : Cmd}

/-- A command that is admitted leads to what its opcode does. -/
theorem does_of_run {op : OpSpec} {i : Instr} (hrow : exec i s = .next (s.deliver op c)) (hcode : op.code ≠ 0x28)
    (hrun : op.run (s.refresh c.tr) c = t) : s.Does op c i t := by
  intro hadmits
  rw [hrow, deliver_of_admits hadmits hcode, hrun]

/-! ### Opcodes of two effects -/

theorem resetRegion_run_sh (h : c.ix = 0) : opResetRegion.run s c = ((s.reply c 0x09 stOK 0 []).put 0 H.shRst 1).shResetCheck := if_pos h

theorem resetRegion_run_half {k : Nat} (h : c.ix = k + 1) :
    opResetRegion.run s c = (s.takeDown (k + 1) .restarting stAborted).begin c 0x09 (k + 1) := by
  rw [← h]
  exact if_neg (h ▸ Nat.succ_ne_zero k)

theorem mastership_run_report (h : c.word 0 = 0) :
    opMastership.run s c = s.reply c 0x78 stOK 0 [s.master, s.nat 0 F.CHIP_EPOCH_EPOCH] := by
  simp only [opMastership, h, Nat.zero_ne_one, if_false]

theorem mastership_run_handOver (h : c.word 0 = 1) :
    opMastership.run s c = s.handOver.reply c 0x78 stOK 0 [s.handOver.master, s.handOver.nat 0 F.CHIP_EPOCH_EPOCH] := by
  simp only [opMastership, h, if_true]

theorem dblRing_run_own (h : c.word 0 = s.ownPos) : opDblRing.run s c = (s.dblRing (c.word 1)).reply c 0x6A stOK 0 [] := by
  simp only [opDblRing, h, if_true]

theorem dblRing_run_other (h : c.word 0 ≠ s.ownPos) : opDblRing.run s c = (dblSend s (c.word 0) (c.word 1)).reply c 0x6A stOK 0 [] := by
  simp only [opDblRing, h, if_false]

/-! ### Opcodes that stage a setting -/

theorem shareCfg_run {ms : List (Nat × Nat × Nat)} (hms : shareMembers c = some ms) (ht : s.shareRestage (c.word 0) (c.word 1) ms = some t) :
    opShareCfg.run s c = (t.putGroup (c.word 0) (c.word 1) ms).reply c 0x48 stOK 0 [] := by
  simp only [opShareCfg, hms, Option.getD_some, ht]

theorem recTriggerCfg_run (ht : s.trigRestage (c.word 0) (c.word 1 % 2) (c.word 1 / 2) (c.wordsFrom 3) = some t) :
    opRecTriggerCfg.run s c = (t.putTrig (c.word 0) (c.word 1 % 2) (c.word 1 / 2) (c.wordsFrom 3)).reply c 0x59 stOK 0 [] := by
  simp only [opRecTriggerCfg, ht, Option.getD_some]

end State

/-- Settles O22: each row is its opcode's effect; where an opcode has two, the command's own words choose. -/
theorem chipCommands : Obligations.ChipCommands := by
  intro c s r
  exact ⟨State.does_of_run rfl (by decide) rfl, State.does_of_run rfl (by decide) rfl,
    fun hsh => State.does_of_run rfl (by decide) (State.resetRegion_run_sh hsh),
    fun _ hhalf => State.does_of_run rfl (by decide) (State.resetRegion_run_half hhalf),
    State.does_of_run rfl (by decide) rfl, State.does_of_run rfl (by decide) rfl,
    fun hreport => State.does_of_run rfl (by decide) (State.mastership_run_report hreport),
    fun hhand => State.does_of_run rfl (by decide) (State.mastership_run_handOver hhand),
    fun _ hms _ ht => State.does_of_run rfl (by decide) (State.shareCfg_run hms ht),
    fun _ ht => State.does_of_run rfl (by decide) (State.recTriggerCfg_run ht),
    State.does_of_run rfl (by decide) rfl,
    fun hown => State.does_of_run rfl (by decide) (State.dblRing_run_own hown),
    fun hother => State.does_of_run rfl (by decide) (State.dblRing_run_other hother)⟩

end Sys2Proof.Machine
end

section
/-!
PROOFS. The reading commands: what the watchdog's refresh leaves as it was, when a command is admitted, and what its one reply leaves behind.
-/
namespace Sys2Proof.Machine

namespace State

variable {s u q : State} {c : Cmd} {op : OpSpec}

/-! ### What the watchdog's refresh leaves (R80) -/

theorem refresh_get (s : State) (tr : Transport) {b : Nat} {f : Fld} (hlost : F.MIL_STAT_HOST_LOST.key 0 ≠ f.key b) (hstart : H.wdStart.key 0 ≠ f.key b) :
    (s.refresh tr).get b f = s.get b f := by
  unfold refresh
  split
  · rfl
  · split
    · dsimp only
      split
      · rw [withMil_get, get_put_ne _ _ hstart, get_put_ne _ _ hlost]
      · exact get_put_ne _ _ hlost
    · rfl

theorem refresh_chip (s : State) (tr : Transport) : (s.refresh tr).chip = s.chip := by
  unfold refresh
  split
  · rfl
  · split
    · dsimp only
      split <;> rfl
    · rfl

theorem refresh_time (s : State) (tr : Transport) : (s.refresh tr).time = s.time := by
  unfold refresh
  split
  · rfl
  · split
    · dsimp only
      split <;> rfl
    · rfl

/-- Fields of the units of a half are none of the watchdog's. -/
theorem refresh_get_half (s : State) (tr : Transport) {b : Nat} (hb : 0x1000000 ≤ b) (f : Fld) : (s.refresh tr).get b f = s.get b f := by
  refine s.refresh_get tr (fun h => ?_) fun h => ?_
  · rw [show F.MIL_STAT_HOST_LOST.key 0 = 0x80040 from rfl, Fld.key] at h
    omega
  · rw [show H.wdStart.key 0 = 0xF8040 from rfl, Fld.key] at h
    omega

theorem refresh_regionRun (s : State) (tr : Transport) (r : Nat) : (s.refresh tr).regionRun r = s.regionRun r := by
  rw [regionRun, refresh_chip, regionRun]

theorem refresh_restricted (s : State) (tr : Transport) : (s.refresh tr).restricted = s.restricted := by
  rw [restricted, refresh_chip, restricted]

theorem refresh_dual (s : State) (tr : Transport) : (s.refresh tr).dual = s.dual := by
  rw [dual, on, s.refresh_get tr (by decide) (by decide), dual, on]

theorem refresh_halfDown (s : State) (tr : Transport) (h : Nat) : (s.refresh tr).halfDown h = s.halfDown h := by
  rw [halfDown, isolated, s.refresh_get_half tr (by rw [halfB]; omega), refresh_regionRun, halfDown, isolated]

theorem refresh_targetOk (s : State) (tr : Transport) (c : Cmd) : (s.refresh tr).targetOk c = s.targetOk c := by
  simp only [targetOk, halfPresent, stnPresent, canPresent, refresh_dual]

theorem refresh_ownerDown (s : State) (tr : Transport) (c : Cmd) : (s.refresh tr).ownerDown c = s.ownerDown c := by
  simp only [ownerDown, refresh_halfDown]

theorem refresh_addrRuns (s : State) (tr : Transport) (a : Nat) : (s.refresh tr).addrRuns a = s.addrRuns a := by
  simp only [addrRuns, addrPresent, refresh_dual, refresh_regionRun]

theorem refresh_nat (s : State) (tr : Transport) {f : Fld} (hlost : F.MIL_STAT_HOST_LOST.key 0 ≠ f.key 0) (hstart : H.wdStart.key 0 ≠ f.key 0) :
    (s.refresh tr).nat 0 f = s.nat 0 f := by
  rw [nat, s.refresh_get tr hlost hstart, nat]

theorem refresh_ownPos (s : State) (tr : Transport) : (s.refresh tr).ownPos = s.ownPos := s.refresh_nat tr (by decide) (by decide)

theorem refresh_ringN (s : State) (tr : Transport) : (s.refresh tr).ringN = s.ringN := by
  rw [ringN, s.refresh_nat tr (by decide) (by decide), ringN]

theorem refresh_hatOn (s : State) (tr : Transport) : (s.refresh tr).hatOn = s.hatOn := by
  simp only [hatOn, strapBad, on, refresh_ringN, shRun, refresh_regionRun]
  rw [s.refresh_nat tr (by decide) (by decide), s.refresh_nat tr (by decide) (by decide), s.refresh_get tr (by decide) (by decide),
    s.refresh_get tr (by decide) (by decide)]

theorem refresh_mbxBad (s : State) (tr : Transport) (p : Nat) : (s.refresh tr).mbxBad p = s.mbxBad p := by
  simp only [mbxBad, refresh_ringN, refresh_ownPos, refresh_hatOn]

theorem refresh_mbxNoWin (s : State) (tr : Transport) (p : Nat) : (s.refresh tr).mbxNoWin p = s.mbxNoWin p := by
  rw [mbxNoWin, refresh_ownPos, s.refresh_get tr (by decide) (by decide), mbxNoWin]

theorem refresh_anyDown (s : State) (tr : Transport) (a n : Nat) : (s.refresh tr).anyDown a n = s.anyDown a n := by
  simp only [anyDown, refresh_addrRuns]

theorem refresh_hostEntry (s : State) (tr : Transport) (k i : Nat) : (s.refresh tr).hostEntry k i = s.hostEntry k i := by
  rw [hostEntry, nat, s.refresh_get_half tr (by rw [canB, halfB]; omega), hostEntry, nat]

/-! ### What reading leaves -/

end State

namespace RegWork

variable {s0 s : State}

theorem time {t : State} (h : RegWork s t) : t.time = s.time := (congrArg State.time h.rest :)
theorem bumpPast {b : Nat} {f : Fld} {k : Int} (h : RegWork s0 s) : RegWork s0 (s.bumpPast b f k) := h.trans ⟨rfl⟩

theorem settleSlot {h m : Nat} (hw : RegWork s0 s) : RegWork s0 (s.settleSlot h m) :=
  ite hw (ite (put hw) (ite (bumpPast (put hw)) (bumpPast (puts (put hw)))))

theorem settleAt {a : Nat} (h : RegWork s0 s) : RegWork s0 (s.settleAt a) := each h fun _ _ h => ite (settleSlot h) h

theorem clearRc {x : Hit} (h : RegWork s0 s) : RegWork s0 (s.clearRc x) := by
  refine each h fun d s h => ite ?_ h
  split
  · exact h.trans ⟨rfl⟩
  · exact put h

end RegWork

namespace State

variable {s u q : State} {c : Cmd} {op : OpSpec}

/-- A word read settles and clears fields, or captures a quantity (R83); it takes no time. -/
theorem readWord_time (s : State) (a : Nat) : (s.readWord a).2.time = s.time := by
  unfold readWord
  dsimp only
  split
  · rfl
  · split
    · rfl
    · split
      · exact (RegWork.clearRc (.settleAt (.refl s))).time
      · split
        · rfl
        · split
          · rfl
          · split <;> rfl

theorem readWords_time (s : State) (a n : Nat) : (s.readWords a n).2.time = s.time := by
  induction n generalizing s a with
  | zero => rfl
  | succ n ih => exact (ih _ _).trans (s.readWord_time a)

theorem readWords_length (s : State) (a n : Nat) : (s.readWords a n).1.length = n := by
  induction n generalizing s a with
  | zero => rfl
  | succ n ih => exact congrArg (· + 1) (ih ..)

theorem readWords_head (s : State) (a : Nat) {n : Nat} (hn : 1 ≤ n) : (s.readWords a n).1.head? = some (s.readWord a).1 := by
  obtain ⟨k, rfl⟩ := Nat.exists_eq_add_of_le' hn
  rfl

/-- A fetch from a mailbox changes no tag, no queue of a transport and not the time (R357). -/
theorem mbxFetch_keeps (s : State) (p n : Nat) : (s.mbxFetch p n).2.2.mil = s.mil ∧ (s.mbxFetch p n).2.2.time = s.time := by
  have hwork : RegWork (s.withPeer p _) (s.mbxFetch p n).2.2 :=
    .ite (.setBit (.ite (.setBit (.refl _)) (.refl _))) (.ite (.setBit (.refl _)) (.refl _))
  exact ⟨hwork.mil, hwork.time⟩

/-! ### A command that is answered at once -/

/-- A command with a free tag and a target of this chip that is up is admitted when its own checks pass (Table PK-4). -/
theorem admits_of_target (hhears : s.hears c.tr = true) (hlen : c.len ≤ 255) (hfree : (s.refresh c.tr).tagBusy c.tag.toNat = false)
    (hscope : c.scope ≠ 7) (hin : op.scopes.contains c.scope.toNat = true) (htarget : s.targetOk c = true)
    (habsent : op.absent (s.refresh c.tr) c = false) (hdown : op.down (s.refresh c.tr) c = false) (hopen : op.startup = true ∨ s.restricted = false)
    (hcheck : op.check (s.refresh c.tr) c = none) : s.admits op c = true := by
  refine admits_iff.mpr ⟨hhears, hlen, hfree, hscope, hin, (s.refresh_targetOk ..).trans htarget, habsent, hdown, ?_, hcheck⟩
  rw [refresh_restricted]
  rcases hopen with h | h <;> simp [h]

/-- The one reply of an admitted command: on its own transport, its tag free, with nothing but the work of the command done. -/
theorem after_reply {j : Instr} {i : Nat} {pay : List Nat} (hport : PortOf c.tr i) (hadmits : s.admits op c = true)
    (hrow : exec j s = .next (s.deliver op c)) (hcode : op.code ≠ 0x28) (hrun : op.run (s.refresh c.tr) c = u.reply c op.code stOK 0 pay)
    (hfree : u.tagBusy c.tag.toNat = false) (hqueue : u.port i = q.port i) (hregs : u.regs = q.regs) (htime : u.time = s.time) :
    After j s fun t => (t.port i).out = (q.port i).out ++ [(.reply, { rejection c op.code 0 0 with payload := pay })] ∧
      t.tagBusy c.tag.toNat = false ∧ t.regs = q.regs ∧ t.time = s.time := by
  refine ⟨_, hrow.trans (congrArg Host.Outcome.next (deliver_of_admits hadmits hcode)), ?_⟩
  rw [hrun, reply_of_portOf hport]
  have hsnap := (u.queueReply i { rejection c op.code stOK 0 with payload := pay }).snapped_replied c op.code
  have hsent := (u.queueReply_replied i { rejection c op.code stOK 0 with payload := pay }).trans hsnap
  refine ⟨?_, (hsent.tagBusy _).trans hfree, ?_, ?_⟩
  · rw [← hqueue, ← port_queueReply_same u (portOf_lt hport)]
    unfold snapped
    split <;> rfl
  · exact ((congrArg State.regs hsent.rest).symm :).trans hregs
  · exact ((congrArg State.time hsent.rest).symm :).trans htime

/-! ### Opcodes of several effects -/

theorem snapshot_run_now (h : c.word 0 = 0) :
    opSnapshot.run s c = s.reply c 0x06 stOK 0 (u64Words s.time ++ [s.regionBits] ++ (s.occupy c 0x06 0).sample (c.wordsFrom 1)) := if_pos h

theorem snapshot_run_stored (h : c.word 0 = 1) {p : Nat × Nat × Nat × Nat × List Nat} (hp : s.mil.snap = some p) :
    opSnapshot.run s c = s.reply c 0x06 stOK 0 (u64Words p.1 ++ [p.2.1 + 2 ^ 16 * p.2.2.1 + 2 ^ 24 * p.2.2.2.1] ++ p.2.2.2.2) := by
  simp only [opSnapshot, h, Nat.one_ne_zero, if_false, hp, Option.getD_some]

theorem cfgRead_run (s : State) (c : Cmd) :
    opCfgRead.run s c = s.reply c 0x10 stOK 0 (imgWords (
      if c.word 0 = 2 then s.cfg.staging
      else if s.on 0 F.CHIP_STATUS_CFG_VALID = false then s.cfg.slots.toList.getD (c.word 0) []
      else if c.word 0 = 0 then s.cfg.inForce
      else s.cfg.slots.toList.getD (1 - s.nat 0 F.CFG_STAT_SLOT) []) (c.word 1) (c.word 2)) := by
  simp only [opCfgRead, Bool.not_eq_true']

/-! ### When the commands of the chip are admitted -/

theorem targetHalf_of_chip (h : c.scope = 0) : targetHalf c = none := by
  simp [targetHalf, h]

/-- A command of the chip itself needs no half and no target but its own checks. -/
theorem admits_of_chip (hhears : s.hears c.tr = true) (hlen : c.len ≤ 255) (hrsv : c.rsv = 0) (hfree : (s.refresh c.tr).tagBusy c.tag.toNat = false)
    (hscope : c.scope = 0) (hix : c.ix = 0) (hin : op.scopes.contains 0 = true) (habsent : op.absent (s.refresh c.tr) c = false)
    (hdown : op.down (s.refresh c.tr) c = false) (hopen : op.startup = true ∨ s.restricted = false)
    (hcheck : op.check (s.refresh c.tr) c = none) : s.admits op c = true := by
  refine admits_of_target hhears hlen hfree ?_ (by rw [hscope]; exact hin) ?_ habsent hdown hopen hcheck
  · rw [hscope]; decide
  · simp [targetOk, hrsv, hscope, hix]

theorem ownerDown_of_chip (h : c.scope = 0) : s.ownerDown c = false := by
  rw [ownerDown, targetHalf_of_chip h]

theorem firstBad_one {bad : Bool} {st : Nat} : firstBad [(bad, st)] = none ↔ bad = false := by
  cases bad <;> simp [firstBad]

/-- Addresses of words in the maps (R6). -/
theorem all_addrOk {l : List Nat} (h : ∀ a ∈ l, a % 4 = 0 ∧ (regionAt a).isSome = true) : l.all addrOk = true := by
  refine List.all_eq_true.mpr fun a ha => ?_
  obtain ⟨hword, hmap⟩ := h a ha
  simp [addrOk, hword, hmap]

theorem anyDown_of_runs {a n : Nat} (h : ∀ x ∈ addrsFrom a n, s.addrRuns x = true) : s.anyDown a n = false := by
  have hnone : ((addrsFrom a n).any fun x => !s.addrRuns x) = false := by
    rw [List.any_eq_false]
    intro x hx
    simp [h x hx]
  rw [anyDown, hnone, Bool.and_false]

theorem opIdentify_check (h : c.len = 0) : opIdentify.check s c = none := firstBad_one.mpr (by simp [h])

theorem opReadReg_check (hlen : c.len = 2) (hone : 1 ≤ c.word 1) (hmost : c.word 1 ≤ 255) (hmaps : (addrsFrom (c.word 0) (c.word 1)).all addrOk = true) :
    opReadReg.check s c = none := firstBad_one.mpr (by simp [hlen, hone, hmost, hmaps])

theorem opReadReg_down (h : s.anyDown (c.word 0) (c.word 1) = false) : opReadReg.down s c = false := by
  simp [opReadReg, h]

theorem opSnapshot_check_now (h : c.word 0 = 0) (hleast : 2 ≤ c.len) (hmost : c.len ≤ 253) (hmaps : (c.wordsFrom 1).all addrOk = true) :
    opSnapshot.check s c = none := firstBad_one.mpr (by
    have hsome : ¬c.len < 2 := Nat.not_lt.mpr hleast
    simp [h, hsome, hmost, hmaps])

theorem opSnapshot_check_stored (h : c.word 0 = 1) (hlen : c.len = 1) : opSnapshot.check s c = none := firstBad_one.mpr (by simp [h, hlen])

theorem opRecRead_check (hlen : c.len = 3) (hmode : c.word 0 ≤ 1) (hone : 1 ≤ c.word 2) (hmost : c.word 2 ≤ 7) : opRecRead.check s c = none :=
  firstBad_one.mpr (by simp [hlen, hmode, hone, hmost])

theorem opMbxFetch_check (hlen : c.len = 2) (hbad : s.mbxBad (c.word 0) = false) (hwin : s.mbxNoWin (c.word 0) = false) (hone : 1 ≤ c.word 1)
    (hmost : c.word 1 ≤ 254) : opMbxFetch.check s c = none := by
  have hsome : c.word 1 ≠ 0 := Nat.one_le_iff_ne_zero.mp hone
  simp [opMbxFetch, firstBad, hlen, hbad, hwin, hsome, hmost]

theorem mbxBad_of_path {p : Nat} (hpos : p < 8) (hring : p < s.ringN) (hpath : p = s.ownPos ∨ s.hatOn = true) : s.mbxBad p = false := by
  have hopen : p ≠ s.ownPos → s.hatOn = true := hpath.resolve_left
  simpa [mbxBad, hpos, hring] using hopen

theorem mbxNoWin_of_path {p : Nat} (hpath : p = s.ownPos ∨ s.get 0 F.HBD_PUB_MBX_WIN ≠ 0) : s.mbxNoWin p = false := by
  rcases hpath with h | h <;> simp [mbxNoWin, h]

theorem opCanFetch_check (hlen : c.len = 2) (hentry : s.hostEntry c.ix (c.word 0) = true) (hone : 1 ≤ c.word 1) (hmost : c.word 1 ≤ 12) :
    opCanFetch.check s c = none := firstBad_one.mpr (by simp [hlen, hentry, hone, hmost])

theorem opFaultRead_check (hlen : c.len = 2) (hone : 1 ≤ c.word 1) (hmost : c.word 1 ≤ 63) : opFaultRead.check s c = none :=
  firstBad_one.mpr (by simp [hlen, hone, hmost])

end State

/-- Settles O15: each reading command is its opcode's reply; plain conditions on the state before the watchdog's refresh suffice for it to be admitted. -/
theorem readingCommands : Obligations.ReadingCommands := by
  constructor
  · intro c s r slot
    exact ⟨State.does_of_run rfl (by decide) rfl, State.does_of_run rfl (by decide) rfl, State.does_of_run rfl (by decide) rfl,
      fun hnow => State.does_of_run rfl (by decide) (State.snapshot_run_now hnow),
      fun hstored _ hp => State.does_of_run rfl (by decide) (State.snapshot_run_stored hstored hp),
      State.does_of_run rfl (by decide) (State.cfgRead_run ..), State.does_of_run rfl (by decide) rfl, State.does_of_run rfl (by decide) rfl,
      State.does_of_run rfl (by decide) rfl, State.does_of_run rfl (by decide) rfl⟩
  · intro c s i hport hhears hlen hrsv hfree r answers inMaps
    have htime : r.time = s.time := s.refresh_time c.tr
    refine ⟨fun hscope hix => ⟨?echo, fun hnone => ?identify, fun hwords hone hmost hmaps hruns => ⟨?readReg, r.occupy c 0x03 0 |>.readWords_length .., ?head⟩,
      fun hnow hleast hmost hmaps => ?now, fun p hstored hwords hp => ?stored, fun hopen hwords hmode hone hmost => ?recRead,
      fun hopen hwords hpos hring hpath hone hmost => ?mbxFetch⟩,
      fun hscope hpresent hup hopen hwords hlow hhigh hone hmost => ?canFetch, fun hscope htarget hup hwords hone hmost => ?faultRead⟩
    case echo =>
      have hadmits : s.admits opEcho c = true :=
        State.admits_of_chip hhears hlen hrsv hfree hscope hix rfl rfl (State.ownerDown_of_chip hscope) (.inl rfl) rfl
      exact State.after_reply hport hadmits rfl (by decide) rfl hfree rfl rfl htime
    case identify =>
      have hadmits : s.admits opIdentify c = true :=
        State.admits_of_chip hhears hlen hrsv hfree hscope hix rfl rfl (State.ownerDown_of_chip hscope) (.inl rfl) (State.opIdentify_check hnone)
      exact State.after_reply hport hadmits rfl (by decide) rfl hfree rfl rfl htime
    case readReg =>
      have hdown : r.anyDown (c.word 0) (c.word 1) = false := (s.refresh_anyDown ..).trans (State.anyDown_of_runs hruns)
      have hadmits : s.admits opReadReg c = true :=
        State.admits_of_chip hhears hlen hrsv hfree hscope hix rfl rfl (State.opReadReg_down hdown) (.inl rfl)
          (State.opReadReg_check hwords hone hmost (State.all_addrOk hmaps))
      exact State.after_reply hport hadmits rfl (by decide) rfl (State.freeTag_tagBusy ..) rfl rfl
        (((r.occupy c 0x03 0).readWords_time ..).trans htime)
    case head => exact (r.occupy c 0x03 0).readWords_head _ hone
    case now =>
      have hadmits : s.admits opSnapshot c = true :=
        State.admits_of_chip hhears hlen hrsv hfree hscope hix rfl rfl (State.ownerDown_of_chip hscope) (.inl rfl)
          (State.opSnapshot_check_now hnow hleast hmost (State.all_addrOk hmaps))
      exact State.after_reply hport hadmits rfl (by decide) (State.snapshot_run_now hnow) hfree rfl rfl htime
    case stored =>
      have hadmits : s.admits opSnapshot c = true :=
        State.admits_of_chip hhears hlen hrsv hfree hscope hix rfl rfl (State.ownerDown_of_chip hscope) (.inl rfl) (State.opSnapshot_check_stored hstored hwords)
      exact State.after_reply hport hadmits rfl (by decide) (State.snapshot_run_stored hstored hp) hfree rfl rfl htime
    case recRead =>
      have hadmits : s.admits opRecRead c = true :=
        State.admits_of_chip hhears hlen hrsv hfree hscope hix rfl rfl (State.ownerDown_of_chip hscope) (.inr hopen)
          (State.opRecRead_check hwords hmode hone hmost)
      exact State.after_reply hport hadmits rfl (by decide) rfl hfree rfl rfl htime
    case mbxFetch =>
      have hbad : r.mbxBad (c.word 0) = false := by
        rw [State.refresh_mbxBad]
        exact State.mbxBad_of_path hpos hring (hpath.imp_right And.left)
      have hwin : r.mbxNoWin (c.word 0) = false := by
        rw [State.refresh_mbxNoWin]
        exact State.mbxNoWin_of_path (hpath.imp_right And.right)
      have hadmits : s.admits opMbxFetch c = true :=
        State.admits_of_chip hhears hlen hrsv hfree hscope hix rfl rfl (State.ownerDown_of_chip hscope) (.inr hopen)
          (State.opMbxFetch_check hwords hbad hwin hone hmost)
      obtain ⟨hmil, hclock⟩ := r.mbxFetch_keeps (c.word 0) (c.word 1)
      have hstill : (r.mbxFetch (c.word 0) (c.word 1)).2.2.tagBusy c.tag.toNat = false := by rw [State.tagBusy, hmil]; exact hfree
      exact State.after_reply hport hadmits rfl (by decide) rfl hstill rfl rfl (hclock.trans htime)
    case canFetch =>
      have htarget : s.targetOk c = true := by simp [State.targetOk, hrsv, hscope, hpresent]
      have hdown : r.ownerDown c = false := by
        rw [State.refresh_ownerDown, State.ownerDown, State.targetHalf, hscope]
        exact hup
      have hentry : r.hostEntry c.ix (c.word 0) = true := (s.refresh_hostEntry ..).trans (decide_eq_true ⟨hlow, hhigh⟩)
      have hadmits : s.admits opCanFetch c = true :=
        State.admits_of_target hhears hlen hfree (by rw [hscope]; decide) (by rw [hscope]; rfl) htarget rfl hdown (.inr hopen)
          (State.opCanFetch_check hwords hentry hone hmost)
      exact State.after_reply hport hadmits rfl (by decide) rfl hfree rfl rfl htime
    case faultRead =>
      have hscope7 : c.scope ≠ 7 := fun h => absurd hscope (by rw [h]; decide)
      have hin : opFaultRead.scopes.contains c.scope.toNat = true := by
        simp only [opFaultRead, List.contains_cons, List.contains_nil, Bool.or_false, Bool.or_eq_true, beq_iff_eq]
        omega
      have hadmits : s.admits opFaultRead c = true :=
        State.admits_of_target hhears hlen hfree hscope7 hin htarget rfl ((s.refresh_ownerDown ..).trans hup) (.inl rfl)
          (State.opFaultRead_check hwords hone hmost)
      exact State.after_reply hport hadmits rfl (by decide) rfl hfree rfl rfl htime

end Sys2Proof.Machine
end

section
/-!
PROOFS. O17, refuted. CAN_DISABLE writes the whole word of `CAN_CTRL`, as a read shows it with `EN` cleared: a field whose value does not fit its width
is reduced by that write. The statement takes every state, one with such a field too, and says what the controller does from the state before.
-/
namespace Sys2Proof.Machine

/-- A controller on the bus with a frame to send, whose one-bit field `CAN_CTRL.MON` holds 2. -/
def State.monitorOfTwo : State :=
  { State.tunnelWithFrame with regs := State.tunnelWithFrame.regs.set (F.CAN_CTRL_MON.key (canB 0)) 2 }

/-- The write of CAN_DISABLE is accepted, and in bus monitoring no frame of the controller's own is waiting to be sent. -/
theorem State.monitorOfTwo_open :
    State.monitorOfTwo.canPresent (0 : Fin 4).val = true ∧ State.monitorOfTwo.regionRun ((0 : Fin 4).val % 2 + 1) = true ∧
      State.monitorOfTwo.on (canB (0 : Fin 4)) F.CAN_CTRL_EN = true ∧
      State.monitorOfTwo.writeCheck (canB (0 : Fin 4).val) [State.mergeWord (State.monitorOfTwo.rdWord (canB (0 : Fin 4).val)) 1 0] = none ∧
      State.monitorOfTwo.txNext (0 : Fin 4).val = none := by
  decide +kernel

/-- The word that is written has `MON` 0, so the controller has a frame to send after all, and stays on the bus for it. -/
theorem State.monitorOfTwo_disabled_act : (State.monitorOfTwo.fieldWrite (canB (0 : Fin 4)) 1 0).get (canB (0 : Fin 4)) F.CAN_STAT_ACT = 1 := by
  decide +kernel

/-- Refutes O17: CAN_DISABLE of a controller that sends nothing need not take it off the bus when a field of `CAN_CTRL` is out of its format, since the
row writes that field back in its format. -/
theorem not_writeRows : ¬ Obligations.WriteRows := by
  intro h
  obtain ⟨hpresent, hrun, hon, hcheck, hnone⟩ := State.monitorOfTwo_open
  obtain ⟨-, -, -, -, -, -, -, -, -, -, -, hDisable, -⟩ := h.2 State.monitorOfTwo
  obtain ⟨t, hexec, -, hleaves, -⟩ := hDisable 0 hpresent hrun hon hcheck
  have ht : State.monitorOfTwo.fieldWrite (canB (0 : Fin 4)) 1 0 = t := Host.Outcome.next.inj hexec
  obtain ⟨hact, -⟩ := hleaves hnone
  rw [← ht, State.monitorOfTwo_disabled_act] at hact
  cases hact

end Sys2Proof.Machine
end

section
/-!
PROOFS. What no step takes back (R28, R102, R396): a row keeps it as `Keeps` has it, and a tick of an empty queue touches the chip time alone.
-/
namespace Sys2Proof.Machine

/-- Which commands wait is nothing that lasts. -/
theorem State.Lasts.of_withPending {s t : State} {l : List Instr} (h : ({ s with pending := l } : State).Lasts t) : s.Lasts t := { h with }

theorem State.Lasts.idle (s : State) : s.Lasts s.idle := by
  unfold State.idle
  split
  · exact { Lasts.refl s with }
  · exact .refl s

/-- Settles O6: with a command waiting, the step is that command's row, of which `Keeps` says that it takes back nothing that lasts; else it is a tick. -/
theorem stepKeepsLasting : Obligations.StepKeepsLasting := by
  intro s t h
  cases hp : s.pending with
  | nil =>
    rw [step_of_empty hp] at h
    exact Host.Outcome.next.inj h ▸ .idle s
  | cons i rest =>
    have hexec : exec i { s with pending := rest } = .next t := by rwa [step, hp] at h
    exact (Keeps.of_exec hexec).lasts.of_withPending

end Sys2Proof.Machine
end

section
/-!
PROOFS. While a commit or seal runs (R101): a second one and every CFG_STAGE fail their first check, and CFG_READ of the slot being written answers with
its words as they stand.
-/
namespace Sys2Proof.Machine

namespace State

variable {s : State} {c : Cmd} {j : Commit}

/-- The watchdog's refresh touches registers and Milliner alone (R80). -/
theorem refresh_rest (s : State) (tr : Transport) : { s.refresh tr with regs := s.regs, marks := s.marks, mil := s.mil } = s := by
  unfold refresh
  split
  · rfl
  · split
    · dsimp only
      split <;> rfl
    · rfl

theorem refresh_cfg (s : State) (tr : Transport) : (s.refresh tr).cfg = s.cfg := (congrArg State.cfg (s.refresh_rest tr) :)

theorem refresh_tabs (s : State) (tr : Transport) : (s.refresh tr).tabs = s.tabs := (congrArg State.tabs (s.refresh_rest tr) :)

/-! ### The first check of the commands that change the store -/

theorem commitShut_of_running (h : s.cfg.commit = some j) (sealing : Bool) : commitShut s sealing = true := by simp [commitShut, h]

theorem opCfgCommit_check_of_running (h : s.cfg.commit = some j) : opCfgCommit.check s c = some (stState, 0) := by
  simp [opCfgCommit, firstBad, commitShut_of_running h]

theorem opCfgSeal_check_of_running (h : s.cfg.commit = some j) : opCfgSeal.check s c = some (stState, 0) := by
  simp [opCfgSeal, firstBad, commitShut_of_running h]

theorem opCfgStage_check_of_running (h : s.cfg.commit = some j) : opCfgStage.check s c = some (stState, 0) := by
  simp [opCfgStage, h]

/-- A command of the chip whose own check fails with STATE is answered so, in the restricted phase as after it. -/
theorem firstFail_of_stState {op : OpSpec} (hscope : c.scope = 0) (htarget : s.targetOk c = true) (hfree : s.tagBusy c.tag.toNat = false)
    (hin : op.scopes.contains 0 = true) (habsent : op.absent s c = false) (hdown : op.down s c = false) (hcheck : op.check s c = some (stState, 0)) :
    s.firstFail op c = some (stState, 0) := by
  have hin' : op.scopes.contains c.scope.toNat = true := by rw [hscope]; exact hin
  simp only [firstFail, hfree, hin', htarget, habsent, hdown, hcheck, Bool.not_true, Bool.or_self, Bool.false_eq_true, if_false]
  exact ite_self _

theorem exec_of_firstFail {op : OpSpec} {i : Instr} (hrow : exec i s = .next (s.deliver op c)) (hhears : s.hears c.tr = true) (hlen : c.len ≤ 255)
    (hscope : c.scope = 0) {st d : Nat} (hfail : (s.refresh c.tr).firstFail op c = some (st, d)) :
    exec i s = .next ((s.refresh c.tr).refuse c op.code st d) := by
  have hlocal : c.scope ≠ 7 := by rw [hscope]; decide
  rw [hrow, deliver_of_hears hhears hlen, acceptOp_of_firstFail (.inl hlocal) hfail]

/-! ### The slot being written -/

/-- CFG_READ of the number that the slot not in force has reads the slot that a commit writes (R97, R98). -/
theorem cfgRead_run_target (h : c.word 0 = if s.on 0 F.CHIP_STATUS_CFG_VALID then 1 else 0) :
    opCfgRead.run s c = s.reply c 0x10 stOK 0 (imgWords (s.cfg.slots.toList.getD s.commitTarget []) (c.word 1) (c.word 2)) := by
  rw [cfgRead_run, h, commitTarget]
  cases s.on 0 F.CHIP_STATUS_CFG_VALID <;> simp

end State

/-- Settles O19: whatever the phase, the commands that change the store fail on the commit that runs; the slot that CFG_READ names is the commit's
target. -/
theorem commitRunning : Obligations.CommitRunning := by
  intro c s j hj hhears hlen r
  have hrun : r.cfg.commit = some j := by rw [← hj]; exact congrArg CfgStore.commit (s.refresh_cfg c.tr)
  refine ⟨fun p hp hscope htarget hfree => ?_, fun hword htarget => ?_⟩
  · have hdown : r.ownerDown c = false := State.ownerDown_of_chip hscope
    simp only [List.mem_cons, List.not_mem_nil, or_false] at hp
    rcases hp with rfl | rfl | rfl
    · exact State.exec_of_firstFail rfl hhears hlen hscope
        (State.firstFail_of_stState hscope htarget hfree rfl rfl hdown (State.opCfgCommit_check_of_running hrun))
    · exact State.exec_of_firstFail rfl hhears hlen hscope
        (State.firstFail_of_stState hscope htarget hfree rfl rfl hdown (State.opCfgSeal_check_of_running hrun))
    · exact State.exec_of_firstFail rfl hhears hlen hscope
        (State.firstFail_of_stState hscope htarget hfree rfl rfl hdown (State.opCfgStage_check_of_running hrun))
  · rw [htarget]
    exact State.does_of_run rfl (by decide) (State.cfgRead_run_target hword)

end Sys2Proof.Machine
end

section
/-!
PROOFS. The work that answers a command whose packets wait for earlier ones (R76): Milliner's state alone, and no tag becomes busy.
-/
namespace Sys2Proof.Machine

namespace MilWork

variable {s0 s t : State}

theorem cfg (h : MilWork s t) : t.cfg = s.cfg := (congrArg State.cfg h.rest :).symm
theorem tabs (h : MilWork s t) : t.tabs = s.tabs := (congrArg State.tabs h.rest :).symm

theorem of_replied (h : Replied s t) : MilWork s t := ⟨h.rest⟩

theorem completeB {b : Busy} {st d : Nat} {pay : List Nat} (h : MilWork s0 s) : MilWork s0 (s.completeB b st d pay) := answer (freeTag h)

theorem sendLate {b : Busy} {ps : List Packet} (h : MilWork s0 s) : MilWork s0 (s.sendLate b ps) := foldl (freeTag h) fun _ _ h => answer h

theorem release {f i : Nat} (h : MilWork s0 s) : MilWork s0 (State.release f s i) := by
  induction f generalizing s with
  | zero => exact h
  | succ f ih =>
    unfold State.release
    split
    · split
      · exact h
      · exact ih (sendLate h)
    · exact h

theorem orderedAnswer {b : Busy} {ps : List Packet} (h : MilWork s0 s) : MilWork s0 (s.orderedAnswer b ps) := by
  unfold State.orderedAnswer
  split
  · exact sendLate h
  · split
    · exact withMil h
    · exact release (sendLate h)

end MilWork

namespace Calm

variable {s0 s : State}

theorem sendLate {b : Busy} {ps : List Packet} (h : Calm s0 s) : Calm s0 (s.sendLate b ps) := foldl (freeTag h) fun _ _ h => answer h

theorem release {f i : Nat} (h : Calm s0 s) : Calm s0 (State.release f s i) := by
  induction f generalizing s with
  | zero => exact h
  | succ f ih =>
    unfold State.release
    split
    · split
      · exact h
      · exact ih (sendLate h)
    · exact h

end Calm

namespace State

variable {s : State} {b : Busy}

/-- Packets that go out leave the tag free. -/
theorem sendLate_tagBusy (s : State) (b : Busy) (ps : List Packet) : (s.sendLate b ps).tagBusy b.tag = false :=
  (Calm.foldl (.refl (s.freeTag b.tag)) fun _ _ h => Calm.answer h).tags b.tag (s.freeTag_tagBusy b.tag)

/-- A command that no earlier one to the same loop engine holds back is answered at once, and its tag is free. -/
theorem orderedAnswer_tagBusy {ps : List Packet}
    (h : b.scope ≠ 6 ∨ ((s.mil.busy.takeWhile (·.tag != b.tag)).any fun e => e.scope == 6 && e.index == b.index && e.fwd == none) = false) :
    (s.orderedAnswer b ps).tagBusy b.tag = false := by
  unfold orderedAnswer
  split
  · exact s.sendLate_tagBusy b ps
  · next hscope =>
    rw [h.resolve_left hscope, if_neg Bool.false_ne_true]
    exact (Calm.release (.refl (s.sendLate b ps))).tags b.tag (s.sendLate_tagBusy b ps)

/-- The commands accepted before one are those that were busy. -/
theorem takeWhile_occupy_any (s : State) (c : Cmd) (op arg : Nat) (p : Busy → Bool) (h : s.mil.busy.any p = false) :
    (((s.occupy c op arg).mil.busy.takeWhile (·.tag != c.tag.toNat)).any p) = false := by
  rw [List.any_eq_false] at h ⊢
  intro e he
  have hne : (e.tag != c.tag.toNat) = true := List.mem_takeWhile_imp (p := fun x : Busy => x.tag != c.tag.toNat) he
  have hin : e ∈ s.mil.busy ++ [occupied c op arg] := (List.takeWhile_sublist _).subset he
  refine h e ((List.mem_append.mp hin).resolve_right fun hown => ?_)
  rw [List.mem_singleton.mp hown] at hne
  simp [occupied] at hne

end State

end Sys2Proof.Machine
end

section
/-!
PROOFS. Words written in a row into an image or a table (R89, R94): what each of them reads, and what every other word reads.
-/
namespace Sys2Proof.Machine

/-- Numbers made of consecutive words `ws` and of their keys, at the keys from `k` on. -/
def Sparse.setRun (v : Nat → Nat → Int) (m : Sparse) (k : Nat) : List Nat → Sparse
  | [] => m
  | w :: ws => (m.set k (v k w)).setRun v (k + 1) ws

theorem Sparse.get_setRun_outside {v : Nat → Nat → Int} {ws : List Nat} {k x : Nat} (m : Sparse) (h : x < k ∨ k + ws.length ≤ x) :
    (m.setRun v k ws).get x = m.get x := by
  induction ws generalizing m k with
  | nil => rfl
  | cons w ws ih =>
    rw [List.length_cons] at h
    rw [setRun, ih _ (by omega), Sparse.get_set_ne _ _ (by omega)]

theorem Sparse.get_setRun {v : Nat → Nat → Int} {ws : List Nat} {i : Nat} (m : Sparse) (k : Nat) (h : i < ws.length) :
    (m.setRun v k ws).get (k + i) = v (k + i) (ws.getD i 0) := by
  induction ws generalizing m k i with
  | nil => cases h
  | cons w ws ih =>
    cases i with
    | zero => rw [setRun, Sparse.get_setRun_outside _ (by omega), Nat.add_zero, Sparse.get_set_same, List.getD_cons_zero]
    | succ i =>
      have hkey : k + (i + 1) = k + 1 + i := by omega
      rw [setRun, hkey, ih _ _ (Nat.lt_of_succ_lt_succ h), List.getD_cons_succ]

/-! ### Images -/

/-- The number that a word of an image is kept as. -/
def imgWord (_ w : Nat) : Int := (w % 2 ^ 32 : Nat)

theorem imgPut_eq_setRun (m : Sparse) (off : Nat) (ws : List Nat) : imgPut m off ws = m.setRun imgWord (off / 4) ws := by
  induction ws generalizing m off with
  | nil => rfl
  | cons w ws ih =>
    rw [imgPut, ih, Nat.add_div_right off (by decide)]
    rfl

theorem imgGet_imgPut {off i : Nat} {ws : List Nat} (m : Sparse) (hoff : off % 4 = 0) (hi : i < ws.length) :
    imgGet (imgPut m off ws) (off + 4 * i) = ws.getD i 0 % 2 ^ 32 := by
  have hkey : (off + 4 * i) / 4 = off / 4 + i := by omega
  rw [imgGet, hkey, imgPut_eq_setRun, Sparse.get_setRun _ _ hi, imgWord, Int.toNat_natCast]

theorem imgGet_imgPut_outside {off o : Nat} {ws : List Nat} (m : Sparse) (h : o / 4 < off / 4 ∨ off / 4 + ws.length ≤ o / 4) :
    imgGet (imgPut m off ws) o = imgGet m o := by
  rw [imgGet, imgPut_eq_setRun, Sparse.get_setRun_outside _ h, imgGet]

/-! ### Tables in force -/

/-- The number that a word of a table in force is kept as. -/
def tableWord (k w : Nat) : Int := (w % 2 ^ 32 : Nat) - defTab k

namespace State

variable {s : State}

theorem putTable_eq (s : State) (off : Nat) (ws : List Nat) : s.putTable off ws = { s with tabs := s.tabs.setRun tableWord (off / 4) ws } := by
  induction ws generalizing s off with
  | nil => rfl
  | cons w ws ih =>
    rw [putTable, ih, Nat.add_div_right off (by decide)]
    rfl

theorem putTable_tabWord {off i : Nat} {ws : List Nat} (s : State) (hoff : off % 4 = 0) (hi : i < ws.length) :
    (s.putTable off ws).tabWord (off + 4 * i) = ws.getD i 0 % 2 ^ 32 := by
  have hkey : (off + 4 * i) / 4 = off / 4 + i := by omega
  rw [tabWord, hkey, putTable_eq, Sparse.get_setRun _ _ hi, tableWord, add_sub_cancel, Int.toNat_natCast]

theorem putTable_tabWord_outside {off o : Nat} {ws : List Nat} (s : State) (h : o / 4 < off / 4 ∨ off / 4 + ws.length ≤ o / 4) :
    (s.putTable off ws).tabWord o = s.tabWord o := by
  rw [tabWord, putTable_eq, Sparse.get_setRun_outside _ h, tabWord]

end State

/-! ### The words of a payload -/

theorem length_wordsFrom (c : Cmd) (i : Nat) : (c.wordsFrom i).length = c.len - i := by simp [Cmd.wordsFrom, Cmd.len]

theorem getD_wordsFrom (c : Cmd) (i j : Nat) : (c.wordsFrom i).getD j 0 = c.word (i + j) := by
  rw [Cmd.word, Cmd.wordsFrom, List.getD_eq_getElem?_getD, List.getD_eq_getElem?_getD, List.getElem?_map, List.getElem?_drop]
  cases c.payload[i + j]? <;> rfl

theorem word_mod (c : Cmd) (i : Nat) : c.word i % 2 ^ 32 = c.word i := Nat.mod_eq_of_lt (BitVec.isLt _)

end Sys2Proof.Machine
end

section
/-!
PROOFS. CFG_STAGE and TABLE_LOAD (R89, R94): the words land where the payload names them, and the answer touches Milliner's state alone.
-/
namespace Sys2Proof.Machine

namespace State

variable {s : State} {c : Cmd} {kind inst : Nat} {b : TableAt}

/-! ### CFG_STAGE -/

theorem opCfgStage_aligned (h : opCfgStage.check s c = none) : c.word 0 % 4 = 0 := by
  simp only [opCfgStage] at h
  split at h
  · cases h
  · split at h
    · cases h
    · next hform => omega

/-- The words of the payload in the staging area, before the answer. -/
def staged (s : State) (c : Cmd) : State := s.stageWords (c.word 0) (c.wordsFrom 1)

theorem cfgStage_run (s : State) (c : Cmd) : opCfgStage.run s c = (s.staged c).reply c 0x11 stOK 0 [] := rfl

theorem staged_get {k : Nat} (s : State) (hoff : c.word 0 % 4 = 0) (hk : k + 1 < c.len) :
    imgGet (s.staged c).cfg.staging (c.word 0 + 4 * k) = c.word (k + 1) := by
  have hin : k < (c.wordsFrom 1).length := by rw [length_wordsFrom]; omega
  rw [staged, stageWords, withCfg_cfg, imgGet_imgPut _ hoff hin, getD_wordsFrom, word_mod, Nat.add_comm]

theorem staged_get_outside {o : Nat} (s : State) (hoff : c.word 0 % 4 = 0) (ho : o % 4 = 0) (h : o < c.word 0 ∨ c.word 0 + 4 * (c.len - 1) ≤ o) :
    imgGet (s.staged c).cfg.staging o = imgGet s.cfg.staging o :=
  imgGet_imgPut_outside _ (by rw [length_wordsFrom]; omega)

/-! ### TABLE_LOAD -/

theorem aligned_of_ite {p : Prop} [Decidable p] {t : TableAt} (ht : t.off % 4 = 0) (h : (if p then some t else none) = some b) : b.off % 4 = 0 := by
  split at h
  · cases h
    exact ht
  · cases h

/-- Every table begins at a word (Table CF-4). -/
theorem tableOf_aligned {unit : Nat} (h : tableOf kind unit inst = some b) : b.off % 4 = 0 := by
  unfold tableOf at h
  split at h
  iterate 6 exact aligned_of_ite (by dsimp only; omega) h
  · cases h

theorem loadTable_aligned (h : loadTable c = some (kind, inst, b)) : b.off % 4 = 0 := by
  unfold loadTable at h
  dsimp only at h
  split at h
  · obtain ⟨t, ht, he⟩ := Option.map_eq_some_iff.mp h
    cases he
    exact tableOf_aligned ht
  · cases h

/-- What each step of a repetition keeps, the repetition keeps. -/
theorem each_keeps {α : Type} {P : State → Prop} {l : List α} {g : α → State → State} (h : P s) (hg : ∀ a s, P s → P (g a s)) :
    P (s.each l g) := by
  induction l generalizing s with
  | nil => exact h
  | cons a r ih => exact ih (hg a s h)

/-- `t` is `s` but for what running chopper cycles still have of the tables (R315). -/
def HeldOnly (s t : State) : Prop := ∃ l, t = { s with axOld := l }

theorem axHold_heldOnly (s : State) (n off k : Nat) : s.HeldOnly (s.axHold n off k) := by
  have hsame : s.HeldOnly s := ⟨s.axOld, rfl⟩
  unfold axHold
  split
  · exact hsame
  · refine each_keeps (P := s.HeldOnly) hsame fun i t ht => each_keeps (P := s.HeldOnly) ht fun coil u hu => ?_
    split
    · exact hu
    · obtain ⟨l, rfl⟩ := hu
      exact ⟨_, rfl⟩

/-- The place of the first word of a TABLE_LOAD. -/
def loadOff (c : Cmd) (b : TableAt) : Nat := b.off + 4 * c.word 1

/-- The words of the payload in the table in force and in the staging area, before the answer. -/
def tableLoaded (s : State) (c : Cmd) (kind : Nat) (b : TableAt) : State :=
  ((if kind = 4 then s.axHold c.ix (loadOff c b) (c.len - 2) else s).putTable (loadOff c b) (c.wordsFrom 2)).stageWords (loadOff c b) (c.wordsFrom 2)

theorem tableLoad_run (h : loadTable c = some (kind, inst, b)) :
    opTableLoad.run s c = ((s.tableLoaded c kind b).occupy c 0x14 0).orderedAnswer (occupied c 0x14 0)
      [(occupied c 0x14 0).packet 1 stAccepted 0 [], (occupied c 0x14 0).packet 2 stOK 0 [c.len - 2]] := by
  simp only [opTableLoad, h]
  rfl

/-- A TABLE_LOAD changes the tables in force and the staging area, and holds what running chopper cycles still have. -/
theorem tableLoaded_heldOnly (s : State) (c : Cmd) (kind : Nat) (b : TableAt) :
    ((s.putTable (loadOff c b) (c.wordsFrom 2)).stageWords (loadOff c b) (c.wordsFrom 2)).HeldOnly (s.tableLoaded c kind b) := by
  have hheld : s.HeldOnly (if kind = 4 then s.axHold c.ix (loadOff c b) (c.len - 2) else s) := by
    split
    · exact axHold_heldOnly ..
    · exact ⟨s.axOld, rfl⟩
  obtain ⟨l, hl⟩ := hheld
  exact ⟨l, by rw [tableLoaded, hl, putTable_eq, putTable_eq]; rfl⟩

variable (s)

theorem tableLoaded_regs : (s.tableLoaded c kind b).regs = s.regs := by
  obtain ⟨l, hl⟩ := s.tableLoaded_heldOnly c kind b
  rw [hl, putTable_eq]
  rfl

theorem tableLoaded_mil : (s.tableLoaded c kind b).mil = s.mil := by
  obtain ⟨l, hl⟩ := s.tableLoaded_heldOnly c kind b
  rw [hl, putTable_eq]
  rfl

theorem tableLoaded_tabs : (s.tableLoaded c kind b).tabs = (s.putTable (loadOff c b) (c.wordsFrom 2)).tabs := by
  obtain ⟨l, hl⟩ := s.tableLoaded_heldOnly c kind b
  rw [hl]
  rfl

theorem tableLoaded_staging : (s.tableLoaded c kind b).cfg.staging = imgPut s.cfg.staging (loadOff c b) (c.wordsFrom 2) := by
  obtain ⟨l, hl⟩ := s.tableLoaded_heldOnly c kind b
  rw [hl, putTable_eq]
  rfl

theorem tableLoaded_tabWord {i : Nat} (hoff : b.off % 4 = 0) (hi : i + 2 < c.len) :
    (s.tableLoaded c kind b).tabWord (b.off + 4 * (c.word 1 + i)) = c.word (i + 2) := by
  have hat : b.off + 4 * (c.word 1 + i) = loadOff c b + 4 * i := by rw [loadOff]; omega
  have hin : i < (c.wordsFrom 2).length := by rw [length_wordsFrom]; omega
  have hput := s.putTable_tabWord (off := loadOff c b) (by rw [loadOff]; omega) hin
  rw [tabWord, tableLoaded_tabs, hat]
  exact hput.trans (by rw [getD_wordsFrom, word_mod, Nat.add_comm])

theorem tableLoaded_get {i : Nat} (hoff : b.off % 4 = 0) (hi : i + 2 < c.len) :
    imgGet (s.tableLoaded c kind b).cfg.staging (b.off + 4 * (c.word 1 + i)) = c.word (i + 2) := by
  have hat : b.off + 4 * (c.word 1 + i) = loadOff c b + 4 * i := by rw [loadOff]; omega
  have hin : i < (c.wordsFrom 2).length := by rw [length_wordsFrom]; omega
  rw [tableLoaded_staging, hat, imgGet_imgPut _ (by rw [loadOff]; omega) hin, getD_wordsFrom, word_mod, Nat.add_comm]

theorem tableLoaded_tabWord_outside {o : Nat} (hoff : b.off % 4 = 0) (ho : o % 4 = 0)
    (h : o < b.off + 4 * c.word 1 ∨ b.off + 4 * (c.word 1 + (c.len - 2)) ≤ o) : (s.tableLoaded c kind b).tabWord o = s.tabWord o := by
  rw [tabWord, tableLoaded_tabs]
  exact s.putTable_tabWord_outside (by rw [length_wordsFrom, loadOff]; omega)

/-- The answer of a TABLE_LOAD touches Milliner alone. -/
theorem tableLoad_milWork (h : loadTable c = some (kind, inst, b)) : MilWork (s.tableLoaded c kind b) ((opTableLoad.run s c).snapped c 0x14) := by
  rw [tableLoad_run h]
  exact (MilWork.orderedAnswer (.withMil (.refl _))).trans (.of_replied (snapped_replied ..))

/-- The tag of a TABLE_LOAD is free at once, unless an earlier command to the same loop engine is at work (R76). -/
theorem tableLoad_tagBusy (h : loadTable c = some (kind, inst, b))
    (hfirst : c.scope ≠ 6 ∨ (s.mil.busy.any fun e => e.scope == 6 && e.index == c.ix && e.fwd == none) = false) :
    ((opTableLoad.run s c).snapped c 0x14).tagBusy c.tag.toNat = false := by
  rw [(snapped_replied ..).tagBusy, tableLoad_run h]
  refine orderedAnswer_tagBusy (hfirst.imp (fun hscope he => hscope (BitVec.eq_of_toNat_eq he)) fun hnone => ?_)
  refine takeWhile_occupy_any _ c 0x14 0 (fun e => e.scope == 6 && e.index == c.ix && e.fwd == none) ?_
  rw [tableLoaded_mil]
  exact hnone

end State

/-- Settles O20: the words are written at consecutive keys, and what answers a command touches Milliner's state alone. -/
theorem stagedAndLoadedWords : Obligations.StagedAndLoadedWords := by
  refine ⟨fun c s h => ?stage, fun c s kind inst b h hload => ?load⟩
  case stage =>
    refine ⟨_, congrArg Host.Outcome.next (State.deliver_of_admits h (by decide)), ?_⟩
    obtain ⟨-, -, -, -, -, -, -, -, -, hcheck⟩ := State.admits_iff.mp h
    have hoff : c.word 0 % 4 = 0 := State.opCfgStage_aligned hcheck
    have hreply := State.reply_replied (State.tr_of_admits h) ((s.refresh c.tr).staged c) 0x11 stOK 0 []
    have hwork := MilWork.of_replied (hreply.trans (State.snapped_replied _ c opCfgStage.code))
    rw [State.cfgStage_run, hwork.cfg, hwork.regs, hwork.tabs, ← s.refresh_cfg c.tr, ← s.refresh_tabs c.tr]
    exact ⟨fun _ hk => State.staged_get _ hoff hk, fun _ ho hout => State.staged_get_outside _ hoff ho hout, rfl, rfl, rfl, rfl⟩
  case load =>
    refine ⟨_, congrArg Host.Outcome.next (State.deliver_of_admits h (by decide)), ?_⟩
    have hoff := State.loadTable_aligned hload
    have hwork : MilWork _ ((opTableLoad.run (s.refresh c.tr) c).snapped c opTableLoad.code) := (s.refresh c.tr).tableLoad_milWork hload
    have hfree := (s.refresh c.tr).tableLoad_tagBusy hload
    beta_reduce
    rw [hwork.regs, hwork.cfg]
    simp only [State.tabWord, hwork.tabs]
    refine ⟨fun k hk => ⟨State.tableLoaded_tabWord _ hoff hk, State.tableLoaded_get _ hoff hk⟩, fun o ho hout => ?_, State.tableLoaded_regs _, hfree⟩
    rw [← s.refresh_tabs c.tr]
    exact State.tableLoaded_tabWord_outside _ hoff ho hout

end Sys2Proof.Machine
end

section
/-!
PROOFS. What leaves the configuration store alone: packets and triggers, fault lists, the stages of the recorder, and a block's failure.
-/
namespace Sys2Proof.Machine

/-- `t` comes from `s` with the configuration store as it was. -/
structure SameCfg (s t : State) : Prop where
  cfg : t.cfg = s.cfg

namespace SameCfg

variable {s0 s t : State}

theorem refl (s : State) : SameCfg s s := ⟨rfl⟩
theorem trans {u : State} (h : SameCfg s t) (k : SameCfg t u) : SameCfg s u := ⟨k.cfg.trans h.cfg⟩
theorem regWork (h : SameCfg s0 s) (k : RegWork s t) : SameCfg s0 t := h.trans ⟨k.cfg⟩
theorem milWork (h : SameCfg s0 s) (k : MilWork s t) : SameCfg s0 t := h.trans ⟨k.cfg⟩

theorem ite {c : Prop} [Decidable c] {a b : State} (ha : SameCfg s0 a) (hb : SameCfg s0 b) : SameCfg s0 (if c then a else b) := by
  split <;> assumption

theorem each {α : Type} {l : List α} {g : α → State → State} (h : SameCfg s0 s) (hg : ∀ a s, SameCfg s0 s → SameCfg s0 (g a s)) :
    SameCfg s0 (s.each l g) := State.each_keeps (P := SameCfg s0) h hg

theorem put {b : Nat} {f : Fld} {v : Int} (h : SameCfg s0 s) : SameCfg s0 (s.put b f v) := regWork h (.put (.refl s))
theorem flag {b : Nat} {f : Fld} {v : Bool} (h : SameCfg s0 s) : SameCfg s0 (s.flag b f v) := put h
theorem bump {b : Nat} {f : Fld} (h : SameCfg s0 s) : SameCfg s0 (s.bump b f) := regWork h (.bump (.refl s))
theorem setBit {b : Nat} {f : Fld} {i : Nat} {v : Bool} (h : SameCfg s0 s) : SameCfg s0 (s.setBit b f i v) := regWork h (.setBit (.refl s))
theorem withLog {g : Recorder → Recorder} (h : SameCfg s0 s) : SameCfg s0 (s.withLog g) := h.trans ⟨rfl⟩
theorem withFlt {g : Faults → Faults} (h : SameCfg s0 s) : SameCfg s0 (s.withFlt g) := h.trans ⟨rfl⟩
theorem completeB {b : Busy} {st d : Nat} {pay : List Nat} (h : SameCfg s0 s) : SameCfg s0 (s.completeB b st d pay) :=
  milWork h (.completeB (.refl s))

/-! Notices, triggers and faults -/

theorem notice {ty : Nat} {body : List Nat} (h : SameCfg s0 s) : SameCfg s0 (s.notice ty body) :=
  h.trans ⟨(State.notice_told (List.Subset.refl _) s ty body).cfg⟩

theorem loseTrig {k : Nat} (h : SameCfg s0 s) : SameCfg s0 (s.loseTrig k) := h.trans ⟨rfl⟩

theorem fifoEnter {t r code q : Nat} {data : List Nat} (h : SameCfg s0 s) : SameCfg s0 (s.fifoEnter t r code q data) :=
  ite (loseTrig h) (ite (withLog h) (ite (loseTrig h) (withLog h)))

theorem trigger {r t code : Nat} {data : List Nat} (h : SameCfg s0 s) : SameCfg s0 (s.trigger r t code data) := by
  unfold State.trigger
  split
  · exact h
  · extract_lets q s1 k s2
    have h1 : SameCfg s0 s1 := withLog h
    have h2 : SameCfg s0 s2 := ite h1 (loseTrig h1)
    exact ite (fifoEnter h1) (ite (loseTrig h1) (ite (fifoEnter (withLog h2)) (withLog h1)))

theorem enterList {u : FUnit} {code : Nat} (h : SameCfg s0 s) : SameCfg s0 (s.enterList u code) :=
  ite (withFlt h) (ite (withFlt h) (notice (withFlt h)))

theorem raise {u : FUnit} {code : Nat} {data : List Nat} (h : SameCfg s0 s) : SameCfg s0 (s.raise u code data) :=
  ite (enterList h) (trigger (enterList h))

/-! A block's failure -/

theorem setSteam {b : Block} {v : Bool} (h : SameCfg s0 s) : SameCfg s0 (s.setSteam b v) := by
  unfold State.setSteam
  dsimp only
  split
  · exact flag (setBit h)
  · exact setBit h

theorem testNext {b : Block} {pass : Bool} {x : SelfTest} (h : SameCfg s0 s) : SameCfg s0 (s.testNext b pass x) := by
  unfold State.testNext
  split
  · exact h
  · dsimp only
    split
    · exact setSteam (withFlt h)
    · exact each (withFlt h) fun _ _ h => completeB h

theorem blockOut {b : Block} {code : Nat} (h : SameCfg s0 s) : SameCfg s0 (s.blockOut b code) := by
  unfold State.blockOut
  extract_lets s1 s2 s3
  have h1 : SameCfg s0 s1 := setBit h
  have h2 : SameCfg s0 s2 := ite (raise h1) h1
  have h3 : SameCfg s0 s3 := trigger (bump (withFlt (withFlt (setSteam h2))))
  exact ite h (ite (each h3 fun _ _ h => testNext h) (withFlt (setSteam h2)))

theorem blockFail {b : Block} {code : Nat} (h : SameCfg s0 s) : SameCfg s0 (s.blockFail b code) := blockOut (raise h)

/-! The stages of the recorder -/

theorem stageTrig {x : Trig} (h : SameCfg s0 s) : SameCfg s0 (s.stageTrig x) := ite (withLog h) (ite (bump (withLog h)) (withLog h))

theorem recPop (h : SameCfg s0 s) : SameCfg s0 s.recPop := by
  unfold State.recPop
  split
  · exact h
  · exact stageTrig (withLog h)

theorem recCapture (h : SameCfg s0 s) : SameCfg s0 s.recCapture := ite h (recPop h)

theorem recWrite (h : SameCfg s0 s) : SameCfg s0 s.recWrite := by
  unfold State.recWrite
  split
  · exact h
  · split
    · exact h
    · exact ite (withLog (withLog h)) (ite h (withLog (withLog h)))

theorem recAdvance (h : SameCfg s0 s) : SameCfg s0 s.recAdvance := recWrite (each h fun _ _ h => recCapture h)
theorem recDrain (h : SameCfg s0 s) : SameCfg s0 s.recDrain := each h fun _ _ h => recAdvance h

theorem feltRecord {t : Nat} {data : List Nat} (h : SameCfg s0 s) : SameCfg s0 (s.feltRecord t data) := recDrain (trigger (withLog (recDrain h)))

end SameCfg

end Sys2Proof.Machine
end

section
/-!
PROOFS. CFG_COMMIT, CFG_SEAL and COMMIT_FINISH (R98, R99, R102): what a commit captures as it begins, and how it ends.
-/
namespace Sys2Proof.Machine

namespace State

variable {s : State} {c : Cmd} {j : Commit}

/-! ### The beginning of a commit -/

/-- What an accepted commit or seal captures. -/
def commitJob (s : State) (sealing : Bool) (tag : Nat) : Commit :=
  { image := s.cfg.staging, target := s.commitTarget, sealing := sealing, tag := tag,
    seq := if s.on 0 F.CHIP_STATUS_CFG_VALID then s.nat 0 F.CFG_SEQ_SEQ + 1 else 1, keyed := sealing || s.commitKey, felt := s.commitFelt sealing }

/-- Beside the commit, its beginning changes a slot's words, a reservation and a level. -/
theorem commitBegin_keeps (s : State) (sealing : Bool) (tag : Nat) : (s.commitBegin sealing tag).mil = s.mil ∧
    (s.commitBegin sealing tag).cfg.commit = some (s.commitJob sealing tag) ∧ (s.commitBegin sealing tag).cfg.sealMark = s.cfg.sealMark := by
  unfold commitBegin
  extract_lets k seq felt job s1 s2
  have hcaptured : s2.mil = s.mil ∧ s2.cfg.commit = some (s.commitJob sealing tag) ∧ s2.cfg.sealMark = s.cfg.sealMark := by
    dsimp only [s2]
    split <;> exact ⟨rfl, rfl, rfl⟩
  clear_value s2
  split
  · exact hcaptured
  · exact hcaptured

theorem begin_milWork (s : State) (c : Cmd) (op : Nat) : MilWork s (s.begin c op) := .answer (.withMil (.refl s))

theorem begin_tagBusy (h : ∀ o, c.tr ≠ .own o) (s : State) (op : Nat) : (s.begin c op).tagBusy c.tag.toNat = true :=
  (reply_replied h (s.occupy c op 0) op 1 0 []).tagBusy _ |>.trans (s.occupy_tagBusy c op 0)

/-- ACCEPTED changes nothing that a commit captures. -/
theorem begin_commitTarget (s : State) (c : Cmd) (op : Nat) : (s.begin c op).commitTarget = s.commitTarget := by
  rw [commitTarget, commitTarget, on, on, nat, nat, (s.begin_milWork c op).get, (s.begin_milWork c op).get]

/-- An accepted commit or seal once its snapshot is taken: its tag is busy, and the staging area of before is captured. -/
theorem begun_keeps (h : ∀ o, c.tr ≠ .own o) (s : State) (op : Nat) (sealing : Bool) :
    let t := ((s.begin c op).commitBegin sealing c.tag.toNat).snapped c op
    t.tagBusy c.tag.toNat = true ∧ t.cfg.commit = some ((s.begin c op).commitJob sealing c.tag.toNat) ∧ t.cfg.sealMark = s.cfg.sealMark := by
  intro t
  obtain ⟨hmil, hcommit, hseal⟩ := (s.begin c op).commitBegin_keeps sealing c.tag.toNat
  have hsnap : Replied _ t := snapped_replied ..
  refine ⟨?_, ?_, ?_⟩
  · rw [hsnap.tagBusy, tagBusy, hmil]
    exact begin_tagBusy h s op
  · rw [(MilWork.of_replied hsnap).cfg, hcommit]
  · rw [(MilWork.of_replied hsnap).cfg, hseal, (s.begin_milWork c op).cfg]

/-- A list of checks that none fails: none of them is bad. -/
theorem firstBad_none {l : List (Bool × Nat)} (h : firstBad l = none) : ∀ x ∈ l, x.1 = false := by
  induction l with
  | nil => simp
  | cons x l ih =>
    obtain ⟨bad, st⟩ := x
    cases bad with
    | true => cases h
    | false => exact List.forall_mem_cons.mpr ⟨rfl, ih h⟩

/-- A seal is accepted while nothing is sealed (R102). -/
theorem opCfgSeal_open (h : opCfgSeal.check s c = none) : s.cfg.sealMark = false :=
  firstBad_none h (s.cfg.sealMark, stSealed) (by simp)

/-! ### The end of a commit -/

theorem commitEnd_cfg (s : State) (st d : Nat) : (s.commitEnd st d).cfg = { s.cfg with commit := none } :=
  (commitEnd_told (List.Subset.refl _) s st d).cfg

/-- The `SEAL_SEQ` of the image that a commit writes: a seal's own number, or that of the copy in force. -/
def newSealSeq (s : State) (j : Commit) : Nat := if j.sealing then j.seq else imgGet s.cfg.inForce 20

/-- The image that a commit writes: what it captured, with its own header (Table CF-3). -/
def newImage (s : State) (j : Commit) : Sparse :=
  withHeader j.image j.seq (s.nat 0 F.CHIP_ID_PART) (j.sealing || s.cfg.sealMark) (s.newSealSeq j)

/-- The seal mark and the felt record of a commit that passes. -/
def commitNoted (s : State) (j : Commit) : State :=
  if j.sealing then (s.withCfg fun c => { c with sealMark := true }).feltRecord 13 [j.seq, rangeCrc (s.newImage j) 0x40 0x1000]
  else if j.felt then
    s.feltRecord 12 [j.seq, changedWords s.cfg.inForce (s.newImage j) 0x1000 0x3000, rangeCrc s.cfg.inForce 0x1000 0x3000,
      rangeCrc (s.newImage j) 0x1000 0x3000]
  else s

/-- The new copy in force, in its slot. -/
def commitInstalled (s : State) (j : Commit) : State :=
  ((s.commitNoted j).putSlot j.target (s.newImage j)).withCfg fun c => { c with inForce := s.newImage j, commit := none }

/-- What the registers show of the new copy in force. -/
def commitShown (s : State) (j : Commit) : State :=
  (s.commitInstalled j).puts 0
    [(slotOkF j.target, 1), (slotOkF (1 - j.target), b2i ((s.commitInstalled j).slotGood ((s.commitInstalled j).cfg.slots.toList.getD (1 - j.target) []))),
     (F.CFG_STAT_SLOT, j.target), (F.CFG_STAT_DEFAULT, 0), (F.CFG_SEQ_SEQ, j.seq), (F.CFG_SEAL_SEQ_SEAL_SEQ, s.newSealSeq j),
     (F.CFG_STAT_WORN, b2i (decide (0x3B9ACA00 ≤ j.seq))), (F.CHIP_STATUS_CFG_VALID, 1)]

theorem commitFinish_of_fault {d : Nat} (hj : s.cfg.commit = some j) (h : s.commitFault j.image = some d) (ok : Bool) :
    s.commitFinish ok = s.commitEnd stBadParam d := by
  simp only [commitFinish, hj, h]

/-- A read-back that fails (R99). -/
theorem commitFinish_of_misread (hj : s.cfg.commit = some j) (h : s.commitFault j.image = none) :
    s.commitFinish false = ((s.putSlot j.target (imgSet (s.newImage j) 8 0)).commitEnd stFaulted 0).blockFail .cfg (fcode 2 0 0xD5) := by
  simp only [commitFinish, hj, h, Bool.not_false, if_true]
  rfl

/-- The felt record has to wait (log entry 104). -/
theorem commitFinish_of_waits (hj : s.cfg.commit = some j) (h : s.commitFault j.image = none) (hfelt : j.felt = true) (hwaits : s.feltWaits = true) :
    s.commitFinish true = s := by
  simp [commitFinish, hj, h, hfelt, hwaits]

theorem commitFinish_of_pass (hj : s.cfg.commit = some j) (h : s.commitFault j.image = none) (hwrites : (j.felt && s.feltWaits) = false) :
    MilWork (s.commitShown j) (s.commitFinish true) := by
  simp only [commitFinish, hj, h, hwrites, Bool.not_true, Bool.false_eq_true, if_false]
  exact each_keeps (P := MilWork (s.commitShown j)) (.refl _) fun _ _ h => .completeB h

/-! ### The copy in force after a commit -/

theorem commitNoted_cfg (s : State) (j : Commit) : (s.commitNoted j).cfg = { s.cfg with sealMark := s.cfg.sealMark || j.sealing } := by
  unfold commitNoted
  split
  · next hseal =>
    rw [(SameCfg.feltRecord (.refl _)).cfg, withCfg_cfg, hseal, Bool.or_true]
  · next hseal =>
    rw [Bool.eq_false_iff.mpr hseal, Bool.or_false]
    split
    · exact (SameCfg.feltRecord (.refl s)).cfg
    · rfl

theorem commitShown_cfg (s : State) (j : Commit) : (s.commitShown j).cfg =
    { s.cfg with slots := s.cfg.slots.setIfInBounds j.target (s.newImage j), inForce := s.newImage j, commit := none,
                 sealMark := s.cfg.sealMark || j.sealing } := by
  have hput : (s.commitShown j).cfg = (s.commitInstalled j).cfg := (RegWork.puts (.refl _)).cfg
  rw [hput, commitInstalled, withCfg_cfg, putSlot, withCfg_cfg, commitNoted_cfg]

theorem commitShown_valid (s : State) (j : Commit) : (s.commitShown j).on 0 F.CHIP_STATUS_CFG_VALID = true := by
  simp only [commitShown, puts_cons, puts_nil, on, get_put_same]
  decide

end State

/-! ### The header of an image (Table CF-3) -/

theorem imgGet_imgSet_ne {o off : Nat} (m : Sparse) (w : Nat) (h : off / 4 ≠ o / 4) : imgGet (imgSet m off w) o = imgGet m o := by
  rw [imgGet, imgSet, Sparse.get_set_ne _ _ h, imgGet]

theorem imgGet_withHeader_seq (m : Sparse) (seq part : Nat) (seald : Bool) (sealSeq : Nat) :
    imgGet (withHeader m seq part seald sealSeq) 8 = seq % 2 ^ 32 := by
  rw [withHeader, imgGet_imgSet_ne _ _ (by decide)]
  exact imgGet_imgPut (off := 0) (i := 2) m rfl (by simp)

/-- The header takes the first 16 words and no other. -/
theorem imgGet_withHeader_content {o : Nat} (m : Sparse) (seq part : Nat) (seald : Bool) (sealSeq : Nat) (h : 0x40 ≤ o) :
    imgGet (withHeader m seq part seald sealSeq) o = imgGet m o := by
  rw [withHeader, imgGet_imgSet_ne _ _ (by omega)]
  refine imgGet_imgPut_outside m (.inr ?_)
  simp only [List.length_append, List.length_cons, List.length_nil, List.length_replicate]
  omega

/-- Settles O21: a commit captures the staging area as it begins; it ends with its image in force unless a check, the read-back or the felt record
stands in its way. -/
theorem commitAndSeal : Obligations.CommitAndSeal := by
  refine ⟨fun c s => ⟨fun h => ?commit, fun h => ?sealing⟩, fun s j ok hj => ⟨fun d hd => ?fault, fun hpass hok => ?misread,
    fun hpass hok hfelt hwaits => ?waits, fun hpass hok hwrites htarget => ?pass⟩⟩
  case commit =>
    obtain ⟨hbusy, hcommit, -⟩ := State.begun_keeps (State.tr_of_admits h) (s.refresh c.tr) 0x12 false
    refine ⟨_, congrArg Host.Outcome.next (State.deliver_of_admits h (by decide)), hbusy, _, hcommit, ?_, rfl, rfl, State.begin_commitTarget ..⟩
    exact congrArg CfgStore.staging (((s.refresh c.tr).begin_milWork c 0x12).cfg.trans (s.refresh_cfg c.tr))
  case sealing =>
    obtain ⟨-, -, -, -, -, -, -, -, -, hcheck⟩ := State.admits_iff.mp h
    have hopen : (s.refresh c.tr).cfg.sealMark = false := State.opCfgSeal_open hcheck
    obtain ⟨hbusy, hcommit, hseal⟩ := State.begun_keeps (State.tr_of_admits h) (s.refresh c.tr) 0x13 true
    refine ⟨by rw [← s.refresh_cfg c.tr]; exact hopen, _, congrArg Host.Outcome.next (State.deliver_of_admits h (by decide)), hbusy, hseal.trans hopen, _,
      hcommit, ?_, rfl, rfl, rfl⟩
    exact congrArg CfgStore.staging (((s.refresh c.tr).begin_milWork c 0x13).cfg.trans (s.refresh_cfg c.tr))
  case fault => exact congrArg Host.Outcome.next (State.commitFinish_of_fault hj hd ok)
  case misread =>
    subst hok
    refine ⟨_, congrArg Host.Outcome.next (State.commitFinish_of_misread hj hpass), ?_⟩
    beta_reduce
    rw [(SameCfg.blockFail (.refl _)).cfg, State.commitEnd_cfg]
    exact ⟨rfl, rfl, rfl⟩
  case waits =>
    subst hok
    exact congrArg Host.Outcome.next (State.commitFinish_of_waits hj hpass hfelt hwaits)
  case pass =>
    subst hok
    have hpart : (j.felt && s.feltWaits) = false := by rcases hwrites with h | h <;> simp [h]
    have hwork := State.commitFinish_of_pass hj hpass hpart
    refine ⟨_, rfl, ?_⟩
    beta_reduce
    have hvalid : (s.commitFinish true).on 0 F.CHIP_STATUS_CFG_VALID = true := by rw [State.on, hwork.get]; exact s.commitShown_valid j
    rw [hwork.cfg, State.commitShown_cfg, hvalid]
    refine ⟨rfl, ?_, imgGet_withHeader_seq .., fun o ho => imgGet_withHeader_content _ _ _ _ _ ho, rfl, rfl⟩
    simp [Vector.toList_setIfInBounds, htarget]

end Sys2Proof.Machine
end

section
/-!
PROOFS. O39, refuted. A comparator's level is kept in a one-bit field and replaced where it differs from the level that comes (R110). The statement
takes every state, one too whose field for line B holds 2: such a line reads as high, and a high level that comes is still a change of it.
-/
namespace Sys2Proof.Machine

/-- A running chip whose station 0 has had line B high, its comparator's one-bit level `pfRB` at 2. -/
def State.lineOfTwo : State :=
  let s := (State.reset.withChip fun c => { c with phase := .running, regions := Vector.replicate 3 .run }).put (stnB 0) H.pfLB 1
  { s with regs := s.regs.set (H.pfRB.key (stnB 0)) 2 }

/-- The station serves, both filters have passed what their comparators show, and a filter of one clock holds back what lasts for none. -/
theorem State.lineOfTwo_settled :
    State.lineOfTwo.stnServes 0 ∧ State.lineOfTwo.on (stnB 0) H.pfRA = State.lineOfTwo.on (stnB 0) H.pfA ∧
      State.lineOfTwo.on (stnB 0) H.pfRB = State.lineOfTwo.on (stnB 0) H.pfLB ∧
      (0 : BitVec 16).toNat < State.lineOfTwo.nat (stnB 0) F.PF_CTRL_FLT_N ∧ true ≠ State.lineOfTwo.on (stnB 0) H.pfA ∧
      true = State.lineOfTwo.on (stnB 0) H.pfLB := by
  refine ⟨⟨?_, ?_⟩, ?_, ?_, ?_, ?_, ?_⟩ <;> decide +kernel

/-- A pulse on line A, with line B still high, writes line B's level anew. -/
theorem State.lineOfTwo_edge_level :
    (State.lineOfTwo.onStn 0 (State.lineOfTwo.coarseEdge 0 0 true true 0)).get (stnB 0) H.pfRB ≠
      (State.lineOfTwo.advance 0).get (stnB 0) H.pfRB := by
  decide +kernel

/-- Refutes O39: a pulse on line A that its filter holds back need not leave line B alone, when line B's level is out of its format. -/
theorem not_positionRows : ¬ Obligations.PositionRows := by
  intro h
  obtain ⟨hserves, hA, hB, hshort, hrises, hstays⟩ := State.lineOfTwo_settled
  obtain ⟨hedge, -⟩ := h.1 State.lineOfTwo 0 0 hserves
  obtain ⟨-, -, -, -, hheld, -⟩ := hedge true true 0
  obtain ⟨t, hexec, -, honly⟩ := hheld hA hB hshort hrises hstays
  have ht : State.lineOfTwo.onStn 0 (State.lineOfTwo.coarseEdge 0 0 true true 0) = t := Host.Outcome.next.inj hexec
  refine State.lineOfTwo_edge_level ?_
  rw [ht]
  exact honly.get_eq (by decide)

end Sys2Proof.Machine
end

section
/-!
PROOFS. O48, refuted. A fault stop takes its station out of its services, and a service that stops the others presets the chain slot of a running one
(R255, R302). The statement takes every state, one too whose slot number `LEN_CHAIN.K1` does not fit its six bits: the preset of a slot that is none
then writes a register of a station, here `VALID` of the station that has the position fault.
-/
namespace Sys2Proof.Machine

/-- The number of a slot of half A whose preset value `slPreV` would stand where station 2 has `PF_STAT.VALID`. -/
def slotOnValid : Nat := (stnB 2 + F.PF_STAT_VALID.off - (halfB 0 + H.slPreV.off)) / 0x80

/-- A running chip, half A its master, that runs service 0 on stations 0 and 2, the others to stop where one faults. -/
def State.pairInService : State :=
  (((State.reset.withChip fun c => { c with phase := .running, regions := Vector.replicate 3 .run }).puts 0
    [(F.CHIP_ID_HALF_B, 1), (F.CHIP_STATUS_MASTER, 1)]).puts (svcB 0) [(F.SVC_STAT_SERVICE, 1), (F.SVC_STAT_STNS, 5)]).put 0 F.SVC_PARAM_VAL 1

/-- Station 2 is armed on the serial port of half B, one bad frame short of `ERR_MAX`; station 0 runs with a current, and `LEN_CHAIN.K1` of its chain,
six bits wide, holds `slotOnValid`, the number of what its type takes for a hysteretic slot. -/
def State.chainBeyondSlots : State :=
  let s := (((State.pairInService.puts (stnB 2) [(F.STN_STAT_MODE, 2), (F.PF_CTRL_SRC, 1)]).put (serB 1) H.psBad 3).puts (stnB 0)
    [(F.STN_STAT_MODE, 3), (H.istar, 1)]).put (slotB 0 slotOnValid) F.LEN_CFG_TYPE 1
  { s with regs := s.regs.set (F.LEN_CHAIN_K1.key (snkB 0 0)) (slotOnValid - F.LEN_CHAIN_K1.dflt) }

/-- Half B runs, the next discarded frame is the last that station 2 bears, and the station has no position fault yet. -/
theorem State.chainBeyondSlots_atLimit :
    State.chainBeyondSlots.halfRun (1 : Fin 2).val = true ∧
      State.chainBeyondSlots.get (serB 1) F.PS_CTRL_ERR_MAX ≤ State.chainBeyondSlots.counted (serB 1) H.psBad ∧
      State.chainBeyondSlots.on (stnB 2) F.PF_CTRL_SRC = true ∧ State.chainBeyondSlots.on (stnB 2) H.pfFlt = false := by
  decide +kernel

/-- The fault stop of station 2 stops station 0, whose preset then stands in `VALID`. -/
theorem State.chainBeyondSlots_psDiscard_valid :
    (State.chainBeyondSlots.psDiscard 1).get (stnB 2) F.PF_STAT_VALID ≠ 0 := by
  decide +kernel

/-- Refutes O48: the last discarded frame of a run need not leave `VALID` clear, when the slot number of another station's chain is out of its
format. -/
theorem not_serialAndScheduler : ¬ Obligations.SerialAndScheduler := by
  intro h
  obtain ⟨hhalf, hlimit, hsrc, hfault⟩ := State.chainBeyondSlots_atLimit
  obtain ⟨-, -, -, -, ⟨-, hfaults⟩, -⟩ := h.1 State.chainBeyondSlots 1 0 hhalf
  obtain ⟨hvalid, -⟩ := hfaults hlimit 2 rfl hsrc hfault
  exact State.chainBeyondSlots_psDiscard_valid hvalid

end Sys2Proof.Machine
end

section
/-!
PROOFS. Writes of one word that their register refuses, and the timebase selection of a scheduler user, which an armed slot of the user keeps (R83,
R133).
-/
namespace Sys2Proof.Machine

/-- `ASC_TB_SEL` of user `u` of half `h`, as the register map finds it. -/
def tbSelHit (h : Fin 2) (u : Fin 4) : Hit := { unit := h, idx := u, b := halfB h + 4 * u, d := R.ASC_TB_SEL, j := 0 }

/-! ### Where `ASC_TB_SEL` stands -/

theorem regionAt_tbSel : ∀ (h : Fin 2) (u : Fin 4), regionAt (halfB h + 0xA0000 + 4 * u) = some (h.val + 1) := by decide

theorem findReg_tbSel : ∀ (h : Fin 2) (u : Fin 4), findReg (halfB h + 0xA0000 + 4 * u) = some (tbSelHit h u) := by decide

theorem addrOk_tbSel (h : Fin 2) (u : Fin 4) : State.addrOk (halfB h + 0xA0000 + 4 * u) = true := by
  have haligned : (halfB h + 0xA0000 + 4 * u) % 4 = 0 := by unfold halfB; omega
  simp [State.addrOk, haligned, regionAt_tbSel]

namespace State

variable {s : State} {a w st : Nat} {x : Hit} {c : Cmd}

theorem addrPresent_tbSel {h : Fin 2} (hp : s.halfPresent h = true) (u : Fin 4) : s.addrPresent (halfB h + 0xA0000 + 4 * u) = true := by
  rw [addrPresent, regionAt_tbSel]
  fin_cases h
  · rfl
  · simpa [halfPresent] using hp

/-! ### A write of one word -/

/-- The one word of a write is checked against its register, with the register's word at its new value. -/
theorem writeCheck_oneWord (hp : s.addrPresent a = true) (hx : findReg a = some x) (hst : s.wordCheck (s.storeWord x w w) x x.top = st)
    (hbad : st ≠ 0) : s.writeCheck a [w] = some (st, 0) := by
  have hhits : s.writeHits a 0 [w] = [(0, a, w, x)] := by simp [writeHits, hp, hx]
  have hcand : s.candidate [(0, a, w, x)] = s.storeWord x w w := rfl
  have hwhole : wholeIn [(0, a, w, x)] x = x.top := by simp [wholeIn]
  simp [writeCheck, hhits, hcand, hwhole, hst, hbad]

theorem regWrite_of_writeCheck {ws : List Nat} {r : Nat × Nat} (h : s.writeCheck a ws = some r) : s.regWrite a ws = s := by
  unfold regWrite
  split
  · rfl
  · rw [h]

/-- A WRITE_REG of one word inside a map is refused as its register refuses the word. -/
theorem opWriteReg_check_oneWord (hlen : c.len = 2) (ha : addrOk (c.word 0) = true)
    (h : ∀ w, s.writeCheck (c.word 0) [w] = some (st, 0)) : opWriteReg.check s c = some (st, 0) := by
  obtain ⟨w, hw⟩ : ∃ w, c.wordsFrom 1 = [w] := List.length_eq_one_iff.mp (by rw [length_wordsFrom, hlen])
  obtain ⟨haligned, -⟩ : c.word 0 % 4 = 0 ∧ (regionAt (c.word 0)).isSome = true := by simpa [addrOk] using ha
  have hinside : (List.range [w].length).find? (fun i => !addrOk (c.word 0 + 4 * i)) = none := by simp [ha]
  have hbad : s.writeBad (c.word 0) [w] = some (st, 0) := by rw [writeBad, hinside, h]
  simp [opWriteReg, hlen, haligned, hw, hbad]

/-- A MODIFY_REG inside a map is refused as its register refuses the merged word. -/
theorem opModifyReg_check_refused (hlen : c.len = 3) (ha : addrOk (c.word 0) = true)
    (h : s.modifyCheck (c.word 0) (c.word 1) (c.word 2) = st) (hbad : st ≠ stOK) : opModifyReg.check s c = some (st, 0) := by
  simp [opModifyReg, hlen, ha, h, hbad]

/-! ### A user with an armed slot -/

theorem userArmed_of_slot {h u : Nat} (i : Fin 8) (harmed : s.on (ascB h u i) F.ASC_SST_ARMED = true) : s.userArmed h u = true :=
  List.any_eq_true.mpr ⟨i, List.mem_range.mpr i.isLt, by rw [harmed, Bool.true_or]⟩

/-- The state rule of R133 comes before the checks of the word's value, and the rule on the part's law is on another register. -/
theorem wordCheck_tbSel_of_armed {h : Fin 2} {u : Fin 4} (harmed : s.userArmed h u = true) (t : State) (whole : Bool) :
    s.wordCheck t (tbSelHit h u) whole = stState := by
  have hlaw : lawBad s t (tbSelHit h u) = false := rfl
  have hrule : stateBad s t (tbSelHit h u) = true := harmed
  have heff : effective (tbSelHit h u) = true := rfl
  simp [wordCheck, hlaw, hrule, heff]

theorem writeCheck_tbSel_of_armed {h : Fin 2} {u : Fin 4} (hp : s.halfPresent h = true) (harmed : s.userArmed h u = true) (w : Nat) :
    s.writeCheck (halfB h + 0xA0000 + 4 * u) [w] = some (stState, 0) :=
  writeCheck_oneWord (addrPresent_tbSel hp u) (findReg_tbSel h u) (wordCheck_tbSel_of_armed harmed _ _) (by decide)

theorem modifyCheck_tbSel_of_armed {h : Fin 2} {u : Fin 4} (hp : s.halfPresent h = true) (harmed : s.userArmed h u = true) (mask v : Nat) :
    s.modifyCheck (halfB h + 0xA0000 + 4 * u) mask v = stState := by
  simp only [modifyCheck, addrPresent_tbSel hp u, findReg_tbSel h u, wordCheck_tbSel_of_armed harmed, Bool.not_true, Bool.false_eq_true, if_false]

end State

/-- Settles O18: the user's armed slot makes the state rule of `ASC_TB_SEL` refuse whatever word a write or a merge would leave there. -/
theorem armedTimebaseKept : Obligations.ArmedTimebaseKept := by
  intro s h u i v _ _ hpresent hslot a
  have harmed := State.userArmed_of_slot i hslot
  have hwrite := State.writeCheck_tbSel_of_armed hpresent harmed (u := u)
  have haddr : (BitVec.ofNat 32 a).toNat = a := by
    rw [BitVec.toNat_ofNat]
    exact Nat.mod_eq_of_lt (by simp only [a, halfB]; omega)
  refine ⟨?_, fun c hlen hword => ?_, fun c hlen hword => ?_⟩
  · have hkept : s.regWrite (BitVec.ofNat 32 a).toNat [v.toNat] = s := by
      rw [haddr, State.regWrite_of_writeCheck (hwrite v.toNat)]
    exact congrArg Host.Outcome.next hkept
  · exact State.opWriteReg_check_oneWord hlen (hword ▸ addrOk_tbSel h u) fun w => hword ▸ hwrite w
  · exact State.opModifyReg_check_refused hlen (hword ▸ addrOk_tbSel h u)
      (hword ▸ State.modifyCheck_tbSel_of_armed hpresent harmed _ _) (by decide)

end Sys2Proof.Machine
end

section
/-!
PROOFS. What the updates of the sink slots leave alone: whatever the slot's number, its update writes neither of the two words in which a 128-byte
block of registers begins, so that the modes of the stations and the sources of their pulses stand (R241, R244).
-/
namespace Sys2Proof.Machine

/-- Where a field stands in its 128-byte block, in bits. -/
def Fld.inBlock (f : Fld) : Nat := (8 * f.off + f.lo) % 1024

theorem Fld.key_mod (f : Fld) {b : Nat} (hb : 128 ∣ b) : f.key b % 1024 = f.inBlock := by
  unfold key inBlock
  omega

theorem dvd_halfB (h : Nat) : 128 ∣ halfB h := by unfold halfB; omega
theorem dvd_slotB (h m : Nat) : 128 ∣ slotB h m := by unfold slotB halfB; omega
theorem dvd_stnB (n : Nat) : 128 ∣ stnB n := by unfold stnB halfB; omega

/-- `t` comes from `s` by writes that leave the first two words of every 128-byte block alone, as a slot's update does: there stand its own
configuration and request. -/
structure SlotWork (s t : State) : Prop where
  regs : ∀ k, k % 1024 < 64 → t.regs.get k = s.regs.get k

namespace SlotWork

variable {s0 s t : State} {h m b : Nat} {f : Fld}

theorem refl (s : State) : SlotWork s s := ⟨fun _ _ => rfl⟩

theorem trans {u : State} (hw : SlotWork s t) (hw' : SlotWork t u) : SlotWork s u :=
  ⟨fun k hk => (hw'.regs k hk).trans (hw.regs k hk)⟩

theorem get (hw : SlotWork s t) (hb : 128 ∣ b) (hf : f.inBlock < 64) : t.get b f = s.get b f := by
  rw [State.get, State.get, hw.regs _ (by rwa [f.key_mod hb])]

theorem ite {c : Prop} [Decidable c] {u v : State} (hu : SlotWork s0 u) (hv : SlotWork s0 v) : SlotWork s0 (if c then u else v) := by
  split <;> assumption

theorem each {α : Type} {l : List α} {g : α → State → State} (hw : SlotWork s0 s) (hg : ∀ a s, SlotWork s (g a s)) :
    SlotWork s0 (s.each l g) := by
  induction l generalizing s with
  | nil => exact hw
  | cons a r ih => exact ih (hw.trans (hg a s))

theorem putAt {v : Int} (hw : SlotWork s0 s) (hb : 128 ∣ b) (hf : 64 ≤ f.inBlock) : SlotWork s0 (s.put b f v) :=
  hw.trans ⟨fun k hk => Sparse.get_set_ne _ _ fun he => by rw [← he, f.key_mod hb] at hk; omega⟩

theorem put {v : Int} (hw : SlotWork s0 s) (hf : 64 ≤ f.inBlock := by decide) : SlotWork s0 (s.put (slotB h m) f v) :=
  hw.putAt (dvd_slotB h m) hf

theorem puts {l : List (Fld × Int)} (hw : SlotWork s0 s)
    (hl : ∀ f ∈ l.map Prod.fst, 64 ≤ f.inBlock := by simp only [List.map_cons, List.map_nil]; decide) :
    SlotWork s0 (s.puts (slotB h m) l) := by
  induction l generalizing s with
  | nil => exact hw
  | cons e r ih =>
    obtain ⟨he, hr⟩ := List.forall_mem_cons.mp hl
    exact ih (hw.put he) hr

theorem flag {v : Bool} (hw : SlotWork s0 s) (hf : 64 ≤ f.inBlock := by decide) : SlotWork s0 (s.flag (slotB h m) f v) := hw.put hf

theorem setBit {i : Nat} {v : Bool} (hw : SlotWork s0 s) (hf : 64 ≤ f.inBlock := by decide) : SlotWork s0 (s.setBit (slotB h m) f i v) := by
  unfold State.setBit
  exact .ite ⟨(hw.put hf).regs⟩ ⟨(hw.put hf).regs⟩

/-! ### The updates of each type of slot (Table LE-1) -/

variable {s : State} {now : Nat}

theorem putOut {y : Int} (hw : SlotWork s0 s) : SlotWork s0 (s.putOut h m y) := hw.put.flag

theorem runG (hw : SlotWork s0 s) : SlotWork s0 (s.runG h m) :=
  .ite (.putOut (.flag (.puts (.put hw)))) (.putOut (.ite (.put (.flag (.puts hw))) (.flag (.puts hw))))

theorem runH (hw : SlotWork s0 s) : SlotWork s0 (s.runH h m) := .ite (.putOut (.flag (.puts hw))) (.putOut (.flag hw))

theorem runO (hw : SlotWork s0 s) : SlotWork s0 (s.runO h m) := .putOut (.flag (.puts hw))

theorem putLosers {losers : List Nat} (hw : SlotWork s0 s) : SlotWork s0 (s.putLosers h m losers) :=
  hw.each fun _ s => .flag (.setBit (.refl s))

theorem runS (hw : SlotWork s0 s) : SlotWork s0 (s.runS h m) := .putOut (.putLosers (.flag (.puts hw)))

theorem runF (hw : SlotWork s0 s) : SlotWork s0 (s.runF h m) :=
  .ite (.putOut (.flag (.puts hw))) (.putOut (.flag (.ite (.put hw) hw)))

theorem pulseX (hw : SlotWork s0 s) : SlotWork s0 (s.pulseX h m now).2 := by
  unfold State.pulseX
  dsimp only
  split
  · exact .puts hw
  · split
    · split <;> exact hw
    · exact hw

theorem runP (hw : SlotWork s0 s) : SlotWork s0 (s.runP h m now) :=
  .putOut (.flag (.put (.ite (.putAt (.pulseX hw) (dvd_halfB h) (by decide)) hw)))

theorem runSlot (hw : SlotWork s0 s) : SlotWork s0 (s.runSlot h m now) := by
  have hbank : SlotWork s0 (s.put (slotB h m) F.LEN_SST_BANK_USED (s.bankOf h m)) := .put hw
  unfold State.runSlot
  dsimp only
  split
  · exact .runH hbank
  · exact .runG hbank
  · exact .runO hbank
  · exact .runS hbank
  · exact .runF hbank
  · exact .runP hbank
  · exact hbank

/-! ### The sink slots of a station -/

theorem runSink {o : Option Nat} (hw : SlotWork s0 s) : SlotWork s0 (s.runSink h o now) := by
  cases o with
  | none => exact hw
  | some m => exact .ite (.put (.runSlot hw)) hw

theorem runSinks {n : Nat} (hw : SlotWork s0 s) : SlotWork s0 (s.runSinks n now) := by
  unfold State.runSinks
  refine .runSink (.ite ?_ (.runSink hw))
  cases s.vdSlot n with
  | none => exact hw
  | some m => exact .put hw

end SlotWork
end Sys2Proof.Machine
end

section
/-!
PROOFS. One update of a station's current loop (R161, Table AR-10): what it is before the station's own command, the command it then runs, and what
every update ends with.
-/
namespace Sys2Proof.Machine
namespace State

variable {s : State} {n : Fin 4}

/-- A served station takes its events. -/
theorem onStn_of_serves (h : s.stnServes n) (t : State) : s.onStn n.val t = t := by
  obtain ⟨hlive, hserves⟩ := h
  simp [onStn, hlive, hserves]

theorem next_onStn (h : s.stnServes n) (t : State) : (.next (s.onStn n.val t) : Host.Outcome State Fault Refusal) = .next t :=
  congrArg _ (onStn_of_serves h t)

/-- A field that no write names reads as before. -/
theorem get_puts_of_apart (s : State) (b : Nat) {f : Fld} {l : List (Fld × Int)}
    (hl : ∀ e ∈ l.map Prod.fst, 8 * e.off + e.lo ≠ 8 * f.off + f.lo) :
    (s.puts b l).get b f = s.get b f := by
  induction l generalizing s with
  | nil => rfl
  | cons e r ih =>
    obtain ⟨he, hr⟩ := List.forall_mem_cons.mp hl
    exact (ih (s.put b e.1 e.2) hr).trans (get_put_fld s b e.2 he)

/-! ### The parts of an update -/

/-- An update of station `n` at the sampling instant `t` before any command: carrier, currents, position, angle, and what the boundary begins. -/
def loopSensed (s : State) (n t : Nat) (c : CurIn) : State :=
  let b := stnB n
  let r := ((s.advance t).rephaseStep n t c.valley).put b H.vdcT0 (s.get (halfB (n / 2)) H.vdcf)
  let q := ((((r.idleSources n).sense n c).psTake n).speedUpdate n t).formAngle n
  (((q.put b F.COM_ADV_ADV (q.advance16 n (q.srcSpeed n))).transform n).alignUpdate n).zvbStart n

/-- The checks and the start sequence of a station that runs or catches. -/
def loopStarted (m : State) (n : Nat) : State :=
  let y := m.obsLossCheck n
  if y.on (stnB n) H.zvb then y else y.startUpdate n (y.tUpd n)

/-- What every update ends with. -/
def loopFinish (u : State) (n : Nat) : State :=
  (((((u.lockedRotor n).advanceOl n).posReact n).boundary n).setReached n).runRequests n

/-- The sink slots that `RUNGATE` does not bind update; the loops' flags clear and the voltage command is 0. -/
def loopQuiet (u : State) (n now : Nat) : State :=
  (u.runSinks n now).puts (stnB n) [(H.ovrRun, 0), (F.COM_STAT_VSAT, 0), (F.COM_STAT_MINON, 0), (F.COM_STAT_SOFTING, 0), (F.COM_VDQ_VD, 0),
    (F.COM_VDQ_VQ, 0), (H.clamped, 0), (H.vA, 0), (H.vB, 0)]

/-- The station conducts where it has a command of its own: it runs and waits for no check of its rotation, or sizing drives its shaft. -/
def loopCommand (x : State) (n t : Nat) (late own : Bool) : State :=
  if own && (x.runLike n && !x.on (stnB n) H.rotChk && !x.on (stnB n) H.revWait || x.driving n) then x.conduct n t late else x.noCommand n t

/-! ### An update without a command -/

section
variable {u : State} {n now : Nat}

/-- The fields that an update without a command clears are neither the mode nor the source of the pulses, and no slot's update writes those. -/
theorem loopQuiet_get {f : Fld} (hblock : f.inBlock < 64 := by decide)
    (hapart : ∀ e ∈ [H.ovrRun, F.COM_STAT_VSAT, F.COM_STAT_MINON, F.COM_STAT_SOFTING, F.COM_VDQ_VD, F.COM_VDQ_VQ, H.clamped, H.vA, H.vB],
      8 * e.off + e.lo ≠ 8 * f.off + f.lo := by decide) : (u.loopQuiet n now).get (stnB n) f = u.get (stnB n) f := by
  unfold loopQuiet
  refine (get_puts_of_apart _ _ ?_).trans ((SlotWork.runSinks (.refl u)).get (dvd_stnB n) hblock)
  exact hapart

theorem loopQuiet_psrc : (u.loopQuiet n now).get (stnB n) F.GC_CTRL_PSRC = u.get (stnB n) F.GC_CTRL_PSRC := loopQuiet_get

theorem loopQuiet_runLike : (u.loopQuiet n now).runLike n = u.runLike n := by
  have hmode : (u.loopQuiet n now).mode n = u.mode n := congrArg Int.toNat loopQuiet_get
  rw [runLike, runLike, hmode]

/-- With pulses from the pins a station that runs has I* go on, unclamped (R204). -/
theorem noCommand_eq : u.noCommand n now =
    let v := u.loopQuiet n now
    if u.get (stnB n) F.GC_CTRL_PSRC == 1 && u.runLike n then
      let w := v.stepIstar n (v.tUpd n)
      w.put (stnB n) H.istarOut (w.get (stnB n) H.istar)
    else v := by
  dsimp only
  rw [← loopQuiet_psrc (now := now), ← loopQuiet_runLike (now := now)]
  rfl

theorem noCommand_of_notRun (h : u.runLike n = false) : u.noCommand n now = u.loopQuiet n now := by simp [noCommand_eq, h]

theorem noCommand_of_own (h : u.get (stnB n) F.GC_CTRL_PSRC = 0) : u.noCommand n now = u.loopQuiet n now := by simp [noCommand_eq, h]

theorem noCommand_of_pins (h : u.get (stnB n) F.GC_CTRL_PSRC = 1) (hrun : u.runLike n = true) :
    u.noCommand n now =
      let v := (u.loopQuiet n now).stepIstar n ((u.loopQuiet n now).tUpd n)
      v.put (stnB n) H.istarOut (v.get (stnB n) H.istar) := by simp [noCommand_eq, h, hrun]

/-! ### The command that is run -/

variable {x : State} {t : Nat} {late own : Bool}

theorem loopCommand_of_conducts
    (h : x.driving n = true ∨ (x.runLike n = true ∧ x.on (stnB n) H.rotChk = false ∧ x.on (stnB n) H.revWait = false)) :
    x.loopCommand n t late true = x.conduct n t late := by
  rcases h with hdrive | ⟨hrun, hrot, hrev⟩
  · simp [loopCommand, hdrive]
  · simp [loopCommand, hrun, hrot, hrev]

theorem loopCommand_of_waits (hdrive : x.driving n = false)
    (h : x.runLike n = false ∨ x.on (stnB n) H.rotChk = true ∨ x.on (stnB n) H.revWait = true) :
    x.loopCommand n t late own = x.noCommand n t := by
  rcases h with h | h | h <;> simp [loopCommand, hdrive, h]

end

/-! ### Updates by case -/

section
variable {n t : Nat} {c : CurIn}

theorem currentLoop_of_noUpdate (h : s.isUpdate n c.valley = false) : s.currentLoop n t c = s := by
  simp [currentLoop, h]

variable (hlive : s.stnLive n = true) (hup : s.isUpdate n c.valley = true)
include hlive hup

/-- An update is its parts in turn. -/
theorem currentLoop_of_update :
    s.currentLoop n t c =
      let m := s.loopSensed n t c
      let own := m.get (stnB n) F.GC_CTRL_PSRC == 0
      ((if own && (m.runLike n || m.mode n == mCatch) then m.loopStarted n else m).loopCommand n t c.late own).loopFinish n := by
  rw [currentLoop, hlive, hup]
  rfl

variable {m : State} (hm : s.loopSensed n t c = m)
include hm

/-- A station that neither runs nor catches begins nothing. -/
theorem currentLoop_of_idle (hrun : m.runLike n = false) (hmode : m.mode n ≠ mCatch) :
    s.currentLoop n t c = (m.loopCommand n t c.late (m.get (stnB n) F.GC_CTRL_PSRC == 0)).loopFinish n := by
  simp [currentLoop_of_update hlive hup, hm, hrun, hmode]

/-- A station that runs or catches, with its own pulses, is checked and goes on with its start. -/
theorem currentLoop_of_started (hown : m.get (stnB n) F.GC_CTRL_PSRC = 0) (hrun : m.runLike n = true ∨ m.mode n = mCatch) :
    s.currentLoop n t c = ((m.loopStarted n).loopCommand n t c.late true).loopFinish n := by
  simp [currentLoop_of_update hlive hup, hm, hown, hrun]

/-- With pulses from the pins a station has no command of its own. -/
theorem currentLoop_of_pins (hpins : m.get (stnB n) F.GC_CTRL_PSRC = 1) :
    s.currentLoop n t c = (m.noCommand n t).loopFinish n := by
  simp [currentLoop_of_update hlive hup, hm, hpins, loopCommand]

end

end State

/-- Settles O40: an update is its parts in turn, and which command it runs is read off the mode and the source of the pulses before it, which no sink
slot writes. -/
theorem currentLoop : Obligations.CurrentLoop := by
  intro s n t i hserves b finish quiet r q m
  have hlive := hserves.1
  have hexec : exec (.currentLoopUpdate n t i) s = .next (s.currentLoop n.val t.toNat i) := State.next_onStn hserves _
  have hm : s.loopSensed n.val t.toNat i = m := rfl
  rw [hexec]
  refine ⟨fun hup => ?none, fun hup hrun hmode hdrive => ?idle, fun hup hown hrun hmode hdrive => ?drive, ?own, fun hup hpins hrun => ?pins⟩
  case none => rw [State.currentLoop_of_noUpdate hup]
  case idle =>
    rw [State.currentLoop_of_idle hlive hup hm hrun hmode, State.loopCommand_of_waits hdrive (.inl hrun), State.noCommand_of_notRun hrun]
    rfl
  case drive =>
    rw [State.currentLoop_of_idle hlive hup hm hrun hmode, hown]
    exact congrArg (fun u => Host.Outcome.next (finish u)) (State.loopCommand_of_conducts (.inl hdrive))
  case own =>
    intro y x hup hown hrun
    have hx : m.loopStarted n.val = x := rfl
    rw [State.currentLoop_of_started hlive hup hm hown hrun, hx]
    refine ⟨fun hlives hrot hrev => ?_, fun hdrive hown' hwaits => ?_⟩
    · rw [State.loopCommand_of_conducts (.inr ⟨hlives, hrot, hrev⟩)]
      rfl
    · rw [State.loopCommand_of_waits hdrive hwaits, State.noCommand_of_own hown']
      rfl
  case pins =>
    rw [State.currentLoop_of_pins hlive hup hm hpins, State.noCommand_of_pins hpins hrun]
    rfl

end Sys2Proof.Machine
end

section
/-!
PROOFS. The synchronisation of the carrier (R158), the steps of an alignment (R171, Table FC-3), and a stuck bitstream (R166).
-/
namespace Sys2Proof.Machine

/-- The magnitude of a number as the model writes it. -/
theorem magnitude_le_iff {e c : Int} : (if e < 0 then -e else e) ≤ c ↔ -c ≤ e ∧ e ≤ c := by split <;> omega

namespace State

/-- Writes of fields of one unit that begin at different bits. -/
theorem sets_puts_of_apart (s : State) (b : Nat) {l : List (Fld × Int)}
    (hl : ((l.map Prod.fst).map fun f => 8 * f.off + f.lo).Nodup := by simp only [List.map_cons, List.map_nil]; decide) :
    s.Sets (s.puts b l) (l.map fun x => (b, x.1, x.1.wrap x.2)) := by
  refine s.sets_puts b ?_
  have hkeys : (l.map fun x => x.1.key b) = ((l.map Prod.fst).map fun f => 8 * f.off + f.lo).map (8 * b + ·) := by
    rw [List.map_map, List.map_map]
    exact List.map_congr_left fun x _ => by simp only [Fld.key, Function.comp_apply]; omega
  rw [hkeys]
  exact hl.map (add_right_injective _)

@[simp] theorem advance_on (s : State) (t b : Nat) (f : Fld) : (s.advance t).on b f = s.on b f := rfl

variable {s : State} {n t : Nat}

/-! ### The synchronisation of the carrier -/

theorem syncLoad_of_idle (h : s.on (stnB n) H.syncPend = false) : s.syncLoad n t = s.advance t := by
  simp [syncLoad, h]

/-- How late the carrier's valley at tick `t` is against the nearer firing of PWM_SYNC. -/
def syncError (s : State) (n t : Nat) : Int :=
  let e := (t : Int) - s.get (stnB n) H.syncT
  if 2 * e ≤ s.period n then e else e - s.period n

/-- The period that a synchronised valley begins, before it is made even. -/
def syncPeriod (s : State) (n t : Nat) : Int :=
  let p := s.get (stnB n) H.syncP
  clampI (max 4000 (7 * p / 8)) (min 200000 (9 * p / 8)) (p - s.syncError n t)

theorem syncLoad_of_pending (h : s.on (stnB n) H.syncPend = true) : s.syncLoad n t = (s.advance t).puts (stnB n)
    [(H.syncPend, 0), (H.carV, t), (F.PWM_PER_NOW_PER, s.syncPeriod n t / 2 * 2),
      (F.PWM_STAT_SYNCED, b2i (decide (-40 ≤ s.syncError n t ∧ s.syncError n t ≤ 40))), (F.PWM_STAT_REPHASE, 0)] := by
  have hbetween : -40 ≤ s.syncError n t ∧ s.syncError n t ≤ 40 ↔ (if s.syncError n t < 0 then -s.syncError n t else s.syncError n t) ≤ 40 :=
    magnitude_le_iff.symm
  simp only [hbetween]
  rw [syncLoad, if_neg (by simp [h])]
  rfl

/-! ### The steps of an alignment -/

theorem alignStep_of_idle (h : s.on (stnB n) F.COM_STAT_ALIGNING = false) : s.alignStep n t = s.advance t := by
  simp [alignStep, h]

/-- The electrical angle that the shaft has turned since the end of an alignment's first step. -/
def alignTurn (s : State) (n : Nat) : Int :=
  wrap32 ((s.get (stnB n) F.PF_ANGLE_THETA_M - s.get (stnB n) H.alTh1) * s.get (stnB n) F.COM_MOTOR_PP)

/-- The electrical angle that the shaft has moved in the last quarter of the second step. -/
def alignDrift (s : State) (n : Nat) : Int :=
  wrap32 (s.get (stnB n) F.PF_ANGLE_THETA_M * s.get (stnB n) F.COM_MOTOR_PP - s.get (stnB n) H.alTh2)

/-- The shaft has turned back by a quarter, within a quarter of that, and rests. -/
def alignOk (s : State) (n : Nat) : Bool :=
  decide (s.alignTurn n + 2 ^ 30 ≤ 2 ^ 28 ∧ -(2 ^ 28) ≤ s.alignTurn n + 2 ^ 30) &&
    decide (s.alignDrift n ≤ 2 ^ 26 ∧ -(2 ^ 26) ≤ s.alignDrift n)

theorem alignOk_iff : s.alignOk n = true ↔
    (-(2 ^ 28) ≤ s.alignTurn n + 2 ^ 30 ∧ s.alignTurn n + 2 ^ 30 ≤ 2 ^ 28) ∧ -(2 ^ 26) ≤ s.alignDrift n ∧ s.alignDrift n ≤ 2 ^ 26 := by
  rw [alignOk, Bool.and_eq_true, decide_eq_true_eq, decide_eq_true_eq, and_comm (a := s.alignTurn n + _ ≤ _), and_comm (a := s.alignDrift n ≤ _)]

section
variable (h : s.on (stnB n) F.COM_STAT_ALIGNING = true)
include h

theorem alignStep_of_aligning : s.alignStep n t =
    let a := s.advance t
    let b := stnB n
    if s.get b H.alStep == 1 then
      a.puts b [(H.alTh1, s.get b F.PF_ANGLE_THETA_M), (H.alStep, 2), (H.thetaOl, 0), (H.startT, a.time)]
    else if s.alignOk n then
      (a.puts b [(F.COM_OFS_OFS, -(s.get b F.PF_ANGLE_THETA_M * s.get b F.COM_MOTOR_PP)), (F.COM_STAT_OFS_VALID, 1), (F.COM_STAT_ALIGNING, 0),
        (H.alStep, 0)]).releaseBrake n
    else a.comFault n 1 0x41 := by
  rw [alignStep, if_neg (by simp [h])]
  rfl

theorem alignStep_of_first (hstep : s.get (stnB n) H.alStep = 1) : s.alignStep n t = (s.advance t).puts (stnB n)
    [(H.alTh1, s.get (stnB n) F.PF_ANGLE_THETA_M), (H.alStep, 2), (H.thetaOl, 0), (H.startT, (s.advance t).time)] := by
  rw [alignStep_of_aligning h]
  exact if_pos (beq_iff_eq.mpr hstep)

theorem alignStep_of_ok (hstep : s.get (stnB n) H.alStep ≠ 1) (hok : s.alignOk n = true) : s.alignStep n t =
    ((s.advance t).puts (stnB n) [(F.COM_OFS_OFS, -(s.get (stnB n) F.PF_ANGLE_THETA_M * s.get (stnB n) F.COM_MOTOR_PP)), (F.COM_STAT_OFS_VALID, 1),
      (F.COM_STAT_ALIGNING, 0), (H.alStep, 0)]).releaseBrake n := by
  simp [alignStep_of_aligning h, hstep, hok]

theorem alignStep_of_not_ok (hstep : s.get (stnB n) H.alStep ≠ 1) (hbad : s.alignOk n = false) :
    s.alignStep n t = (s.advance t).comFault n 1 0x41 := by
  simp [alignStep_of_aligning h, hstep, hbad]

end

/-! ### A stuck bitstream -/

theorem sdStuck_of_modulator (h : s.on (stnB n) F.CS_CTRL_MODE = true) : s.sdStuck n = s.comFault n 1 0x45 := if_pos h

theorem sdStuck_of_shunt (h : s.on (stnB n) F.CS_CTRL_MODE = false) : s.sdStuck n = s := if_neg (by simp [h])

end State

/-- Settles O41: each row is one list of writes of fields that begin at different bits, or the release of the brake, or the station's fault. -/
theorem carrierAndAlignment : Obligations.CarrierAndAlignment := by
  intro s n t hserves b
  have hrow := State.next_onStn hserves
  refine ⟨fun h => ?stuck, fun h => ?shunt, fun h => ?noFiring, fun h => ?load, ?syncEnd, fun h => ?notAligning, fun h hstep => ?first,
    fun h hstep => ?second⟩
  case stuck => exact (hrow _).trans (congrArg _ (State.sdStuck_of_modulator h))
  case shunt => exact (hrow _).trans (congrArg _ (State.sdStuck_of_shunt h))
  case noFiring => exact (hrow _).trans (congrArg _ (State.syncLoad_of_idle h))
  case load =>
    intro per e0 e tt p
    refine ⟨_, hrow _, ?_⟩
    rw [State.syncLoad_of_pending h]
    have hsynced (c : Bool) : F.PWM_STAT_SYNCED.wrap (b2i c) = b2i c := by cases c <;> rfl
    have hsets := (s.advance t.toNat).sets_puts_of_apart b (l := [(H.syncPend, 0), (H.carV, t.toNat), (F.PWM_PER_NOW_PER, p / 2 * 2),
      (F.PWM_STAT_SYNCED, b2i (decide (-40 ≤ e ∧ e ≤ 40))), (F.PWM_STAT_REPHASE, 0)])
    simp only [List.map_cons, List.map_nil, hsynced] at hsets
    exact hsets
  case syncEnd =>
    have hsets := s.sets_puts_of_apart b (l := [(F.PWM_STAT_SYNCED, 0), (H.syncPend, 0), (H.syncP, 0), (F.PWM_STAT_REPHASE, 1)])
    exact ⟨_, hrow _, hsets⟩
  case notAligning => exact (hrow _).trans (congrArg _ (State.alignStep_of_idle h))
  case first =>
    refine ⟨_, hrow _, ?_⟩
    rw [State.alignStep_of_first h hstep]
    exact (s.advance t.toNat).sets_puts_of_apart b
  case second =>
    intro pp th2 d st
    have hok : s.alignOk n.val = true ↔ (-(2 ^ 28) ≤ d + 2 ^ 30 ∧ d + 2 ^ 30 ≤ 2 ^ 28) ∧ -(2 ^ 26) ≤ st ∧ st ≤ 2 ^ 26 :=
      State.alignOk_iff
    refine ⟨fun hlo hhi hlo' hhi' => ?_, fun hbad => ?_⟩
    · exact (hrow _).trans (congrArg _ (State.alignStep_of_ok h hstep (hok.mpr ⟨⟨hlo, hhi⟩, hlo', hhi'⟩)))
    · refine (hrow _).trans (congrArg _ (State.alignStep_of_not_ok h hstep ?_))
      rw [← Bool.not_eq_true, hok]
      omega

end Sys2Proof.Machine
end

section
/-!
PROOFS. O24, refuted. `ARM_GUARD` refuses STN_ARM of a rotating station in direct mode alone whose pulses come from the chip's own PWM: the model excepts
`PSRC` 1, the statement does not (R226).
-/
namespace Sys2Proof.Machine

/-- Station 0 in direct mode with pulses from the pins and `ARM_GUARD` set, safe torque off released, and its valid position at 1 rev/s. -/
def State.turningOnPins : State :=
  (State.reset.put (halfB 0) F.SUP_STO_STAT_ACTIVE 0).puts (stnB 0)
    [(F.GC_CTRL_PSRC, 1), (F.OBS_CTRL_ARM_GUARD, 1), (F.PF_STAT_VALID, 1), (F.PF_SPEED_SPEED, 2 ^ 18)]

/-- STN_ARM of station 0. -/
def armFirstStation : Cmd := { tr := .spi, tag := 1, want := false, snap := false, scope := 2, index := 0, rsv := 0, payload := [] }

/-- The station is guarded, directly driven and counts as rotating (R225). -/
theorem State.turningOnPins_guarded : State.turningOnPins.on (stnB armFirstStation.ix) F.OBS_CTRL_ARM_GUARD = true ∧
    State.turningOnPins.direct armFirstStation.ix = true ∧ State.turningOnPins.rotating armFirstStation.ix = true := by
  decide +kernel

/-- STN_ARM passes its checks all the same. -/
theorem State.turningOnPins_armed : opStnArm.check State.turningOnPins armFirstStation = none := by
  decide +kernel

/-- Refutes O24: STN_ARM of a guarded, rotating station in direct mode is allowed where its pulses come from the pins. -/
theorem not_stationStates : ¬ Obligations.StationStates := by
  intro h
  obtain ⟨harm, -⟩ := h.1 armFirstStation State.turningOnPins
  obtain ⟨-, -, -, -, hguard, -⟩ := harm.mp State.turningOnPins_armed
  exact hguard State.turningOnPins_guarded

end Sys2Proof.Machine
end

section
/-!
PROOFS. O49, refuted. Safe torque off turns a station in OFF off where its half runs; in a half that does not run every output is low already, and nothing
of its registers changes (R30, R198). The statement takes every state, one too before the first supply, whose `GC_STAT` shows neither a turn-off nor its
end.
-/
namespace Sys2Proof.Machine

/-- Before the first supply, STO leaves both bits of station 0 at their reset value 0. -/
theorem State.reset_stoStations_torqueOff : (State.reset.stoStations 0 0x59).torqueOff 0 = false := by
  decide +kernel

/-- Refutes O49: STO on a half that does not run leaves `TURNOFF` and `OFF_CONF` of its stations as they are, both 0 at reset. -/
theorem not_safeTorqueOff : ¬ Obligations.SafeTorqueOff := by
  intro h
  have hoff : (State.reset.stoStations 0 0x59).torqueOff 0 = true := h.1 State.reset 0 0x59 0 rfl
  rw [State.reset_stoStations_torqueOff] at hoff
  cases hoff

end Sys2Proof.Machine
end

section
/-!
PROOFS. O44, refuted. A charge pulse writes the tick of the first one anew, as it stands or as the present tick (R188). The statement takes every state,
one too whose tick `bsChg0` does not fit its 65 bits: the write reduces it, where the statement keeps it.
-/
namespace Sys2Proof.Machine

/-- A running chip that charges the bootstraps of station 0 in arming, safe torque off released; the tick of the first pulse, 65 bits wide, holds 2^65. -/
def State.chargeBeyondTicks : State :=
  let s := (((State.reset.withChip fun c => { c with phase := .running, regions := Vector.replicate 3 .run }).put (halfB 0)
    F.SUP_STO_STAT_ACTIVE 0).put (stnB 0) H.arming 1).put (stnB 0) H.pulseT 1
  { s with regs := s.regs.set (H.bsChg0.key (stnB 0)) (2 ^ 65) }

/-- The station serves and is directly driven, nothing keeps its gates off, and leg U is due a charge pulse. -/
theorem State.chargeBeyondTicks_due :
    State.chargeBeyondTicks.stnServes 0 ∧ State.chargeBeyondTicks.direct (0 : Fin 4).val = true ∧
      State.chargeBeyondTicks.on (stnB (0 : Fin 4)) F.GC_STAT_TURNOFF = false ∧ State.chargeBeyondTicks.barred (0 : Fin 4).val = false ∧
      State.chargeBeyondTicks.charging (0 : Fin 4).val = true ∧
      State.chargeBeyondTicks.chargeDue (0 : Fin 4).val (0 : Fin 3).val = true ∧
      (((0 : BitVec 8).toNat : Nat) : Int) ≤ State.chargeBeyondTicks.bsRise (0 : Fin 4).val := by
  refine ⟨⟨?_, ?_⟩, ?_, ?_, ?_, ?_, ?_, ?_⟩ <;> decide +kernel

/-- The pulse changes the tick of the first one. -/
theorem State.chargeBeyondTicks_refresh_first :
    (State.chargeBeyondTicks.onStn 0 (State.chargeBeyondTicks.bsRefresh 0 0 0)).get (stnB 0) H.bsChg0 = 0 := by
  decide +kernel

/-- Refutes O44: a charge pulse that leaves its leg low need not keep the tick of the first pulse, when that is out of its format. -/
theorem not_gateSupplyAndEdges : ¬ Obligations.GateSupplyAndEdges := by
  intro h
  obtain ⟨hserves, hdirect, hturn, hbar, hcharging, hdue, hlow⟩ := State.chargeBeyondTicks_due
  obtain ⟨-, -, hpulse, -⟩ := h.1 State.chargeBeyondTicks 0 0 0 0 false false hserves
  obtain ⟨-, hcharge, -⟩ := hpulse hdirect hturn hbar (by rw [hcharging]; exact hdue)
  obtain ⟨t, hexec, hsets, -⟩ := hcharge hlow hcharging
  have ht : State.chargeBeyondTicks.onStn 0 (State.chargeBeyondTicks.bsRefresh 0 0 0) = t := Host.Outcome.next.inj hexec
  have hfirst := hsets (stnB 0, H.bsChg0, 2 ^ 65) (by
    rw [hcharging]
    decide +kernel)
  rw [← ht, State.chargeBeyondTicks_refresh_first] at hfirst
  cases hfirst

end Sys2Proof.Machine
end

section
/-!
PROOFS. What an operation of a station writes: registers at named bit addresses, and nothing of the commands that wait for an answer. `Writes` says so of
the two-step turn-off, of packets, of records and of the change of mode (R193, R78, R389, R291).
-/
namespace Sys2Proof.Machine

/-- `t` comes from `s` with every register but those at the bit addresses `ks` as it was, and with every command that waits for an answer. -/
structure Writes (ks : List Nat) (s t : State) : Prop where
  regs : ∀ k, k ∉ ks → t.regs.get k = s.regs.get k
  busy : t.mil.busy = s.mil.busy

namespace Writes

variable {ks : List Nat} {s0 s t : State}

theorem refl (s : State) : Writes ks s s := ⟨fun _ _ => rfl, rfl⟩

theorem trans {u : State} (h : Writes ks s t) (h' : Writes ks t u) : Writes ks s u :=
  ⟨fun k hk => (h'.regs k hk).trans (h.regs k hk), h'.busy.trans h.busy⟩

theorem mono {ks' : List Nat} (h : Writes ks s t) (hks : ks ⊆ ks') : Writes ks' s t :=
  ⟨fun k hk => h.regs k fun hin => hk (hks hin), h.busy⟩

theorem get {b : Nat} {f : Fld} (h : Writes ks s t) (hf : f.key b ∉ ks) : t.get b f = s.get b f := by
  rw [State.get, State.get, h.regs _ hf]

theorem ite {c : Prop} [Decidable c] {u v : State} (hu : Writes ks s0 u) (hv : Writes ks s0 v) : Writes ks s0 (if c then u else v) := by
  split <;> assumption

/-- What touches no register and makes no command busy or free. -/
theorem other (h : Writes ks s0 s) (hr : t.regs = s.regs) (hb : t.mil.busy = s.mil.busy) : Writes ks s0 t := h.trans ⟨fun _ _ => by rw [hr], hb⟩

theorem put {b : Nat} {f : Fld} {v : Int} (h : Writes ks s0 s) (hf : f.key b ∈ ks) : Writes ks s0 (s.put b f v) :=
  h.trans ⟨fun _ hx => Sparse.get_set_ne _ _ fun he => hx (he ▸ hf), rfl⟩

theorem bump {b : Nat} {f : Fld} (h : Writes ks s0 s) (hf : f.key b ∈ ks) : Writes ks s0 (s.bump b f) := (put h hf).trans ⟨fun _ _ => rfl, rfl⟩

theorem putFree {b : Nat} {f : Fld} (h : Writes ks s0 s) (hf : f.key b ∈ ks) : Writes ks s0 (s.putFree b f) :=
  put (h.other (t := (s.fresh f.w).2) rfl rfl) hf

theorem puts {b : Nat} {l : List (Fld × Int)} (h : Writes ks s0 s) (hl : ∀ f ∈ l.map Prod.fst, f.key b ∈ ks) : Writes ks s0 (s.puts b l) := by
  induction l generalizing s with
  | nil => exact h
  | cons e r ih =>
    obtain ⟨he, hr⟩ := List.forall_mem_cons.mp hl
    exact ih (h.put he) hr

/-! ### Packets and records -/

theorem queueNotice {i ty : Nat} {body : List Nat} (h : Writes State.noticeKeys s0 s) : Writes State.noticeKeys s0 (s.queueNotice i ty body) :=
  .ite (h.other rfl rfl) (.put (.bump (h.other (t := s.withPort i fun q => { q with evtLost := true }) rfl rfl) (by simp [State.noticeKeys]))
    (by simp [State.noticeKeys]))

theorem notice (s : State) (ty : Nat) (body : List Nat) : Writes State.noticeKeys s (s.notice ty body) := by
  unfold State.notice
  split
  · extract_lets r b s1 s2
    have h1 : Writes State.noticeKeys s s1 := .ite (.queueNotice (.refl s)) (.refl s)
    have h2 : Writes State.noticeKeys s s2 := .ite (.queueNotice h1) h1
    exact .ite (State.each_keeps h2 fun _ _ h => .queueNotice h) h2
  · exact .refl s

theorem loseTrig {k : Nat} (h : Writes recCounts s0 s) : Writes recCounts s0 (s.loseTrig k) :=
  h.trans ⟨fun _ hx => Sparse.get_set_ne _ _ fun he => hx (by simp [recCounts, he]), rfl⟩

theorem fifoEnter {t r code q : Nat} {data : List Nat} (h : Writes recCounts s0 s) : Writes recCounts s0 (s.fifoEnter t r code q data) :=
  .ite (.loseTrig h) (.ite (h.other rfl rfl) (.ite (.loseTrig h) (h.other rfl rfl)))

theorem trigger (s : State) (r t code : Nat) (data : List Nat) : Writes recCounts s (s.trigger r t code data) := by
  unfold State.trigger
  split
  · exact .refl s
  · extract_lets q s1 k s2
    have h1 : Writes recCounts s s1 := ⟨fun _ _ => rfl, rfl⟩
    have h2 : Writes recCounts s s2 := .ite h1 (.loseTrig h1)
    exact .ite (.fifoEnter h1) (.ite (.loseTrig h1) (.ite (.fifoEnter (h2.other rfl rfl)) (h1.other rfl rfl)))

end Writes

namespace State

variable {s : State} {n : Nat}

/-! ### The two-step turn-off (R193) -/

/-- The bit addresses of the enables and switches of a station. -/
def enableKeys (n : Nat) : List Nat :=
  [H.enab.key (stnB n), H.swU.key (stnB n), H.swV.key (stnB n), H.swW.key (stnB n), F.PWM_CMP_EN.key (stnB n), F.PWM_CMP_EN.key (stnB n + 4),
   F.PWM_CMP_EN.key (stnB n + 8)]

/-- The bit addresses that show a turn-off and the pulse levels of the legs. -/
def offKeys (n : Nat) : List Nat :=
  [F.GC_STAT_OFF_CONF, F.GC_STAT_TURNOFF, H.toPhase, H.lvlU, H.lvlV, H.lvlW].map (·.key (stnB n)) ++ [F.SUP_STO_STAT_OFF_CONF.key (halfB (n / 2))]

/-- Every enable and switch of the station is 0. -/
theorem dropEnables_sets (s : State) (n : Fin 4) : s.Sets (s.dropEnables n.val)
    ([(stnB n.val, H.enab, 0), (stnB n.val, H.swU, 0), (stnB n.val, H.swV, 0), (stnB n.val, H.swW, 0), (stnB n.val, F.PWM_CMP_EN, 0),
      (stnB n.val + 4, F.PWM_CMP_EN, 0), (stnB n.val + 8, F.PWM_CMP_EN, 0)]) :=
  s.sets_each_puts (l := [(stnB n.val, [(H.enab, 0), (H.swU, 0), (H.swV, 0), (H.swW, 0)]), (stnB n.val, [(F.PWM_CMP_EN, 0)]),
    (stnB n.val + 4, [(F.PWM_CMP_EN, 0)]), (stnB n.val + 8, [(F.PWM_CMP_EN, 0)])]) (by decide +revert)

theorem turnOff_of_link (h : s.get (stnB n) F.GC_CTRL_DMODE = 1) : s.turnOff n = ((s.dropEnables n).puts (stnB n)
    [(F.GC_STAT_OFF_CONF, 1), (H.toPhase, 0), (H.lvlU, 0), (H.lvlV, 0), (H.lvlW, 0)]).putStoOff (n / 2) :=
  if_pos (beq_iff_eq.mpr h)

theorem turnOff_of_running (h : s.get (stnB n) F.GC_CTRL_DMODE ≠ 1) (hrun : s.on (stnB n) F.GC_STAT_TURNOFF = true) :
    s.turnOff n = s.dropEnables n :=
  (if_neg (by simpa using h)).trans (if_pos hrun)

theorem turnOff_of_begins (h : s.get (stnB n) F.GC_CTRL_DMODE ≠ 1) (hrun : s.on (stnB n) F.GC_STAT_TURNOFF = false) :
    s.turnOff n = (s.dropEnables n).puts (stnB n)
      [(F.GC_STAT_TURNOFF, 1), (H.toPhase, if !s.on (stnB n) F.GC_STAT_OFF_CONF && s.midHolds n then 1 else 2)] :=
  (if_neg (by simpa using h)).trans (if_neg (by simp [hrun]))

/-- Beyond the enables the turn-off writes what shows it, and in link mode the pulse levels. -/
theorem dropped_writes (s : State) (n : Nat) : Writes (offKeys n) (s.dropEnables n) (s.turnOff n) := by
  by_cases hlink : s.get (stnB n) F.GC_CTRL_DMODE = 1
  · rw [turnOff_of_link hlink]
    exact .put (.puts (.refl _) (by simp [offKeys])) (by simp [offKeys])
  · cases hrun : s.on (stnB n) F.GC_STAT_TURNOFF with
    | true => rw [turnOff_of_running hlink hrun]; exact .refl _
    | false => rw [turnOff_of_begins hlink hrun]; exact .puts (.refl _) (by simp [offKeys])

theorem turnOff_writes (s : State) (n : Nat) : Writes (enableKeys n ++ offKeys n) s (s.turnOff n) := by
  have hdrop : Writes (enableKeys n) s (s.dropEnables n) :=
    .puts (.puts (.puts (.puts (.refl s) (by simp [enableKeys])) (by simp [enableKeys])) (by simp [enableKeys])) (by simp [enableKeys])
  exact (hdrop.mono (List.subset_append_left ..)).trans ((s.dropped_writes n).mono (List.subset_append_right ..))

/-- What the turn-off drops stays dropped. -/
theorem turnOff_get_dropped {b : Nat} {f : Fld} (h : (s.dropEnables n).get b f = 0) (hf : f.key b ∉ offKeys n) : (s.turnOff n).get b f = 0 :=
  ((s.dropped_writes n).get hf).trans h

theorem turnOff_enab (s : State) (n : Fin 4) : (s.turnOff n.val).get (stnB n.val) H.enab = 0 :=
  turnOff_get_dropped ((s.dropEnables_sets n).1 (stnB n.val, H.enab, 0) (by simp)) (by revert n; decide)

theorem turnOff_compare (s : State) (n : Fin 4) (k : Fin 3) : (s.turnOff n.val).get (stnB n.val + 4 * k.val) F.PWM_CMP_EN = 0 := by
  refine turnOff_get_dropped ?_ (by revert n k; decide)
  match k with
  | 0 => exact (s.dropEnables_sets n).1 (stnB n.val, F.PWM_CMP_EN, 0) (by simp)
  | 1 => exact (s.dropEnables_sets n).1 (stnB n.val + 4, F.PWM_CMP_EN, 0) (by simp)
  | 2 => exact (s.dropEnables_sets n).1 (stnB n.val + 8, F.PWM_CMP_EN, 0) (by simp)

theorem turnOff_sw (s : State) (n : Fin 4) (k : Fin 3) : (s.turnOff n.val).get (stnB n.val) (swF k.val) = 0 := by
  refine turnOff_get_dropped ?_ (by revert n k; decide)
  match k with
  | 0 => exact (s.dropEnables_sets n).1 (stnB n.val, H.swU, 0) (by simp)
  | 1 => exact (s.dropEnables_sets n).1 (stnB n.val, H.swV, 0) (by simp)
  | 2 => exact (s.dropEnables_sets n).1 (stnB n.val, H.swW, 0) (by simp)

/-- The enables of another station stand. -/
theorem turnOff_enab_ne (s : State) {n m : Fin 4} (hm : m ≠ n) : (s.turnOff n.val).get (stnB m.val) H.enab = s.get (stnB m.val) H.enab :=
  (s.turnOff_writes n.val).get (by revert n m; decide)

/-- One of several writes of fields that begin at different bits. -/
theorem get_puts_of_mem (s : State) (b : Nat) {f : Fld} {v : Int} {l : List (Fld × Int)} (hf : (f, v) ∈ l)
    (hl : ((l.map Prod.fst).map fun f => 8 * f.off + f.lo).Nodup := by simp only [List.map_cons, List.map_nil]; decide) :
    (s.puts b l).get b f = f.wrap v :=
  (s.sets_puts_of_apart b hl).1 _ (List.mem_map_of_mem hf)

/-- The half's `OFF_CONF` is no field of a station. -/
@[simp] theorem putStoOff_get (s : State) (n : Nat) (f : Fld) : (s.putStoOff (n / 2)).get (stnB n) f = s.get (stnB n) f :=
  get_put_ne _ _ (by simp only [Fld.key, stnB, F.SUP_STO_STAT_OFF_CONF]; omega)

/-- Whether a station is turned off with its pulse levels low, or turning off. -/
def offOrTurning (s : State) (n : Nat) : Prop :=
  (s.get (stnB n) F.GC_STAT_OFF_CONF = 1 ∧ ∀ k : Fin 3, s.get (stnB n) (lvlF k.val) = 0) ∨ s.on (stnB n) F.GC_STAT_TURNOFF = true

theorem turnOff_offOrTurning (s : State) (n : Fin 4) : (s.turnOff n.val).offOrTurning n.val := by
  have hkept : (s.dropEnables n.val).on (stnB n.val) F.GC_STAT_TURNOFF = s.on (stnB n.val) F.GC_STAT_TURNOFF :=
    congrArg (· != 0) ((s.dropEnables_sets n).get_of_notMem (by revert n; decide))
  by_cases hlink : s.get (stnB n.val) F.GC_CTRL_DMODE = 1
  · rw [turnOff_of_link hlink]
    refine .inl ⟨?_, fun k => ?_⟩
    · exact (putStoOff_get ..).trans (get_puts_of_mem _ _ (v := 1) (by simp))
    · refine (putStoOff_get ..).trans ?_
      match k with
      | 0 => exact get_puts_of_mem _ _ (f := H.lvlU) (v := 0) (by simp)
      | 1 => exact get_puts_of_mem _ _ (f := H.lvlV) (v := 0) (by simp)
      | 2 => exact get_puts_of_mem _ _ (f := H.lvlW) (v := 0) (by simp)
  · refine .inr ?_
    cases hrun : s.on (stnB n.val) F.GC_STAT_TURNOFF with
    | true => rw [turnOff_of_running hlink hrun, hkept, hrun]
    | false =>
      rw [turnOff_of_begins hlink hrun, on, get_puts_of_mem _ _ (v := 1) (by simp)]
      rfl

/-- A turned-off or turning-off station takes no switching command. -/
theorem offOrTurning.torqueOff (h : s.offOrTurning n) : s.torqueOff n = true := by
  rcases h with ⟨hconf, -⟩ | hturn
  · simp [State.torqueOff, on, hconf]
  · simp [State.torqueOff, hturn]

end State

end Sys2Proof.Machine
end

section
/-!
PROOFS. The two-step turn-off (R193) at the pins and in its rows, and the end of zero-vector braking (R207).
-/
namespace Sys2Proof.Machine
namespace State

variable {s : State} {n : Fin 4}

/-! ### Gates and links -/

/-- A gate has an observe-only cell, or none (R429). -/
theorem gateCells : ∀ (n : Fin 4) (k : Fin 3) (two : Bool), ∀ p ∈ [OutPin.gateHigh n.val k.val, .gateLow n.val k.val],
    ((scanFind p 0 (scanChain two)).map Prod.snd).getD .observe = .observe := by
  decide +kernel

/-- The test port leaves a gate that its block holds low as it is. -/
theorem gate_pin_low {p : OutPin} {k : Fin 3} (hp : p ∈ [OutPin.gateHigh n.val k.val, .gateLow n.val k.val]) (hoff : pinOff p = .low)
    (hstays : staysLow p = true) (hon : s.pinOn p = .low) : s.pin p = .low := by
  have hscan : s.scanLevel p = .low := by
    have hcell := gateCells n k s.bothHalves p hp
    unfold scanLevel
    split
    · exact hon
    · next hfind =>
      rw [hfind] at hcell
      obtain rfl : _ = CellKind.observe := hcell
      split
      · rw [floated, if_pos hstays]
      · exact hon
  unfold pin
  split
  · exact hoff
  · split
    · exact hscan
    · exact hon

theorem turnOff_gatePin (s : State) (n : Fin 4) (k : Fin 3) {on : Int} (hon : on ≠ 0) : (s.turnOff n.val).gatePin n.val k.val on = .low := by
  have hoff : (0 == on) = false := by simpa using hon.symm
  rw [gatePin, turnOff_sw, hoff, Bool.and_false]
  rfl

/-- Outside the boundary scan a link output whose level or station is off is not high. -/
theorem link_pin_ne_high {p : OutPin} {v : Bool} (hscan : s.scanned = false) (hoff : pinOff p = .z) (hon : s.pinOn p = s.linkPin n.val v)
    (hlow : v = false ∨ s.on (stnB n.val) F.GC_STAT_TURNOFF = true) : s.pin p ≠ .high := by
  have hlink : s.linkPin n.val v ≠ .high := by
    unfold linkPin
    split
    · rcases hlow with h | h <;> simp [h, drive]
    · simp
  unfold pin
  rw [hscan, hoff, hon]
  split
  · simp
  · exact hlink

/-- The turn-off is no matter of the test port. -/
theorem turnOff_scanned (s : State) (n : Nat) : (s.turnOff n).scanned = s.scanned := by
  have hwork : RegWork s (s.turnOff n) := .turnOff (.refl s)
  simp only [scanned, regionRun, hwork.chip, hwork.log]

/-! ### The rows -/

theorem next_onGate (h : s.stnLive n.val = true) (t : State) : (.next (s.onGate n.val t) : Host.Outcome State Fault Refusal) = .next t :=
  congrArg _ (if_pos h)

theorem midEnd_of_hold (hrun : s.on (stnB n.val) F.GC_STAT_TURNOFF = true) (hhold : s.get (stnB n.val) H.toPhase = 1) :
    s.midEnd n.val = s.put (stnB n.val) H.toPhase 2 := if_pos (by simp [hrun, hhold])

theorem offDone_of_running (hrun : s.on (stnB n.val) F.GC_STAT_TURNOFF = true) : s.offDone n.val =
    (s.puts (stnB n.val) [(F.GC_STAT_TURNOFF, 0), (F.GC_STAT_OFF_CONF, 1), (H.toPhase, 0)]).putStoOff (n.val / 2) := if_pos hrun

theorem offDone_of_off (hoff : s.on (stnB n.val) F.GC_STAT_TURNOFF = false) : s.offDone n.val = s := if_neg (by simp [hoff])

theorem zvbEnd_of_braking (h : s.on (stnB n.val) H.zvb = true) : s.zvbEnd n.val = s.faultTrip n.val (s.nat (stnB n.val) H.zvbCode) := if_pos h

theorem zvbEnd_of_idle (h : s.on (stnB n.val) H.zvb = false) : s.zvbEnd n.val = s := if_neg (by simp [h])

end State

/-- Settles O43: the turn-off drops the enables and switches first, and what follows writes neither them nor another station; with no switch on every
gate is low, and a link output is low by its level in link mode and by the running turn-off else. -/
theorem turnOff : Obligations.TurnOff := by
  intro s n b
  have hlevels := s.turnOff_offOrTurning n
  have hscanned : s.scanned = false → (s.turnOff n.val).scanned = false := fun h => (s.turnOff_scanned n.val).trans h
  refine ⟨s.turnOff_enab n, s.turnOff_compare n, hlevels.torqueOff, fun k => ⟨?high, ?low, fun hscan => ⟨?link, ?linkEn⟩⟩,
    fun m hm => s.turnOff_enab_ne hm, fun hlive hrun => ⟨fun hhold => ?hold, ?complete⟩, fun hlive hoff => ?notRunning,
    fun hlive hzvb => ?braking, fun hlive hzvb => ?notBraking⟩
  case high => exact State.gate_pin_low (n := n) (k := k) (by simp) rfl rfl (s.turnOff_gatePin n k (by decide))
  case low => exact State.gate_pin_low (n := n) (k := k) (by simp) rfl rfl (s.turnOff_gatePin n k (by decide))
  case link =>
    refine State.link_pin_ne_high (n := n) (hscanned hscan) rfl rfl (hlevels.imp (fun h => ?_) id)
    simp [State.on, h.2 k]
  case linkEn => exact State.link_pin_ne_high (n := n) (hscanned hscan) rfl rfl (.inl (by simp [State.on, s.turnOff_sw n k]))
  case hold =>
    refine ⟨_, State.next_onGate hlive _, ?_⟩
    rw [State.midEnd_of_hold hrun hhold]
    exact s.sets_put b H.toPhase 2
  case complete =>
    refine ⟨_, State.next_onGate hlive _, ?_⟩
    rw [State.offDone_of_running hrun]
    simp only [b, State.putStoOff_get]
    exact ⟨State.get_puts_of_mem _ _ (v := 0) (by simp), State.get_puts_of_mem _ _ (v := 1) (by simp), State.get_puts_of_mem _ _ (v := 0) (by simp)⟩
  case notRunning => exact (State.next_onGate hlive _).trans (congrArg _ (State.offDone_of_off hoff))
  case braking => exact (State.next_onGate hlive _).trans (congrArg _ (State.zvbEnd_of_braking hzvb))
  case notBraking => exact (State.next_onGate hlive _).trans (congrArg _ (State.zvbEnd_of_idle hzvb))

end Sys2Proof.Machine
end

section
/-!
PROOFS. Trips of the gate drive (R185, R189 to R192, R195): where one is a fault stop, where it joins the record of its clock, and the rows that report one.
-/
namespace Sys2Proof.Machine

/-- Fewer fields named make more of the statement. -/
theorem State.Only.mono {s t : State} {w w' : List (Nat × Fld)} (h : s.Only t w) (hw : w ⊆ w') : s.Only t w' where
  regs k hk := h.regs k fun hin => hk (List.map_subset _ hw hin)
  rest := h.rest

/-! ### What decides on a trip -/

/-- The fields of a station by which a trip is judged: its mode, its drive mode, its charge in arming, and the clock of its record. -/
def stageFields : List Fld := [F.STN_STAT_MODE, F.GC_CTRL_DMODE, H.arming, H.bsChgT, H.gcT]

/-- A trip is judged in `t` as in `s`. -/
structure SameStage (n : Nat) (s t : State) : Prop where
  time : t.time = s.time
  get  : ∀ f ∈ stageFields, t.get (stnB n) f = s.get (stnB n) f

namespace SameStage

variable {n : Nat} {s t : State}

theorem put {f : Fld} (v : Int) (hf : ∀ e ∈ stageFields, 8 * f.off + f.lo ≠ 8 * e.off + e.lo := by decide) :
    SameStage n s (s.put (stnB n) f v) :=
  ⟨rfl, fun e he => State.get_put_fld s _ v (hf e he)⟩

theorem orBits {f : Fld} (m : Nat) (hf : ∀ e ∈ stageFields, 8 * f.off + f.lo ≠ 8 * e.off + e.lo := by decide) :
    SameStage n s (s.orBits (stnB n) f m) :=
  ⟨rfl, fun e he => State.get_put_fld s _ _ (hf e he)⟩

theorem mode (h : SameStage n s t) : t.mode n = s.mode n := congrArg Int.toNat (h.get _ (by simp [stageFields]))

theorem direct (h : SameStage n s t) : t.direct n = s.direct n := congrArg (· == 0) (h.get _ (by simp [stageFields]))

theorem trips (h : SameStage n s t) : t.trips n = s.trips n := by simp only [State.trips, h.mode]

theorem gcNow (h : SameStage n s t) : t.gcNow n = s.gcNow n := by
  simp only [State.gcNow, h.mode, h.time, h.get H.gcT (by simp [stageFields])]

theorem tripsOc (h : SameStage n s t) : t.tripsOc n = s.tripsOc n := by
  simp only [State.tripsOc, State.on, h.trips, h.get H.arming (by simp [stageFields]), h.get H.bsChgT (by simp [stageFields])]

end SameStage

namespace State

variable {s : State} {n : Nat}

theorem trips_iff : s.trips n = true ↔ s.mode n ∈ [1, 2, 3, 4, 5, 7] := by
  simp [trips, mDiag, mArmed, mRun, mStopping, mCatch, mIsolated, or_assoc]

theorem tripsOc_iff : s.tripsOc n = true ↔ s.mode n ∈ [1, 2, 3, 4, 5, 7] ∨ (s.on (stnB n) H.arming = true ∧ s.on (stnB n) H.bsChgT = true) := by
  rw [tripsOc, Bool.or_eq_true, trips_iff, Bool.and_eq_true]

theorem gcNow_iff : s.gcNow n = true ↔ s.mode n = 6 ∧ s.get (stnB n) H.gcT = (s.time : Int) + 1 := by
  simp [gcNow, mFault]

/-- A cause raises a fault: in the modes that trip, and an overcurrent in arming once a charge pulse has been sent too. -/
def gateLive (s : State) (n cause : Nat) : Bool := s.trips n || ((cause == 0x52 || cause == 0x53) && s.tripsOc n)

theorem gateLive_iff {cause : Nat} : s.gateLive n cause = true ↔ s.mode n ∈ [1, 2, 3, 4, 5, 7] ∨
    ((cause = 0x52 ∨ cause = 0x53) ∧ s.on (stnB n) H.arming = true ∧ s.on (stnB n) H.bsChgT = true) := by
  rw [gateLive, Bool.or_eq_true, Bool.and_eq_true, trips_iff, tripsOc_iff, Bool.or_eq_true, beq_iff_eq, beq_iff_eq]
  constructor
  · rintro (hmode | ⟨hcause, hmode | harm⟩)
    · exact .inl hmode
    · exact .inl hmode
    · exact .inr ⟨hcause, harm⟩
  · rintro (hmode | ⟨hcause, harm⟩)
    · exact .inl hmode
    · exact .inr ⟨hcause, .inr harm⟩

/-! ### A trip -/

variable {cause legs : Nat} {side : Bool}

theorem gateTrip_eq : s.gateTrip n cause legs side =
    if s.gateLive n cause then (s.faultTrip n (stnCode n 1 cause)).gcFault n legs side
    else if s.gcNow n then s.gcSame n cause legs side
    else if s.mode n = mFault && s.on (stnB n) F.GC_STAT_TURNOFF then s.orBits (stnB n) F.GC_FAULT_LEGS2 (legs % 8)
    else s := rfl

theorem gateTrip_of_live (h : s.gateLive n cause = true) :
    s.gateTrip n cause legs side = (s.faultTrip n (stnCode n 1 cause)).gcFault n legs side := by rw [gateTrip_eq, if_pos h]

theorem gateTrip_of_now (h : ¬s.gateLive n cause = true) (hnow : s.gcNow n = true) :
    s.gateTrip n cause legs side = s.gcSame n cause legs side := by rw [gateTrip_eq, if_neg h, if_pos hnow]

theorem gateTrip_of_later (h : ¬s.gateLive n cause = true) (hmode : s.mode n = 6) (hlater : s.get (stnB n) H.gcT ≠ (s.time : Int) + 1)
    (hturn : s.on (stnB n) F.GC_STAT_TURNOFF = true) : s.gateTrip n cause legs side = s.orBits (stnB n) F.GC_FAULT_LEGS2 (legs % 8) := by
  have hnow : ¬s.gcNow n = true := fun hnow => hlater (gcNow_iff.mp hnow).2
  rw [gateTrip_eq, if_neg h, if_neg hnow, if_pos (by simp [hmode, hturn, mFault])]

theorem gateTrip_of_elsewhere (h : ¬s.gateLive n cause = true)
    (hidle : s.mode n ≠ 6 ∨ (s.on (stnB n) F.GC_STAT_TURNOFF = false ∧ s.get (stnB n) H.gcT ≠ (s.time : Int) + 1)) :
    s.gateTrip n cause legs side = s := by
  have hnow : ¬s.gcNow n = true := fun hnow => by
    obtain ⟨hmode, hclock⟩ := gcNow_iff.mp hnow
    exact hidle.elim (· hmode) fun h => h.2 hclock
  have hlater : ¬(s.mode n = mFault && s.on (stnB n) F.GC_STAT_TURNOFF) = true := by
    rcases hidle with hmode | ⟨hturn, -⟩
    · simp [hmode, mFault]
    · simp [hturn]
  rw [gateTrip_eq, if_neg h, if_neg hnow, if_neg hlater]

theorem sets_orBits (s : State) (b : Nat) (f : Fld) (m : Nat) : s.Sets (s.orBits b f m) [(b, f, f.wrap (orI (s.get b f) m))] := sets_put_marks ..

/-- The fields of the record in `GC_FAULT`, in the form of a change. -/
def recordFields (n : Nat) : List (Nat × Fld) := [(stnB n, F.GC_FAULT_LEGS), (stnB n, F.GC_FAULT_CAUSE), (stnB n, F.GC_FAULT_SIDE)]

/-- The cause that a record in `GC_FAULT` shows with a further one: the higher. -/
def joinedCause (s : State) (n cause : Nat) : Int :=
  if s.nat (stnB n) F.GC_FAULT_CAUSE + 64 < cause then F.GC_FAULT_CAUSE.wrap ((cause % 64 : Nat) : Int) else s.get (stnB n) F.GC_FAULT_CAUSE

theorem joinedCause_of_higher (h : s.nat (stnB n) F.GC_FAULT_CAUSE + 64 < cause) :
    s.joinedCause n cause = F.GC_FAULT_CAUSE.wrap ((cause % 64 : Nat) : Int) := if_pos h

theorem joinedCause_of_notHigher (h : ¬s.nat (stnB n) F.GC_FAULT_CAUSE + 64 < cause) :
    s.joinedCause n cause = s.get (stnB n) F.GC_FAULT_CAUSE := if_neg h

/-- What joins a record in `GC_FAULT`: its legs, and a higher cause. -/
structure Joins (n cause legs : Nat) (s t : State) : Prop where
  legs  : t.get (stnB n) F.GC_FAULT_LEGS = F.GC_FAULT_LEGS.wrap (orI (s.get (stnB n) F.GC_FAULT_LEGS) (legs % 8))
  cause : t.get (stnB n) F.GC_FAULT_CAUSE = s.joinedCause n cause
  only  : s.Only { t with flt := s.flt, log := s.log, mil := s.mil } (recordFields n)

theorem gcSame_of_higher (h : s.nat (stnB n) F.GC_FAULT_CAUSE + 64 < cause) : s.gcSame n cause legs side =
    [n, partner n].foldl (fun t m => t.recode m (gcCode n (s.nat (stnB n) F.GC_FAULT_CAUSE + 64)) (gcCode n cause))
      ((s.orBits (stnB n) F.GC_FAULT_LEGS (legs % 8)).puts (stnB n) [(F.GC_FAULT_CAUSE, cause % 64), (F.GC_FAULT_SIDE, b2i side)]) := by
  unfold gcSame
  dsimp only
  rw [if_pos h]

/-- A cause that is not above the record's leaves it, and its side at most changes. -/
theorem gcSame_of_notHigher (h : ¬s.nat (stnB n) F.GC_FAULT_CAUSE + 64 < cause) :
    s.gcSame n cause legs side = s.orBits (stnB n) F.GC_FAULT_LEGS (legs % 8) ∨
      s.gcSame n cause legs side = (s.orBits (stnB n) F.GC_FAULT_LEGS (legs % 8)).put (stnB n) F.GC_FAULT_SIDE (b2i side) := by
  unfold gcSame
  extract_lets b old legs0 low s1
  rw [if_neg h]
  split
  · exact .inr rfl
  · exact .inl rfl

/-- `t` is `s` but for fault lists, records and packets. -/
def RecordsOnly (s t : State) : Prop := ∃ f l m, t = { s with flt := f, log := l, mil := m }

theorem RecordsOnly.refl (s : State) : s.RecordsOnly s := ⟨s.flt, s.log, s.mil, rfl⟩

theorem RecordsOnly.recode {t : State} (h : s.RecordsOnly t) (m old new : Nat) : s.RecordsOnly (t.recode m old new) := by
  obtain ⟨f, l, x, rfl⟩ := h
  exact ⟨_, _, _, rfl⟩

theorem RecordsOnly.get {t : State} (h : s.RecordsOnly t) (b : Nat) (f : Fld) : t.get b f = s.get b f := by
  obtain ⟨f, l, m, rfl⟩ := h
  rfl

/-- A change of registers beside one of records. -/
theorem RecordsOnly.only {s0 t : State} {w : List (Nat × Fld)} (h : s.RecordsOnly t) (hw : s0.Only s w) :
    s0.Only { t with flt := s0.flt, log := s0.log, mil := s0.mil } w := by
  have hflt : s.flt = s0.flt := (congrArg State.flt hw.rest :)
  have hlog : s.log = s0.log := (congrArg State.log hw.rest :)
  have hmil : s.mil = s0.mil := (congrArg State.mil hw.rest :)
  have hs : { t with flt := s0.flt, log := s0.log, mil := s0.mil } = s := by
    obtain ⟨f, l, m, rfl⟩ := h
    rw [← hflt, ← hlog, ← hmil]
  rw [hs]
  exact hw

theorem gcSame_joins (s : State) (n cause legs : Nat) (side : Bool) : Joins n cause legs s (s.gcSame n cause legs side) := by
  have hor := s.sets_orBits (stnB n) F.GC_FAULT_LEGS (legs % 8)
  generalize hu : s.orBits (stnB n) F.GC_FAULT_LEGS (legs % 8) = u at hor
  obtain ⟨hval, honly⟩ := hor
  have hlegs : u.get (stnB n) F.GC_FAULT_LEGS = F.GC_FAULT_LEGS.wrap (orI (s.get (stnB n) F.GC_FAULT_LEGS) (legs % 8)) :=
    hval _ (List.mem_singleton_self _)
  by_cases h : s.nat (stnB n) F.GC_FAULT_CAUSE + 64 < cause
  · rw [gcSame_of_higher h, hu]
    have hmore := u.sets_puts_of_apart (stnB n) (l := [(F.GC_FAULT_CAUSE, (cause % 64 : Int)), (F.GC_FAULT_SIDE, b2i side)])
    have hkept := get_puts_of_apart u (stnB n) (f := F.GC_FAULT_LEGS)
      (l := [(F.GC_FAULT_CAUSE, (cause % 64 : Int)), (F.GC_FAULT_SIDE, b2i side)]) (by simp only [List.map_cons, List.map_nil]; decide)
    generalize u.puts (stnB n) [(F.GC_FAULT_CAUSE, (cause % 64 : Int)), (F.GC_FAULT_SIDE, b2i side)] = v at hmore hkept ⊢
    have hrec : v.RecordsOnly ([n, partner n].foldl (fun t m => t.recode m (gcCode n (s.nat (stnB n) F.GC_FAULT_CAUSE + 64)) (gcCode n cause)) v) :=
      ((RecordsOnly.refl v).recode ..).recode ..
    refine ⟨(hrec.get ..).trans (hkept.trans hlegs), (hrec.get ..).trans ?_, hrec.only (honly.trans hmore.2)⟩
    exact (hmore.1 _ (List.mem_cons_self ..)).trans (joinedCause_of_higher h).symm
  · have hcause : u.get (stnB n) F.GC_FAULT_CAUSE = s.joinedCause n cause := by
      rw [← hu, joinedCause_of_notHigher h]
      exact get_put_fld _ _ _ (by decide)
    rcases gcSame_of_notHigher (legs := legs) (side := side) h with he | he
    · rw [he, hu]
      exact ⟨hlegs, hcause, (RecordsOnly.refl u).only (honly.mono (by simp [recordFields]))⟩
    · rw [he, hu]
      refine ⟨(get_put_fld _ _ _ (by decide)).trans hlegs, (get_put_fld _ _ _ (by decide)).trans hcause, (RecordsOnly.refl _).only ?_⟩
      exact (honly.trans (only_put u (stnB n) F.GC_FAULT_SIDE _)).mono (by simp [recordFields])

/-! ### The rows that report one -/

theorem vdsTrip_of_bridge {high hard : Bool} (h : s.direct n = false) : s.vdsTrip n legs high hard = s := if_pos (by simp [h])

theorem gateFollow_of_bridge (h : s.direct n = false) : s.gateFollow n legs = s := if_neg (by simp [h])

theorem gateFollow_of_direct (h : s.direct n = true) : s.gateFollow n legs = s.gateTrip n 0x55 legs false := if_pos h

/-- A comparator's trip is seen before it is judged; an absolute one that raises no fault is seen as one. -/
theorem vdsTrip_of_direct {high hard : Bool} (h : s.direct n = true) : s.vdsTrip n legs high hard =
    let v := s.orBits (stnB n) F.GC_STAT_VDS_SEEN (legs % 8)
    (if hard && !s.trips n then v.put (stnB n) F.GC_STAT_HARD_SEEN 1 else v).gateTrip n (if hard then 0x51 else 0x50) legs high := by
  have hv : SameStage n s (s.orBits (stnB n) F.GC_STAT_VDS_SEEN (legs % 8)) := .orBits _
  dsimp only
  rw [← hv.trips]
  exact if_neg (by simp [h])

theorem ocHard_of_live (h : s.tripsOc n = true) : s.ocHard n legs = s.gateTrip n 0x53 legs false := by rw [ocHard, if_pos h]

theorem ocHard_of_seen (h : ¬s.tripsOc n = true) :
    s.ocHard n legs = (s.put (stnB n) F.GC_STAT_HARD_SEEN 1).gateTrip n 0x53 legs false := by rw [ocHard, if_neg h]

/-- The run of PWM periods with a soft overcurrent, with this one (R190). -/
def ocRunNext (s : State) (n : Nat) (again : Bool) : Int := min 15 ((if again then s.get (stnB n) H.ocRun else 0) + 1)

/-- A soft overcurrent seen and its period counted. -/
def ocCounted (s : State) (n legs : Nat) (again : Bool) : State :=
  ((s.orBits (stnB n) F.GC_STAT_OC_SEEN (legs % 8)).bump (stnB n) F.GC_CNT_OC_PER).put (stnB n) H.ocRun (s.ocRunNext n again)

variable {again : Bool}

theorem ocSoft_of_ignored (hlive : ¬s.tripsOc n = true) (hnow : ¬s.gcNow n = true) :
    s.ocSoft n legs again = (s.orBits (stnB n) F.GC_STAT_OC_SEEN (legs % 8)).gateTrip n 0x52 legs false := by
  have hv : SameStage n s (s.orBits (stnB n) F.GC_STAT_OC_SEEN (legs % 8)) := .orBits _
  refine if_pos ?_
  rw [hv.tripsOc, hv.gcNow, Bool.eq_false_iff.mpr hlive, Bool.eq_false_iff.mpr hnow]
  rfl

theorem ocSoft_of_counted (h : s.tripsOc n = true ∨ s.gcNow n = true) : s.ocSoft n legs again =
    if s.get (stnB n) F.GC_OC_OC_N ≤ H.ocRun.wrap (s.ocRunNext n again)
      then ((s.ocCounted n legs again).put (stnB n) H.ocRun 0).gateTrip n 0x52 legs false else s.ocCounted n legs again := by
  have hv : SameStage n s (s.orBits (stnB n) F.GC_STAT_OC_SEEN (legs % 8)) := .orBits _
  have hseen : ¬(!s.tripsOc n && !s.gcNow n) = true := by
    rcases h with h | h <;> simp [h]
  have hrun : ((s.orBits (stnB n) F.GC_STAT_OC_SEEN (legs % 8)).bump (stnB n) F.GC_CNT_OC_PER).get (stnB n) H.ocRun = s.get (stnB n) H.ocRun :=
    (get_put_fld _ _ _ (by decide)).trans (get_put_fld _ _ _ (by decide))
  have hlimit : (s.ocCounted n legs again).get (stnB n) F.GC_OC_OC_N = s.get (stnB n) F.GC_OC_OC_N :=
    (get_put_fld _ _ _ (by decide)).trans ((get_put_fld _ _ _ (by decide)).trans (get_put_fld _ _ _ (by decide)))
  have hcount : (s.ocCounted n legs again).get (stnB n) H.ocRun = H.ocRun.wrap (s.ocRunNext n again) := get_put_same ..
  unfold ocSoft
  dsimp only
  rw [hv.tripsOc, hv.gcNow, if_neg hseen, hrun, ← hlimit, ← hcount]
  rfl

theorem lflt_of_quiet {low : Bool} (h : s.direct n = true ∨ low = false) : s.lflt n low = s.put (stnB n) F.GC_STAT_LFLT (b2i low) := by
  have hv : SameStage n s (s.put (stnB n) F.GC_STAT_LFLT (b2i low)) := .put _
  refine if_neg (?_ : ¬(low && !(s.put (stnB n) F.GC_STAT_LFLT (b2i low)).direct n) = true)
  rw [hv.direct]
  rcases h with h | h <;> simp [h]

theorem lflt_of_low (h : s.direct n = false) : s.lflt n true =
    if s.gcNow n then (s.put (stnB n) F.GC_STAT_LFLT 1).gcSame n 0x56 0 false
    else (s.put (stnB n) F.GC_STAT_LFLT 1).faultTrip n (stnCode n 1 0x56) := by
  have hv : SameStage n s (s.put (stnB n) F.GC_STAT_LFLT 1) := .put _
  rw [← hv.gcNow]
  refine if_pos (?_ : (true && !(s.put (stnB n) F.GC_STAT_LFLT 1).direct n) = true)
  simp [hv.direct, h]

theorem lrdy_of_quiet {high : Bool} (h : high = true ∨ s.on (stnB n) F.GC_STAT_LRDY = false ∨ s.direct n = true) :
    s.lrdy n high = s.put (stnB n) F.GC_STAT_LRDY (b2i high) := by
  have hv : SameStage n s (s.put (stnB n) F.GC_STAT_LRDY (b2i high)) := .put _
  unfold lrdy flag
  dsimp only
  refine if_neg ?_
  rw [hv.direct]
  rcases h with h | h | h <;> simp [h]

/-- The fall of a ready line that the station asks for. -/
theorem lrdy_of_fall (hrdy : s.on (stnB n) F.GC_STAT_LRDY = true) (h : s.direct n = false) (hreq : s.on (stnB n) F.GC_LINK_LRDY_REQ = true) :
    s.lrdy n false =
      if s.mode n ∈ [2, 3, 4, 7] then (s.put (stnB n) F.GC_STAT_LRDY 0).faultTrip n (stnCode n 1 0x57)
      else if s.gcNow n then (s.put (stnB n) F.GC_STAT_LRDY 0).gcSame n 0x57 0 false else s.put (stnB n) F.GC_STAT_LRDY 0 := by
  have hv : SameStage n s (s.put (stnB n) F.GC_STAT_LRDY 0) := .put _
  have hreq' : (s.put (stnB n) F.GC_STAT_LRDY 0).on (stnB n) F.GC_LINK_LRDY_REQ = true := by
    rw [on, get_put_fld _ _ _ (by decide)]
    exact hreq
  have hmode : (s.mode n == mArmed || s.mode n == mRun || s.mode n == mStopping || s.mode n == mIsolated) = true ↔ s.mode n ∈ [2, 3, 4, 7] := by
    simp [mArmed, mRun, mStopping, mIsolated, or_assoc]
  unfold lrdy flag
  dsimp only
  rw [show b2i false = 0 from rfl, hv.direct, hv.gcNow, hv.mode, if_pos (by simp [hrdy, h, hreq'])]
  simp only [hmode]

end State

/-- Settles O42: a trip by what it finds, then each row as the trip that it reports; what a row writes before is no part of what the trip is judged by. -/
theorem gateTrips : Obligations.GateTrips := by
  refine ⟨?trip, ?rows⟩
  case trip =>
    intro s n cause legs side b live t
    have hlive : s.gateLive n.val cause = true ↔ live := State.gateLive_iff
    refine ⟨fun h => ?fault, fun h hmode => ⟨fun hlater hturn => ?later, fun hclock => ?joins⟩, fun h hidle => ?elsewhere⟩
    case fault => exact State.gateTrip_of_live (hlive.mpr h)
    case later =>
      rw [show t = _ from State.gateTrip_of_later (mt hlive.mp h) hmode hlater hturn]
      exact s.sets_orBits b F.GC_FAULT_LEGS2 (legs % 8)
    case joins =>
      rw [show t = _ from State.gateTrip_of_now (mt hlive.mp h) (State.gcNow_iff.mpr ⟨hmode, hclock⟩)]
      obtain ⟨hlegs, hcause, honly⟩ := s.gcSame_joins n.val cause legs side
      exact ⟨hlegs, hcause, honly⟩
    case elsewhere => exact State.gateTrip_of_elsewhere (mt hlive.mp h) hidle
  case rows =>
    intro s n legs high hard again low hserves b live liveOc now
    have hrow := State.next_onStn hserves
    have hgate := State.next_onGate hserves.1
    have htrips : s.trips n.val = true ↔ live := State.trips_iff
    have hoc : s.tripsOc n.val = true ↔ liveOc := State.tripsOc_iff
    have hnow : s.gcNow n.val = true ↔ now := State.gcNow_iff
    refine ⟨?direct, fun hd => ⟨?noVds, ?noFollow⟩, fun h => ?oc, fun h => ?ocSeen, ⟨fun h h' => ?softSeen, ?softCounted⟩,
      fun h => ?lflt, fun hd h => ?lfltFault, fun hd h => ?lfltNow, fun h => ?lrdy, fun hrdy hd hreq hmode => ?lrdyFault,
      fun hrdy hd hreq h => ?lrdyNow⟩
    case direct =>
      intro hd v
      have hvds := State.vdsTrip_of_direct (legs := legs.toNat) (high := high) (hard := hard) hd
      refine ⟨fun hhard => ?_, fun hhard h => ?_, fun hhard h => ?_, (hrow _).trans (congrArg _ (State.gateFollow_of_direct hd))⟩
      · subst hhard
        exact (hrow _).trans (congrArg _ hvds)
      · subst hhard
        refine (hrow _).trans (congrArg _ (hvds.trans ?_))
        simp only [htrips.mpr h, Bool.not_true, Bool.and_false, Bool.false_eq_true, if_false, if_true]
        rfl
      · subst hhard
        refine (hrow _).trans (congrArg _ (hvds.trans ?_))
        simp only [Bool.eq_false_iff.mpr (mt htrips.mp h), Bool.not_false, Bool.and_true, if_true]
        rfl
    case noVds => exact (hrow _).trans (congrArg _ (State.vdsTrip_of_bridge hd))
    case noFollow => exact (hrow _).trans (congrArg _ (State.gateFollow_of_bridge hd))
    case oc => exact (hrow _).trans (congrArg _ (State.ocHard_of_live (hoc.mpr h)))
    case ocSeen => exact (hrow _).trans (congrArg _ (State.ocHard_of_seen (mt hoc.mp h)))
    case softSeen => exact (hrow _).trans (congrArg _ (State.ocSoft_of_ignored (mt hoc.mp h) (mt hnow.mp h')))
    case softCounted =>
      intro h run u
      have hsoft := State.ocSoft_of_counted (legs := legs.toNat) (again := again) (h.imp hoc.mpr hnow.mpr)
      refine ⟨fun hrun => ?_, fun hrun => ?_⟩
      · exact (hrow _).trans (congrArg _ (hsoft.trans (if_pos hrun)))
      · exact (hrow _).trans (congrArg _ (hsoft.trans (if_neg (Int.not_le.mpr hrun))))
    case lflt =>
      refine ⟨_, (hgate _).trans (congrArg _ (State.lflt_of_quiet h)), ?_⟩
      have hsets := s.sets_put b F.GC_STAT_LFLT (b2i low)
      rwa [show F.GC_STAT_LFLT.wrap (b2i low) = b2i low by cases low <;> rfl] at hsets
    case lfltFault => exact (hgate _).trans (congrArg _ ((State.lflt_of_low hd).trans (if_neg (mt hnow.mp h))))
    case lfltNow => exact (hgate _).trans (congrArg _ ((State.lflt_of_low hd).trans (if_pos (hnow.mpr h))))
    case lrdy =>
      refine ⟨_, (hgate _).trans (congrArg _ (State.lrdy_of_quiet h)), ?_⟩
      have hsets := s.sets_put b F.GC_STAT_LRDY (b2i high)
      rwa [show F.GC_STAT_LRDY.wrap (b2i high) = b2i high by cases high <;> rfl] at hsets
    case lrdyFault => exact (hgate _).trans (congrArg _ ((State.lrdy_of_fall hrdy hd hreq).trans (if_pos hmode)))
    case lrdyNow =>
      have hmode : s.mode n.val ∉ [2, 3, 4, 7] := by
        rw [h.1]
        decide
      exact (hgate _).trans (congrArg _ ((State.lrdy_of_fall hrdy hd hreq).trans ((if_neg hmode).trans (if_pos (hnow.mpr h)))))

end Sys2Proof.Machine
end

section
/-!
PROOFS. The ends of arming, diagnostics and sizing (R128, R187, R188): the change of mode that ends them, what every command that waited for one gets
back, and the cases of Table GD-6.
-/
namespace Sys2Proof.Machine

namespace State

variable {s t : State} {n : Fin 4}

/-! ### Commands that wait -/

theorem owed_of_busy (h : t.mil.busy = s.mil.busy) (op arg : Nat) : t.owed op arg = s.owed op arg := by rw [owed, owed, h]

theorem completeAll_milWork (s : State) (op arg st d : Nat) (pay : List Nat) : MilWork s (s.completeAll op arg st d pay) :=
  each_keeps (.refl s) fun _ _ h => .completeB h

/-- A tag that is freed stays free. -/
theorem each_completeB_frees {x : Busy} {st d : Nat} {pay : List Nat} {l : List Busy} (s : State) (hx : x ∈ l) :
    (s.each l fun b s => s.completeB b st d pay).tagBusy x.tag = false := by
  induction l generalizing s with
  | nil => cases hx
  | cons b r ih =>
    rcases List.mem_cons.mp hx with rfl | hr
    · have hfree : (s.completeB x st d pay).tagBusy x.tag = false :=
        (Calm.answer (.refl (s.freeTag x.tag))).tags x.tag (s.freeTag_tagBusy x.tag)
      exact (Calm.each (.refl (s.completeB x st d pay)) fun _ _ h => .completeB h).tags x.tag hfree
    · exact ih _ hr

/-- Every command that waited has its tag back. -/
theorem completeAll_frees (s : State) {x : Busy} {op arg st d : Nat} {pay : List Nat} (hx : x ∈ s.owed op arg) :
    (s.completeAll op arg st d pay).tagBusy x.tag = false := s.each_completeB_frees hx

/-! ### The change of mode at the end of a sequence -/

/-- A station in a new mode, its command kept as it stood (R242). -/
def modeShown (s : State) (n m : Nat) : State :=
  (s.puts (stnB n) [(F.STN_CMD_CMD, s.cmdNow n), (H.cmdPos, s.cmdPosNow n)]).put (stnB n) F.STN_STAT_MODE m

/-- The bit addresses of what a change of mode may tell and drop beside. -/
def modeKeys (n : Nat) : List Nat :=
  noticeKeys ++ recCounts ++ [F.OBS_STAT_LIMP, F.STN_WMAX_SLOW, F.STN_STAT_SLOW_ACT, F.STN_STAT_MBRK].map (·.key (stnB n))

theorem putSlow_writes (h : Writes (modeKeys n.val) s t) : Writes (modeKeys n.val) s (t.putSlow n.val) :=
  .put (.put h (by simp [modeKeys])) (by simp [modeKeys])

/-- From OFF or DIAG to OFF or ARMED a station tells its new mode, and drops limp mode and its brake output at most. -/
theorem setMode_rest {m : Nat} (hold : s.mode n.val = mOff ∨ s.mode n.val = mDiag) (hm : m = mOff ∨ m = mArmed) (hne : s.mode n.val ≠ m) :
    Writes (modeKeys n.val) (s.modeShown n.val m) (s.setMode n.val m) := by
  have htold {u : State} {ty : Nat} {body : List Nat} (h : Writes (modeKeys n.val) (s.modeShown n.val m) u) :
      Writes (modeKeys n.val) (s.modeShown n.val m) (u.notice ty body) := h.trans ((Writes.notice ..).mono (by simp [modeKeys]))
  have hrec {u : State} {r t code : Nat} {data : List Nat} (h : Writes (modeKeys n.val) (s.modeShown n.val m) u) :
      Writes (modeKeys n.val) (s.modeShown n.val m) (u.trigger r t code data) := h.trans ((Writes.trigger ..).mono (by simp [modeKeys]))
  unfold setMode
  extract_lets b old s1 s2 s3 s4 s5 s6 s7 s8
  rw [if_neg hne]
  have h1 : s1 = s := if_pos (by rcases hold with h | h <;> rcases hm with h' | h' <;> simp [runLike, h, h', mOff, mDiag, mArmed, mRun, mStopping, mIsolated])
  have h4 : Writes (modeKeys n.val) (s.modeShown n.val m) s4 := by
    dsimp only [s4, s3, s2]
    rw [h1]
    exact hrec (htold (.refl _))
  have h5 : s5 = s4 := if_neg (by rcases hold with h | h <;> simp [old, h, mOff, mDiag, mArmed, mRun])
  have h6 : s6 = s5 := if_neg (by rcases hold with h | h <;> simp [old, h, mOff, mDiag, mRun, mIsolated])
  have h7 : Writes (modeKeys n.val) (s.modeShown n.val m) s7 := by
    dsimp only [s7]
    rw [h6, h5]
    exact .ite (putSlow_writes (.put h4 (by simp [modeKeys, b]))) h4
  have h8 : s8 = s7 := if_neg (by rcases hm with h | h <;> simp [h, mOff, mArmed, mFault])
  rw [h8]
  exact .ite (.put h7 (by simp [modeKeys, b])) h7

/-- The bit addresses of what a change of mode writes. -/
def modeSetKeys (n : Nat) : List Nat := [F.STN_CMD_CMD, H.cmdPos, F.STN_STAT_MODE].map (·.key (stnB n)) ++ modeKeys n

theorem setMode_writes {m : Nat} (hold : s.mode n.val = mOff ∨ s.mode n.val = mDiag) (hm : m = mOff ∨ m = mArmed) (hne : s.mode n.val ≠ m) :
    Writes (modeSetKeys n.val) s (s.setMode n.val m) := by
  have hshown : Writes (modeSetKeys n.val) s (s.modeShown n.val m) := .put (.puts (.refl s) (by simp [modeSetKeys])) (by simp [modeSetKeys])
  exact hshown.trans ((setMode_rest hold hm hne).mono (List.subset_append_right ..))

theorem setMode_mode {m : Nat} (hold : s.mode n.val = mOff ∨ s.mode n.val = mDiag) (hm : m = mOff ∨ m = mArmed) (hne : s.mode n.val ≠ m) :
    (s.setMode n.val m).mode n.val = m := by
  rw [mode, nat, (setMode_rest hold hm hne).get (by clear hold hne; revert n; decide), modeShown, get_put_same]
  rcases hm with rfl | rfl <;> rfl

/-- A sequence ends with a change of mode and the answers that wait for it. -/
theorem sequence_ends {u : State} {m op st : Nat} {pay : List Nat} (hbusy : u.mil.busy = s.mil.busy)
    (hold : u.mode n.val = mOff ∨ u.mode n.val = mDiag) (hm : m = mOff ∨ m = mArmed) (hne : u.mode n.val ≠ m)
    (ht : t = (u.setMode n.val m).completeAll op n.val st 0 pay) :
    t.mode n.val = m ∧ (∀ f, f.key (stnB n.val) ∉ modeSetKeys n.val → t.get (stnB n.val) f = u.get (stnB n.val) f) ∧
      ∀ x ∈ s.owed op n.val, t.tagBusy x.tag = false := by
  subst ht
  have hmode := setMode_writes hold hm hne
  have hanswers := (u.setMode n.val m).completeAll_milWork op n.val st 0 pay
  refine ⟨?_, fun f hf => (hanswers.get _ f).trans (hmode.get hf), fun x hx => ?_⟩
  · rw [mode, nat, hanswers.get]
    exact setMode_mode hold hm hne
  · exact completeAll_frees _ (by rwa [owed_of_busy (hmode.busy.trans hbusy)])

/-! ### DIAG_COMPLETE -/

theorem diagEnd_of_running {mv : Nat × Nat × Nat × Nat × Nat × Nat} {o f : Nat} (hmode : s.mode n.val = mDiag)
    (hitems : s.get (stnB n.val) H.armItems ≠ 0) : ∃ st pay, s.diagEnd n.val mv o f =
      ((s.put (stnB n.val) H.armItems 0).setMode n.val mOff).completeAll 0x24 n.val st 0 pay := by
  unfold diagEnd
  dsimp only
  rw [if_neg (by simp [hmode, hitems])]
  exact ⟨_, _, rfl⟩

/-! ### SIZING_COMPLETE -/

/-- The bit addresses of what sizing finds, and of the item that it runs. -/
def sizeKeys (n : Nat) : List Nat :=
  [F.PF_RES_RES_PHASE, F.PF_CAL_SIN_OFS, F.PF_CAL_SIN_GAIN, F.PF_CAL_COS_OFS, F.PF_CAL_COS_GAIN, H.szNow, H.szT, H.szHave, H.szTurn].map
    (·.key (stnB n)) ++ [F.CS_CAL_OFS.key (stnB n), F.CS_CAL_OFS.key (stnB n + 4), F.CS_CAL_OFS.key (stnB n + 8)] ++ (enableKeys n ++ offKeys n)

theorem sizPhase_writes (s : State) (n : Nat) : Writes (sizeKeys n) s (s.sizPhase n) := by
  have hoff : Writes (sizeKeys n) s (s.turnOff n) := (s.turnOff_writes n).mono (List.subset_append_right ..)
  exact .ite (.puts (.ite hoff (.refl s)) (by simp [sizeKeys])) (.refl s)

/-- The run's results are written, then the station turns off and ends. -/
theorem sizingEnd_of_running {t : Nat} {still : Bool} (hmode : s.mode n.val = mDiag) (hitems : s.nat (stnB n.val) H.sizItems ≠ 0) :
    ∃ u pay, Writes (sizeKeys n.val) s u ∧ s.sizingEnd n.val t still =
      (((u.turnOff n.val).puts (stnB n.val) [(H.sizItems, 0), (H.sizFail, 0), (H.szNow, 0)]).setMode n.val mOff).completeAll 0x25 n.val stOK 0 pay := by
  unfold sizingEnd
  extract_lets s1 b items s2 now failed ok0 s3 ok2 s4 z0 z1 c0 c1 ok1 gain s5 s6 s7 done bad s8 s9
  rw [if_neg (show ¬(items = 0 ∨ s1.mode n.val ≠ mDiag) from not_or.mpr ⟨hitems, not_not.mpr hmode⟩)]
  refine ⟨s7, _, ?_, rfl⟩
  have h2 : Writes (sizeKeys n.val) s s2 := (Writes.other (.refl s) rfl rfl : Writes _ s s1).trans (s1.sizPhase_writes n.val)
  have h3 : Writes (sizeKeys n.val) s s3 :=
    .ite (.put (.put (.put h2 (by simp [sizeKeys, b])) (by simp [sizeKeys, b])) (by simp [sizeKeys, b])) h2
  have h4 : Writes (sizeKeys n.val) s s4 := .ite h3 (.ite (.put h3 (by simp [sizeKeys, b])) (.putFree h3 (by simp [sizeKeys, b])))
  have h5 : Writes (sizeKeys n.val) s s5 := .ite (.puts h4 (by simp [sizeKeys, b])) h4
  have h6 : Writes (sizeKeys n.val) s s6 := .ite (.putFree h5 (by simp [sizeKeys, b])) h5
  exact .ite (.putFree h6 (by simp [sizeKeys, b])) h6

/-! ### ARM_COMPLETE (Table GD-6) -/

/-- The legs that failed an item, and 8 for the pins of link mode. -/
def armFailed (s : State) (n legs : Nat) : Nat :=
  if s.nat (stnB n) H.armItems = 0 then 0 else if s.direct n then legs % 8 else if s.linkOk n then 0 else 8

/-- The legs whose charge did not complete. -/
def armLeft (s : State) (n low : Nat) : Nat := if s.direct n then s.uncharged n low else 0

/-- The sequence of arming no longer runs. -/
def armEnded (s : State) (n : Nat) : State := s.puts (stnB n) [(H.arming, 0), (H.armItems, 0)]

/-- The station has a position, or needs none of its own. -/
def armPosition (s : State) (n : Nat) : Bool :=
  !(s.get (stnB n) F.COM_CTRL_ASRC == 0 && s.get (stnB n) F.GC_CTRL_PSRC == 0 && !s.on (stnB n) F.PF_STAT_VALID)

theorem armEnd_eq {legs low : Nat} (harm : s.on (stnB n.val) H.arming = true) (hmode : s.mode n.val = 0) : s.armEnd n.val legs low =
    if s.armFailed n.val legs ≠ 0 then ((s.armEnded n.val).faultStop n.val (stnCode n.val 2 0x58) true (s.armFailed n.val legs)).gcFault n.val
      (s.armFailed n.val legs) false
    else if s.armLeft n.val low ≠ 0 then ((s.armEnded n.val).faultStop n.val (stnCode n.val 1 0x54) true (s.armLeft n.val low)).gcFault n.val
      (s.armLeft n.val low) false
    else if s.armPosition n.val = false then (s.armEnded n.val).faultStop n.val
      (stnCode n.val 1 (if s.nat (stnB n.val) F.PF_STAT_CAUSE = 0 then 0x34 else s.nat (stnB n.val) F.PF_STAT_CAUSE)) true 0
    else ((s.armEnded n.val).setMode n.val mArmed).completeAll 0x20 n.val stOK 0 := by
  have hkept {f : Fld} (hf : ∀ e ∈ [H.arming, H.armItems], 8 * e.off + e.lo ≠ 8 * f.off + f.lo) :
      (s.armEnded n.val).get (stnB n.val) f = s.get (stnB n.val) f := get_puts_of_apart s _ hf
  have hpos : ((s.armEnded n.val).get (stnB n.val) F.COM_CTRL_ASRC == 0 && (s.armEnded n.val).get (stnB n.val) F.GC_CTRL_PSRC == 0 &&
      !(s.armEnded n.val).on (stnB n.val) F.PF_STAT_VALID) = true ↔ s.armPosition n.val = false := by
    rw [on, hkept (by decide), hkept (by decide), hkept (by decide), armPosition, Bool.not_eq_false']
    rfl
  have hcause : (s.armEnded n.val).nat (stnB n.val) F.PF_STAT_CAUSE = s.nat (stnB n.val) F.PF_STAT_CAUSE := congrArg Int.toNat (hkept (by decide))
  unfold armEnd
  extract_lets b items bad left u c
  rw [if_neg (by simp [b, harm, hmode, mOff])]
  rw [← hcause]
  simp only [← hpos]
  rfl

/-- The items of arming passed: none was left, no leg failed one, or the pins of link mode are good. -/
def armPassed (s : State) (n : Nat) (legs : BitVec 3) : Prop :=
  s.nat (stnB n) H.armItems = 0 ∨ (if s.direct n then legs = 0 else s.linkOk n = true)

theorem armFailed_of_passed {legs : BitVec 3} (h : s.armPassed n.val legs) : s.armFailed n.val legs.toNat = 0 := by
  unfold armFailed
  split
  · rfl
  · next hitems =>
    have hpass := h.resolve_left hitems
    split at hpass
    · next hdirect => rw [if_pos hdirect, hpass]; rfl
    · next hdirect => rw [if_neg hdirect, if_pos hpass]

theorem armFailed_of_failed {legs : BitVec 3} (h : ¬s.armPassed n.val legs) :
    s.armFailed n.val legs.toNat ≠ 0 ∧ s.armFailed n.val legs.toNat = if s.direct n.val then legs.toNat else 8 := by
  obtain ⟨hitems, hfail⟩ := not_or.mp h
  have hlegs : legs.toNat % 8 = legs.toNat := Nat.mod_eq_of_lt legs.isLt
  unfold armFailed
  rw [if_neg hitems]
  split at hfail
  · next hdirect =>
    rw [if_pos hdirect, if_pos hdirect, hlegs]
    exact ⟨fun h => hfail (BitVec.eq_of_toNat_eq h), rfl⟩
  · next hdirect =>
    rw [if_neg hdirect, if_neg hdirect, if_neg hfail]
    exact ⟨by decide, rfl⟩

/-- The bit of a leg whose latest charge pulse left it at or below the rising level. -/
def legLeft (s : State) (n leg : Nat) : Nat := if s.on (stnB n) (chgF leg) && !s.legCharged n leg then 2 ^ leg else 0

theorem legLeft_ne_zero {leg : Nat} :
    s.legLeft n.val leg ≠ 0 ↔ s.on (stnB n.val) (chgF leg) = true ∧ s.legCharged n.val leg = false := by
  unfold legLeft
  split <;> simp_all

theorem uncharged_eq (low : BitVec 3) :
    s.uncharged n.val low.toNat = low.toNat ||| (s.legLeft n.val 0 + s.legLeft n.val 1 + s.legLeft n.val 2) := by
  have hlow : ((low.toNat : Int) % 8).toNat = low.toNat := by omega
  simp only [uncharged, orI, hlow, legLeft, List.map, List.foldl, Nat.zero_add, Int.toNat_natCast]

theorem uncharged_ne_zero (low : BitVec 3) :
    low ≠ 0 ∨ (∃ leg : Fin 3, s.on (stnB n.val) (chgF leg.val) = true ∧ s.legCharged n.val leg.val = false) ↔ s.uncharged n.val low.toNat ≠ 0 := by
  have hlegs : (∃ leg : Fin 3, s.on (stnB n.val) (chgF leg.val) = true ∧ s.legCharged n.val leg.val = false) ↔
      s.legLeft n.val 0 + s.legLeft n.val 1 + s.legLeft n.val 2 ≠ 0 := by
    simp only [← legLeft_ne_zero]
    refine ⟨fun ⟨leg, h⟩ => ?_, fun h => ?_⟩
    · match leg with
      | 0 | 1 | 2 => simp only [Fin.val_zero, Fin.val_one, Fin.val_two] at h; omega
    · by_contra hnone
      have hzero (leg : Fin 3) : s.legLeft n.val leg.val = 0 := not_not.mp (not_exists.mp hnone leg)
      exact h (by simpa using ⟨⟨hzero 0, hzero 1⟩, hzero 2⟩)
  have hlow : low ≠ 0 ↔ low.toNat ≠ 0 := not_congr ⟨fun h => by rw [h]; rfl, fun h => BitVec.eq_of_toNat_eq h⟩
  rw [uncharged_eq, hlegs, hlow, ne_eq, ne_eq, ne_eq, Nat.or_eq_zero_iff]
  tauto

theorem armLeft_eq_zero {low : Nat} : s.armLeft n.val low = 0 ↔ s.direct n.val = false ∨ s.uncharged n.val low = 0 := by
  unfold armLeft
  split <;> simp_all

theorem armPosition_false : s.armPosition n.val = false ↔
    ¬(s.get (stnB n.val) F.COM_CTRL_ASRC ≠ 0 ∨ s.get (stnB n.val) F.GC_CTRL_PSRC ≠ 0 ∨ s.on (stnB n.val) F.PF_STAT_VALID = true) := by
  simp only [armPosition, Bool.not_eq_false', Bool.and_eq_true, beq_iff_eq, Bool.not_eq_true', not_or, not_not, Bool.not_eq_true, ne_eq, and_assoc]

/-- The marks of the sequences are none of what a change of mode writes. -/
theorem marks_apart (n : Fin 4) : ∀ f ∈ [H.arming, H.armItems, H.sizItems, F.GC_STAT_TURNOFF, F.GC_STAT_OFF_CONF], f.key (stnB n.val) ∉ modeSetKeys n.val := by
  revert n
  decide

end State

/-- Settles O45: ARM_COMPLETE by the first of the cases of Table GD-6 that applies; each sequence that ends well ends with a change of mode and the answers
that wait for it, which leave its marks and the gates as they are. -/
theorem sequencesEnd : Obligations.SequencesEnd := by
  intro s n hserves b
  have hrow := State.next_onStn hserves
  refine ⟨?arm, ?diag, ?sizing⟩
  case arm =>
    intro legs low harm hmode u pos left pass
    have hend := State.armEnd_eq (legs := legs.toNat) (low := low.toNat) harm hmode
    refine ⟨fun hfail => ?_, State.uncharged_ne_zero low, fun hpass hdirect hleft => ?_, fun hpass hleft hpos => ?_, fun hpass hleft hpos => ?_⟩
    · obtain ⟨hne, hval⟩ := State.armFailed_of_failed hfail
      rw [if_pos hne, hval] at hend
      exact (hrow _).trans (congrArg _ hend)
    · rw [if_neg (not_not.mpr (State.armFailed_of_passed hpass)), State.armLeft, if_pos hdirect, if_pos hleft] at hend
      exact (hrow _).trans (congrArg _ hend)
    · rw [if_neg (not_not.mpr (State.armFailed_of_passed hpass)), if_neg (not_not.mpr (State.armLeft_eq_zero.mpr hleft)),
        if_pos (State.armPosition_false.mpr hpos)] at hend
      exact (hrow _).trans (congrArg _ hend)
    · rw [if_neg (not_not.mpr (State.armFailed_of_passed hpass)), if_neg (not_not.mpr (State.armLeft_eq_zero.mpr hleft)),
        if_neg fun hnone => State.armPosition_false.mp hnone hpos] at hend
      have hoff : u.mode n.val = mOff :=
        (congrArg Int.toNat (State.get_puts_of_apart s b (by simp only [List.map_cons, List.map_nil]; decide))).trans hmode
      obtain ⟨harmed, hget, hfree⟩ := State.sequence_ends (u := u) rfl (.inl hoff) (.inr rfl) (by rw [hoff]; decide) hend
      refine ⟨_, hrow _, harmed, ?_, hfree⟩
      rw [State.on, hget _ (State.marks_apart n _ (by simp)), State.get_puts_of_mem _ _ (v := 0) (by simp)]
      rfl
  case diag =>
    intro gu gv gw ku kv kw o f hmode hitems
    obtain ⟨st, pay, hend⟩ := State.diagEnd_of_running (mv := (gu.toNat, gv.toNat, gw.toNat, ku.toNat, kv.toNat, kw.toNat)) (o := o.toNat) (f := f.toNat)
      hmode hitems
    have hkept : (s.put b H.armItems 0).mode n.val = mDiag := (congrArg Int.toNat (State.get_put_fld _ _ _ (by decide))).trans hmode
    obtain ⟨hoff, hget, hfree⟩ := State.sequence_ends (u := s.put b H.armItems 0) rfl (.inr hkept) (.inl rfl) (by rw [hkept]; decide) hend
    refine ⟨_, hrow _, hoff, ?_, hfree⟩
    rw [hget _ (State.marks_apart n _ (by simp)), State.get_put_same]
    rfl
  case sizing =>
    intro t still hitems hmode
    obtain ⟨u, pay, hfound, hend⟩ := State.sizingEnd_of_running (t := t.toNat) (still := still) hmode hitems
    have hturned := u.turnOff_writes n.val
    have hended {f : Fld} (hf : ∀ e ∈ [H.sizItems, H.sizFail, H.szNow], 8 * e.off + e.lo ≠ 8 * f.off + f.lo) :
        ((u.turnOff n.val).puts b [(H.sizItems, 0), (H.sizFail, 0), (H.szNow, 0)]).get b f = (u.turnOff n.val).get b f :=
      State.get_puts_of_apart _ _ hf
    generalize hv : (u.turnOff n.val).puts b [(H.sizItems, 0), (H.sizFail, 0), (H.szNow, 0)] = v at hend hended
    have hbusy : v.mil.busy = s.mil.busy := by
      rw [← hv]
      exact hturned.busy.trans hfound.busy
    have hkept : v.mode n.val = mDiag := by
      refine (congrArg Int.toNat ((hended (by decide)).trans ((hturned.get ?_).trans (hfound.get ?_)))).trans hmode
      · clear * -; revert n; decide
      · clear * -; revert n; decide
    obtain ⟨hoff, hget, hfree⟩ := State.sequence_ends hbusy (.inr hkept) (.inl rfl) (by rw [hkept]; decide) hend
    refine ⟨_, hrow _, hoff, ?_, ?_, hfree⟩
    · rw [hget _ (State.marks_apart n _ (by simp)), ← hv, State.get_puts_of_mem _ _ (v := 0) (by simp)]
      rfl
    · rw [State.torqueOff, State.on, State.on, hget _ (State.marks_apart n _ (by simp)), hget _ (State.marks_apart n _ (by simp)),
        hended (by decide), hended (by decide)]
      exact (u.turnOff_offOrTurning n).torqueOff

end Sys2Proof.Machine
end

section
/-!
PROOFS. The rows of the brim guard (R201, R205 to R208, R210): what each does on a guard in service, and that one out of service does nothing.
-/
namespace Sys2Proof.Machine
namespace State

variable {s : State} {h : Nat}

/-! ### Samples -/

/-- A guard that has read `v` in 0.1 V: the latest samples, their mean, and the chopper that follows it (R201, R205). -/
def busRead (s : State) (h t : Nat) (v chi : Int) : State :=
  let g := halfB h
  let u := (s.advance t).puts g [(H.vdc4, s.get g H.vdc3), (H.vdc3, s.get g H.vdc2), (H.vdc2, s.get g H.vdc1), (H.vdc1, v),
    (H.vdcN, min 4 (s.get g H.vdcN + 1))]
  (u.puts g [(H.vdcf, u.meanVdc h), (F.BGD_MEAS_VDC, u.meanVdc h), (F.BGD_MEAS_ICH, chi)]).chopper h

theorem busSample_of_off (hoff : s.bgdOn h = false) (t code chi : Nat) : s.busSample h t code chi = s := if_pos (by simp [hoff])

/-- The second sample in a row at the trip level is an overvoltage; a third belongs to the same run (R208; the run counts
once: the model's reading, log entry 36). -/
theorem busSample_of_on (hon : s.bgdOn h = true) (t : Nat) (code : BitVec 16) (chi : Nat) : s.busSample h t code.toNat chi =
    let g := halfB h
    let v := asr (code.toNat * s.get g F.BGD_SCALE_VSCALE) 16
    let trip := s.get g F.BGD_VTRIP_V_TRIP
    if 1 ≤ s.get g H.vdcN ∧ trip ≤ v ∧ trip ≤ s.get g H.vdc1 then
      (s.busRead h t v chi).busOv h !decide (2 ≤ s.get g H.vdcN ∧ trip ≤ s.get g H.vdc2)
    else s.busRead h t v chi := by
  have hcode : (code.toNat : Int) % 65536 = code.toNat := by have := code.isLt; omega
  rw [busSample, if_neg (by simp [hon])]
  dsimp only
  simp only [hcode, advance_get]
  by_cases htwo : 1 ≤ s.get (halfB h) H.vdcN ∧
      s.get (halfB h) F.BGD_VTRIP_V_TRIP ≤ asr (code.toNat * s.get (halfB h) F.BGD_SCALE_VSCALE) 16 ∧
      s.get (halfB h) F.BGD_VTRIP_V_TRIP ≤ s.get (halfB h) H.vdc1
  · obtain ⟨hcount, hv, hvdc⟩ := id htwo
    rw [if_pos htwo, if_pos (by simp [hv, hvdc, hcount])]
    simp only [ge_iff_le, hv, hvdc, hcount, decide_true, Bool.true_and, Bool.decide_and]
    rfl
  · rw [if_neg htwo, if_neg (by simpa [and_assoc] using htwo)]
    rfl

/-! ### Undervoltage and chopper faults -/

theorem busUv_of_off (hoff : s.bgdOn h = false) : s.busUv h = s := if_neg (by simp [hoff])

theorem busUv_of_low (hon : s.bgdOn h = true) (hlow : s.get (halfB h) H.vdcf < s.get (halfB h) F.BGD_VTRIP_V_UV)
    (hdone : s.on (halfB h) F.BGD_STAT_PRE_DONE = true) : s.busUv h = ((s.bgdRaise h 0x61).preLow h).bgdStop h 0x61 :=
  if_pos (by simp [hon, hlow, hdone])

theorem busUv_of_high (hhigh : s.get (halfB h) F.BGD_VTRIP_V_UV ≤ s.get (halfB h) H.vdcf) : s.busUv h = s :=
  if_neg (by simp [hhigh])

theorem chNoFb_eq (hon : s.bgdOn h = true) :
    s.chNoFb h = if s.on (halfB h) F.BGD_STAT_CHOP_ON then s.chopFault h 0x62 else s := by simp only [chNoFb, hon, Bool.true_and]

theorem chNoFb_of_off (hoff : s.bgdOn h = false) : s.chNoFb h = s := if_neg (by simp [hoff])

theorem chOc_eq (hon : s.bgdOn h = true) (desat : Bool) :
    s.chOc h desat = if desat || s.on (halfB h) F.BGD_STAT_CHOP_ON then s.chopFault h 0x63 else s := by simp only [chOc, hon, Bool.true_and]

theorem chOc_of_off (hoff : s.bgdOn h = false) (desat : Bool) : s.chOc h desat = s := if_neg (by simp [hoff])

theorem chStuck_of_low (hon : s.bgdOn h = true) (hlow : s.on (halfB h) F.BGD_STAT_CHOP_ON = false) : s.chStuck h =
    ((((s.put (halfB h) F.BGD_STAT_CHF_SEEN 1).bgdRaise h 0x64).preLow h).bgdStop h 0x64).each
      [2 * h, 2 * h + 1] fun n u => u.put (stnB n) F.STN_STAT_MBRK 0 := if_pos (by simp [hon, hlow])

theorem chStuck_of_high (hhigh : s.on (halfB h) F.BGD_STAT_CHOP_ON = true) : s.chStuck h = s := if_neg (by simp [hhigh])

theorem chStuck_of_off (hoff : s.bgdOn h = false) : s.chStuck h = s := if_neg (by simp [hoff])

/-! ### Precharge -/

theorem precharging_iff : s.precharging h = true ↔ s.bgdOn h = true ∧ s.on (halfB h) F.BGD_CTRL_PRE_EN = true ∧
    s.on (halfB h) F.BGD_STAT_PRE_DONE = false ∧ s.on (halfB h) H.preStop = false := by
  simp only [precharging, Bool.and_eq_true, Bool.not_eq_true', and_assoc]

theorem precharging_of_off (hoff : s.bgdOn h = false) : s.precharging h = false := by simp [precharging, hoff]

theorem preDone_of_idle (hidle : s.precharging h = false) : s.preDone h = s := if_neg (by simp [hidle])

theorem preFail_of_idle (hidle : s.precharging h = false) : s.preFail h = s := if_neg (by simp [hidle])

theorem preDone_of_charged (hrun : s.precharging h = true) (hhigh : s.get (halfB h) F.BGD_PRE_V_PRE ≤ s.get (halfB h) H.vdcf) :
    s.preDone h = s.put (halfB h) F.BGD_STAT_PRE_DONE 1 := if_pos (by simp [hrun, hhigh])

theorem preDone_of_low (hlow : s.get (halfB h) H.vdcf < s.get (halfB h) F.BGD_PRE_V_PRE) : s.preDone h = s := if_neg (by simp [hlow])

theorem preFail_of_running (hrun : s.precharging h = true) : s.preFail h = (s.bgdRaise h 0x65).preLow h := if_pos hrun

end State

/-- Settles O50: each row is its operation of the guard, by whether the guard is in service, CHG is high and precharge runs; a sample is read, and is an
overvoltage exactly when it and the one before it reach the trip level. -/
theorem busGuard : Obligations.BusGuard := by
  intro s h g
  refine ⟨fun hoff => ?off, fun hon => ⟨?sample, fun hlow hdone => ?low, fun hhigh => ?high, fun hchg => ⟨?noFb, fun d => ?oc, ?stuckHigh⟩,
    fun hchg => ⟨?noChg, ?ocLow, ?desat, ?stuck⟩, fun hen hpre hstop => ?precharge⟩⟩
  case off =>
    have hidle := State.precharging_of_off hoff
    exact ⟨congrArg Host.Outcome.next (State.busUv_of_off hoff), congrArg Host.Outcome.next (State.chNoFb_of_off hoff),
      congrArg Host.Outcome.next (State.chStuck_of_off hoff), congrArg Host.Outcome.next (State.preDone_of_idle hidle),
      congrArg Host.Outcome.next (State.preFail_of_idle hidle), fun d => congrArg Host.Outcome.next (State.chOc_of_off hoff d),
      fun t v c => congrArg Host.Outcome.next (State.busSample_of_off hoff _ _ _)⟩
  case sample =>
    intro t v c x trip u w
    have hrow := State.busSample_of_on hon t.toNat v c.toNat
    refine ⟨fun hbelow => ?_, fun hx hvdc hcount => congrArg Host.Outcome.next (hrow.trans (if_pos ⟨hcount, hx, hvdc⟩))⟩
    have hnot : ¬(1 ≤ s.get g H.vdcN ∧ trip ≤ x ∧ trip ≤ s.get g H.vdc1) := by omega
    exact congrArg Host.Outcome.next (hrow.trans (if_neg hnot))
  case low => exact congrArg Host.Outcome.next (State.busUv_of_low hon hlow hdone)
  case high => exact congrArg Host.Outcome.next (State.busUv_of_high hhigh)
  case noFb => exact congrArg Host.Outcome.next ((State.chNoFb_eq hon).trans (if_pos hchg))
  case oc => exact congrArg Host.Outcome.next ((State.chOc_eq hon d).trans (if_pos (Bool.or_eq_true_iff.mpr (.inr hchg))))
  case stuckHigh => exact congrArg Host.Outcome.next (State.chStuck_of_high hchg)
  case noChg => exact congrArg Host.Outcome.next ((State.chNoFb_eq hon).trans (if_neg (Bool.eq_false_iff.mp hchg)))
  case ocLow => exact congrArg Host.Outcome.next ((State.chOc_eq hon false).trans (if_neg (Bool.eq_false_iff.mp hchg)))
  case desat => exact congrArg Host.Outcome.next ((State.chOc_eq hon true).trans (if_pos rfl))
  case stuck => exact congrArg Host.Outcome.next (State.chStuck_of_low hon hchg)
  case precharge =>
    have hrun := State.precharging_iff.mpr ⟨hon, hen, hpre, hstop⟩
    refine ⟨fun hhigh => ⟨_, congrArg Host.Outcome.next (State.preDone_of_charged hrun hhigh), ?_⟩,
      fun hlow => congrArg Host.Outcome.next (State.preDone_of_low hlow), congrArg Host.Outcome.next (State.preFail_of_running hrun)⟩
    exact s.sets_put g F.BGD_STAT_PRE_DONE 1

end Sys2Proof.Machine
end

section
/-!
PROOFS. The temperature conversions (R212 to R215) and the die shutdown (R216).
-/
namespace Sys2Proof.Machine
namespace State

variable {s : State}

/-! ### The die shutdown -/

theorem temperature_of_awake (h : s.awake = true) (r : Nat) (rd : List Int) : s.temperature r rd =
    if (s.tempConvert r rd).2 then (s.tempConvert r rd).1.dieShutdown else (s.tempConvert r rd).1 := by
  rw [temperature, h]
  rfl

theorem ownTrigger_chip (s : State) (t code : Nat) : (s.ownTrigger t code).chip = s.chip := by
  unfold ownTrigger
  split <;> rfl

/-- Whatever the outputs and the lists do, the shutdown ends with its phase, READY low and its latch (R216). -/
theorem dieShutdown_chip (s : State) : s.dieShutdown.chip.phase = .shutdown ∧ s.dieShutdown.chip.ready = false ∧ s.dieShutdown.chip.dieLatch = true := by
  rw [dieShutdown, startFlush, withLog_chip, ownTrigger_chip, withChip_chip]
  exact ⟨rfl, rfl, rfl⟩

theorem dieShutdown_flush (s : State) : s.dieShutdown.log.flush = some .shutdown := by
  rw [dieShutdown, startFlush, withLog_log]

/-! ### External inputs -/

/-- The temperature of a code, and the factor it asks for, shown for an input (R214, R215). -/
def extRead (s : State) (x code : Nat) : State :=
  let v := s.curveTemp x code
  (s.puts (8 * x) [(H.xK, clampI 0 32768 (tdiv ((s.get (4 * x) F.THM_EXT_CFG_T_X_ZERO - v) * 32768)
    (max 1 (s.get (4 * x) F.THM_EXT_CFG_T_X_ZERO - s.get (4 * x) F.THM_EXT_CFG_T_X_START)))), (H.xCode, code)]).put
    (4 * (x / 2)) (if x % 2 = 0 then F.THM_EXT_T_TXA else F.THM_EXT_T_TXB) v

/-- The code or its temperature is outside its range (R215). -/
def extSick (s : State) (x code : Nat) : Bool := decide (code < 8) || decide (4087 < code) || !plausible (s.curveTemp x code)

theorem extSick_iff {x code : Nat} : s.extSick x code = true ↔ code < 8 ∨ 4087 < code ∨ plausible (s.curveTemp x code) = false := by
  simp only [extSick, Bool.or_eq_true, decide_eq_true_eq, Bool.not_eq_true', or_assoc]

/-- The factors of every station whose half runs. -/
def extFactors (s : State) : State := s.each (s.stations.filter fun n => s.halfRun (n / 2)) fun n w => w.putExt n

theorem extConvert_of_idle {x : Nat} (h : s.shRun = false ∨ s.on (4 * x) F.THM_EXT_CFG_TYPE = false) (code : Nat) : s.extConvert x code = s :=
  if_pos (by rcases h with h | h <;> simp [h])

/-- An input with a sensor is read, and marked broken where its code has just left the range. -/
theorem extConvert_of_sensor {x : Nat} (hsh : s.shRun = true) (htype : s.on (4 * x) F.THM_EXT_CFG_TYPE = true) (code : BitVec 12) :
    s.extConvert x code.toNat = extFactors
      (if s.extSick x code.toNat && !bitN (s.nat 0 F.THM_SH_STAT_EXT_BROKEN) x then
        ((s.extRead x code.toNat).setBit 0 F.THM_SH_STAT_EXT_BROKEN x true).raise (.region 0) (fcode 1 0 0x70)
      else s.extRead x code.toNat) := by
  have hcode : code.toNat % 4096 = code.toNat := Nat.mod_eq_of_lt code.isLt
  rw [extConvert, if_neg (by simp [hsh, htype]), hcode]
  rfl

end State

/-- Settles O51: a conversion of a region is its judgement, then the shutdown it asks for; one of an external input is its reading, the mark of an input
that has just become sick, and the factors. -/
theorem temperatures : Obligations.Temperatures := by
  refine fun s => ⟨?internal, fun x code hidle => ?idle, ?external⟩
  case internal =>
    intro r rd halive a
    have hrow := State.temperature_of_awake (State.awake_of_alive halive) r.val (rd.map (·.toInt))
    refine ⟨fun hcool => congrArg Host.Outcome.next (hrow.trans (if_neg (Bool.eq_false_iff.mp hcool))), fun hhot =>
      ⟨_, congrArg Host.Outcome.next (hrow.trans (if_pos hhot)), ?_⟩⟩
    obtain ⟨hphase, hready, hlatch⟩ := a.1.dieShutdown_chip
    exact ⟨hphase, hready, hlatch, a.1.dieShutdown_flush⟩
  case idle => exact congrArg Host.Outcome.next (State.extConvert_of_idle hidle _)
  case external =>
    intro x code hsh htype v sick broken u factors
    have hrow := State.extConvert_of_sensor hsh htype code
    refine ⟨fun hkept => ?_, fun hsick hwhole => ?_⟩
    · have hnot : ¬(s.extSick x.val code.toNat && !broken) = true := by
        rw [Bool.and_eq_true, State.extSick_iff]
        rintro ⟨hsick, hwhole⟩
        exact hkept.elim (· hsick) fun hbroken => by simp [hbroken] at hwhole
      exact congrArg Host.Outcome.next (hrow.trans (congrArg State.extFactors (if_neg hnot)))
    · have hnew : (s.extSick x.val code.toNat && !broken) = true := by
        rw [State.extSick_iff.mpr hsick, hwhole]
        rfl
      exact congrArg Host.Outcome.next (hrow.trans (congrArg State.extFactors (if_pos hnew)))

end Sys2Proof.Machine
end

section
/-!
PROOFS. A step runs the command at the front of the queue, every row has an outcome, and a queue of commands runs to its end.
-/
namespace Sys2Proof.Machine

theorem step_of_front {i : Instr} {rest : List Instr} {s : State} (h : s.pending = i :: rest) : step s = exec i { s with pending := rest } := by
  rw [step, h]

/-- Settles O1: the step's own case of a command that waits. -/
theorem stepRunsFront : Obligations.StepRunsFront := fun _ _ _ h => step_of_front h

/-- Each row is one call of its operation, which answers a next state. -/
theorem exec_completes (i : Instr) (s : State) : Completes (exec i s) := by
  cases i <;> exact ⟨_, rfl⟩

theorem step_completes (s : State) : Completes (step s) := by
  cases h : s.pending with
  | nil => exact ⟨_, step_of_empty h⟩
  | cons i rest => exact step_of_front h ▸ exec_completes i _

theorem exec_pending {i : Instr} {s t : State} (h : exec i s = .next t) : t.pending = s.pending := (Keeps.of_exec h).pending

theorem run_succ_of_step {s t : State} (h : step s = .next t) (k : Nat) :
    Host.Core.run Sys2Proof.core (k + 1) s = Host.Core.run Sys2Proof.core k t := by
  simp only [Host.Core.run, show Sys2Proof.core.step s = .next t from h]

theorem runsOn (k : Nat) (s : State) : RunsOn k s := by
  induction k generalizing s with
  | zero => exact ⟨s, rfl⟩
  | succ k ih =>
    obtain ⟨t, ht⟩ := step_completes s
    obtain ⟨u, hu⟩ := ih t
    exact ⟨u, (run_succ_of_step ht k).trans hu⟩

/-- As many steps as commands wait leave none of them waiting. -/
theorem run_length_pending {l : List Instr} {s t : State} (hs : s.pending = l) (h : Host.Core.run Sys2Proof.core l.length s = .next t) :
    t.pending = [] := by
  induction l generalizing s with
  | nil => exact Host.Outcome.next.inj h ▸ hs
  | cons i rest ih =>
    obtain ⟨u, hu⟩ := step_completes s
    have hexec : exec i { s with pending := rest } = .next u := (step_of_front hs).symm.trans hu
    exact ih (exec_pending hexec) ((run_succ_of_step hu rest.length).symm.trans h)

/-- Settles O7: no row stops, none touches the queue, and so a run goes down the queue one command a step. -/
theorem queueRuns : Obligations.QueueRuns := ⟨exec_completes, fun _ _ _ => exec_pending, runsOn, fun _ _ hs _ => run_length_pending hs⟩

end Sys2Proof.Machine
end

section
/-!
PROOFS. What an admitted command leads to, and STN_SETPOINT (R242): its reply, the command that a running station takes, and the limits that it never
leaves.
-/
namespace Sys2Proof.Machine

/-- What is set before Milliner's own work is set but for Milliner's state. -/
theorem MilWork.sets {s t u : State} {w : List (Nat × Fld × Int)} (h : MilWork t u) (k : s.Sets t w) : { s with mil := u.mil }.Sets u w := by
  obtain ⟨hset, hregs, hrest⟩ := k
  rw [← h.rest]
  exact ⟨hset, hregs, congrArg (fun q : State => { q with mil := u.mil }) hrest⟩

/-- A clamped value lies between its limits, and a value that lies there is kept. -/
theorem clampI_spec {lo hi : Int} (h : lo ≤ hi) (v : Int) :
    lo ≤ clampI lo hi v ∧ clampI lo hi v ≤ hi ∧ (lo ≤ v → v ≤ hi → clampI lo hi v = v) := by
  unfold clampI
  omega

namespace State

variable {s : State} {op : OpSpec} {c : Cmd} {i : Instr} {n : Nat}

/-! ### Commands that are admitted -/

/-- The state after an admitted command is its opcode's effect with the snapshot that `SNAP` asks for. -/
theorem after_of_admits {P : State → Prop} (hadmits : s.admits op c = true) (hrow : exec i s = .next (s.deliver op c)) (hcode : op.code ≠ 0x28)
    (h : P ((op.run (s.refresh c.tr) c).snapped c op.code)) : After i s P :=
  ⟨_, hrow.trans (congrArg Host.Outcome.next (deliver_of_admits hadmits hcode)), h⟩

theorem snapped_milWork (s : State) (c : Cmd) (code : Nat) : MilWork s (s.snapped c code) := .of_replied (s.snapped_replied c code)

theorem snapped_port (s : State) (c : Cmd) (code p : Nat) : (s.snapped c code).port p = s.port p := by
  unfold snapped
  split <;> rfl

theorem reply_milWork (s : State) (c : Cmd) (code st d : Nat) (pay : List Nat) : MilWork s (s.reply c code st d pay) := .answer (.refl s)

theorem start_milWork (s : State) (c : Cmd) (code arg d : Nat) (pay : List Nat) : MilWork s (s.start c code arg d pay) := by
  unfold start
  split
  · exact .answer (.withMil (.refl s))
  · exact .answer (.refl s)

/-- `WANT` keeps the tag busy until the command completes (R74, R75). -/
theorem start_tagBusy (hown : ∀ o, c.tr ≠ .own o) (hfree : s.tagBusy c.tag.toNat = false) (code arg d : Nat) (pay : List Nat) :
    (s.start c code arg d pay).tagBusy c.tag.toNat = c.want := by
  unfold start
  cases c.want
  · exact (s.reply_replied hown _ _ _ _).tagBusy _ |>.trans hfree
  · exact ((s.occupy c code arg).reply_replied hown _ _ _ _).tagBusy _ |>.trans (s.occupy_tagBusy ..)

/-- A command that goes on answers at once, ACCEPTED with `WANT` and OK without (R74). -/
theorem start_port {p : Nat} (h : PortOf c.tr p) (s : State) (code arg d : Nat) (pay : List Nat) :
    ((s.start c code arg d pay).port p).out =
      (s.port p).out ++ [(.reply, { rejection c code (if c.want then 1 else 0) d with payload := pay })] := by
  unfold start
  cases c.want
  · rw [if_neg Bool.false_ne_true, reply_of_portOf h, port_queueReply_same _ (portOf_lt h)]
    rfl
  · rw [if_pos rfl, reply_of_portOf h, port_queueReply_same _ (portOf_lt h)]
    rfl

/-! ### STN_SETPOINT -/

theorem setPoint_mil (s : State) (n : Nat) (v : Int) : (s.setPoint n v).mil = s.mil := by
  unfold setPoint
  dsimp only
  split <;> rfl

theorem mode_endFallback (s : State) (n : Nat) : (s.put (stnB n) F.STN_STAT_FB_ACTIVE 0).mode n = s.mode n :=
  congrArg Int.toNat (get_put_fld s _ _ (by decide))

theorem setPoint_sets_of_run (h : s.mode n = 3) (v : Int) :
    s.Sets (s.setPoint n v) [(stnB n, F.STN_STAT_FB_ACTIVE, 0), (stnB n, H.hostCmd, H.hostCmd.wrap v)] := by
  have hset : s.setPoint n v = s.puts (stnB n) [(F.STN_STAT_FB_ACTIVE, 0), (H.hostCmd, v)] := if_pos ((s.mode_endFallback n).trans h)
  rw [hset]
  exact s.sets_puts_of_apart (stnB n)

theorem setPoint_sets_of_armed (h : s.mode n = 2) (v : Int) : s.Sets (s.setPoint n v) [(stnB n, F.STN_STAT_FB_ACTIVE, 0)] := by
  have hset : s.setPoint n v = s.put (stnB n) F.STN_STAT_FB_ACTIVE 0 := if_neg (by rw [mode_endFallback, h]; decide)
  rw [hset]
  exact s.sets_put _ _ _

end State

/-- Settles O25: the set-point is the command's own work, all else is its reply; each KIND's limits are one clamp. -/
theorem setpointTaken : Obligations.SetpointTaken := by
  refine ⟨fun c s hadmits => ?taken, fun s n v => ?limits⟩
  case limits =>
    exact ⟨fun hi => clampI_spec (by omega) v, fun hw => clampI_spec (by omega) v, fun hlim => clampI_spec hlim v⟩
  case taken =>
    intro r v d
    have hown := State.tr_of_admits hadmits
    obtain ⟨-, -, hfree, -⟩ := State.admits_iff.mp hadmits
    have hwork : MilWork (r.setPoint c.ix v) ((opStnSetpoint.run r c).snapped c 0x22) :=
      (State.start_milWork ..).trans (State.snapped_milWork ..)
    refine ⟨fun hrun => ?_, fun harmed => ?_, fun p hport => ?_⟩
    · exact State.after_of_admits hadmits rfl (by decide) (hwork.sets (State.setPoint_sets_of_run hrun v))
    · exact State.after_of_admits hadmits rfl (by decide) (hwork.sets (State.setPoint_sets_of_armed harmed v))
    · refine State.after_of_admits hadmits rfl (by decide) ⟨?_, ?_⟩
      · rw [State.snapped_port]
        exact (State.start_port hport ..).trans (by rw [State.port, State.setPoint_mil]; rfl)
      · have hset : (r.setPoint c.ix v).tagBusy c.tag.toNat = false := by
          rw [State.tagBusy, State.setPoint_mil]
          exact hfree
        exact ((State.snapped_replied ..).tagBusy _).trans (State.start_tagBusy hown hset ..)

end Sys2Proof.Machine
end

section
/-!
PROOFS. O26, refuted. STN_RUN of a station whose pulses come from the pins writes SOURCE and KIND with the codes that they hold (R177, log entry 87).
A write keeps no more bits than the field has, so a held code returns as itself only where it fits. The statement takes every state, one too whose
register map holds a code of three bits for the two bits of SOURCE, which no write leaves behind.
-/
namespace Sys2Proof.Machine

/-- A running chip with station 0 in ARMED, its pulses from the pins and its offset valid; the register map holds 4 for SOURCE. -/
def State.armedOnPins : State :=
  let s := (State.reset.withChip fun c => { c with phase := .running, regions := Vector.replicate 3 .run, ready := true }).puts (stnB 0)
    [(F.STN_STAT_MODE, 2), (F.GC_CTRL_PSRC, 1), (F.COM_STAT_OFS_VALID, 1)]
  { s with regs := s.regs.set (F.STN_STAT_SOURCE.key (stnB 0)) 4 }

/-- STN_RUN of station 0, SOURCE and KIND 0. -/
def runFirstStation : Cmd := { tr := .spi, tag := 1, want := false, snap := false, scope := 2, index := 0, rsv := 0, payload := [0] }

/-- The command passes every check. -/
theorem State.armedOnPins_admits :
    State.armedOnPins.admits opStnRun runFirstStation = true ∧ State.armedOnPins.get (stnB runFirstStation.ix) F.GC_CTRL_PSRC = 1 ∧
      State.armedOnPins.nat (stnB runFirstStation.ix) F.STN_STAT_SOURCE = 4 := by
  decide +kernel

/-- The two bits of SOURCE end at 0. -/
theorem State.armedOnPins_run_source :
    (State.armedOnPins.deliver opStnRun runFirstStation).nat (stnB runFirstStation.ix) F.STN_STAT_SOURCE = 0 := by
  decide +kernel

/-- Refutes O26: STN_RUN writes SOURCE anew, and a held code that is wider than the field does not come back. -/
theorem not_stationCommands : ¬ Obligations.StationCommands := by
  intro h
  obtain ⟨hadmits, hpins, hsource⟩ := State.armedOnPins_admits
  obtain ⟨-, -, -, hrun, -⟩ := h runFirstStation State.armedOnPins
  obtain ⟨-, t, hexec, -, -, hkept⟩ := hrun hadmits
  have ht : State.armedOnPins.deliver opStnRun runFirstStation = t := Host.Outcome.next.inj hexec
  have hsame := (hkept hpins).1
  rw [← ht, State.armedOnPins_run_source, hsource] at hsame
  cases hsame

end Sys2Proof.Machine
end

section
/-!
PROOFS. O47, refuted. A stop answers every STN_STOP that waits (R292), and the change of mode before it ends a set-point that waits (R84). The answer to
a set-point that came inside a forwarded command of the chip itself goes out through that command, and is kept with every busy command of its tag until its
turn comes (R72, R76). The statement takes every state, one too in which an STN_STOP bears that same tag, which acceptance rules out (R74): with a reply
kept beside it, it is no longer among the commands that the stop answers.
-/
namespace Sys2Proof.Machine

/-- An STN_STOP of station 0 with tag 5 that waits. -/
def waitingStop : Busy :=
  { tag := 5, op := 0x23, want := false, snap := false, scope := 2, index := 0, tr := .spi, fwd := none, arg := 0 }

/-- A forwarded command with the same tag. -/
def forwardOfSameTag : Busy := { waitingStop with op := 0x01, scope := 7, index := 1, fwd := some 1 }

/-- A set-point of station 0 inside that command. -/
def ownSetpoint : Busy :=
  { waitingStop with tag := 6, op := 0x22, tr := .own { tag := 5, op := 0x01, want := false, snap := false, index := 1 } }

/-- Station 0 in RUN, with these three commands busy. -/
def State.stopBehindForward : State :=
  (State.reset.put (stnB 0) F.STN_STAT_MODE 3).withMil fun m => { m with busy := [waitingStop, forwardOfSameTag, ownSetpoint] }

theorem State.stopBehindForward_owed : State.stopBehindForward.owed 0x23 (0 : Fin 4).val = [waitingStop] := by
  decide +kernel

/-- The stop's tag is still busy at the end. -/
theorem State.stopBehindForward_endStop_busy : (State.stopBehindForward.endStop (0 : Fin 4).val).tagBusy 5 = true := by
  decide +kernel

/-- Refutes O47: an STN_STOP that shares its tag with a forwarded command may stay without its answer. -/
theorem not_stopsEnd : ¬ Obligations.StopsEnd := by
  intro h
  obtain ⟨-, -, -, hanswered⟩ := h.1 State.stopBehindForward 0
  have hfree : (State.stopBehindForward.endStop (0 : Fin 4).val).tagBusy 5 = false :=
    hanswered waitingStop (State.stopBehindForward_owed ▸ List.mem_singleton_self waitingStop)
  rw [State.stopBehindForward_endStop_busy] at hfree
  cases hfree

end Sys2Proof.Machine
end

section
/-!
PROOFS. Starting and stopping a station (R220, R225, R227, R235, R291 to R295): each event's case in its station's mode and sequence.
-/
namespace Sys2Proof.Machine

namespace State

variable {s : State} {n : Nat}

/-! ### Starting -/

/-- What an evaluation of the open form asks of the station (R219, Table SL-4). -/
def formOpen (s : State) (n t : Nat) : Prop :=
  s.on (stnB n) F.OBS_CTRL_OBS_EN = true ∧ s.get (stnB n) H.enab = 0 ∧ s.on (stnB n) F.GC_STAT_TURNOFF = false ∧
    (s.advance t).sampleSkipped n t = false

theorem formOpen_iff {t : Nat} : ((s.advance t).on (stnB n) F.OBS_CTRL_OBS_EN && !(s.advance t).on (stnB n) H.enab &&
    !(s.advance t).on (stnB n) F.GC_STAT_TURNOFF && !(s.advance t).sampleSkipped n t) = true ↔ s.formOpen n t := by
  have henab : s.on (stnB n) H.enab = false ↔ s.get (stnB n) H.enab = 0 := by simp [on]
  simp only [Bool.and_eq_true, Bool.not_eq_true', henab, formOpen, and_assoc, advance_on]

theorem openEval_of_open {t u v w : Nat} (h : s.formOpen n t) : s.openEval n t u v w = (s.advance t).obsOpen n u v w := if_pos (formOpen_iff.mpr h)

theorem openEval_of_closed {t u v w : Nat} (h : ¬s.formOpen n t) : s.openEval n t u v w = s.advance t := if_neg (mt formOpen_iff.mp h)

theorem rotCheckEv_of_check (hrun : s.mode n = 3) (hchk : s.on (stnB n) H.rotChk = true) : s.rotCheckEv n = s.rotationCheck n := by
  rw [rotCheckEv, if_neg (by simp [hrun, mRun]), if_pos hchk]

theorem rotCheckEv_of_still (hrun : s.mode n = 3) (hchk : s.on (stnB n) H.rotChk = false) (hwait : s.on (stnB n) H.revWait = true)
    (hstill : s.rotating n = false) : s.rotCheckEv n = s.startStill n := by
  rw [rotCheckEv, if_neg (by simp [hrun, mRun]), if_neg (by simp [hchk]), if_pos (by simp [hwait, hstill])]

theorem revTimeout_of_wait (hrun : s.mode n = 3) (hwait : s.on (stnB n) H.revWait = true) : s.revTimeout n = s.obsFault n 2 0x4A :=
  if_pos (by simp [hrun, hwait, mRun])

theorem startAlignEnd_sets (h : s.get (stnB n) F.OBS_STAT_STARTING = 2) : s.Sets (s.startAlignEnd n) [(stnB n, F.OBS_STAT_STARTING, 3),
    (stnB n, H.idRef, H.idRef.wrap (s.get (stnB n) F.COM_OL_I_OL)), (stnB n, H.startT, H.startT.wrap (s.time : Nat))] := by
  rw [startAlignEnd, if_pos (by simp [h])]
  exact s.sets_puts_of_apart (stnB n)

theorem handTimeout_of_handover (h : s.get (stnB n) F.OBS_STAT_STARTING = 4) : s.handTimeout n = s.obsFault n 2 0x48 := if_pos (by simp [h])

theorem catchStopped_of_weak (hcatch : s.mode n = 5) (hlock : s.on (stnB n) F.OBS_STAT_LOCKED = false)
    (hweak : s.get (stnB n) F.OBS_EMFV_MAG < s.get (stnB n) F.OBS_EMF_EMF_MIN) : s.catchStopped n = s.put (stnB n) H.catchStop 1 :=
  if_pos (by simp [hcatch, hlock, hweak, mCatch])

theorem catchTimeout_of_unlocked (hcatch : s.mode n = 5) (hlock : s.on (stnB n) F.OBS_STAT_LOCKED = false)
    (hstop : s.on (stnB n) H.catchStop = false) : s.catchTimeout n = s.obsFault n 2 0x49 := if_pos (by simp [hcatch, hlock, hstop, mCatch])

/-! ### Stopping -/

/-- A stop at standstill, before its brake's sequence, with a chain's speed to watch (R292). -/
theorem dwellEnd_of_slow (hmode : s.mode n = 4) (hzvb : s.on (stnB n) H.zvb = false) (hseq : s.get (stnB n) H.stopSeq = 0)
    (hramp : s.on (stnB n) H.stopRamp = false)
    (hslow : (if s.speedW n < 0 then -s.speedW n else s.speedW n) * 100 ≤ s.get (stnB n) F.STN_BRAKE_W_STOP * 2 ^ 18) :
    s.dwellEnd n = if s.get (stnB n) F.STN_STAT_STOP = 2 then s else if s.get (stnB n) F.STN_STAT_STOP = 3 then s.holdBrake n else s.endStop n := by
  unfold dwellEnd
  extract_lets b w slow done
  have hdone : done = true := by simp only [done, b, hramp, Bool.false_eq_true, if_false, slow, w, decide_eq_true hslow]
  by_cases htype : s.get (stnB n) F.STN_STAT_STOP = 2
  · rw [if_pos htype, if_pos (by simp [b, htype])]
  · rw [if_neg htype, if_neg (by simp [b, hmode, hzvb, hseq, htype, hdone, mStopping])]
    simp only [beq_iff_eq, b]

theorem dwellEnd_of_elsewhere (h : s.mode n ≠ 4) : s.dwellEnd n = s := if_pos (by simp [h, mStopping])

theorem holdBrake_sets (s : State) (n : Nat) : s.Sets (s.holdBrake n) [(stnB n, H.stopSeq, 1), (stnB n, H.tZ, H.tZ.wrap (s.time : Nat)),
    (stnB n, H.istarZ, H.istarZ.wrap (s.get (stnB n) H.istar)), (stnB n, F.STN_STAT_MBRK, 0)] := s.sets_puts_of_apart (stnB n)

theorem holdUnload_sets (hmode : s.mode n = 4) (hseq : s.get (stnB n) H.stopSeq = 1) : s.Sets (s.holdUnload n) [(stnB n, H.stopSeq, 2),
    (stnB n, H.unlT, H.unlT.wrap (s.time : Nat)), (stnB n, H.unlI, H.unlI.wrap (s.get (stnB n) H.istar))] := by
  rw [holdUnload, if_pos (by simp [hmode, hseq, mStopping])]
  exact s.sets_puts_of_apart (stnB n)

theorem holdUnload_of_elsewhere (h : s.mode n ≠ 4) : s.holdUnload n = s := if_neg (by simp [h, mStopping])

theorem holdEnd_of_unloaded (hmode : s.mode n = 4) (hseq : s.get (stnB n) H.stopSeq = 2) : s.holdEnd n = s.endStop n :=
  if_pos (by simp [hmode, hseq, mStopping])

theorem holdEnd_of_elsewhere (h : s.mode n ≠ 4) : s.holdEnd n = s := if_neg (by simp [h, mStopping])

theorem stopTo_of_stopping (hmode : s.mode n = 4) (hseq : s.get (stnB n) H.stopSeq ≠ 3) (hzvb : s.on (stnB n) H.zvb = false) :
    s.stopTo n = s.faultTrip n (stnCode n 2 0xA0) := if_pos (by simp [hmode, hseq, hzvb, mStopping])

theorem stopTo_of_elsewhere (h : s.mode n ≠ 4) : s.stopTo n = s := if_neg (by simp [h, mStopping])

end State

/-- Settles O46: each row is its event, taken because the station serves, in the case that its mode and its sequence choose. -/
theorem startAndStopRows : Obligations.StartAndStopRows := by
  intro s n t u v w hserves b
  have hstn {x y : State} (h : x = y) : (.next (s.onStn n.val x) : Host.Outcome State Fault Refusal) = .next y :=
    (State.next_onStn hserves x).trans (congrArg _ h)
  have hgate {x y : State} (h : x = y) : (.next (s.onGate n.val x) : Host.Outcome State Fault Refusal) = .next y :=
    (State.next_onGate hserves.1 x).trans (congrArg _ h)
  refine ⟨⟨fun h => hstn (State.openEval_of_open h), fun h => hstn (State.openEval_of_closed h)⟩,
    fun hrun hchk => hstn (State.rotCheckEv_of_check hrun hchk),
    fun hrun hchk hwait hstill => hstn (State.rotCheckEv_of_still hrun hchk hwait hstill),
    fun hrun hwait => hstn (State.revTimeout_of_wait hrun hwait),
    fun halign => ⟨_, hstn rfl, State.startAlignEnd_sets halign⟩,
    fun hhand => hstn (State.handTimeout_of_handover hhand),
    fun hcatch hlock => ⟨fun hweak => ⟨_, hstn (State.catchStopped_of_weak hcatch hlock hweak), s.sets_put ..⟩,
      fun hstop => hstn (State.catchTimeout_of_unlocked hcatch hlock hstop)⟩,
    ⟨_, hgate rfl, s.sets_put ..⟩, fun hmode => ⟨fun hzvb hseq hramp hslow => ?dwell, ?unload, ?ended, ?timeout⟩, fun hmode => ?elsewhere⟩
  case dwell =>
    have hdwell := State.dwellEnd_of_slow hmode hzvb hseq hramp hslow
    refine ⟨fun htype => hgate (hdwell.trans ?_), fun htype => ⟨_, hgate (hdwell.trans ?_), s.holdBrake_sets n.val⟩⟩
    · rcases List.mem_pair.mp htype with h | h <;> rw [h] <;> rfl
    · rw [htype]
      rfl
  case unload => exact fun hseq => ⟨_, hgate rfl, State.holdUnload_sets hmode hseq⟩
  case ended => exact fun hseq => hgate (State.holdEnd_of_unloaded hmode hseq)
  case timeout => exact fun hseq hzvb => hgate (State.stopTo_of_stopping hmode hseq hzvb)
  case elsewhere =>
    exact ⟨hgate (State.dwellEnd_of_elsewhere hmode), hgate (State.holdUnload_of_elsewhere hmode), hgate (State.holdEnd_of_elsewhere hmode),
      hgate (State.stopTo_of_elsewhere hmode)⟩

end Sys2Proof.Machine
end

section
/-!
PROOFS. The loop engine and the set-point port (R244, R245, R256, R257, R259, R262): the request that the engine serves next is the first of a search by
trigger time and slot number.
-/
namespace Sys2Proof.Machine

/-! ### The search for the earliest request -/

/-- One step of the search: `m` is taken when its request is earlier than the best so far. -/
def takeEarlier (due : Nat → Option Nat) (best : Option (Nat × Nat)) (m : Nat) : Option (Nat × Nat) :=
  match due m, best with
  | none, _ => best
  | some x, none => some (x, m)
  | some x, some y => if x < y.1 then some (x, m) else best

/-- What the search finds is a request. -/
theorem foldl_takeEarlier_due {due : Nat → Option Nat} {l : List Nat} {best : Option (Nat × Nat)} {r : Nat × Nat}
    (hbest : ∀ q, best = some q → due q.2 = some q.1) (h : l.foldl (takeEarlier due) best = some r) :
    due r.2 = some r.1 ∧ (best = some r ∨ r.2 ∈ l) := by
  induction l generalizing best with
  | nil => exact ⟨hbest r h, .inl h⟩
  | cons m l ih =>
    have hstep : takeEarlier due best m = best ∨ ∃ x, due m = some x ∧ takeEarlier due best m = some (x, m) := by
      unfold takeEarlier
      split
      · exact .inl rfl
      · next x hx => exact .inr ⟨x, hx, rfl⟩
      · next x y hx =>
        split
        · exact .inr ⟨x, hx, rfl⟩
        · exact .inl rfl
    rcases hstep with hsame | ⟨x, hx, htaken⟩
    · obtain ⟨hr, hfrom⟩ := ih (best := takeEarlier due best m) (hsame.symm ▸ hbest) h
      exact ⟨hr, hfrom.imp (hsame ▸ ·) (List.mem_cons_of_mem m)⟩
    · obtain ⟨hr, hfrom⟩ := ih (best := takeEarlier due best m) (fun q hq => by cases htaken.symm.trans hq; exact hx) h
      refine ⟨hr, .inr ?_⟩
      rcases hfrom with hfirst | hin
      · cases htaken.symm.trans hfirst
        exact List.mem_cons_self
      · exact List.mem_cons_of_mem m hin

/-- No later request displaces the best. -/
theorem foldl_takeEarlier_keeps {due : Nat → Option Nat} {l : List Nat} {x m : Nat} (h : ∀ k ∈ l, ∀ y, due k = some y → x ≤ y) :
    l.foldl (takeEarlier due) (some (x, m)) = some (x, m) := by
  induction l with
  | nil => rfl
  | cons k l ih =>
    obtain ⟨hk, hl⟩ := List.forall_mem_cons.mp h
    have hsame : takeEarlier due (some (x, m)) k = some (x, m) := by
      unfold takeEarlier
      split
      · rfl
      · next hbest => cases hbest
      · next y b hy hbest =>
        cases hbest
        exact if_neg (Nat.not_lt.mpr (hk y hy))
    rw [List.foldl_cons, hsame]
    exact ih hl

/-- In an ascending search a request that comes before every other, in time and then in number, is found. -/
theorem foldl_takeEarlier_first {due : Nat → Option Nat} {l : List Nat} {x m : Nat} (hl : l.Pairwise (· < ·)) (hm : m ∈ l) (hx : due m = some x)
    (h : ∀ k ∈ l, k ≠ m → ∀ y, due k = some y → x < y ∨ (x = y ∧ m < k)) :
    l.foldl (takeEarlier due) none = some (x, m) := by
  obtain ⟨l1, l2, rfl⟩ := List.append_of_mem hm
  obtain ⟨-, htail, hbefore⟩ := List.pairwise_append.mp hl
  obtain ⟨hafter, -⟩ := List.pairwise_cons.mp htail
  have hfound : takeEarlier due (l1.foldl (takeEarlier due) none) m = some (x, m) := by
    cases hprefix : l1.foldl (takeEarlier due) none with
    | none => simp only [takeEarlier, hx]
    | some r =>
      obtain ⟨hr, hfrom⟩ := foldl_takeEarlier_due (fun _ hq => by cases hq) hprefix
      have hin : r.2 ∈ l1 := hfrom.resolve_left fun h => by cases h
      have hlt : r.2 < m := hbefore r.2 hin m List.mem_cons_self
      have := h r.2 (List.mem_append_left _ hin) (Nat.ne_of_lt hlt) r.1 hr
      simp only [takeEarlier, hx]
      exact if_pos (by omega)
  rw [List.foldl_append, List.foldl_cons, hfound]
  refine foldl_takeEarlier_keeps fun k hk y hy => ?_
  have := h k (List.mem_append_right _ (List.mem_cons_of_mem m hk)) (Nat.ne_of_gt (hafter k hk)) y hy
  omega

namespace State

variable {s : State} {h m t : Nat}

/-! ### The slots of the loop engine -/

/-- When a slot that the engine serves itself is due: the sinks update with their station (R245). -/
def engineDue (s : State) (h t m : Nat) : Option Nat := if s.isSink h m then none else s.dueAt h m t

theorem nextDue_eq (s : State) (h t : Nat) : s.nextDue h t = (List.range 48).foldl (takeEarlier (s.engineDue h t)) none := by
  unfold nextDue
  congr 1
  funext best m
  unfold takeEarlier engineDue
  cases s.isSink h m
  · cases s.dueAt h m t <;> cases best <;> rfl
  · rfl

theorem engineDue_eq_some {x : Nat} : s.engineDue h t m = some x ↔ s.isSink h m = false ∧ s.dueAt h m t = some x := by
  unfold engineDue
  cases s.isSink h m <;> simp

theorem slotUpdate_eq (s : State) (h m t : Nat) : s.slotUpdate h m t =
    if s.halfRun h && (s.nextDue h t).map (·.2) == some m then ((s.advance t).settleSlot h m).serveSlot h m t else s.advance t := rfl

/-- The engine serves the request that comes first. -/
theorem slotUpdate_of_first {x : Nat} (hm : m < 48) (hx : s.dueAt h m t = some x) (hrun : s.halfRun h = true) (hsink : s.isSink h m = false)
    (hfirst : ∀ k < 48, k ≠ m → ∀ y, s.engineDue h t k = some y → x < y ∨ (x = y ∧ m < k)) :
    s.slotUpdate h m t = ((s.advance t).settleSlot h m).serveSlot h m t := by
  have hnext : s.nextDue h t = some (x, m) := by
    rw [nextDue_eq]
    exact foldl_takeEarlier_first List.pairwise_lt_range (List.mem_range.mpr hm) (engineDue_eq_some.mpr ⟨hsink, hx⟩)
      fun k hk => hfirst k (List.mem_range.mp hk)
  rw [slotUpdate_eq, hrun, hnext]
  exact if_pos (by simp)

/-- A slot that is not due is not served. -/
theorem slotUpdate_of_idle (hidle : s.halfRun h = false ∨ s.isSink h m = true ∨ s.dueAt h m t = none) : s.slotUpdate h m t = s.advance t := by
  rw [slotUpdate_eq]
  refine if_neg fun hserve => ?_
  obtain ⟨hrun, hnext⟩ := Bool.and_eq_true_iff.mp hserve
  obtain ⟨r, hr, rfl⟩ := Option.map_eq_some_iff.mp (beq_iff_eq.mp hnext)
  rw [nextDue_eq] at hr
  obtain ⟨hsink, hdue⟩ := engineDue_eq_some.mp (foldl_takeEarlier_due (fun _ hq => by cases hq) hr).1
  rcases hidle with h | h | h
  · rw [h] at hrun; cases hrun
  · rw [h] at hsink; cases hsink
  · rw [h] at hdue; cases hdue

/-- When a live slot is due: a chip-time trigger at the next point of its raster, another one as requested (R244). -/
theorem dueAt_of_live (hlive : s.slotLive h m = true) : s.dueAt h m t =
    let b := slotB h m
    let step := 400 * max 1 (s.nat b F.LEN_CFG_TPARAM)
    if s.nat b F.LEN_CFG_TRIG = 1 ∧ s.on b H.slReq = false then (if s.chipDue h m t = 0 then none else some ((s.nat b H.slTrigT / step + 1) * step))
    else if s.on b H.slReq = false then none
    else if s.nat b F.LEN_CFG_TRIG = 2 ∧ s.nat b H.slTick ≠ 0 ∧ t < s.nat b H.slTick + 400 * s.nat b F.LEN_CFG_TPARAM then none
    else some (s.nat b H.slReqT) := by
  unfold dueAt
  simp only [hlive, Bool.not_true, Bool.false_eq_true, if_false, Bool.and_eq_true, decide_eq_true_eq, Bool.not_eq_true']

theorem dueAt_of_dead (hlive : s.slotLive h m = false) : s.dueAt h m t = none := if_pos (by simp [hlive])

theorem dueAt_of_request (hlive : s.slotLive h m = true) (htrig : s.nat (slotB h m) F.LEN_CFG_TRIG ≠ 2) (hreq : s.on (slotB h m) H.slReq = true) :
    s.dueAt h m t = some (s.nat (slotB h m) H.slReqT) := by
  rw [dueAt_of_live hlive]
  simp [htrig, hreq]

theorem dueAt_of_chipTime (hlive : s.slotLive h m = true) (htrig : s.nat (slotB h m) F.LEN_CFG_TRIG = 1) (hreq : s.on (slotB h m) H.slReq = false)
    (hpast : s.nat (slotB h m) H.slTrigT / (400 * max 1 (s.nat (slotB h m) F.LEN_CFG_TPARAM)) < t / (400 * max 1 (s.nat (slotB h m) F.LEN_CFG_TPARAM))) :
    s.dueAt h m t = some ((s.nat (slotB h m) H.slTrigT / (400 * max 1 (s.nat (slotB h m) F.LEN_CFG_TPARAM)) + 1) *
      (400 * max 1 (s.nat (slotB h m) F.LEN_CFG_TPARAM))) := by
  rw [dueAt_of_live hlive]
  dsimp only
  rw [if_pos ⟨htrig, hreq⟩]
  exact if_neg (Nat.sub_ne_zero_of_lt hpast)

theorem dueAt_of_quiet (htrig : s.nat (slotB h m) F.LEN_CFG_TRIG ≠ 1) (hreq : s.on (slotB h m) H.slReq = false) : s.dueAt h m t = none := by
  cases hlive : s.slotLive h m
  · exact dueAt_of_dead hlive
  · rw [dueAt_of_live hlive]
    simp [htrig, hreq]

/-! ### The set-point port -/

/-- A 16-bit code as the port reads it. -/
theorem sgnN_toInt (code : BitVec 16) : sgnN 16 (code.toInt % 65536).toNat = code.toInt := by
  have hlo := BitVec.le_toInt code
  have hhi := BitVec.toInt_lt (x := code)
  simp only [sgnN, wrapS]
  omega

theorem portConv_of_plain {h : Fin 2} (hrun : s.halfRun h.val = true) (hserves : s.oos (.spt h) = false)
    (hmode : s.get (halfB h.val) F.SPT_CTRL_AMODE ∈ [1, 2]) (code : BitVec 16) : s.portConv h.val t code.toInt =
      let u := (s.advance t).puts (halfB h.val) [(F.SPT_AIN_CODE, code.toInt), (F.SPT_XA_XA, tdiv (code.toInt * 2 ^ 24) 32000)]
      u.each (u.slotsOn h.val 3) fun k w => w.countReq h.val k := by
  have h0 : (s.advance t).get (halfB h.val) F.SPT_CTRL_AMODE ≠ 0 := fun he => by rw [advance_get] at he; simp [he] at hmode
  have h3 : (s.advance t).get (halfB h.val) F.SPT_CTRL_AMODE ≠ 3 := fun he => by rw [advance_get] at he; simp [he] at hmode
  have hgo : ¬(!(s.advance t).halfRun h.val || (s.advance t).oos (.spt (Fin.ofNat 2 h.val))) = true := by
    rw [Fin.ofNat_val_eq_self]
    simp [show (s.advance t).halfRun h.val = true from hrun, show (s.advance t).oos (.spt h) = false from hserves]
  unfold portConv
  dsimp only
  rw [if_neg hgo]
  simp only [if_neg h0, if_neg h3, sgnN_toInt]

variable {h : Fin 2} (hrun : s.halfRun h.val = true) (hserves : s.oos (.spt h) = false)

include hrun hserves

theorem portOpen : (!s.halfRun h.val || s.oos (.spt (Fin.ofNat 2 h.val))) = false := by
  rw [Fin.ofNat_val_eq_self]
  simp [hrun, hserves]

theorem portEdge_of_fall (hmode : s.on (halfB h.val) F.SPT_CTRL_PMODE = true) : s.portEdge h.val t false =
    (s.advance t).put (halfB h.val) H.curHigh ((t : Int) - s.nat (halfB h.val) H.lastEdge) := by
  have hopen : (!(s.advance t).halfRun h.val || (s.advance t).oos (.spt (Fin.ofNat 2 h.val))) = false := portOpen hrun hserves
  unfold portEdge
  dsimp only
  rw [hopen, if_neg (by simp [hmode]), if_neg Bool.false_ne_true]
  rfl

/-- The first rising edge counts, and gives no period yet. -/
theorem portEdge_of_first_rise (hmode : s.on (halfB h.val) F.SPT_CTRL_PMODE = true) (hcnt : s.get (halfB h.val) F.SPT_CNT_CNT = 0)
    (hlos : s.on (halfB h.val) F.SPT_STAT_LOS_P = false) : s.portEdge h.val t true =
    (s.advance t).puts (halfB h.val) [(F.SPT_CNT_CNT, 1), (H.prevEdge, s.nat (halfB h.val) H.lastEdge), (H.lastEdge, t)] := by
  have hopen : (!(s.advance t).halfRun h.val || (s.advance t).oos (.spt (Fin.ofNat 2 h.val))) = false := portOpen hrun hserves
  unfold portEdge
  extract_lets a b last first u v
  have hv : v = (s.advance t).puts (halfB h.val) [(F.SPT_CNT_CNT, 1), (H.prevEdge, s.nat (halfB h.val) H.lastEdge), (H.lastEdge, t)] := by
    have hfirst : first = true := by simp [first, a, b, hcnt]
    simp only [v, hfirst, if_true, u, a, b, advance_get, hcnt]
    rfl
  have hlosv : v.on b F.SPT_STAT_LOS_P = false := by
    rw [hv, on, get_puts_of_apart _ _ (by simp only [List.map_cons, List.map_nil]; decide)]
    exact hlos
  rw [hopen, if_neg (by simp [a, b, hmode]), if_pos rfl, if_neg (by simp [hlosv])]
  exact hv

theorem splos_of_pulse (hmode : 2 ≤ s.nat (halfB h.val) F.SPT_CTRL_PMODE) (hlos : s.on (halfB h.val) F.SPT_STAT_LOS_P = false) :
    s.splos h.val true = s.spLos h.val true := by
  unfold splos
  dsimp only
  rw [portOpen hrun hserves, if_neg Bool.false_ne_true, if_pos rfl, if_pos (by simp [hmode, hlos])]

theorem splos_of_analogue : s.splos h.val false = if s.losDue h.val then s.spLos h.val false else s := by
  unfold splos
  dsimp only
  rw [portOpen hrun hserves, if_neg Bool.false_ne_true, if_neg Bool.false_ne_true]

end State

/-- Settles O52: an update is the engine's next request or nothing; every other row is its event. -/
theorem loopAndPort : Obligations.LoopAndPort := by
  intro s h m t b g a
  refine ⟨fun x hx hrun hsink hfirst => ?update, State.dueAt_of_request, State.dueAt_of_chipTime, fun hidle => ?idle, fun _ => rfl, fun hrun => ?sloterr,
    fun hrun => ?lenerr, fun hrun hserves => ⟨fun code hmode => ?conversion, fun hmode => ?fall, fun hmode hcnt hlos => ?rise, fun hmode hlos => ?pulse,
      fun hdue => ?due, fun hnot => ?notdue⟩⟩
  case update =>
    refine congrArg Host.Outcome.next (State.slotUpdate_of_first m.isLt hx hrun hsink fun k hk hne y hy => ?_)
    obtain ⟨hother, hdue⟩ := State.engineDue_eq_some.mp hy
    have hk' := hfirst ⟨k, hk⟩ fun he => hne (congrArg Fin.val he)
    simp only [hother, hdue, Bool.false_eq_true, false_or] at hk'
    exact hk'
  case idle =>
    refine congrArg Host.Outcome.next (State.slotUpdate_of_idle ?_)
    rcases hidle with h | h | h | ⟨htrig, hreq⟩
    · exact .inl h
    · exact .inr (.inl h)
    · exact .inr (.inr (State.dueAt_of_dead h))
    · exact .inr (.inr (State.dueAt_of_quiet htrig hreq))
  case sloterr =>
    refine congrArg Host.Outcome.next ?_
    rw [State.slotErrEv, if_neg (by simp [hrun])]
    simp only [Bool.and_eq_true, Bool.or_eq_true, or_assoc]
    rfl
  case lenerr =>
    refine congrArg Host.Outcome.next ?_
    rw [State.lenErr, if_neg (by simp [hrun]), Fin.ofNat_val_eq_self]
  case conversion => exact congrArg Host.Outcome.next (State.portConv_of_plain hrun hserves hmode code)
  case fall => exact ⟨_, congrArg Host.Outcome.next (State.portEdge_of_fall hrun hserves hmode), a.sets_put ..⟩
  case rise =>
    exact ⟨_, congrArg Host.Outcome.next (State.portEdge_of_first_rise hrun hserves hmode hcnt hlos), a.sets_puts_of_apart g⟩
  case pulse => exact congrArg Host.Outcome.next (State.splos_of_pulse hrun hserves hmode hlos)
  case due => exact congrArg Host.Outcome.next ((State.splos_of_analogue hrun hserves).trans (if_pos hdue))
  case notdue => exact congrArg Host.Outcome.next ((State.splos_of_analogue hrun hserves).trans (if_neg (by simp [hnot])))

end Sys2Proof.Machine
end

section
/-!
PROOFS. The links of the hatband (R266, R267): whose identity brings a link up or holds it, and what each event does in the link's state.
-/
namespace Sys2Proof.Machine

namespace State

variable {s : State} {l : Link} {x : Ident}

/-- The identity that a link expects of its neighbour (R266). -/
theorem identOk_iff : s.identOk l x = true ↔ x.ringNo.toNat = s.nat 0 F.HBD_RING_RING_NO ∧ x.pos.toNat = s.lnkNb l ∧
    x.nchip.toNat = s.nat 0 F.HBD_RING_NCHIP_M1 ∧ x.tSc.toNat = s.nat 0 F.HBD_CYC_T_SC ∧ x.lmax.toNat = s.nat 0 F.HBD_RING_LMAX ∧
    x.topo = s.on 0 F.HBD_CTRL_TOPO := by
  simp only [identOk, Bool.and_eq_true, beq_iff_eq, and_assoc]

theorem linkUp_of_fits (hon : s.hatOn = true) (hfits : s.identOk l x = true) (hclock : s.ringClock = true) (hused : s.lnkUsed l = true)
    (hserves : s.oos l.block = false) (hstate : s.lnkSt l ∈ [0, 1]) : s.linkUp l x =
      ((s.puts l.base [(F.HBD_LNK_LSTATE, 2), (F.HBD_LNK_NB_POS, (x.pos.toNat : Nat))]).put 0 H.hbWasUp 1).hatState := by
  have hdown : (s.lnkSt l == 0 || s.lnkSt l == 1) = true := by simpa using hstate
  exact if_neg (by simp [hon, hclock, hused, hserves, hdown, hfits])

theorem linkUp_of_other (h : s.identOk l x = false) : s.linkUp l x = s := if_pos (by simp [h])

theorem lnkId_of_other (hon : s.hatOn = true) (h : s.identOk l x = false) (hused : s.lnkUsed l = true) (hstate : s.lnkSt l ≠ 4) :
    s.lnkId l x = ((s.lnkHold l 0x93).lnkRaise 0x93).hatState := if_pos (by simp [hon, hused, hstate, h])

theorem lnkId_of_idle (h : s.identOk l x = true ∨ s.lnkUsed l = false ∨ s.lnkSt l = 4) : s.lnkId l x = s :=
  if_neg (by rcases h with h | h | h <;> simp [h])

theorem linkDelay_of_trained (hon : s.hatOn = true) (hstate : s.lnkSt l ∈ [1, 2]) (d : Nat) : s.linkDelay l d = s.put l.base F.HBD_LNK_DLY d := by
  have htrained : (s.lnkSt l == 1 || s.lnkSt l == 2) = true := by simpa using hstate
  exact if_pos (by simp [hon, htrained])

theorem lnkLoss_of_trained (hon : s.hatOn = true) (hused : s.lnkUsed l = true) (hstate : s.lnkSt l ∈ [1, 2]) : s.lnkLoss l = s.lnkDown l 0 0x90 := by
  have htrained : (s.lnkSt l == 1 || s.lnkSt l == 2) = true := by simpa using hstate
  exact if_pos (by simp [hon, hused, htrained])

theorem lnkLoss_of_down (hstate : s.lnkSt l ∉ [1, 2]) : s.lnkLoss l = s := by
  have hdown : (s.lnkSt l == 1 || s.lnkSt l == 2) = false := by simpa using hstate
  exact if_neg (by simp [hdown])

theorem lnkLate_of_limit (hon : s.hatOn = true) (hup : s.lnkSt l = 2) (hlate : s.get 0 F.HBD_CYC_LATE_MAX ≤ s.get 0 (lateF l).1) :
    s.lnkLate l = (s.put 0 (lateF l).1 0).lnkDown l 0 0x92 := if_pos (by simp [hon, hup, hlate])

theorem lnkLate_of_down (hdown : s.lnkSt l ≠ 2) : s.lnkLate l = s := if_neg (by simp [hdown])

theorem linkRetrain_of_down (hon : s.hatOn = true) (hclock : s.ringClock = true) (hused : s.lnkUsed l = true) (hdown : s.lnkSt l = 0) :
    s.linkRetrain l = s.put l.base F.HBD_LNK_LSTATE 1 := if_pos (by simp [hon, hclock, hused, hdown])

theorem linkRetrain_of_other (h : s.lnkSt l ≠ 0) : s.linkRetrain l = s := if_neg (by simp [h])

end State

/-- Settles O53: the neighbour's identity decides LINK_UP and LNKID, the link's state the other rows. -/
theorem links : Obligations.Links := by
  intro s l hon
  refine ⟨?identity, fun d hstate => ⟨_, congrArg Host.Outcome.next (State.linkDelay_of_trained hon hstate _), s.sets_put ..⟩,
    fun hused hstate => congrArg Host.Outcome.next (State.lnkLoss_of_trained hon hused hstate),
    fun hstate => congrArg Host.Outcome.next (State.lnkLoss_of_down hstate), fun hdown => congrArg Host.Outcome.next (State.lnkLate_of_down hdown),
    fun hup hlate => congrArg Host.Outcome.next (State.lnkLate_of_limit hon hup hlate), congrArg Host.Outcome.next (if_pos hon),
    fun hclock hused hdown => ⟨_, congrArg Host.Outcome.next (State.linkRetrain_of_down hon hclock hused hdown), s.sets_put ..⟩,
    fun hother => congrArg Host.Outcome.next (State.linkRetrain_of_other hother)⟩
  case identity =>
    intro x nb fits
    have hfits : fits ↔ s.identOk l x = true := State.identOk_iff.symm
    have hother : ¬fits ↔ s.identOk l x = false := by rw [hfits, Bool.not_eq_true]
    refine ⟨fun h hclock hused hserves hstate => ?_, fun h => congrArg Host.Outcome.next (State.linkUp_of_other (hother.mp h)),
      fun h hused hstate => congrArg Host.Outcome.next (State.lnkId_of_other hon (hother.mp h) hused hstate),
      fun h => congrArg Host.Outcome.next (State.lnkId_of_idle (h.imp_left hfits.mp))⟩
    have hup := State.linkUp_of_fits hon (hfits.mp h) hclock hused hserves hstate
    obtain ⟨-, hpos, -⟩ := h
    exact congrArg Host.Outcome.next (hpos ▸ hup)

end Sys2Proof.Machine
end

section
/-!
PROOFS. The share cycle (R271, R274, R276, R278, R280, R286, R288): what the use of a cycle's frames leaves as it is, and what a received copy leads to.
-/
namespace Sys2Proof.Machine

/-- `t` comes from `s` with the share cycle's frames, those in force and the mark of their use as they were. -/
structure CycleKept (s t : State) : Prop where
  frames  : t.hat.frames = s.hat.frames
  inForce : t.hat.inForce = s.hat.inForce
  used    : t.get 0 H.hbUsed = s.get 0 H.hbUsed

/-- The registers of the areas above the hatband's own state begin at higher bits than the mark of use. -/
theorem key_ne_hbUsed {f : Fld} {b : Nat} (h : H.hbUsed.off < f.off := by decide) : f.key b ≠ H.hbUsed.key 0 := by
  simp only [Fld.key, H.hbUsed] at h ⊢
  omega

namespace CycleKept

variable {s0 s t : State}

theorem refl (s : State) : CycleKept s s := ⟨rfl, rfl, rfl⟩

theorem trans {u : State} (h : CycleKept s t) (k : CycleKept t u) : CycleKept s u :=
  ⟨k.frames.trans h.frames, k.inForce.trans h.inForce, k.used.trans h.used⟩

theorem ite {c : Prop} [Decidable c] {a b : State} (ha : CycleKept s0 a) (hb : CycleKept s0 b) : CycleKept s0 (if c then a else b) := by
  split <;> assumption

theorem each {α : Type} {l : List α} {g : α → State → State} (h : CycleKept s0 s) (hg : ∀ a s, CycleKept s0 s → CycleKept s0 (g a s)) :
    CycleKept s0 (s.each l g) := State.each_keeps h hg

/-- What touches neither the registers nor the cycle's frames. -/
theorem other (h : CycleKept s0 s) (hr : t.regs = s.regs) (hf : t.hat.frames = s.hat.frames) (hi : t.hat.inForce = s.hat.inForce) : CycleKept s0 t :=
  h.trans ⟨hf, hi, by rw [State.get, State.get, hr]⟩

theorem put {b : Nat} {f : Fld} {v : Int} (h : CycleKept s0 s) (hf : f.key b ≠ H.hbUsed.key 0) : CycleKept s0 (s.put b f v) :=
  h.trans ⟨rfl, rfl, State.get_put_ne s v hf⟩

theorem bumpBy {b : Nat} {f : Fld} {v : Int} (h : CycleKept s0 s) (hf : f.key b ≠ H.hbUsed.key 0) : CycleKept s0 (s.bumpBy b f v) :=
  (put h hf).other rfl rfl rfl

theorem orBits {b : Nat} {f : Fld} {m : Nat} (h : CycleKept s0 s) (hf : f.key b ≠ H.hbUsed.key 0) : CycleKept s0 (s.orBits b f m) :=
  (put h hf).other rfl rfl rfl

theorem puts {b : Nat} {l : List (Fld × Int)} (h : CycleKept s0 s) (hl : ∀ f ∈ l.map Prod.fst, f.key b ≠ H.hbUsed.key 0) :
    CycleKept s0 (s.puts b l) := by
  induction l generalizing s with
  | nil => exact h
  | cons e r ih =>
    obtain ⟨he, hr⟩ := List.forall_mem_cons.mp hl
    exact ih (h.put he) hr

theorem milWork (h : CycleKept s0 s) (k : MilWork s t) : CycleKept s0 t :=
  h.other k.regs (congrArg (·.hat.frames) k.rest :).symm (congrArg (·.hat.inForce) k.rest :).symm

/-! ### Notices, triggers and faults -/

theorem queueNotice {i ty : Nat} {body : List Nat} (h : CycleKept s0 s) : CycleKept s0 (s.queueNotice i ty body) :=
  .ite (h.other rfl rfl rfl) (.put (.bumpBy (h.other (t := s.withPort i fun q => { q with evtLost := true }) rfl rfl rfl) (by decide)) (by decide))

theorem notice {ty : Nat} {body : List Nat} (h : CycleKept s0 s) : CycleKept s0 (s.notice ty body) := by
  unfold State.notice
  split
  · extract_lets r b s1 s2
    have h1 : CycleKept s0 s1 := .ite (.queueNotice h) h
    have h2 : CycleKept s0 s2 := .ite (.queueNotice h1) h1
    exact .ite (each h2 fun _ _ h => .queueNotice h) h2
  · exact h

theorem loseTrig {k : Nat} (h : CycleKept s0 s) : CycleKept s0 (s.loseTrig k) :=
  .bumpBy (h.other (t := s.withLog fun l => { l with pendLost := l.pendLost + k }) rfl rfl rfl) (by decide)

theorem fifoEnter {t r code q : Nat} {data : List Nat} (h : CycleKept s0 s) : CycleKept s0 (s.fifoEnter t r code q data) :=
  .ite (.loseTrig h) (.ite (h.other rfl rfl rfl) (.ite (.loseTrig h) (h.other rfl rfl rfl)))

theorem trigger {r t code : Nat} {data : List Nat} (h : CycleKept s0 s) : CycleKept s0 (s.trigger r t code data) := by
  unfold State.trigger
  split
  · exact h
  · extract_lets q s1 k s2
    have h1 : CycleKept s0 s1 := h.other rfl rfl rfl
    have h2 : CycleKept s0 s2 := .ite h1 (.loseTrig h1)
    exact .ite (.fifoEnter h1) (.ite (.loseTrig h1) (.ite (.fifoEnter (h2.other rfl rfl rfl)) (h1.other rfl rfl rfl)))

theorem enterList {u : FUnit} {code : Nat} (h : CycleKept s0 s) : CycleKept s0 (s.enterList u code) :=
  .ite (h.other rfl rfl rfl) (.ite (h.other rfl rfl rfl) (.notice (h.other rfl rfl rfl)))

theorem raise {u : FUnit} {code : Nat} {data : List Nat} (h : CycleKept s0 s) : CycleKept s0 (s.raise u code data) :=
  .ite (.enterList h) (.trigger (.enterList h))

/-! ### The hatband's own rows -/

theorem fwdEnd {tag : Nat} (h : CycleKept s0 s) : CycleKept s0 (s.fwdEnd tag) := by
  cases hb : s.mil.busy.find? fun b => b.tag == tag && b.fwd.isSome with
  | none => rwa [State.fwdEnd, hb]
  | some b =>
    have hended : CycleKept s (s.fwdEnded tag (b.fwd.getD 0)) := ⟨rfl, rfl, State.get_put_ne _ _ (by decide)⟩
    rw [State.fwdEnd_eq hb]
    exact (h.trans hended).milWork (.fwdAnswer (.refl _))

theorem fwdDrop (h : CycleKept s0 s) : CycleKept s0 s.fwdDrop := each h fun _ _ h => .fwdEnd h

theorem checkSig (h : CycleKept s0 s) : CycleKept s0 s.checkSig := by
  unfold State.checkSig
  extract_lets s1 ok s2
  have h1 : CycleKept s0 s1 := .ite (.put h (by decide)) h
  have h2 : CycleKept s0 s2 := .put h1 (by decide)
  exact .ite (.ite h1 (.put h1 (by decide))) (.ite h2 (.raise h2))

theorem hatState (h : CycleKept s0 s) : CycleKept s0 s.hatState := by
  unfold State.hatState
  extract_lets up every old st s1 s2
  have h1 : CycleKept s0 s1 := .put h (by decide)
  have h2 : CycleKept s0 s2 := .ite (.puts h1 (by simp only [List.map_cons, List.map_nil]; decide)) h1
  exact .ite (.raise h2) h2

theorem putChannel {n : Nat} (h : CycleKept s0 s) : CycleKept s0 (s.putChannel n) := by
  unfold State.putChannel
  dsimp only
  split
  · refine .puts h ?_
    simp only [List.map_cons, List.map_nil, List.forall_mem_cons]
    exact ⟨key_ne_hbUsed, key_ne_hbUsed, key_ne_hbUsed, key_ne_hbUsed, key_ne_hbUsed, key_ne_hbUsed, key_ne_hbUsed, fun _ h => by cases h⟩
  · exact .bumpBy h key_ne_hbUsed

theorem applyAlloc {n : Nat} (h : CycleKept s0 s) : CycleKept s0 (s.applyAlloc n) := by
  have hpair (v w : Int) {s : State} (h : CycleKept s0 s) : CycleKept s0 (s.puts (8 * n) [(F.HBD_ALLOC1_FRESH, v), (F.HBD_ALLOC1_HOLD, w)]) :=
    .put (.put h key_ne_hbUsed) key_ne_hbUsed
  unfold State.applyAlloc
  refine .ite (hpair 0 0 h) (.ite h ?_)
  extract_lets rsn ap hit ok hold
  have hhold : CycleKept s0 (hold s) := hpair 0 1 h
  clear_value hit
  cases hit with
  | none => exact hhold
  | some x =>
    refine .ite (.bumpBy (.put hhold key_ne_hbUsed) key_ne_hbUsed) (.ite hhold (.put (.put (.put (.put h key_ne_hbUsed) key_ne_hbUsed) key_ne_hbUsed) ?_))
    simp only [Fld.key, stnB, H.alloc, H.hbUsed]
    omega

theorem allocate (h : CycleKept s0 s) : CycleKept s0 s.allocate := by
  unfold State.allocate
  refine .ite (h.other rfl rfl rfl) (List.foldlRecOn _ _ (h.other rfl rfl rfl) fun s h g _ => .ite h ?_)
  extract_lets a s1 s2
  have h1 : CycleKept s0 s1 := .put (.put h key_ne_hbUsed) key_ne_hbUsed
  have h2 : CycleKept s0 s2 := .ite (.put h1 key_ne_hbUsed) h1
  exact h2.other rfl rfl rfl

/-! ### Segments of the mailbox -/

theorem withPeer {p : Nat} {g : Peer → Peer} (h : CycleKept s0 s) : CycleKept s0 (s.withPeer p g) := h.other rfl rfl rfl

theorem setBit {b : Nat} {f : Fld} {i : Nat} (h : CycleKept s0 s) (hf : f.key b ≠ H.hbUsed.key 0) : CycleKept s0 (s.setBit b f i true) := .orBits h hf

theorem mbxCount {o : Nat} (h : CycleKept s0 s) : CycleKept s0 (s.mbxCount o) := .setBit (.bumpBy (.withPeer h) key_ne_hbUsed) key_ne_hbUsed

theorem mbxLose {o : Nat} (h : CycleKept s0 s) : CycleKept s0 (s.mbxLose o) := .ite (.mbxCount h) h

theorem hearEpoch {o ep : Nat} (h : CycleKept s0 s) : CycleKept s0 (s.hearEpoch o ep) :=
  .ite h (.ite (.withPeer h) (.setBit (.withPeer (.mbxLose h)) key_ne_hbUsed))

theorem recvCredit {o w1 w2 : Nat} (h : CycleKept s0 s) : CycleKept s0 (s.recvCredit o w1 w2) := by
  unfold State.recvCredit
  extract_lets ep f q s1 part words s2 q'
  have h1 : CycleKept s0 s1 := .withPeer (.hearEpoch h)
  have h2 : CycleKept s0 s2 := .ite (.notice (.withPeer h1)) (.withPeer h1)
  exact .ite (.setBit h2 key_ne_hbUsed) h2

theorem recvData {o : Nat} {g : Seg} (h : CycleKept s0 s) : CycleKept s0 (s.recvData o g) := by
  unfold State.recvData
  extract_lets hd s1 s2 s3
  have h2 : CycleKept s0 s2 := .ite (.withPeer (.hearEpoch (.mbxLose h))) (.ite (.mbxCount h) (.withPeer h))
  have h3 : CycleKept s0 s3 := by
    unfold s3
    split
    · exact h2
    · exact .ite (.withPeer h2) (.mbxLose h2)
  exact .ite h2 (.withPeer h3)

theorem recvSeg {o : Nat} {g : Seg} (h : CycleKept s0 s) : CycleKept s0 (s.recvSeg o g) := by
  unfold State.recvSeg
  extract_lets gap s1 s2
  have h1 : CycleKept s0 s1 := .ite (.mbxLose h) h
  have h2 : CycleKept s0 s2 := .withPeer h1
  exact .ite h (.ite (.recvCredit h) (.ite (.recvData h2) (.ite (.bumpBy (.orBits h2 key_ne_hbUsed) key_ne_hbUsed) h2)))

/-- The work that the use of a cycle begins is done with its frames in force and its use marked (R274). -/
theorem cycleUse {t : Nat} (hon : s.hatOn = true) (hused : s.on 0 H.hbUsed = false) :
    (s.cycleUse t).hat.inForce = s.hat.frames ∧ (s.cycleUse t).on 0 H.hbUsed = true := by
  unfold State.cycleUse
  extract_lets a fs heard s1 reach marked hat s2 s3 r s4 s5 s6 s7
  have h1 : s1.hat.frames = s.hat.frames := by
    unfold s1
    split <;> rfl
  have h2 : marked.get 0 H.hbUsed = 1 := State.get_puts_of_mem s1 0 List.mem_cons_self
  have h3 : CycleKept s2 s3 := .hatState (.checkSig (.fwdDrop (.refl s2)))
  have h4 : CycleKept s2 s4 := .ite h3 (.put h3 (by decide))
  have h7 : CycleKept s2 s7.allocate :=
    .allocate (.each (.each (.each h4 fun _ _ h => .putChannel h) fun _ _ h => .applyAlloc h) fun _ _ h => .each h fun _ _ h => .recvSeg h)
  have hgo : ¬(!a.hatOn || a.on 0 H.hbUsed) = true := by
    rw [show a.hatOn = true from hon, show a.on 0 H.hbUsed = false from hused]
    decide
  rw [if_neg hgo]
  exact ⟨h7.inForce, by rw [State.on, h7.used, show s2.get 0 H.hbUsed = 1 from h2]; rfl⟩

end CycleKept

namespace State

variable {s : State} {t : Nat}

theorem cycleUse_of_idle (h : s.hatOn = false ∨ s.on 0 H.hbUsed = true) : s.cycleUse t = s.advance t := by
  refine if_pos ?_
  rcases h with h | h
  · rw [show (s.advance t).hatOn = false from h]
    rfl
  · rw [show (s.advance t).on 0 H.hbUsed = true from h, Bool.or_true]

/-! ### The losses -/

theorem allocLoss_of_source (n : Fin 4) (hrun : s.mode n.val = 3) (hring : s.get (stnB n.val) F.STN_STAT_SOURCE = 2)
    (hfresh : s.on (8 * n.val) F.HBD_ALLOC1_FRESH = false) (hfall : s.on (8 * n.val) F.HBD_ALLOC1_FALLBACK = false) :
    s.allocLoss n.val = ((s.put (8 * n.val) F.HBD_ALLOC1_FALLBACK 1).stnRaise n.val (stnCode n.val 2 0x99)).fallback n.val :=
  if_pos (by simp [mRun, hrun, hring, hfresh, hfall])

end State
end Sys2Proof.Machine
end

section
/-!
PROOFS. A received copy of a frame goes through the checks of R274 in their order; a chip that hears a root of another cycle enters its ring (R280).
-/
namespace Sys2Proof.Machine

theorem CycleKept.ringError {s0 s : State} {d : Int} (h : CycleKept s0 s) : CycleKept s0 (s.ringError d) := by
  unfold State.ringError
  extract_lets ae s1 set s2 s3 v s4 s5 s6
  have hset {s : State} (h : CycleKept s0 s) : CycleKept s0 (set s) := .put h (by decide)
  have h1 : CycleKept s0 s1 := .put h (by decide)
  have h3 : CycleKept s0 s3 := .ite (.raise (.put (hset h1) (by decide))) h1
  have h4 : CycleKept s0 s4 := .put (h3.other (t := v.2) rfl rfl rfl) (by decide)
  have h5 : CycleKept s0 s5 := .ite (.bumpBy h4 (by decide)) (.put h4 (by decide))
  have h6 : CycleKept s0 s6 := .ite (.bumpBy h5 (by decide)) (.put h5 (by decide))
  have hsync {v : Bool} : CycleKept s0 (s6.putSync v) := .put (.put h6 (by decide)) (by decide)
  exact .ite h1 (.ite (.puts (hset h1) (by simp only [List.map_cons, List.map_nil]; decide)) (.ite hsync (.ite hsync h6)))

namespace State

variable {s : State} {t : Nat}

/-! ### A received copy -/

/-- Every copy goes through the checks of the link first. -/
theorem frameIn_of_down {l : Link} {ws : List Nat} {e : FrameEnd} {err : Bool} {rx path res : Nat} (h : s.hatOn = false ∨ s.lnkSt l ≠ 2) :
    s.frameIn l ws e err rx t path res = s.advance t := by
  have hdown : (!(s.advance t).hatOn || (s.advance t).lnkSt l != 2) = true := by
    rcases h with h | h
    · simp [show (s.advance t).hatOn = false from h]
    · simp [show (s.advance t).lnkSt l ≠ 2 from h]
  exact if_pos hdown

/-- The state in which a chip goes over to the ring of frame `f` (R280), before it measures the root's time. -/
def ringEntered (s : State) (f : Frame) : State :=
  (s.puts 0 [(H.hbJoin, 0), (H.hbNext, 0), (F.HBD_STAT_ROOT, 0), (F.HBD_STAT_ROOT_POS, (f.origin : Nat)), (F.HBD_GSIG_ROOT_SIG, (f.gsig : Nat)),
    (H.hbLone, 0), (H.hbSeg, 0)]).putSync false

theorem forward_frames (s : State) (l : Link) (ws : List Nat) (res : Nat) (e : FrameEnd) : (s.forward l ws res e).hat.frames = s.hat.frames := by
  unfold forward
  dsimp only
  split <;> rfl

/-- The state with a frame of the running cycle among its frames (R274), and the root's time measured by a root's frame (R271). -/
def frameTaken (s : State) (l : Link) (f : Frame) (rx16 path : Nat) : State :=
  let s := { s with hat := { s.hat with frames := s.hat.frames ++ [f] } }
  if f.origin = s.nat 0 F.HBD_STAT_ROOT_POS && !s.on 0 F.HBD_STAT_ROOT then
    (s.put 0 F.HBD_GSIG_ROOT_SIG f.gsig).ringError (s.rootError l f rx16 path)
  else s

theorem frameTaken_frames (s : State) (l : Link) (f : Frame) (rx16 path : Nat) : (s.frameTaken l f rx16 path).hat.frames = s.hat.frames ++ [f] := by
  unfold frameTaken
  dsimp only
  split
  · exact (CycleKept.ringError (.refl _)).frames
  · rfl

section Up

variable {l : Link} {ws : List Nat} {e : FrameEnd} {rx path res : Nat} {f : Frame} (hon : s.hatOn = true) (hup : s.lnkSt l = 2)

include hon hup

theorem linkOpen : (!(s.advance t).hatOn || (s.advance t).lnkSt l != 2) = false := by
  simp [show (s.advance t).hatOn = true from hon, show (s.advance t).lnkSt l = 2 from hup]

theorem frameIn_of_abort {err : Bool} : s.frameIn l ws .abort err rx t path res = (s.advance t).forward l ws res .abort := by
  unfold frameIn
  dsimp only
  rw [linkOpen hon hup]
  rfl

theorem frameIn_of_bad {err : Bool} (he : e ≠ .abort) (hbad : err = true ∨ ws.getLastD 0 ≠ crcWords ws.dropLast) :
    s.frameIn l ws e err rx t path res = ((s.advance t).forward l ws res .abort).lnkCrc l := by
  unfold frameIn
  dsimp only
  rw [linkOpen hon hup, if_neg Bool.false_ne_true, if_neg he, if_pos (by simpa using hbad)]

variable (he : e ≠ .abort) (hcrc : ws.getLastD 0 = crcWords ws.dropLast) (hread : readFrame ws.dropLast = some f)

include he hcrc hread

theorem frameIn_of_unfit (h : f.type ≠ 0xA5 ∨ f.ringNo ≠ s.nat 0 F.HBD_RING_RING_NO ∨ s.ringN ≤ f.origin) :
    s.frameIn l ws e false rx t path res = (s.advance t).bump l.base F.HBD_CNT_SEQ := by
  unfold frameIn
  dsimp only
  rw [linkOpen hon hup, if_neg Bool.false_ne_true, if_neg he, if_neg (by simpa using hcrc), hread]
  exact if_pos h

variable (hfits : ¬(f.type ≠ 0xA5 ∨ f.ringNo ≠ s.nat 0 F.HBD_RING_RING_NO ∨ s.ringN ≤ f.origin))

include hfits

theorem frameIn_of_otherCycle (hcycle : f.cycle ≠ s.nat 0 H.hbM) : ∃ d, s.frameIn l ws e false rx t path res =
    if ((s.advance t).bump l.base F.HBD_CNT_SEQ).joins f then (((s.advance t).bump l.base F.HBD_CNT_SEQ).ringEntered f).ringError d
    else ((s.advance t).bump l.base F.HBD_CNT_SEQ).noteSeg f := by
  unfold frameIn
  dsimp only
  rw [linkOpen hon hup, if_neg Bool.false_ne_true, if_neg he, if_neg (by simpa using hcrc), hread]
  exact ⟨_, (if_neg hfits).trans (if_pos hcycle)⟩

/-- A frame of the cycle that comes in time, the first of its origin, is kept with the others (R274). -/
theorem frameIn_of_first (hcycle : f.cycle = s.nat 0 H.hbM) (htime : (s.advance t).ringTime t ≤ (s.advance t).useTime t) (hused : s.on 0 H.hbUsed = false)
    (hfirst : s.hat.frames.all (fun x => x.origin ≠ f.origin) = true) :
    s.frameIn l ws e false rx t path res = ((s.advance t).forward l ws res e).frameTaken l f rx path := by
  have hkept : ((s.advance t).forward l ws res e).hat.frames = s.hat.frames := forward_frames _ _ _ _ _
  have hin : ¬(decide ((s.advance t).useTime t < (s.advance t).ringTime t) || (s.advance t).on 0 H.hbUsed) = true := by
    simpa [show (s.advance t).on 0 H.hbUsed = false from hused] using htime
  have hnew : ¬((s.advance t).forward l ws res e).hat.frames.any (·.origin == f.origin) = true := by
    simpa [hkept] using hfirst
  unfold frameIn
  dsimp only
  rw [linkOpen hon hup, if_neg Bool.false_ne_true, if_neg he, if_neg (by simpa using hcrc), hread]
  exact (if_neg hfits).trans ((if_neg (not_not_intro hcycle)).trans ((if_neg hin).trans (if_neg hnew)))

end Up

/-! ### A frame of another cycle -/

theorem noteSeg_sets (s : State) (f : Frame) :
    s.Sets (s.noteSeg f) [(0, H.hbSeg, if s.hearsNobody = true ∧ f.root = false ∧ f.origin ≠ s.ownPos then 1 else s.get 0 H.hbSeg)] := by
  by_cases h : s.hearsNobody = true ∧ f.root = false ∧ f.origin ≠ s.ownPos
  · rw [if_pos h, noteSeg, if_pos (by simpa [and_assoc] using h)]
    exact s.sets_put 0 H.hbSeg 1
  · rw [if_neg h, noteSeg, if_neg (by simpa [and_assoc] using h)]
    exact s.sets_same 0 H.hbSeg

theorem ringError_of_joining (hroot : s.on 0 F.HBD_STAT_ROOT = false) (hjoin : s.on 0 H.hbJoin = false) (d : Int) : s.ringError d =
    ((s.put 0 F.HBD_TERR_TERR (sat32 d)).put 0 F.HBD_OFS_OFS (wrapS 64 ((s.put 0 F.HBD_TERR_TERR (sat32 d)).get 0 F.HBD_OFS_OFS - tdiv d 16))).puts 0
      [(H.hbJoin, 1), (H.hbGood, 0), (H.hbBad, 0)] := by
  have hr : (s.put 0 F.HBD_TERR_TERR (sat32 d)).on 0 F.HBD_STAT_ROOT = false := by rwa [on, get_put_ne _ _ (by decide)]
  have hj : (s.put 0 F.HBD_TERR_TERR (sat32 d)).on 0 H.hbJoin = false := by rwa [on, get_put_ne _ _ (by decide)]
  unfold ringError
  dsimp only
  rw [hr, hj]
  rfl

theorem ringEntered_gets (s : State) {f : Frame} (hf : f.origin < 8) : (s.ringEntered f).get 0 F.HBD_STAT_ROOT = 0 ∧
    (s.ringEntered f).get 0 H.hbJoin = 0 ∧ (s.ringEntered f).get 0 F.HBD_STAT_ROOT_POS = f.origin ∧ (s.ringEntered f).get 0 F.HBD_STAT_SYNC_OK = 0 := by
  have hfield (g : Fld) (v : Int) (hsync : F.HBD_STAT_SYNC_OK.key 0 ≠ g.key 0) (hring : F.CHIP_STATUS_TB_RING.key 0 ≠ g.key 0)
      (hg : (g, v) ∈ [(H.hbJoin, 0), (H.hbNext, 0), (F.HBD_STAT_ROOT, 0), (F.HBD_STAT_ROOT_POS, (f.origin : Int)), (F.HBD_GSIG_ROOT_SIG, (f.gsig : Int)),
        (H.hbLone, 0), (H.hbSeg, 0)]) : (s.ringEntered f).get 0 g = g.wrap v :=
    (get_put_ne _ _ hring).trans ((get_put_ne _ _ hsync).trans (s.get_puts_of_mem 0 hg))
  refine ⟨hfield F.HBD_STAT_ROOT 0 (by decide) (by decide) (by simp), hfield H.hbJoin 0 (by decide) (by decide) (by simp),
    (hfield F.HBD_STAT_ROOT_POS f.origin (by decide) (by decide) (by simp)).trans ?_,
    (get_put_ne _ _ (by decide)).trans (get_put_same ..)⟩
  exact wrap_unsigned rfl (Int.natCast_nonneg _) (by simp only [F.HBD_STAT_ROOT_POS]; omega)

/-- A chip that enters another ring takes its root and stays to be synchronised. -/
theorem ringEntered_ringError (s : State) {f : Frame} (hf : f.origin < 8) (d : Int) : ((s.ringEntered f).ringError d).nat 0 F.HBD_STAT_ROOT_POS = f.origin ∧
    ((s.ringEntered f).ringError d).on 0 F.HBD_STAT_ROOT = false ∧ ((s.ringEntered f).ringError d).on 0 H.hbJoin = true ∧
    ((s.ringEntered f).ringError d).on 0 F.HBD_STAT_SYNC_OK = false ∧ ((s.ringEntered f).ringError d).hat.frames = s.hat.frames := by
  obtain ⟨hroot, hjoin, hpos, hsync⟩ := s.ringEntered_gets hf
  have hframes := (CycleKept.ringError (d := d) (.refl (s.ringEntered f))).frames
  rw [ringError_of_joining (by rw [on, hroot]; rfl) (by rw [on, hjoin]; rfl)] at hframes ⊢
  have hkept {g : Fld} (hl : ∀ e ∈ [H.hbJoin, H.hbGood, H.hbBad], 8 * e.off + e.lo ≠ 8 * g.off + g.lo) (hofs : F.HBD_OFS_OFS.key 0 ≠ g.key 0)
      (hterr : F.HBD_TERR_TERR.key 0 ≠ g.key 0) := (get_puts_of_apart (((s.ringEntered f).put 0 F.HBD_TERR_TERR (sat32 d)).put 0 F.HBD_OFS_OFS
        (wrapS 64 (((s.ringEntered f).put 0 F.HBD_TERR_TERR (sat32 d)).get 0 F.HBD_OFS_OFS - tdiv d 16))) 0
        (l := [(H.hbJoin, 1), (H.hbGood, 0), (H.hbBad, 0)]) hl).trans ((get_put_ne _ _ hofs).trans (get_put_ne _ _ hterr))
  refine ⟨?_, ?_, ?_, ?_, hframes⟩
  · rw [nat, hkept (by decide) (by decide) (by decide), hpos]
    rfl
  · rw [on, hkept (by decide) (by decide) (by decide), hroot]
    rfl
  · rw [on, get_puts_of_mem _ 0 List.mem_cons_self]
    rfl
  · rw [on, hkept (by decide) (by decide) (by decide), hsync]
    rfl

/-- The count of frames that do not fit stands in no other chip's way: what a chip knows of its ring reads as before. -/
theorem bump_seq_get (s : State) (l : Link) {g : Fld} (hg : g ∈ [H.hbJoin, H.hbSeg, F.HBD_STAT_ROOT, F.HBD_STAT_REACH, F.CHIP_PINS_ID_STRAP,
    F.CHIP_STATUS_TB_SRC, F.CHIP_STATUS_CLK_FB]) : (s.bump l.base F.HBD_CNT_SEQ).get 0 g = s.get 0 g :=
  get_put_ne s _ (by revert g; cases l <;> decide)

theorem bump_seq_hears (s : State) (l : Link) : (s.bump l.base F.HBD_CNT_SEQ).hearsNobody = s.hearsNobody ∧
    (s.bump l.base F.HBD_CNT_SEQ).ownPos = s.ownPos := by
  have hget {g : Fld} := s.bump_seq_get l (g := g)
  simp only [hearsNobody, ownPos, on, nat]
  rw [hget (by simp), hget (by simp), hget (by simp)]
  exact ⟨rfl, rfl⟩

theorem bump_seq_joins (s : State) (l : Link) (f : Frame) : (s.bump l.base F.HBD_CNT_SEQ).joins f = s.joins f := by
  have hget {g : Fld} := s.bump_seq_get l (g := g)
  obtain ⟨hhears, hpos⟩ := s.bump_seq_hears l
  simp only [joins, ownClkFb, hhears, hpos, on, nat]
  rw [hget (by simp), hget (by simp), hget (by simp), hget (by simp)]

end State

/-- The origin of a frame is one of the eight positions of a ring. -/
theorem readFrame_origin {ws : List Nat} {f : Frame} (h : readFrame ws = some f) : f.origin < 8 := by
  unfold readFrame at h
  split at h
  · dsimp only at h
    split at h
    · cases h
    · cases h
      exact Nat.mod_lt _ (by decide)
  · cases h

/-- Settles O54: the checks of a received copy are taken in their order, and what the use of a cycle begins leaves its frames as they are. -/
theorem shareCycle : Obligations.ShareCycle := by
  intro s t
  refine ⟨rfl, ?received, fun hidle => congrArg Host.Outcome.next (State.cycleUse_of_idle hidle),
    fun hon hused => ⟨_, rfl, CycleKept.cycleUse hon hused⟩,
    fun n hserves hrun hring hfresh hfall =>
      (State.next_onStn hserves _).trans (congrArg Host.Outcome.next (State.allocLoss_of_source n hrun hring hfresh hfall)),
    fun hon hroot => congrArg Host.Outcome.next (if_neg (by simp [hon, hroot])),
    fun hon hwest heast => congrArg Host.Outcome.next (if_neg (by simp [hon, hwest, heast])),
    fun hon hsync hlink => congrArg Host.Outcome.next (if_pos (by simpa [hon, hsync] using hlink)),
    fun hon hsync => congrArg Host.Outcome.next (if_neg (by simp [hsync]))⟩
  case received =>
    intro l ws e err rx path res a go
    refine ⟨fun hdown => congrArg Host.Outcome.next (State.frameIn_of_down hdown),
      fun hon hup => ⟨fun he => ?_, fun he hbad => ?_, fun he herr hcrc f hread => ?_⟩⟩
    · subst he
      exact congrArg Host.Outcome.next (State.frameIn_of_abort hon hup)
    · exact congrArg Host.Outcome.next (State.frameIn_of_bad hon hup he hbad)
    · subst herr
      have hseq : a.Sets (a.bump l.base F.HBD_CNT_SEQ) [(l.base, F.HBD_CNT_SEQ, s.counted l.base F.HBD_CNT_SEQ)] := a.sets_bump l.base F.HBD_CNT_SEQ
      refine ⟨fun hunfit => ⟨_, congrArg Host.Outcome.next (State.frameIn_of_unfit hon hup he hcrc hread hunfit), hseq⟩,
        fun htype hring horigin hcycle hjoins => ?_, fun htype hring horigin hcycle hjoins => ?_, fun htype hring horigin hcycle htime hused hfirst => ?_⟩
      all_goals have hfits : ¬(f.type ≠ 0xA5 ∨ f.ringNo ≠ s.nat 0 F.HBD_RING_RING_NO ∨ s.ringN ≤ f.origin) := by simp [htype, hring, horigin]
      · obtain ⟨d, hgo⟩ := State.frameIn_of_otherCycle (t := t.toNat) (e := e) (rx := rx.toNat) (path := path.toNat)
          (res := res.toNat) hon hup he hcrc hread hfits hcycle
        rw [State.bump_seq_joins, show (s.advance t.toNat).joins f = false from hjoins, if_neg Bool.false_ne_true] at hgo
        have hother : ∀ k ∈ [F.HBD_CNT_SEQ.key l.base], k ∉ [H.hbSeg.key 0] := by cases l <;> decide
        have hnoted := (a.bump l.base F.HBD_CNT_SEQ).noteSeg_sets f
        obtain ⟨hhears, hpos⟩ := a.bump_seq_hears l
        rw [hhears, hpos, a.bump_seq_get l (g := H.hbSeg) (by simp)] at hnoted
        exact ⟨_, congrArg Host.Outcome.next hgo, hseq.trans hnoted hother⟩
      · obtain ⟨d, hgo⟩ := State.frameIn_of_otherCycle (t := t.toNat) (e := e) (rx := rx.toNat) (path := path.toNat)
          (res := res.toNat) hon hup he hcrc hread hfits hcycle
        rw [State.bump_seq_joins, show (s.advance t.toNat).joins f = true from hjoins, if_pos rfl] at hgo
        exact ⟨_, congrArg Host.Outcome.next hgo, State.ringEntered_ringError _ (readFrame_origin hread) d⟩
      · exact ⟨_, congrArg Host.Outcome.next (State.frameIn_of_first hon hup he hcrc hread hfits hcycle htime hused hfirst),
          (State.frameTaken_frames ..).trans (congrArg (· ++ [f]) (State.forward_frames ..))⟩

end Sys2Proof.Machine
end

section
/-!
PROOFS. What the commands on services, axes and CAN controllers lead to (R301, R302, R320 to R330, R337 to R350): each is its opcode's run.
-/
namespace Sys2Proof.Machine

namespace State

variable {s t : State} {op : OpSpec} {c : Cmd} {i : Instr} {n : Nat}

/-! ### Services -/

/-- SVC_START takes the lowest handle that no service holds (R301). -/
theorem svcStart_run {k : Nat} (hk : k < 16) (hfree : s.svcLive k = false) (hlow : ∀ j, j < k → s.svcLive j = true) :
    opSvcStart.run s c = (s.svcBegin k (c.word 0) (c.word 1) (svcPairs (c.wordsFrom 2))).start c 0x40 k 0 [k] := by
  have hfind : (List.range 16).find? (fun k => !s.svcLive k) = some k :=
    List.find?_range_eq_some.mpr ⟨by simp [hfree], List.mem_range.mpr hk, fun j hj => by simp [hlow j hj]⟩
  simp only [opSvcStart, hfind, Option.getD_some]

/-! ### Axes -/

theorem axisMove_run_plain (h : bitN (c.word 5) 1 = false) : opAxisMove.run s c =
    ((s.axComplete c.ix 0x30).axMove c.ix ((s.axComplete c.ix 0x30).moveTarget c) (c.word 2 : Nat) (c.word 3 : Nat) (c.word 4 : Nat)).start c 0x30 c.ix 0 [] :=
  congrArg (fun t : State => t.start c 0x30 c.ix 0 []) (if_neg (by simp [h]))

theorem axisMove_run_shaped {k : Nat} (h : bitN (c.word 5) 1 = true) (hk : (s.axComplete c.ix 0x30).segOk c.ix = some k) : opAxisMove.run s c =
    ((s.axComplete c.ix 0x30).axProfile c.ix k (c.word 4 : Nat)).start c 0x30 c.ix 0 [] := by
  have hseg : ((s.axComplete c.ix 0x30).segOk c.ix).getD 0 = k := by rw [hk, Option.getD_some]
  exact congrArg (fun t : State => t.start c 0x30 c.ix 0 []) ((if_pos h).trans (by rw [show stAborted = 0x30 from rfl, hseg]))

theorem axisRetarget_run (s : State) (c : Cmd) : opAxisRetarget.run s c = (s.axMove c.ix
    (wrap48 (if bitN (c.word 5) 0 then s.get (axsB c.ix) F.AXS_TARGET_TARGET + c.s48 0 else c.s48 0)) (c.word 2 : Nat) (c.word 3 : Nat)
    (c.word 4 : Nat)).reply c 0x31 0 0 [] := by
  unfold opAxisRetarget
  dsimp only [stOK]

theorem axisStop_run_moving (h : (s.axArrive c.ix).axSt c.ix ∈ [2, 3, 4, 5]) :
    opAxisStop.run s c = ((s.axArrive c.ix).axStop c.ix 1 0x30).reply c 0x32 0 0 [] :=
  congrArg (fun t : State => t.reply c 0x32 0 0 []) (if_pos (List.contains_iff_mem.mpr h))

theorem axisStop_run_idle (h : (s.axArrive c.ix).axSt c.ix ∉ [2, 3, 4, 5]) : opAxisStop.run s c = (s.axArrive c.ix).reply c 0x32 0 0 [] :=
  congrArg (fun t : State => t.reply c 0x32 0 0 []) (if_neg (mt List.contains_iff_mem.mp h))

theorem axisGroup_run_path (h : groupLen (s.groupMoves c) ≠ 0) : opAxisGroup.run s c =
    (s.axGroup (c.word 0) (s.groupMoves c) (groupLen (s.groupMoves c)) (c.word 1 : Nat) (c.word 2 : Nat) (c.word 3 : Nat)
      (if bitN (c.word 4) 1 then ((s.groupMoves c).head?.map (·.1)).getD 0 + 1 else 0)).start c 0x33 (c.word 0) 0 [] := by
  unfold opAxisGroup
  dsimp only
  rw [if_neg h]

theorem axisGroup_run_still (h : groupLen (s.groupMoves c) = 0) :
    opAxisGroup.run s c = (s.start c 0x33 (c.word 0) 0 []).completeAll 0x33 (c.word 0) 0 0 := by
  unfold opAxisGroup
  dsimp only
  rw [if_pos h]
  rfl

/-- A wrapped target is in the format of its register. -/
theorem target_wrap48 (v : Int) : F.AXS_TARGET_TARGET.wrap (wrap48 v) = wrap48 v := by
  simp only [Fld.wrap, F.AXS_TARGET_TARGET, wrap48, wrapS, if_true]
  omega

/-- A move stands with its target through what is done for the host. -/
theorem axMove_gets {v vmax acc dec : Int} (h : MilWork (s.axMove n (wrap48 v) vmax acc dec) t) :
    t.axSt n = 2 ∧ t.get (axsB n) F.AXS_TARGET_TARGET = wrap48 v := by
  rw [axSt, nat, h.get, h.get]
  exact ⟨congrArg Int.toNat (get_puts_of_mem _ _ List.mem_cons_self),
    (get_puts_of_mem _ _ (List.mem_cons_of_mem _ List.mem_cons_self)).trans (target_wrap48 v)⟩

/-! ### CAN controllers -/

theorem begin_of_milWork (h : MilWork s t) (c : Cmd) (code arg : Nat) : MilWork s (t.begin c code arg) := .answer (.withMil h)

theorem begin_tagBusy_of_arg (h : ∀ o, c.tr ≠ .own o) (s : State) (code arg : Nat) : (s.begin c code arg).tagBusy c.tag.toNat = true :=
  ((s.occupy c code arg).reply_replied h _ _ _ _).tagBusy _ |>.trans (s.occupy_tagBusy ..)

theorem canSend_run {e : Nat} {l : List Nat} (h : s.txFree c.ix = e :: l) : opCanSend.run s c =
    (s.withCan c.ix fun q => { q with tx := q.tx ++ [{ ix := e, fr := sendFrame c }] }).start c 0x63 (sendArg c.ix e) 0 [e] := by
  unfold opCanSend
  dsimp only
  rw [h]
  rfl

/-- A present controller's queues are those that were put there. -/
theorem canq_withCan (hn : n < 4) (s : State) (g : CanS → CanS) : (s.withCan n g).canq n = g (s.canq n) := by
  simp [canq, withCan, hn]

theorem canq_milWork (h : MilWork s t) (n : Nat) : t.canq n = s.canq n := by rw [canq, ← h.rest]; rfl

theorem lt_of_canPresent (h : s.canPresent n = true) : n < 4 := by
  simp only [canPresent, Bool.and_eq_true, decide_eq_true_eq] at h
  exact h.1

/-- What TIME_MASTER sets (R350). -/
theorem timeMaster_sets (s : State) (n prio per : Nat) {role : Nat} (hrole : role ≠ 1) : s.Sets (s.timeMaster n role prio per)
    [(canB n, F.CAN_TM_ROLE, F.CAN_TM_ROLE.wrap role), (canB n, F.CAN_TM_PRIO, F.CAN_TM_PRIO.wrap prio),
      (canB n, F.CAN_TM_PER_PER, F.CAN_TM_PER_PER.wrap per), (canB n, F.CAN_TM_SENDING, 0), (canB n, H.tmDup, 0), (canB n, H.tmSofOk, 0),
      (canB n, H.tmHave, 0), (canB n, H.tmWas, 0)] := by
  unfold timeMaster
  dsimp only
  rw [if_neg hrole, beq_false_of_ne hrole]
  exact s.sets_puts_of_apart (canB n)

/-- A time master begins to send, from the ring's offset. -/
theorem timeMaster_of_master (s : State) (n prio per : Nat) : s.timeMaster n 1 prio per = s.puts (canB n) [(F.CAN_TM_ROLE, (1 : Nat)),
    (F.CAN_TM_PRIO, prio), (F.CAN_TM_PER_PER, per), (F.CAN_TM_SENDING, 1), (H.tmDup, 0), (H.tmSofOk, 0), (H.tmHave, 0), (H.tmWas, 0),
    (F.CAN_NT_OFS_OFS, s.get 0 F.HBD_OFS_OFS)] := by
  have hsets := s.sets_puts_of_apart (canB n) (l := [(F.CAN_TM_ROLE, (1 : Nat)), (F.CAN_TM_PRIO, prio), (F.CAN_TM_PER_PER, per),
    (F.CAN_TM_SENDING, 1), (H.tmDup, 0), (H.tmSofOk, 0), (H.tmHave, 0), (H.tmWas, 0)])
  have hofs := hsets.get_of_notMem (b := 0) (f := F.HBD_OFS_OFS) (by
    simp only [setKeys, List.map_cons, List.map_nil, List.mem_cons, List.not_mem_nil, Fld.key, canB, halfB, F.HBD_OFS_OFS, or_false]
    omega)
  exact congrArg (State.put _ (canB n) F.CAN_NT_OFS_OFS) hofs

theorem timeMaster_run_master (h : c.word 0 = 1) :
    opTimeMaster.run s c = (s.timeMaster c.ix 1 (c.word 1) (c.word 2)).reply c 0x62 0 0 [] := by
  unfold opTimeMaster
  dsimp only
  rw [h]
  rfl

end State

/-- The parameters that TIME_MASTER admits fit their fields. -/
theorem timeMaster_fits {s : State} {c : Cmd} (h : s.admits opTimeMaster c = true) : F.CAN_TM_ROLE.wrap (c.word 0 : Nat) = (c.word 0 : Nat) ∧
    F.CAN_TM_PRIO.wrap (c.word 1 : Nat) = (c.word 1 : Nat) ∧ F.CAN_TM_PER_PER.wrap (c.word 2 : Nat) = (c.word 2 : Nat) := by
  obtain ⟨-, -, -, -, -, -, -, -, -, hcheck⟩ := State.admits_iff.mp h
  have hparam := State.firstBad_none hcheck (_, stBadParam) (List.mem_cons_of_mem _ List.mem_cons_self)
  simp only [Bool.or_eq_false_iff, Bool.not_eq_false', decide_eq_true_eq, decide_eq_false_iff_not, not_lt] at hparam
  obtain ⟨⟨⟨⟨-, hrole⟩, hprio⟩, -, hper⟩, -⟩ := hparam
  exact ⟨State.wrap_unsigned rfl (Int.natCast_nonneg _) (by simp only [F.CAN_TM_ROLE]; omega),
    State.wrap_unsigned rfl (Int.natCast_nonneg _) (by simp only [F.CAN_TM_PRIO]; omega),
    State.wrap_unsigned rfl (Int.natCast_nonneg _) (by simp only [F.CAN_TM_PER_PER]; omega)⟩

namespace State

end State

/-- Settles O28: each command is its opcode's run, and the handle that SVC_START finds is the lowest free one. -/
theorem serviceCommands : Obligations.ServiceCommands := fun _ _ =>
  ⟨fun _ hk hfree hlow => State.does_of_run rfl (by decide) (State.svcStart_run hk hfree hlow), State.does_of_run rfl (by decide) rfl,
    State.does_of_run rfl (by decide) rfl⟩

/-- Settles O27: each command is its opcode's run, on the branch that the statement's hypotheses name. -/
theorem axisCommands : Obligations.AxisCommands := by
  refine ⟨fun c s => ⟨fun hplain => State.does_of_run rfl (by decide) (State.axisMove_run_plain hplain),
    fun k hshaped hk => State.does_of_run rfl (by decide) (State.axisMove_run_shaped hshaped hk),
    State.does_of_run rfl (by decide) (State.axisRetarget_run _ _),
    ⟨fun hmoving => State.does_of_run rfl (by decide) (State.axisStop_run_moving hmoving),
      fun hidle => State.does_of_run rfl (by decide) (State.axisStop_run_idle hidle)⟩,
    ⟨fun hlen => State.does_of_run rfl (by decide) (State.axisGroup_run_path hlen),
      fun hlen => State.does_of_run rfl (by decide) (State.axisGroup_run_still hlen)⟩,
    State.does_of_run rfl (by decide) rfl⟩, fun c s => ⟨fun hadmits hplain habs => ?move, fun hadmits habs => ?retarget⟩⟩
  case move =>
    refine State.after_of_admits hadmits rfl (by decide) ?_
    rw [State.axisMove_run_plain hplain, State.moveTarget, habs, if_neg Bool.false_ne_true]
    refine State.axMove_gets (s := (s.refresh c.tr).axComplete c.ix 0x30) (vmax := (c.word 2 : Nat)) (acc := (c.word 3 : Nat)) (dec := (c.word 4 : Nat)) ?_
    exact (State.start_milWork ..).trans (State.snapped_milWork ..)
  case retarget =>
    refine State.after_of_admits hadmits rfl (by decide) ?_
    rw [State.axisRetarget_run, habs, if_neg Bool.false_ne_true]
    refine State.axMove_gets (s := s.refresh c.tr) (vmax := (c.word 2 : Nat)) (acc := (c.word 3 : Nat)) (dec := (c.word 4 : Nat)) ?_
    exact (State.reply_milWork ..).trans (State.snapped_milWork ..)

/-- Settles O29: each command is its opcode's run; the parameters that the checks let through fit their fields. -/
theorem canCommands : Obligations.CanCommands := by
  intro c s
  refine ⟨State.does_of_run rfl (by decide) rfl, fun hadmits => ?recover, fun hadmits hrole => ?follower, fun hadmits hrole => ?master,
    fun e l hfree => State.does_of_run rfl (by decide) (State.canSend_run hfree), fun hadmits => ?acknowledge, State.does_of_run rfl (by decide) rfl⟩
  case recover =>
    have hown := State.tr_of_admits hadmits
    have hsnap := State.snapped_replied (opCanRecover.run (s.refresh c.tr) c) c 0x61
    have hset : { s.refresh c.tr with mil := ((s.refresh c.tr).begin c 0x61 c.ix).mil }.Sets (opCanRecover.run (s.refresh c.tr) c)
        [(canB c.ix, F.CAN_STAT_RECOVERING, 1)] := by
      rw [(State.begin_of_milWork (.refl _) c 0x61 c.ix).rest]
      exact State.sets_put ..
    exact State.after_of_admits hadmits rfl (by decide)
      ⟨(hsnap.tagBusy _).trans (State.begin_tagBusy_of_arg hown _ 0x61 c.ix),
        (MilWork.of_replied hsnap).sets (s := { s.refresh c.tr with mil := ((s.refresh c.tr).begin c 0x61 c.ix).mil }) hset⟩
  case follower =>
    have hsets := (s.refresh c.tr).timeMaster_sets c.ix (c.word 1) (c.word 2) hrole
    obtain ⟨hr, hp, hper⟩ := timeMaster_fits hadmits
    rw [hr, hp, hper] at hsets
    exact State.after_of_admits hadmits rfl (by decide) (((State.reply_milWork ..).trans (State.snapped_milWork ..)).sets hsets)
  case master =>
    have hsets := (s.refresh c.tr).sets_puts_of_apart (canB c.ix) (l := [(F.CAN_TM_ROLE, (1 : Nat)), (F.CAN_TM_PRIO, c.word 1),
      (F.CAN_TM_PER_PER, c.word 2), (F.CAN_TM_SENDING, 1), (H.tmDup, 0), (H.tmSofOk, 0), (H.tmHave, 0), (H.tmWas, 0),
      (F.CAN_NT_OFS_OFS, (s.refresh c.tr).get 0 F.HBD_OFS_OFS)])
    obtain ⟨-, hp, hper⟩ := timeMaster_fits hadmits
    rw [List.map_cons, List.map_cons, List.map_cons, hp, hper, ← State.timeMaster_of_master] at hsets
    refine State.after_of_admits hadmits rfl (by decide) ?_
    rw [State.timeMaster_run_master hrole]
    exact (((State.reply_milWork ..).trans (State.snapped_milWork ..)).sets hsets)
  case acknowledge =>
    obtain ⟨-, -, -, -, hscope, htarget, -⟩ := State.admits_iff.mp hadmits
    have hfive : c.scope.toNat = 5 := by simpa [opCanAck] using hscope
    have hix : c.ix < 4 := by
      rw [State.targetOk, hfive, Bool.and_eq_true] at htarget
      exact State.lt_of_canPresent htarget.2
    have hwork : MilWork ((s.refresh c.tr).canAck c.ix (c.word 0) (c.word 1)) ((opCanAck.run (s.refresh c.tr) c).snapped c 0x65) :=
      (State.reply_milWork ..).trans (State.snapped_milWork ..)
    refine State.after_of_admits hadmits rfl (by decide) ?_
    rw [show opCanAck.code = 0x65 from rfl, State.canq_milWork hwork]
    exact congrArg CanS.rx (State.canq_withCan hix _ _)

end Sys2Proof.Machine
end

section
/-!
PROOFS. O57, refuted. A reference message that has gone out lowers the transmit error counter by one (R344), and the write keeps the eight bits that the
counter has. The statement takes every state, one too whose register map holds 1000 for the counter, which no write leaves behind: 999 does not fit.
-/
namespace Sys2Proof.Machine

/-- A running chip whose CAN controller 0 is on the bus and sends reference messages; the register map holds 1000 for its transmit error counter. -/
def State.timeSender : State :=
  let s := (State.reset.withChip fun c => { c with phase := .running, regions := Vector.replicate 3 .run, ready := true }).puts (canB 0)
    [(F.CAN_CTRL_EN, 1), (F.CAN_CTRL_FD_EN, 1), (F.CAN_STAT_ACT, 1), (F.CAN_STAT_ERRSTATE, 0), (F.CAN_TM_SENDING, 1)]
  { s with regs := s.regs.set (F.CAN_ERR_TEC.key (canB 0)) 1000 }

/-- A reference message goes out, and nothing is in its way. -/
theorem State.timeSender_sends : (State.timeSender.halfRun 0 = true ∧ State.timeSender.oos (.can 0) = false) ∧
    State.timeSender.canSends 0 = true ∧ State.timeSender.on (canB 0) F.CAN_CTRL_EN = true ∧
    State.timeSender.on (canB 0) F.CAN_CTRL_FD_EN = true ∧ State.timeSender.on (canB 0) F.CAN_TM_SENDING = true ∧
    State.timeSender.on (canB 0) F.CAN_CTRL_LBK = false ∧ State.timeSender.txWinner 0 = none ∧ State.timeSender.get (canB 0) F.CAN_ERR_TEC = 1000 := by
  decide +kernel

/-- The counter's eight bits end at 231. -/
theorem State.timeSender_tec : (State.timeSender.onCan 0 (State.timeSender.refAttempt 0 0)).get (canB 0) F.CAN_ERR_TEC = 231 := by
  decide +kernel

/-- Refutes O57: the counter of a reference message that goes out is written anew, and a held code that is wider than the field loses its high bits. -/
theorem not_canRows : ¬ Obligations.CanRows := by
  intro h
  obtain ⟨hserves, hsends, hen, hfd, hsending, hlbk, hwinner, htec⟩ := State.timeSender_sends
  obtain ⟨-, -, -, -, -, -, -, -, -, -, -, -, -, hgoes, -⟩ := h State.timeSender 0 0 hserves
  obtain ⟨t, hexec, -, -, -, hcount⟩ := hgoes hsends hen hfd hsending hlbk fun e he => by rw [show (0 : Fin 4).val = 0 from rfl, hwinner] at he; cases he
  have ht : State.timeSender.onCan 0 (State.timeSender.refAttempt 0 0) = t := Host.Outcome.next.inj hexec
  have hlow : (231 : Int) = max 0 (1000 - 1) := by
    rw [← State.timeSender_tec, ← htec, ht]
    exact hcount
  exact absurd hlow (by decide)

end Sys2Proof.Machine
end

section
/-!
PROOFS. The service tick and the losses of the services (R300, R303, R306 to R309): the check of the roles leaves the token and the holder's role alone.
-/
namespace Sys2Proof.Machine

namespace State

variable {s : State} {t k : Nat}

/-- Inside a running shared region a row leads to what it does. -/
theorem next_onSh (h : s.shRun = true) (u : State) : (.next (s.onSh u) : Host.Outcome State Fault Refusal) = .next u :=
  congrArg Host.Outcome.next (if_pos h)

/-! ### The check of the roles (R382) -/

theorem roleCheck_chip (s : State) : s.roleCheck.chip = s.chip := (RegWork.each (.refl s) fun _ _ h => .put h).chip

/-- Only the role of a half that has no token changes. -/
theorem roleCheck_get {b : Nat} {f : Fld} (h : ∀ n, s.master ≠ n + 1 → F.SUP_MST_ROLE.key (halfB n) ≠ f.key b) : s.roleCheck.get b f = s.get b f := by
  have hkept (l : List Nat) (hl : ∀ n ∈ l, s.master ≠ n + 1) (u : State) :
      (u.each l fun n s => s.put (halfB n) F.SUP_MST_ROLE 2).get b f = u.get b f := by
    induction l generalizing u with
    | nil => rfl
    | cons n l ih =>
      obtain ⟨hn, hl⟩ := List.forall_mem_cons.mp hl
      exact (ih hl _).trans (get_put_ne _ _ (h n hn))
  refine hkept _ (fun n hn => ?_) s
  have hcond := (List.mem_filter.mp hn).2
  simp only [Bool.and_eq_true, bne_iff_ne] at hcond
  exact hcond.2

theorem roleCheck_master (s : State) : s.roleCheck.master = s.master :=
  congrArg Int.toNat (roleCheck_get fun n _ => by simp only [Fld.key, halfB, F.SUP_MST_ROLE, F.CHIP_STATUS_MASTER]; omega)

theorem roleCheck_isolated (h : s.master ≠ 0) : s.roleCheck.isolated (s.master - 1) = s.isolated (s.master - 1) := by
  rw [isolated, roleCheck_get fun n hn => by simp only [Fld.key, halfB]; omega]
  rfl

/-! ### The tick (R300) -/

theorem svcTick_of_down (hrun : s.shRun = false) : s.svcTick t = s.advance t := by
  have hdown : (s.advance t).shRun = false := hrun
  unfold svcTick
  dsimp only
  rw [hdown, if_neg Bool.false_ne_true, hdown]
  rfl

theorem svcTick_of_noMaster (hrun : s.shRun = true) (hmaster : s.master = 0) : s.svcTick t = (s.advance t).roleCheck := by
  have hnone : (s.advance t).roleCheck.master = 0 := (roleCheck_master _).trans hmaster
  unfold svcTick
  dsimp only
  rw [show (s.advance t).shRun = true from hrun, if_pos rfl, hnone]
  exact if_pos (by simp)

theorem svcTick_of_master (hrun : s.shRun = true) (hmaster : s.master ≠ 0) (hhalf : s.halfRun (s.master - 1) = true)
    (hiso : s.isolated (s.master - 1) = false) : s.svcTick t =
      let a := (s.advance t).roleCheck
      let u := (a.svcHeard.svcHear.svcApply.each (List.range 16) fun j v => if v.svcLive j then v.svcRun j a.svcFrames else v)
      let w := u.each (u.cans.filter fun c => u.halfReached (c % 2)) fun c v => v.canConsume c
      w.each (w.halves.filter fun h => w.halfRun h) fun h v => v.putK h := by
  have hchip : (s.advance t).roleCheck.chip = s.chip := roleCheck_chip _
  have hm : (s.advance t).roleCheck.master = s.master := roleCheck_master _
  have hsh : (s.advance t).roleCheck.shRun = true := by rwa [shRun, regionRun, hchip]
  have hh : (s.advance t).roleCheck.halfRun (s.master - 1) = true := by rwa [halfRun, regionRun, hchip]
  have hi : (s.advance t).roleCheck.isolated (s.master - 1) = false := (roleCheck_isolated (s := s.advance t) hmaster).trans hiso
  unfold svcTick
  dsimp only
  rw [show (s.advance t).shRun = true from hrun, if_pos rfl, hm, hsh, hh, hi]
  exact if_neg (by simp [hmaster])

/-! ### The losses -/

theorem spoolDev_of_spool (hspool : s.get (svcB k) F.SVC_STAT_SERVICE = 3) (hlive : s.get (svcB k) F.SVC_STAT_STATE ≠ 3) : s.spoolDev k =
    ((((s.stnRaise (s.nat (svcH k) H.svDrum) (stnCode (s.nat (svcH k) H.svDrum) 2 0xA8)).svcDrop k (s.nat (svcH k) H.svDrum)).stopStation
      (s.nat (svcH k) H.svDrum) (s.svcU k 1)).put (svcH k) H.svWait (2 ^ s.nat (svcH k) H.svDrum)).svcEnd k 0x30 := if_pos (by simp [hspool, hlive])

theorem heaveLoss_of_heave (hheave : s.get (svcB k) F.SVC_STAT_SERVICE = 4) (hlive : s.get (svcB k) F.SVC_STAT_STATE ≠ 3)
    (hlost : s.on (svcH k) H.svLost = false) : s.heaveLoss k =
    ((s.puts (svcH k) [(H.svLost, 1), (H.svLossN, s.svcFirst k)]).put (svcB k) F.SVC_STAT_SUB 4).stnRaise (s.svcFirst k) (stnCode (s.svcFirst k) 2 0xA9) :=
  if_pos (by simp [hheave, hlive, hlost])

theorem pmsLoss_of_thruster (hpms : s.get (svcB k) F.SVC_STAT_SERVICE = 5) (hlive : s.get (svcB k) F.SVC_STAT_STATE ≠ 3)
    (hlost : s.on (svcH k) H.svLost = false) : s.pmsLoss k =
    (s.puts (svcH k) [(H.svLost, 1), (H.svLossN, s.svcFirst k)]).stnRaise (s.svcFirst k) (stnCode (s.svcFirst k) 2 0xAA) :=
  if_pos (by simp [hpms, hlive, hlost])

theorem shedKeepEnd_of_shed (h : s.get (svcB k) F.SVC_STAT_SERVICE = 6) : s.shedKeepEnd k = s.put (svcH k) H.svKeep 0 := if_pos (by simp [h])

end State

/-- Settles O55: the tick runs where the token's holder runs and is not isolated, in the state that the check of the roles leaves. -/
theorem services : Obligations.Services := by
  intro s t k
  refine ⟨fun hdown => congrArg Host.Outcome.next (State.svcTick_of_down hdown),
    fun hrun hmaster => congrArg Host.Outcome.next (State.svcTick_of_noMaster hrun hmaster),
    fun hrun hmaster hhalf hiso => congrArg Host.Outcome.next (State.svcTick_of_master hrun hmaster hhalf hiso), fun hrun => ?losses⟩
  exact ⟨fun hspool hlive => (State.next_onSh hrun _).trans (congrArg Host.Outcome.next (State.spoolDev_of_spool hspool hlive)),
    fun hheave hlive hlost => (State.next_onSh hrun _).trans (congrArg Host.Outcome.next (State.heaveLoss_of_heave hheave hlive hlost)),
    fun hpms hlive hlost => (State.next_onSh hrun _).trans (congrArg Host.Outcome.next (State.pmsLoss_of_thruster hpms hlive hlost)),
    fun hshed => ⟨_, (State.next_onSh hrun _).trans (congrArg Host.Outcome.next (State.shedKeepEnd_of_shed hshed)), s.sets_put ..⟩,
    fun hnone => (State.next_onSh hrun _).trans (congrArg Host.Outcome.next (if_pos hnone)),
    fun hholder => (State.next_onSh hrun _).trans (congrArg Host.Outcome.next (if_neg hholder))⟩

end Sys2Proof.Machine
end

section
/-!
PROOFS. Axis steps, planner and groups (R313, R314, R316, R318, R326, R328): what follows a step leaves the count and energised coils as they are.
-/
namespace Sys2Proof.Machine

/-- Fields that begin at different bits of an axis's block differ in every axis. -/
theorem axKey_ne {m n : Nat} {f g : Fld} (h : (8 * f.off + f.lo) % 0x80000 ≠ (8 * g.off + g.lo) % 0x80000) : f.key (axsB m) ≠ g.key (axsB n) := by
  simp only [Fld.key, axsB, halfB]
  omega

/-- `t` comes from `s` with the count of axis `n` as it was, and its coils still energised if they were. -/
structure StepHolds (n : Nat) (s t : State) : Prop where
  pos  : t.get (axsB n) F.AXS_POS_POS = s.get (axsB n) F.AXS_POS_POS
  coil : s.get (axsB n) F.AXS_STAT_COIL ∈ [1, 2] → t.get (axsB n) F.AXS_STAT_COIL ∈ [1, 2]

namespace StepHolds

variable {n m : Nat} {s0 s t : State}

theorem refl (s : State) : StepHolds n s s := ⟨rfl, id⟩

theorem trans {u : State} (h : StepHolds n s t) (k : StepHolds n t u) : StepHolds n s u := ⟨k.pos.trans h.pos, fun hc => k.coil (h.coil hc)⟩

theorem ite {c : Prop} [Decidable c] {a b : State} (ha : StepHolds n s0 a) (hb : StepHolds n s0 b) : StepHolds n s0 (if c then a else b) := by
  split <;> assumption

theorem milWork (h : StepHolds n s0 s) (k : MilWork s t) : StepHolds n s0 t := h.trans ⟨k.get .., fun hc => by rwa [k.get]⟩

/-- A write of another field of any axis. -/
theorem put {f : Fld} {v : Int} (h : StepHolds n s0 s) (hp : (8 * f.off + f.lo) % 0x80000 ≠ (8 * F.AXS_POS_POS.off + F.AXS_POS_POS.lo) % 0x80000 := by decide)
    (hc : (8 * f.off + f.lo) % 0x80000 ≠ (8 * F.AXS_STAT_COIL.off + F.AXS_STAT_COIL.lo) % 0x80000 := by decide) :
    StepHolds n s0 (s.put (axsB m) f v) :=
  h.trans ⟨State.get_put_ne s v (axKey_ne hp), fun hcoil => by rwa [State.get_put_ne s v (axKey_ne hc)]⟩

/-- The coils of any axis are energised. -/
theorem putCoil {v : Int} (h : StepHolds n s0 s) (hv : F.AXS_STAT_COIL.wrap v ∈ [1, 2]) : StepHolds n s0 (s.put (axsB m) F.AXS_STAT_COIL v) := by
  refine h.trans ⟨State.get_put_ne s v (axKey_ne (by decide)), fun hcoil => ?_⟩
  by_cases hkey : F.AXS_STAT_COIL.key (axsB m) = F.AXS_STAT_COIL.key (axsB n)
  · have hbase : axsB m = axsB n := by simp only [Fld.key] at hkey; omega
    rwa [hbase, State.get_put_same]
  · rwa [State.get_put_ne s v hkey]

theorem axRenew (h : StepHolds n s0 s) : StepHolds n s0 (s.axRenew m) :=
  State.each_keeps h fun k _ h => .ite (by cases k <;> exact .put h) h

theorem axCoil_run (h : StepHolds n s0 s) : StepHolds n s0 (s.axCoil m 2) := .axRenew (.put (.putCoil h (by decide)))

theorem axCoil_hold (h : StepHolds n s0 s) : StepHolds n s0 (s.axCoil m 1) := .axRenew (.put (.putCoil h (by decide)))

theorem axIdle (h : StepHolds n s0 s) : StepHolds n s0 (s.axIdle m) := .put (.put (.axCoil_hold (.put (.put (.put (.put (.put (.put h))))))))

theorem completeAll {op arg st d : Nat} {pay : List Nat} (h : StepHolds n s0 s) : StepHolds n s0 (s.completeAll op arg st d pay) :=
  h.milWork (State.completeAll_milWork ..)

theorem axArrive (h : StepHolds n s0 s) : StepHolds n s0 (s.axArrive m) := by
  unfold State.axArrive
  extract_lets b s1 g near s2
  have h1 : StepHolds n s0 s1 := .put h
  have h2 : StepHolds n s0 s2 := .ite (State.each_keeps h1 fun _ _ h => .axIdle h) h1
  exact .ite (.completeAll (.axIdle h)) (.ite (.completeAll (.axIdle h)) (.ite (.ite (.completeAll h2) h2) h))

end StepHolds

namespace State

variable {s : State} {n : Fin 4} {t : Nat}

theorem next_onAxs (h : s.axsServes n) (u : State) : (.next (s.onAxs n.val u) : Host.Outcome State Fault Refusal) = .next u := by
  obtain ⟨hrun, hserves⟩ := h
  exact congrArg Host.Outcome.next (if_pos (by rw [Fin.ofNat_val_eq_self, hrun, hserves]; rfl))

/-! ### A step (R313) -/

/-- The level of the direction line that a step toward the reference position asks for. -/
def stepDir (s : State) (n : Nat) : Int := if (decide (sgnI (s.axOwed n) < 0)) != s.on (axsB n) F.AXS_CTRL_DIR_INV then 1 else 0

theorem stepDir_wrap (s : State) (n : Nat) : H.axDirL.wrap (s.stepDir n) = s.stepDir n := by
  unfold stepDir
  split <;> decide

/-- When a changed level of the direction line is out: not before the pulse of the step before it has ended. -/
def stepDirTime (s : State) (n t : Nat) : Nat :=
  if t < s.nat (axsB n) H.axDirT then 0 else max t (if s.nat (axsB n) H.axLast = 0 then t else s.nat (axsB n) H.axLast + s.nat (axsB n) F.AXS_PULSE_PW)

/-- The minimum gap between two steps. -/
def stepGap (s : State) (n : Nat) : Nat :=
  if s.get (axsB n) F.AXS_CTRL_CLASS = 1 then max 200 (s.nat (axsB n) F.AXS_PULSE_PW + 40) else 200

theorem stepGap_of_pulse {n : Nat} (h : s.get (axsB n) F.AXS_CTRL_CLASS = 1) : s.stepGap n = max 200 (s.nat (axsB n) F.AXS_PULSE_PW + 40) := if_pos h

theorem stepGap_of_stepper {n : Nat} (h : s.get (axsB n) F.AXS_CTRL_CLASS = 2) : s.stepGap n = 200 := if_neg (by rw [h]; decide)

/-- The axis after one step: the coils, the count, the table's address and the arrival. -/
def stepTaken (s : State) (n t : Nat) : State :=
  let b := axsB n
  let d := sgnI (s.axOwed n)
  let p := s.get b F.AXS_POS_POS
  let cls := s.get b F.AXS_CTRL_CLASS
  let c := s.get b F.AXS_STAT_COIL
  let s := if c = 0 ∨ c = 3 then s.axCoil n 2 else s
  let s := s.puts b [(F.AXS_POS_POS, p + d), (H.axLast, t)]
  let s := if cls = 2 then
      (s.put b F.AXS_LAG_TBL_ADDR ((s.get b F.AXS_LAG_TBL_ADDR + (if s.on b F.AXS_CTRL_DIR_INV then -d else d)) % 1024)).axRenew n
    else s
  (s.axLag n).axArrive n

/-- A step moves the count by one, and energises the coils of an axis in standby. -/
theorem stepTaken_moves (s : State) (n t : Nat) :
    (s.stepTaken n t).get (axsB n) F.AXS_POS_POS = F.AXS_POS_POS.wrap (s.get (axsB n) F.AXS_POS_POS + sgnI (s.axOwed n)) ∧
    (s.get (axsB n) F.AXS_STAT_COIL ∈ [0, 3] → (s.stepTaken n t).get (axsB n) F.AXS_STAT_COIL ∈ [1, 2]) := by
  unfold stepTaken
  extract_lets b d p cls c s1 s2 s3
  have h3 : StepHolds n s2 s3 := .ite (.axRenew (.put (.refl s2))) (.refl s2)
  have hend : StepHolds n s2 ((s3.axLag n).axArrive n) := .axArrive (.put h3)
  refine ⟨hend.pos.trans ((get_put_fld _ _ _ (by decide)).trans (get_put_same ..)), fun hcoil => hend.coil ?_⟩
  have h1 : s1.get b F.AXS_STAT_COIL ∈ [1, 2] := by
    have hrun : s1 = s.axCoil n 2 := if_pos (by simpa using hcoil)
    rw [hrun]
    exact (StepHolds.axRenew (.put (.refl (s.put b F.AXS_STAT_COIL 2)))).coil (by rw [get_put_same]; decide)
  have hkept : s2.get b F.AXS_STAT_COIL = s1.get b F.AXS_STAT_COIL :=
    get_puts_of_apart s1 b (by simp only [List.map_cons, List.map_nil]; decide)
  rwa [hkept]

section Open

variable (hrun : s.halfRun (n.val / 2) = true)

include hrun

theorem axStep_of_still (h : s.get (axsB n) F.AXS_CTRL_CLASS = 0 ∨ s.on (axsB n) H.axEner = true ∨ sgnI (s.axOwed n) = 0) :
    s.axStep n.val t = s.advance t := by
  refine if_pos ?_
  rw [show (s.advance t).halfRun (n.val / 2) = true from hrun]
  rcases h with h | h | h
  · rw [show (s.advance t).get (axsB n.val) F.AXS_CTRL_CLASS = 0 from h]
    rfl
  · rw [show (s.advance t).on (axsB n.val) H.axEner = true from h]
    simp
  · rw [show sgnI ((s.advance t).axOwed n.val) = 0 from h]
    simp

variable (hclass : s.get (axsB n) F.AXS_CTRL_CLASS ≠ 0) (hener : s.on (axsB n) H.axEner = false) (howed : sgnI (s.axOwed n) ≠ 0)

include hclass hener howed

theorem stepOpen : ¬(!(s.advance t).halfRun (n.val / 2) || (s.advance t).get (axsB n.val) F.AXS_CTRL_CLASS == 0 || (s.advance t).on (axsB n.val) H.axEner ||
    sgnI ((s.advance t).axOwed n.val) == 0) = true := by
  rw [show (s.advance t).halfRun (n.val / 2) = true from hrun, show (s.advance t).on (axsB n.val) H.axEner = false from hener,
    beq_false_of_ne (show (s.advance t).get (axsB n.val) F.AXS_CTRL_CLASS ≠ 0 from hclass),
    beq_false_of_ne (show sgnI ((s.advance t).axOwed n.val) ≠ 0 from howed)]
  decide

theorem axStep_of_turn (hpulse : s.get (axsB n) F.AXS_CTRL_CLASS = 1) (hdir : s.stepDir n ≠ s.get (axsB n) H.axDirL) : s.axStep n.val t =
    (s.advance t).puts (axsB n.val) [(H.axDirL, s.stepDir n), (H.axDirT, (s.stepDirTime n t : Nat))] := by
  have htime : ((s.stepDirTime n t : Nat) : Int) = if t < s.nat (axsB n.val) H.axDirT then 0
      else max (t : Int) (if s.nat (axsB n.val) H.axLast = 0 then (t : Int) else s.nat (axsB n.val) H.axLast + s.nat (axsB n.val) F.AXS_PULSE_PW) := by
    unfold stepDirTime
    push_cast
    rfl
  rw [htime]
  exact (if_neg (stepOpen hrun hclass hener howed)).trans (if_pos ⟨hpulse, hdir⟩)

variable (hdir : ¬(s.get (axsB n) F.AXS_CTRL_CLASS = 1 ∧ s.stepDir n ≠ s.get (axsB n) H.axDirL))

include hdir

theorem axStep_of_early (hearly : s.nat (axsB n.val) H.axLast ≠ 0 ∧ t < s.nat (axsB n.val) H.axLast + s.stepGap n) :
    s.axStep n.val t = (s.advance t).put (axsB n.val) F.AXS_STAT_BACKLOG_SEEN 1 :=
  (if_neg (stepOpen hrun hclass hener howed)).trans ((if_neg hdir).trans (if_pos hearly))

variable (hgap : ¬(s.nat (axsB n.val) H.axLast ≠ 0 ∧ t < s.nat (axsB n.val) H.axLast + s.stepGap n))

include hgap

theorem axStep_of_setup (hsetup : s.get (axsB n) F.AXS_CTRL_CLASS = 1 ∧
    t < s.nat (axsB n.val) H.axDirT + s.nat (axsB n.val) F.AXS_PULSE_DIR_SU ∧ s.on (axsB n.val) H.axDirT = true) : s.axStep n.val t = s.advance t :=
  (if_neg (stepOpen hrun hclass hener howed)).trans ((if_neg hdir).trans ((if_neg hgap).trans (if_pos hsetup)))

theorem axStep_of_free (hfree : ¬(s.get (axsB n) F.AXS_CTRL_CLASS = 1 ∧
    t < s.nat (axsB n.val) H.axDirT + s.nat (axsB n.val) F.AXS_PULSE_DIR_SU ∧ s.on (axsB n.val) H.axDirT = true)) :
    s.axStep n.val t = (s.advance t).stepTaken n t :=
  (if_neg (stepOpen hrun hclass hener howed)).trans ((if_neg hdir).trans ((if_neg hgap).trans (if_neg hfree)))

end Open
/-! ### Chopper cycles (R316) -/

/-- The sign of a coil's value fits its field. -/
theorem axSg_wrap (coilB : Bool) (v : Int) : (axSgF coilB).wrap (sgnI v) = sgnI v := by
  have hsign : sgnI v ∈ [-1, 0, 1] := by
    unfold sgnI
    split
    · decide
    · split <;> decide
  have hfits : ∀ x ∈ [-1, 0, 1], (axSgF coilB).wrap x = x := by cases coilB <;> decide
  exact hfits _ hsign

theorem axVth_eq (s : State) (n : Nat) (coilB : Bool) : s.axVth n coilB = asr ((if s.axValue n coilB < 0 then -s.axValue n coilB else s.axValue n coilB) *
    if s.get (axsB n) F.AXS_STAT_COIL = 2 then s.get (axsB n) F.AXS_ISCALE_I_RUN else s.get (axsB n) F.AXS_ISCALE_I_HOLD) 15 := by
  simp only [axVth, beq_iff_eq]

/-- A cycle takes its entry from the table as loaded by its start. -/
theorem axChop_sets {n : Nat} {coilB : Bool} (h : s.axChops n = true) : (s.axFresh n coilB).Sets (s.axChop n coilB)
    [(axsB n, axSgF coilB, sgnI ((s.axFresh n coilB).axValue n coilB)), (axsB n, axVthF coilB, (axVthF coilB).wrap ((s.axFresh n coilB).axVth n coilB)),
      (axsB n, axC0F coilB, (axC0F coilB).wrap s.time), (axsB n, axNrF coilB, 0)] := by
  have hsets := (s.axFresh n coilB).sets_puts_of_apart (axsB n) (l := [(axSgF coilB, sgnI ((s.axFresh n coilB).axValue n coilB)),
    (axVthF coilB, (s.axFresh n coilB).axVth n coilB), (axC0F coilB, s.time), (axNrF coilB, 0)])
    (by simp only [List.map_cons, List.map_nil]; cases coilB <;> decide)
  have hzero : (axNrF coilB).wrap 0 = 0 := by cases coilB <;> decide
  simp only [List.map_cons, List.map_nil, axSg_wrap, hzero] at hsets
  rw [axChop, if_neg (by simp [h])]
  exact hsets

theorem axChop_of_off {n : Nat} {coilB : Bool} (h : s.axChops n = false) : s.axChop n coilB = s := by
  rw [axChop, if_pos (by simp [h])]

theorem axNoReach_of_off {n : Nat} {coilB : Bool} (h : s.axChops n = false ∨ s.get (axsB n) (axSgF coilB) = 0) : s.axNoReach n coilB = s :=
  if_neg (by rcases h with h | h <;> simp [h, on])

theorem axNoReach_sets {n : Nat} {coilB : Bool} (h : s.axChops n = true) (hsign : s.get (axsB n) (axSgF coilB) ≠ 0) : s.Sets (s.axNoReach n coilB)
    [(axsB n, F.AXS_CNT_NOREACH, s.counted (axsB n) F.AXS_CNT_NOREACH), (axsB n, axNrF coilB, 1)] := by
  have hone : (axNrF coilB).wrap 1 = 1 := by cases coilB <;> decide
  have hmark := (s.bump (axsB n) F.AXS_CNT_NOREACH).sets_put (axsB n) (axNrF coilB) 1
  rw [hone] at hmark
  rw [axNoReach, if_pos (by simp [h, on, hsign])]
  have hapart : F.AXS_CNT_NOREACH.key (axsB n) ≠ (axNrF coilB).key (axsB n) := axKey_ne (by cases coilB <;> decide)
  exact (s.sets_bump ..).trans hmark fun k hk hin => hapart ((List.mem_singleton.mp hk).symm.trans (List.mem_singleton.mp hin))

theorem axOc_of_stepper (hrun : s.halfRun (n.val / 2) = true) (hclass : s.get (axsB n.val) F.AXS_CTRL_CLASS = 2) :
    s.axOc n.val = s.axFault n.val 0xB1 false true := if_pos (by simp [hrun, hclass])

theorem axOc_of_other (hclass : s.get (axsB n.val) F.AXS_CTRL_CLASS ≠ 2) : s.axOc n.val = s := if_neg (by simp [hclass])

/-! ### Standby (R318) -/

theorem axRenew_only (s : State) (n : Nat) : s.Only (s.axRenew n) [(axsB n, H.axVthA), (axsB n, H.axVthB)] := by
  have hcoil (k : Bool) (u : State) : u.Only (if u.get (axsB n) (axSgF k) = sgnI (u.axValue n k) then u.put (axsB n) (axVthF k) (u.axVth n k) else u)
      [(axsB n, axVthF k)] := by
    split
    · exact u.only_put ..
    · exact (Only.refl u).mono (List.nil_subset _)
  exact (hcoil false s).trans (hcoil true _)

/-- The coils off or in standby, from the table as loaded. -/
theorem axCoil_of_rest (s : State) (n : Nat) {c : Int} (hc : c = 0 ∨ c = 3) : (s.axCoil n c).get (axsB n) F.AXS_STAT_COIL = c ∧
    (s.axCoil n c).get (axsB n) H.axEn = (if c = 0 then 0 else 1) ∧ ((s.axFresh n false).axFresh n true).Only (s.axCoil n c)
      [(axsB n, F.AXS_STAT_COIL), (axsB n, H.axEn), (axsB n, H.axVthA), (axsB n, H.axVthB)] := by
  have hrest : ¬(c = 1 ∨ c = 2) := by omega
  have hcoil : F.AXS_STAT_COIL.wrap c = c := by rcases hc with rfl | rfl <;> decide
  have hen : H.axEn.wrap (b2i (c ≠ 0)) = if c = 0 then 0 else 1 := by rcases hc with rfl | rfl <;> decide
  have hsets := ((s.axFresh n false).axFresh n true).sets_puts_of_apart (axsB n) (l := [(F.AXS_STAT_COIL, c), (H.axEn, b2i (c ≠ 0))])
  have honly := axRenew_only (((s.axFresh n false).axFresh n true).puts (axsB n) [(F.AXS_STAT_COIL, c), (H.axEn, b2i (c ≠ 0))]) n
  have hkept {f : Fld} (ha : H.axVthA.key (axsB n) ≠ f.key (axsB n)) (hb : H.axVthB.key (axsB n) ≠ f.key (axsB n)) :=
    honly.get_eq (b := axsB n) (f := f) (by simp [ha.symm, hb.symm])
  unfold axCoil
  rw [if_neg hrest]
  refine ⟨?_, ?_, hsets.2.trans honly⟩
  · rw [hkept (axKey_ne (by decide)) (axKey_ne (by decide)), get_puts_of_mem _ _ List.mem_cons_self, hcoil]
  · rw [hkept (axKey_ne (by decide)) (axKey_ne (by decide)), get_puts_of_mem _ _ (List.mem_cons_of_mem _ List.mem_cons_self), hen]

theorem axStandbyEv_of_still (hrun : s.halfRun (n.val / 2) = true) (hhold : s.get (axsB n.val) F.AXS_HOLD_T_HOLD ≠ 65535)
    (hener : s.on (axsB n.val) H.axEner = false) (hcoil : s.get (axsB n.val) F.AXS_STAT_COIL ∈ [1, 2]) : s.axStandbyEv n.val = s.axStandby n.val := by
  refine if_pos ?_
  simpa [hrun, hhold, hener] using hcoil

theorem axStandbyEv_of_other (h : s.get (axsB n.val) F.AXS_HOLD_T_HOLD = 65535 ∨ s.on (axsB n.val) H.axEner = true ∨
    s.get (axsB n.val) F.AXS_STAT_COIL ∉ [1, 2]) : s.axStandbyEv n.val = s := by
  refine if_neg ?_
  rcases h with h | h | h
  · simp [h]
  · simp [h]
  · simp only [List.mem_cons, List.not_mem_nil, or_false, not_or] at h
    simp [h]

/-! ### The energised axis and the step input (R318, R328) -/

theorem axEnergised_of_profile (hener : s.on (axsB n) H.axEner = true) (hst : s.axSt n = 3) : (s.axEnergised n.val t).on (axsB n) H.axEner = false ∧
    (s.axEnergised n.val t).get (axsB n) H.axT0 = H.axT0.wrap t := by
  have hstill : ((s.advance t).put (axsB n.val) H.axEner 0).axSt n.val = 3 := (congrArg Int.toNat (get_put_fld _ _ _ (by decide))).trans hst
  have hgo : s.axEnergised n.val t = ((s.advance t).put (axsB n.val) H.axEner 0).puts (axsB n.val) [(H.axT0, t),
      (H.axXs, ((s.advance t).put (axsB n.val) H.axEner 0).ascTbv (n.val / 2) (2 + n.val % 2))] :=
    (if_pos (show (s.advance t).on (axsB n.val) H.axEner = true from hener)).trans (if_pos hstill)
  rw [hgo]
  refine ⟨?_, get_puts_of_mem _ _ List.mem_cons_self⟩
  rw [on, get_puts_of_apart _ _ (by simp only [List.map_cons, List.map_nil]; decide), get_put_same]
  rfl

theorem axEnergised_of_other (hener : s.on (axsB n) H.axEner = true) (hst : s.axSt n ≠ 3) :
    s.axEnergised n.val t = (s.advance t).put (axsB n.val) H.axEner 0 := by
  have hstill : ((s.advance t).put (axsB n.val) H.axEner 0).axSt n.val ≠ 3 := fun he =>
    hst ((congrArg Int.toNat (get_put_fld _ _ _ (by decide))).symm.trans he)
  exact (if_pos (show (s.advance t).on (axsB n.val) H.axEner = true from hener)).trans (if_neg hstill)

/-- An edge of the step input moves its counter by one. -/
theorem axEdge_moves (hrun : s.halfRun (n.val / 2) = true) (hclass : s.get (axsB n.val) F.AXS_CTRL_CLASS = 2) (dir : Bool) :
    (s.axEdge n.val t dir).get (axsB n.val) F.AXS_IN_IN = F.AXS_IN_IN.wrap (s.get (axsB n.val) F.AXS_IN_IN + if dir then 1 else -1) ∧
    (s.advance t).Only (s.axEdge n.val t dir) [(axsB n.val, F.AXS_IN_IN), (axsB n.val, H.axEdgeD), (axsB n.val, H.axEdgeT), (axsB n.val, H.axQi),
      (axsB n.val, H.axRate)] := by
  unfold axEdge
  extract_lets a b d dt cap fresh u
  have hopen : ¬(!a.halfRun (n.val / 2) || a.get b F.AXS_CTRL_CLASS != 2) = true := by
    rw [show a.halfRun (n.val / 2) = true from hrun, show a.get b F.AXS_CTRL_CLASS = 2 from hclass]
    decide
  have hu := a.sets_puts_of_apart b (l := [(F.AXS_IN_IN, a.get b F.AXS_IN_IN + d), (H.axEdgeD, d), (H.axEdgeT, t)])
  have hin : u.get b F.AXS_IN_IN = F.AXS_IN_IN.wrap (s.get b F.AXS_IN_IN + d) := a.get_puts_of_mem b List.mem_cons_self
  rw [if_neg hopen]
  split
  · exact ⟨(get_puts_of_apart u b (by simp only [List.map_cons, List.map_nil]; decide)).trans hin,
      hu.2.trans (u.sets_puts_of_apart b (l := [(H.axQi, u.get b F.AXS_IN_IN * q40), (H.axRate, 0)])).2⟩
  · exact ⟨(get_put_fld _ _ _ (by decide)).trans hin, (hu.2.trans (u.only_put b H.axRate _)).mono (by simp [b])⟩

end State
/-- Settles O56: an axis's rows are the branches of its functions; a step's arrival leaves the count and energised coils. -/
theorem axisRows : Obligations.AxisRows := by
  refine ⟨fun s n t hserves => ?axis, fun s t => ⟨fun h hrun => ?_, fun h hdown => ?_, fun g => ⟨fun hall => ?_, fun hnone => ?_⟩⟩⟩
  case axis =>
    have hrow {u v : State} (h : u = v) : (.next (s.onAxs n.val u) : Host.Outcome State Fault Refusal) = .next v := h ▸ State.next_onAxs hserves u
    obtain ⟨hrun, -⟩ := hserves
    intro b a d
    refine ⟨fun hstill => hrow (State.axStep_of_still hrun hstill), ?_⟩
    intro dir early steps
    refine ⟨fun hclass hener hd => ?stepper, fun hclass hener hd => ?pulse, fun coilB => ⟨fun hoff => ?off, fun hon => ?on⟩,
      fun hclass => hrow (State.axOc_of_stepper hrun hclass), fun hclass => hrow (State.axOc_of_other hclass),
      fun hhold hener hcoil => ?standby, fun hother => hrow (State.axStandbyEv_of_other hother),
      fun hener hst => ⟨_, hrow (State.axEnergised_of_other hener hst), a.sets_put ..⟩,
      fun hener hst => ⟨_, hrow rfl, State.axEnergised_of_profile hener hst⟩,
      fun up hclass => ⟨_, hrow rfl, State.axEdge_moves hrun hclass up⟩⟩
    case stepper =>
      have hopen : s.get (axsB n) F.AXS_CTRL_CLASS ≠ 0 := by rw [show s.get (axsB n) F.AXS_CTRL_CLASS = 2 from hclass]; decide
      have hpulse : s.get (axsB n) F.AXS_CTRL_CLASS ≠ 1 := by rw [show s.get (axsB n) F.AXS_CTRL_CLASS = 2 from hclass]; decide
      have hgap : s.stepGap n = 200 := State.stepGap_of_stepper hclass
      refine ⟨fun hearly => ⟨_, hrow (State.axStep_of_early hrun hopen hener hd (fun h => hpulse h.1) (hgap ▸ hearly)), a.sets_put ..⟩,
        fun hlate => ⟨_, hrow (State.axStep_of_free hrun hopen hener hd (fun h => hpulse h.1) (hgap ▸ hlate) fun h => hpulse h.1),
          a.stepTaken_moves ..⟩⟩
    case pulse =>
      have hopen : s.get (axsB n) F.AXS_CTRL_CLASS ≠ 0 := by rw [show s.get (axsB n) F.AXS_CTRL_CLASS = 1 from hclass]; decide
      have hgap : s.stepGap n = max 200 (s.nat (axsB n) F.AXS_PULSE_PW + 40) := State.stepGap_of_pulse hclass
      refine ⟨fun hturn => ⟨_, hrow (State.axStep_of_turn hrun hopen hener hd hclass (Ne.symm hturn)), ?_⟩,
        fun hdir hearly => ⟨_, hrow (State.axStep_of_early hrun hopen hener hd (fun h => h.2 hdir.symm) (hgap ▸ hearly)), a.sets_put ..⟩,
        fun hdir hlate hset hsoon => hrow (State.axStep_of_setup hrun hopen hener hd (fun h => h.2 hdir.symm) (hgap ▸ hlate)
          ⟨hclass, hsoon, by simpa [State.on] using hset⟩),
        fun hdir hlate hready => ⟨_, hrow (State.axStep_of_free hrun hopen hener hd (fun h => h.2 hdir.symm) (hgap ▸ hlate) ?_),
          a.stepTaken_moves ..⟩⟩
      · have hsets := a.sets_puts_of_apart b (l := [(H.axDirL, s.stepDir n), (H.axDirT, (s.stepDirTime n t.toNat : Nat))])
        simp only [List.map_cons, List.map_nil, State.stepDir_wrap] at hsets
        exact hsets
      · rintro ⟨-, hsoon, hset⟩
        rcases hready with hnone | hpast
        · rw [State.on, show s.get (axsB n) H.axDirT = 0 from hnone] at hset
          cases hset
        · exact absurd hsoon (Nat.not_lt.mpr hpast)
    case off => exact ⟨hrow (State.axChop_of_off hoff), hrow (State.axNoReach_of_off (.inl hoff))⟩
    case on =>
      intro f v i th sg
      refine ⟨⟨_, hrow rfl, ?_⟩, fun hsign => ⟨_, hrow rfl, State.axNoReach_sets hon hsign⟩,
        fun hsign => hrow (State.axNoReach_of_off (.inr hsign))⟩
      have hsets := State.axChop_sets (coilB := coilB) hon
      rw [State.axVth_eq] at hsets
      exact hsets
    case standby =>
      intro c
      have hc : c = 0 ∨ c = 3 := by
        unfold c
        split
        · exact .inr rfl
        · exact .inl rfl
      exact ⟨_, hrow (State.axStandbyEv_of_still hrun hhold hener hcoil), s.axCoil_of_rest n hc⟩
  · exact congrArg Host.Outcome.next (if_neg (by rw [show (s.advance t.toNat).halfRun h.val = true from hrun]; decide))
  · exact congrArg Host.Outcome.next (if_pos (by rw [show (s.advance t.toNat).halfRun h.val = false from hdown]; decide))
  · exact congrArg Host.Outcome.next (if_pos hall)
  · exact congrArg Host.Outcome.next (if_neg (Bool.eq_false_iff.mp hnone))

end Sys2Proof.Machine
end

section
/-!
PROOFS. O58, refuted. An error of a staged record's cell drops that record and enters the recorder's own fault (R368). The fault's trigger may repeat a
record that still waits in the staging buffer: it is counted into that record's REPEAT (R391), so that the records left are not those that were there.
-/
namespace Sys2Proof.Machine

/-- A staged record of the recorder's fault, whose entry the host has cleared. -/
def recorderFaultRecord : Recd :=
  { felt := false, seq := 0, tick := 0, trig := 1, redir := false, part := false, region := 0, code := Block.error .recorder, rep := 0, lost := 0,
    rseq := 0, data := [] }

/-- A running chip with two staged records, the second one that of the recorder's fault. -/
def State.recorderFaultStaged : State :=
  (State.reset.withChip fun c => { c with phase := .running, regions := Vector.replicate 3 .run, ready := true }).withLog fun l =>
    { l with staging := [{ recorderFaultRecord with trig := 2, code := 0 }, recorderFaultRecord] }

/-- The cell of the first record fails: the second counts a repeat. -/
theorem State.recorderFaultStaged_left : State.recorderFaultStaged.alive = true ∧
    (State.recorderFaultStaged.cellError (.record 0)).log.staging = [{ recorderFaultRecord with rep := 1 }] := by
  decide +kernel

/-- Refutes O58: the fault that a record's cell raises may add a repeat to another staged record. -/
theorem not_faultsAndBlocks : ¬ Obligations.FaultsAndBlocks := by
  rintro ⟨-, h⟩
  obtain ⟨halive, hleft⟩ := State.recorderFaultStaged_left
  obtain ⟨-, -, -, -, -, -, hrecord, -⟩ := h State.recorderFaultStaged
  obtain ⟨t, hexec, hkept⟩ := hrecord 0 halive (by decide)
  have ht : State.recorderFaultStaged.cellError (.record 0) = t := Host.Outcome.next.inj hexec
  rw [← ht, hleft] at hkept
  exact absurd hkept (by decide)

end Sys2Proof.Machine
end

section
/-!
PROOFS. O60. The recorder's stages touch its lists alone: a capture takes the head of the FIFO to the staging buffer, a write takes the head of the
staging buffer to the area of the NVA that its number names (R389, R393, R396).
-/
namespace Sys2Proof.Machine

namespace State

theorem recCapture_of_cons {s : State} {x : Trig} {l : List Trig} (hfifo : s.log.fifo = x :: l) (hroom : s.log.staging.length < 64)
    (hruns : s.shRun = true ∨ s.log.flush.isSome = true) : s.recCapture = (s.withLog fun g => { g with fifo := l }).stageTrig x := by
  have hguard : ((!s.shRun && s.log.flush.isNone) || decide (64 ≤ s.log.staging.length)) = false := by
    have hshort : decide (64 ≤ s.log.staging.length) = false := decide_eq_false (by omega)
    rw [hshort, Bool.or_false]
    rcases hruns with h | h
    · rw [h, Bool.not_true, Bool.false_and]
    · rw [Option.isNone_eq_false_iff.mpr h, Bool.and_false]
  rw [recCapture, hguard, if_neg Bool.false_ne_true, recPop, hfifo]

theorem recCapture_idle {s : State} (h : s.log.fifo = [] ∨ 64 ≤ s.log.staging.length) : s.recCapture = s := by
  rw [recCapture]
  rcases h with h | h
  · rw [recPop, h, ite_self]
  · rw [decide_eq_true h, Bool.or_true, if_pos rfl]

theorem stageTrig_of_repeat {s : State} {x : Trig} (h : s.log.staging.any (repeats x.trig x.region x.code) = true) :
    s.stageTrig x = s.addRepeat x.trig x.region x.code := if_pos h

/-- The number of the area is spent, and a redirection is counted: neither touches the FIFO or the staging buffer. -/
theorem stageTrig_of_new {s : State} {x : Trig} (h : s.log.staging.any (repeats x.trig x.region x.code) = false) :
    (s.stageTrig x).log.fifo = s.log.fifo ∧
    (s.stageTrig x).log.staging = s.log.staging ++ [s.composeRec (s.feltAt x)] := by
  rw [stageTrig, if_neg (by rw [h]; exact Bool.false_ne_true)]
  have htake : ∀ (l : Recorder) (felt : Bool), (takeSeq l felt).fifo = l.fifo ∧ (takeSeq l felt).staging = l.staging := by
    intro l felt
    cases felt <;> exact ⟨rfl, rfl⟩
  extract_lets y r t
  have ht : t.log.fifo = s.log.fifo ∧ t.log.staging = s.log.staging ++ [r] := htake _ y.felt
  cases y.redir <;> exact ht

theorem recWrite_of_cons {s : State} {r : Recd} {l : List Recd} (hstaged : s.log.staging = r :: l) (hin : s.oos .recorder = false)
    (hon : s.chip.phase ∉ [.off, .asleep]) : s.recWrite =
      if r.felt || s.log.flush.isSome then (s.withLog fun g => { g with staging := l }).nvaPut r
      else if s.log.bucket = 0 then s
      else (s.withLog fun g => { g with staging := l, bucket := g.bucket - 1 }).nvaPut r := by
  have hguard : (s.oos .recorder || s.chip.phase == .off || s.chip.phase == .asleep) = false := by
    rw [List.mem_cons, List.mem_singleton, not_or] at hon
    rw [hin, beq_false_of_ne hon.1, beq_false_of_ne hon.2, Bool.or_false, Bool.or_false]
  rw [recWrite, hguard, if_neg Bool.false_ne_true, hstaged]

theorem nvaPut_of_felt (s : State) {r : Recd} (h : r.felt = true) : s.nvaPut r = s.withLog fun l => { l with felt := l.felt ++ [r] } := by
  rw [nvaPut, h]
  rfl

theorem nvaPut_of_circ (s : State) {r : Recd} (h : r.felt = false) : s.nvaPut r =
    s.withLog fun l => { l with circ := (l.circ.filter fun x => x.seq % 2048 != r.seq % 2048) ++ [r] } := by
  rw [nvaPut, h]
  rfl

end State

/-- Settles O60: the capture by what the head of the FIFO is, the write by the area of the head of the staging buffer. -/
theorem recorderRows : Obligations.RecorderRows := by
  unfold Obligations.RecorderRows
  intro s
  refine ⟨fun x l hfifo hroom hruns => ⟨fun hnew => ?_, fun hrep => ?_⟩, fun hidle => congrArg _ (State.recCapture_idle hidle),
    fun r l hstaged hin hon => ?_, fun hon => ?_⟩
  · refine ⟨_, rfl, ?_⟩
    obtain ⟨hrest, hput⟩ := State.stageTrig_of_new (s := s.withLog fun g => { g with fifo := l }) (x := x) hnew
    rw [State.recCapture_of_cons hfifo hroom hruns]
    exact ⟨hrest, _, rfl, rfl, rfl, rfl, hput⟩
  · refine ⟨_, rfl, ?_⟩
    rw [State.recCapture_of_cons hfifo hroom hruns, State.stageTrig_of_repeat (s := s.withLog fun g => { g with fifo := l }) hrep]
    exact ⟨rfl, rfl, rfl⟩
  · have hwrite := State.recWrite_of_cons hstaged hin hon
    refine ⟨fun hfelt => ⟨_, rfl, ?_⟩, fun hcirc hmay => ⟨_, rfl, ?_⟩, fun hfree => ⟨_, rfl, ?_⟩, fun hcirc hflush hsome => ⟨_, rfl, ?_⟩,
      fun hcirc hflush hnone => congrArg Host.Outcome.next (?_ : s.recWrite = s)⟩
    · rw [hwrite, hfelt, Bool.true_or, if_pos rfl, State.nvaPut_of_felt _ hfelt]
      exact ⟨rfl, rfl⟩
    · rw [hwrite, hcirc, Bool.false_or]
      by_cases hflush : s.log.flush.isSome = true
      · rw [if_pos hflush, State.nvaPut_of_circ _ hcirc]
        exact ⟨rfl, rfl⟩
      · rw [if_neg hflush, if_neg (Nat.pos_iff_ne_zero.mp (hmay.resolve_left hflush)), State.nvaPut_of_circ _ hcirc]
        exact ⟨rfl, rfl⟩
    · rw [hwrite, if_pos (by rw [Bool.or_eq_true]; exact hfree)]
      cases hfelt : r.felt with
      | true =>
        rw [State.nvaPut_of_felt _ hfelt]
        exact ⟨rfl, rfl⟩
      | false =>
        rw [State.nvaPut_of_circ _ hfelt]
        exact ⟨rfl, rfl⟩
    · rw [hwrite, hcirc, hflush, if_neg (by decide), if_neg (Nat.pos_iff_ne_zero.mp hsome), State.nvaPut_of_circ _ hcirc]
      exact ⟨rfl, rfl, rfl⟩
    · rw [hwrite, hcirc, hflush, if_neg (by decide), if_pos hnone]
  · refine congrArg _ (?_ : s.recRefill = _)
    rw [List.mem_cons, List.mem_singleton, not_or] at hon
    rw [State.recRefill, beq_false_of_ne hon.1, beq_false_of_ne hon.2]
    rfl

end Sys2Proof.Machine
end

section
/-!
PROOFS. What the end of a half's work and the moves of its stations leave alone: the roles of the halves, at the first bit of each half's registers, and
the chip-level state. `RolesKept` says so of stops, of losses in a service and of the way into and out of ISOLATED (R17, R291 to R302, R378).
-/
namespace Sys2Proof.Machine

theorem Sparse.get_clear_outside (m : Sparse) {lo hi k : Nat} (hk : k < lo ∨ hi ≤ k) : (m.clear lo hi).get k = m.get k := by
  induction m with
  | nil => rfl
  | cons e r ih =>
    unfold Sparse.clear at ih ⊢
    by_cases he : e.1 = k
    · simp [Sparse.get, he, hk]
    · cases hp : (decide (e.1 < lo) || decide (hi ≤ e.1)) with
      | true => simp [hp, Sparse.get, he, ih]
      | false => simp [hp, Sparse.get, he, ih]

/-- A bit address at the start of a half's registers, where its role stands. -/
def atHalfStart (k : Nat) : Prop := k % 0x8000000 = 0

theorem atHalfStart_role (h : Nat) : atHalfStart (F.SUP_MST_ROLE.key (halfB h)) := by
  simp only [atHalfStart, Fld.key, halfB, F.SUP_MST_ROLE]
  omega

/-- A field that stands neither at the start of its block nor beyond the registers of a half. -/
abbrev Fld.inHalf (f : Fld) : Prop := 0 < 8 * f.off + f.lo ∧ 8 * f.off + f.lo < 0x7000000

theorem blockKey_off {f : Fld} {r : Nat} (hr : r < 0x10000) (hf : f.inHalf) (h : Nat) : ¬atHalfStart (f.key (halfB h + r)) := by
  simp only [Fld.inHalf] at hf
  simp only [atHalfStart, Fld.key, halfB]
  omega

theorem sharedKey_off {f : Fld} {b : Nat} (hb : b < 0x10000) (hf : f.inHalf) : ¬atHalfStart (f.key b) := by
  simp only [Fld.inHalf] at hf
  simp only [atHalfStart, Fld.key]
  omega

theorem stnKey_off {f : Fld} (hf : 8 * f.off + f.lo < 0x7000000) (n : Nat) : ¬atHalfStart (f.key (stnB n)) := by
  simp only [atHalfStart, Fld.key, stnB, halfB]
  omega

theorem slotKey_off {f : Fld} (hf : f.inBlock ≠ 0) (h m : Nat) : ¬atHalfStart (f.key (slotB h m)) := by
  have hmod := f.key_mod (dvd_slotB h m)
  unfold atHalfStart
  omega

/-- `t` comes from `s` with the chip-level state and the roles of the halves as they were. -/
structure RolesKept (s t : State) : Prop where
  chip : t.chip = s.chip
  regs : ∀ k, atHalfStart k → t.regs.get k = s.regs.get k

namespace RolesKept

variable {s0 s t : State} {n h m k : Nat}

theorem refl (s : State) : RolesKept s s := ⟨rfl, fun _ _ => rfl⟩

theorem trans {u : State} (hr : RolesKept s t) (hr' : RolesKept t u) : RolesKept s u :=
  ⟨hr'.chip.trans hr.chip, fun k hk => (hr'.regs k hk).trans (hr.regs k hk)⟩

theorem role (hr : RolesKept s t) (h : Nat) : t.get (halfB h) F.SUP_MST_ROLE = s.get (halfB h) F.SUP_MST_ROLE := by
  rw [State.get, State.get, hr.regs _ (atHalfStart_role h)]

theorem ite {c : Prop} [Decidable c] {u v : State} (hu : RolesKept s0 u) (hv : RolesKept s0 v) : RolesKept s0 (if c then u else v) := by
  split <;> assumption

theorem other (hr : RolesKept s0 s) (hchip : t.chip = s.chip) (hregs : t.regs = s.regs) : RolesKept s0 t :=
  hr.trans ⟨hchip, fun _ _ => by rw [hregs]⟩

/-- The iterations over a list, each from a member of it. -/
theorem eachIn {α : Type} {l : List α} {g : α → State → State} (hr : RolesKept s0 s) (hg : ∀ a ∈ l, ∀ s, RolesKept s (g a s)) :
    RolesKept s0 (s.each l g) :=
  List.foldlRecOn (motive := RolesKept s0) l _ hr fun u hu a ha => hu.trans (hg a ha u)

theorem each {α : Type} {l : List α} {g : α → State → State} (hr : RolesKept s0 s) (hg : ∀ a s, RolesKept s (g a s)) :
    RolesKept s0 (s.each l g) := hr.eachIn fun a _ => hg a

theorem milWork (hr : RolesKept s0 s) (hm : MilWork s t) : RolesKept s0 t := hr.other (congrArg State.chip hm.rest).symm hm.regs

/-! ### Registers -/

theorem put {b : Nat} {f : Fld} {v : Int} (hr : RolesKept s0 s) (hk : ¬atHalfStart (f.key b)) : RolesKept s0 (s.put b f v) :=
  hr.trans ⟨rfl, fun _ hx => Sparse.get_set_ne _ _ fun he => hk (he ▸ hx)⟩

theorem puts {b : Nat} {l : List (Fld × Int)} (hr : RolesKept s0 s) (hl : ∀ f ∈ l.map Prod.fst, ¬atHalfStart (f.key b)) : RolesKept s0 (s.puts b l) := by
  induction l generalizing s with
  | nil => exact hr
  | cons e r ih =>
    obtain ⟨he, hl⟩ := List.forall_mem_cons.mp hl
    exact ih (hr.put he) hl

theorem bumpBy {b : Nat} {f : Fld} {v : Int} (hr : RolesKept s0 s) (hk : ¬atHalfStart (f.key b)) : RolesKept s0 (s.bumpBy b f v) :=
  (hr.put hk).other rfl rfl

theorem clrBits {b : Nat} {f : Fld} {v : Nat} (hr : RolesKept s0 s) (hk : ¬atHalfStart (f.key b)) : RolesKept s0 (s.clrBits b f v) :=
  (hr.put hk).other rfl rfl

theorem orBits {b : Nat} {f : Fld} {v : Nat} (hr : RolesKept s0 s) (hk : ¬atHalfStart (f.key b)) : RolesKept s0 (s.orBits b f v) :=
  (hr.put hk).other rfl rfl

theorem setBit {b : Nat} {f : Fld} {i : Nat} {v : Bool} (hr : RolesKept s0 s) (hk : ¬atHalfStart (f.key b)) : RolesKept s0 (s.setBit b f i v) :=
  .ite (.orBits hr hk) (.clrBits hr hk)

theorem putStn {f : Fld} {v : Int} (hr : RolesKept s0 s) (hf : 8 * f.off + f.lo < 0x7000000 := by decide) : RolesKept s0 (s.put (stnB n) f v) :=
  hr.put (stnKey_off hf n)

theorem putsStn {l : List (Fld × Int)} (hr : RolesKept s0 s)
    (hl : ∀ f ∈ l.map Prod.fst, 8 * f.off + f.lo < 0x7000000 := by simp only [List.map_cons, List.map_nil]; decide) :
    RolesKept s0 (s.puts (stnB n) l) := hr.puts fun f hf => stnKey_off (hl f hf) n

theorem putHalf {f : Fld} {v : Int} (hr : RolesKept s0 s) (hf : f.inHalf := by decide) : RolesKept s0 (s.put (halfB h) f v) :=
  hr.put (blockKey_off (r := 0) (by decide) hf h)

theorem putsSlot {l : List (Fld × Int)} (hr : RolesKept s0 s) (hm : m < 48)
    (hl : ∀ f ∈ l.map Prod.fst, f.inHalf := by simp only [List.map_cons, List.map_nil]; decide) : RolesKept s0 (s.puts (slotB h m) l) :=
  hr.puts fun f hf => blockKey_off (r := 0x80 * m) (by omega) (hl f hf) h

/-! ### Notices, records and faults -/

theorem notice {ty : Nat} {body : List Nat} (hr : RolesKept s0 s) : RolesKept s0 (s.notice ty body) :=
  hr.trans ⟨(Calm.notice (.refl s)).chip, fun k hk => (Writes.notice s ty body).regs k fun hin => by
    have hout : ∀ x ∈ State.noticeKeys, x % 0x8000000 ≠ 0 := by decide
    exact hout k hin hk⟩

theorem trigger {r c : Nat} {code : Nat} {data : List Nat} (hr : RolesKept s0 s) : RolesKept s0 (s.trigger r c code data) :=
  hr.trans ⟨(Calm.trigger (.refl s)).chip, fun k hk => (Writes.trigger s r c code data).regs k fun hin => by
    have hout : ∀ x ∈ recCounts, x % 0x8000000 ≠ 0 := by decide
    exact hout k hin hk⟩

theorem enterList {u : FUnit} {code : Nat} (hr : RolesKept s0 s) : RolesKept s0 (s.enterList u code) :=
  .ite (hr.other rfl rfl) (.ite (hr.other rfl rfl) (.notice (hr.other rfl rfl)))

theorem raiseBy {r : Nat} {u : FUnit} {code : Nat} {data : List Nat} (hr : RolesKept s0 s) : RolesKept s0 (s.raiseBy r u code data) :=
  .ite (.enterList hr) (.trigger (.enterList hr))

theorem masterNote (hr : RolesKept s0 s) : RolesKept s0 s.masterNote := .trigger (.notice hr)

theorem completeAll {op arg st d : Nat} {pay : List Nat} (hr : RolesKept s0 s) : RolesKept s0 (s.completeAll op arg st d pay) :=
  hr.milWork (s.completeAll_milWork op arg st d pay)

/-! ### The gates of a station -/

theorem putStoOff (hr : RolesKept s0 s) : RolesKept s0 (s.putStoOff h) := hr.putHalf

theorem dropEnables (hr : RolesKept s0 s) : RolesKept s0 (s.dropEnables n) := by
  have hword (j : Nat) (hj : j < 16) (u : State) : RolesKept u (u.puts (stnB n + j) [(F.PWM_CMP_EN, 0)]) :=
    (RolesKept.refl u).put (by
      simp only [atHalfStart, Fld.key, stnB, halfB, F.PWM_CMP_EN]
      omega)
  exact (((hr.putsStn).trans (hword 0 (by decide) _)).trans (hword 4 (by decide) _)).trans (hword 8 (by decide) _)

theorem turnOff (hr : RolesKept s0 s) : RolesKept s0 (s.turnOff n) :=
  have hdrop := hr.dropEnables (n := n)
  .ite (.putStoOff (.putsStn hdrop)) (.ite hdrop (.putsStn hdrop))

theorem leaveExt (hr : RolesKept s0 s) : RolesKept s0 (s.leaveExt n) := .ite (.turnOff hr) hr

theorem endSequences (hr : RolesKept s0 s) : RolesKept s0 (s.endSequences n) := .putsStn (.setBit hr (blockKey_off (r := 0) (by decide) (by decide) _))

theorem swF_off (leg : Nat) : 8 * (State.swF leg).off + (State.swF leg).lo < 0x7000000 := by
  have hall : ∀ f ∈ [H.swU, H.swV, H.swW], 8 * f.off + f.lo < 0x7000000 := by decide
  apply hall
  unfold State.swF
  split
  · exact .head _
  · split
    · exact .tail _ (.head _)
    · exact .tail _ (.tail _ (.head _))

theorem putSwitch {leg : Nat} (hr : RolesKept s0 s) : RolesKept s0 (s.putSwitch n leg) := by
  unfold State.putSwitch
  extract_lets b live go v s1
  have h1 : RolesKept s0 s1 := hr.putStn (swF_off leg)
  exact .ite h1 (.putStoOff (.putStn h1))

theorem followPins (hr : RolesKept s0 s) : RolesKept s0 (s.followPins n) := .each (.putStn hr) fun _ s => .putSwitch (.refl s)

/-! ### Slots -/

theorem settleSlot (hr : RolesKept s0 s) (hm : m < 48) : RolesKept s0 (s.settleSlot h m) := by
  have hmiss (v : Int) {u : State} (hu : RolesKept s0 u) : RolesKept s0 (u.bumpPast (slotB h m) F.LEN_SST_MISS v) :=
    (hu.bumpBy (slotKey_off (by decide) h m)).other rfl rfl
  have htaken : RolesKept s0 (s.put (slotB h m) H.slTrigT s.time) := hr.put (slotKey_off (by decide) h m)
  exact .ite hr (.ite htaken (.ite (hmiss _ htaken) (hmiss _ (.putsSlot htaken hm))))

theorem settleHalf (hr : RolesKept s0 s) : RolesKept s0 (s.settleHalf h) :=
  hr.eachIn fun _ hm s => .settleSlot (.refl s) (List.mem_range.mp (List.mem_filter.mp hm).1)

theorem resetSlot (hr : RolesKept s0 s) (hm : m < 48) : RolesKept s0 (s.resetSlot h m) := hr.putsSlot hm

theorem resetGated (hr : RolesKept s0 s) : RolesKept s0 (s.resetGated n) :=
  .eachIn (.putStn hr) fun _ hm s => .ite (.resetSlot (.refl s) (List.mem_range.mp hm)) (.refl s)

theorem preset {v : Int} (hr : RolesKept s0 s) : RolesKept s0 (s.preset h k m v) := by
  induction k generalizing s m with
  | zero => exact hr
  | succ k ih =>
    have hpre : ∀ f ∈ [H.slPre, H.slPreV], f.inBlock ≠ 0 := by decide
    refine .ite ?_ (.ite (hr.puts fun f hf => slotKey_off (hpre f hf) h m) hr)
    refine List.foldlRecOn (motive := RolesKept s0) _ _ hr fun u hu c _ => ?_
    cases State.codeSlot c with
    | none => exact hu
    | some j => exact ih hu

theorem presetIstar {v : Int} (hr : RolesKept s0 s) : RolesKept s0 (s.presetIstar n v) := by
  unfold State.presetIstar
  cases s.chainOf n with
  | none => exact hr
  | some m => exact hr.preset

/-! ### Modes and stops -/

theorem putSlow (hr : RolesKept s0 s) : RolesKept s0 (s.putSlow n) := .putStn (.putStn hr)

theorem completeSet {st : Nat} {p : Nat → Bool} (hr : RolesKept s0 s) : RolesKept s0 (s.completeSet n st p) :=
  hr.each fun _ s => .milWork (.refl s) (.completeB (.refl s))

theorem ascDisarm {u i st : Nat} (hr : RolesKept s0 s) (hu : u < 2) (hi : i < 8) : RolesKept s0 (s.ascDisarm h u i st) := by
  have hbase : 0x100 * u + 0x20 * i < 0x10000 := by omega
  have hfields : ∀ f ∈ [H.ascPend, H.ascNew, H.ascJump], f.inHalf := by decide
  have harmed : ¬atHalfStart (F.ASC_SST_ARMED.key (State.ascB h u i)) := by
    rw [State.ascB, Nat.add_assoc]
    exact blockKey_off hbase (by decide) h
  exact .completeAll (.completeAll (.puts (.put hr harmed) fun f hf => blockKey_off (r := 0x100 * (8 * u + i)) (by omega) (hfields f hf) h))

theorem ascDisarmUser {u st : Nat} (hr : RolesKept s0 s) (hu : u < 2) : RolesKept s0 (s.ascDisarmUser h u st) :=
  hr.eachIn fun _ hi s => .ascDisarm (.refl s) hu (List.mem_range.mp hi)

theorem setMode (hr : RolesKept s0 s) : RolesKept s0 (s.setMode n m) := by
  unfold State.setMode
  extract_lets b old s1 s2 s3 s4 s5 s6 s7 s8
  have h1 : RolesKept s0 s1 := .ite hr (.settleHalf hr)
  have h2 : RolesKept s0 s2 := .putsStn h1
  have h3 : RolesKept s0 s3 := .notice (.putStn h2)
  have h4 : RolesKept s0 s4 := .trigger h3
  have h5 : RolesKept s0 s5 := .ite (.completeSet h4) h4
  have h6 : RolesKept s0 s6 := .ite (.putSlow (.putStn h5)) h5
  have h7 : RolesKept s0 s7 := .ite (.putSlow (.putStn h6)) h6
  have h8 : RolesKept s0 s8 := .ite (.ascDisarmUser h7 (Nat.mod_lt _ (by decide))) h7
  exact .ite hr (.ite (.putStn h8) h8)

theorem beginStop (hr : RolesKept s0 s) : RolesKept s0 (s.beginStop n m) := by
  unfold State.beginStop
  extract_lets b k1 s1 s2
  have h1 : RolesKept s0 s1 := .putsStn (.bumpBy hr (stnKey_off (by decide) n))
  have h2 : RolesKept s0 s2 := .setMode (.leaveExt h1)
  exact .ite (.presetIstar h2) h2

theorem endStop (hr : RolesKept s0 s) : RolesKept s0 (s.endStop n) := by
  have hoff : RolesKept s0 (((s.turnOff n).endSequences n).setMode n mOff) := .setMode (.endSequences (.turnOff hr))
  exact .completeAll (.ite (.putStn hoff) hoff)

theorem restop (hr : RolesKept s0 s) : RolesKept s0 (s.restop n m) := by
  unfold State.restop
  extract_lets b seq k1 s1
  have h1 : RolesKept s0 s1 := .putsStn hr
  exact .ite (.endStop (.putStn (.ite (.putStn hr) hr))) (.ite (.ite (.presetIstar h1) h1) hr)

theorem stopStation (hr : RolesKept s0 s) : RolesKept s0 (s.stopStation n m) := by
  have hstops {u : State} (hu : RolesKept s0 u) : RolesKept s0 (u.bump (stnB n) F.STN_CNT_STOPS) := hu.bumpBy (stnKey_off (by decide) n)
  exact .ite (.endStop hr) (.ite (.ite (.endStop (hstops (.ite (.putStn hr) hr))) (.beginStop hr))
    (.ite (.ite (.endStop (hstops hr)) (.putStn hr)) (.ite (.restop hr) hr)))

/-! ### Services -/

theorem putShed (hr : RolesKept s0 s) : RolesKept s0 (s.putShed n) := hr.putStn

theorem svcBase_lt (hk : k < 16) : svcB k < 0x10000 ∧ 0x200 * k < 0x10000 := by
  unfold svcB
  omega

theorem svcDrop (hr : RolesKept s0 s) (hk : k < 16) : RolesKept s0 (s.svcDrop k n) := by
  obtain ⟨hb, hh⟩ := svcBase_lt hk
  unfold State.svcDrop
  extract_lets owned s1
  have h1 : RolesKept s0 s1 := .clrBits (.clrBits hr (sharedKey_off hb (by decide))) (sharedKey_off hh (by decide))
  exact .putShed (.ite (.putsStn h1) h1)

theorem svcFree (hr : RolesKept s0 s) (hk : k < 16) : RolesKept s0 (s.svcFree k) := by
  refine hr.trans ⟨rfl, fun x hx => ?_⟩
  have houtside : x = 0 ∨ 0x8000000 ≤ x := by
    unfold atHalfStart at hx
    omega
  exact (Sparse.get_clear_outside _ (by omega)).trans ((Sparse.get_clear_outside _ (by omega)).trans (Sparse.get_clear_outside _ (by omega)))

theorem svcEnd {st : Nat} (hr : RolesKept s0 s) (hk : k < 16) : RolesKept s0 (s.svcEnd k st) := by
  have hb := (svcBase_lt hk).1
  have hfields : ∀ f ∈ [F.SVC_STAT_STATE, F.SVC_STAT_STNS], f.inHalf := by decide
  have htold : RolesKept s0 ((s.completeAll 0x40 k st 0).completeAll 0x42 k st 0) := .completeAll (.completeAll hr)
  exact .ite (.puts (htold.other rfl rfl) fun f hf => sharedKey_off hb (hfields f hf)) (.svcFree htold hk)

theorem svcLeave {f : Nat} {fault : Bool} (hr : RolesKept s0 s) : RolesKept s0 (State.svcLeave f s n fault) := by
  induction f generalizing s0 s n with
  | zero => exact hr
  | succ f ih =>
    unfold State.svcLeave
    refine hr.eachIn fun k hk s => .ite (.refl s) ?_
    have hk := List.mem_range.mp hk
    extract_lets s1 rest st ty reached s2
    have h1 : RolesKept s s1 := .svcDrop (.refl s) hk
    have h2 : RolesKept s s2 := h1.each fun m s => .svcDrop (.refl s) hk
    refine .ite (.svcEnd h1 hk) (.ite (.svcEnd (h2.each fun m s => .stopStation (ih (.refl s))) hk) (h1.put (sharedKey_off (svcBase_lt hk).1 (by decide))))

theorem svcLeaveMute {fault : Bool} (hr : RolesKept s0 s) : RolesKept s0 (s.svcLeaveMute n fault) := by
  refine hr.eachIn fun k hk s => .ite (.refl s) ?_
  have hb := (svcBase_lt (List.mem_range.mp hk)).2
  extract_lets b owned s1 s2
  have h1 : RolesKept s s1 := .orBits (.refl s) (sharedKey_off hb (by decide))
  have h2 : RolesKept s s2 := .ite (.orBits h1 (sharedKey_off hb (by decide))) h1
  exact .ite (.putsStn h2) h2

theorem leaveService {fault : Bool} (hr : RolesKept s0 s) : RolesKept s0 (s.leaveService n fault) := .ite (.svcLeaveMute hr) (.svcLeave hr)

/-! ### A half -/

theorem endHalfWork {st : Nat} (hr : RolesKept s0 s) : RolesKept s0 (s.endHalfWork h st) :=
  hr.each fun _ s => .ite (.milWork (.refl s) (.orderedAnswer (.refl s)))
    (.ite (.milWork (.refl s) (.orderedAnswer (.refl s))) (.milWork (.refl s) (.completeB (.refl s))))

theorem halfLeaves (hr : RolesKept s0 s) : RolesKept s0 (s.halfLeaves h) :=
  .each (hr.eachIn fun _ hk s => .ite (.svcDrop (.refl s) (List.mem_range.mp hk)) (.refl s)) fun _ s => .leaveService (.refl s)

theorem regainRun (hr : RolesKept s0 s) : RolesKept s0 (s.regainRun n) := by
  unfold State.regainRun
  extract_lets b catching port s1 s2
  have h1 : RolesKept s0 s1 := .putsStn hr
  have h2 : RolesKept s0 s2 := .setMode (.resetGated h1)
  exact .ite hr (.ite (.putStn h1) (.ite (.followPins h2) h2))

end RolesKept
end Sys2Proof.Machine
end

section
/-!
PROOFS. O59. A region's state is the last word of what takes it down or starts it: the rest of both leaves the chip-level state alone. A half's role is
the last word of its way into and out of ISOLATED (`RolesKept`). The heartbeats are counted in the half's own registers (R372, R373, R378 to R380).
-/
namespace Sys2Proof.Machine

/-- What a raised fault leaves alone of what a region's restart asks for: the time, the restarts noted and their limit. -/
structure RestartsKept (s t : State) : Prop where
  time : t.time = s.time
  restart : t.flt.restart = s.flt.restart
  regMax : t.nat 0 F.FLT_CFG_REG_MAX = s.nat 0 F.FLT_CFG_REG_MAX

namespace RestartsKept

variable {s0 s t : State}

theorem refl (s : State) : RestartsKept s s := ⟨rfl, rfl, rfl⟩

theorem other (h : RestartsKept s0 s) (htime : t.time = s.time) (hrestart : t.flt.restart = s.flt.restart) (hregs : t.regs = s.regs) :
    RestartsKept s0 t :=
  ⟨htime.trans h.time, hrestart.trans h.restart, (congrArg Int.toNat (by rw [State.get, State.get, hregs])).trans h.regMax⟩

theorem ite {c : Prop} [Decidable c] {u v : State} (hu : RestartsKept s0 u) (hv : RestartsKept s0 v) : RestartsKept s0 (if c then u else v) := by
  split <;> assumption

theorem put {b : Nat} {f : Fld} {v : Int} (h : RestartsKept s0 s) (hk : f.key b ≠ F.FLT_CFG_REG_MAX.key 0) : RestartsKept s0 (s.put b f v) :=
  ⟨h.time, h.restart, (congrArg Int.toNat (State.get_put_ne s v hk)).trans h.regMax⟩

theorem queueNotice {i ty : Nat} {body : List Nat} (h : RestartsKept s0 s) : RestartsKept s0 (s.queueNotice i ty body) :=
  have hlost : RestartsKept s0 (s.withPort i fun q => { q with evtLost := true }) := h.other rfl rfl rfl
  .ite (h.other rfl rfl rfl) (.put (.other (.put hlost (by decide)) rfl rfl rfl) (by decide))

theorem notice {ty : Nat} {body : List Nat} (h : RestartsKept s0 s) : RestartsKept s0 (s.notice ty body) := by
  unfold State.notice
  split
  · extract_lets r b s1 s2
    have h1 : RestartsKept s0 s1 := .ite (.queueNotice h) h
    have h2 : RestartsKept s0 s2 := .ite (.queueNotice h1) h1
    exact .ite (State.each_keeps h2 fun _ _ h => .queueNotice h) h2
  · exact h

theorem loseTrig {k : Nat} (h : RestartsKept s0 s) : RestartsKept s0 (s.loseTrig k) :=
  .other (.put (h.other (t := s.withLog fun l => { l with pendLost := l.pendLost + k }) rfl rfl rfl) (by decide)) rfl rfl rfl

theorem fifoEnter {t r code q : Nat} {data : List Nat} (h : RestartsKept s0 s) : RestartsKept s0 (s.fifoEnter t r code q data) :=
  .ite (.loseTrig h) (.ite (h.other rfl rfl rfl) (.ite (.loseTrig h) (h.other rfl rfl rfl)))

theorem trigger {r t code : Nat} {data : List Nat} (h : RestartsKept s0 s) : RestartsKept s0 (s.trigger r t code data) := by
  unfold State.trigger
  split
  · exact h
  · extract_lets q s1 k s2
    have h1 : RestartsKept s0 s1 := h.other rfl rfl rfl
    have h2 : RestartsKept s0 s2 := .ite h1 (.loseTrig h1)
    exact .ite (.fifoEnter h1) (.ite (.loseTrig h1) (.ite (.fifoEnter (h2.other rfl rfl rfl)) (h1.other rfl rfl rfl)))

theorem enterList {u : FUnit} {code : Nat} (h : RestartsKept s0 s) : RestartsKept s0 (s.enterList u code) :=
  .ite (h.other rfl rfl rfl) (.ite (h.other rfl rfl rfl) (.notice (h.other rfl rfl rfl)))

theorem raise {u : FUnit} {code : Nat} {data : List Nat} (h : RestartsKept s0 s) : RestartsKept s0 (s.raise u code data) :=
  .ite (.enterList h) (.trigger (.enterList h))

end RestartsKept

namespace Calm

variable {s0 s : State}

theorem dropSteam {r : Nat} (h : Calm s0 s) : Calm s0 (s.dropSteam r) := other h rfl rfl rfl
theorem putRec {l : List (Nat × Int)} (h : Calm s0 s) : Calm s0 (s.putRec l) := regWork h (.regs (.refl s))
theorem clearSh (h : Calm s0 s) : Calm s0 s.clearSh := put (puts (other h rfl rfl rfl))

theorem releaseToken {k : Nat} (h : Calm s0 s) : Calm s0 (s.releaseToken k) :=
  have hfreed : Calm s0 ((s.put 0 F.CHIP_STATUS_MASTER 0).masterNote) := masterNote (put h)
  ite h (ite (takeToken hfreed) hfreed)

end Calm

namespace State

variable {s t : State} {h r : Nat} {v : RegSt}

/-! ### The state of a region -/

theorem regionSt_of_chip (hchip : t.chip = s.chip) (r : Nat) : t.regionSt r = s.regionSt r := by rw [regionSt, regionSt, hchip]

theorem regionSt_setRegion (s : State) (hr : r < 3) (v : RegSt) : (s.setRegion r v).regionSt r = v := by
  simp [regionSt, setRegion, withChip, hr]

theorem regionSt_ready (s : State) (g : Chip → Bool) (r : Nat) : (s.withChip fun c => { c with ready := g c }).regionSt r = s.regionSt r := rfl

theorem regionRun_of_st (hst : s.regionSt r = .run) : s.regionRun r = true := by
  unfold regionSt at hst
  unfold regionRun
  rw [List.getD_eq_getElem?_getD] at hst
  cases hget : s.chip.regions.toList[r]? with
  | none => rw [hget] at hst; cases hst
  | some x =>
    rw [hget] at hst
    exact beq_iff_eq.mpr (congrArg some hst)

/-! ### ISOLATED (R17, R378) -/

theorem isolate_of_off (hoff : s.halfPresent h = false ∨ s.halfRun h = false ∨ s.isolated h = true) : s.isolate h = s := by
  refine if_pos ?_
  rcases hoff with h | h | h <;> simp [h]

/-- Once its role says so, what a half enters ISOLATED with changes no role. -/
theorem isolate_rolesKept (hpresent : s.halfPresent h = true) (hrun : s.halfRun h = true) (hin : s.isolated h = false) :
    RolesKept (s.put (halfB h) F.SUP_MST_ROLE 3) (s.isolate h) := by
  unfold isolate
  rw [if_neg (by simp [hpresent, hrun, hin])]
  refine .halfLeaves (.each (.endHalfWork (.raiseBy (.refl _))) fun n s => ?_)
  exact .ite (.setMode (.leaveExt (.refl s))) (.ite (.putStn (.refl s)) (.refl s))

theorem isolate_chip (s : State) (h : Nat) : (s.isolate h).chip = s.chip := by
  by_cases hoff : s.halfPresent h = false ∨ s.halfRun h = false ∨ s.isolated h = true
  · rw [isolate_of_off hoff]
  · simp only [not_or, Bool.not_eq_false, Bool.not_eq_true] at hoff
    obtain ⟨hpresent, hrun, hin⟩ := hoff
    exact (isolate_rolesKept hpresent hrun hin).chip

theorem isolate_isolated (hpresent : s.halfPresent h = true) (hrun : s.halfRun h = true) (hin : s.isolated h = false) :
    (s.isolate h).isolated h = true := by
  rw [isolated, (isolate_rolesKept hpresent hrun hin).role, get_put_same]
  rfl

/-- A free token is taken by a half with the role of its holder. -/
theorem takeToken_role_of_free (hfree : s.master = 0) (h : Nat) : (s.takeToken h false).get (halfB h) F.SUP_MST_ROLE = 1 := by
  unfold takeToken
  extract_lets old s1 s2 s3 s4 s5
  have h5 : s5 = s2 := if_neg (by simp [old, hfree])
  rw [(RolesKept.refl s5).masterNote.role, h5]
  exact (get_put_ne _ _ (by simp only [Fld.key, F.SUP_MST_ROLE, H.tkLost]; omega)).trans (get_put_same ..)

theorem isolationEnd_ends (hpresent : s.halfPresent h = true) (hrun : s.halfRun h = true) (hin : s.isolated h = true) (hsh : s.shRun = true) :
    (s.isolationEnd h).isolated h = false := by
  unfold isolationEnd
  rw [if_neg (by simp [hpresent, hrun, hin, hsh])]
  extract_lets s1 s2
  have hrole : s2.get (halfB h) F.SUP_MST_ROLE ≠ 3 := by
    by_cases hfree : s1.master = 0
    · rw [show s2 = s1.takeToken h false from if_pos hfree, takeToken_role_of_free hfree]
      decide
    · by_cases hown : s1.master = h + 1
      · rw [show s2 = s1.put (halfB h) F.SUP_MST_ROLE 1 from (if_neg hfree).trans (if_pos hown), get_put_same]
        decide
      · rw [show s2 = s1 from (if_neg hfree).trans (if_neg hown), get_put_same]
        decide
  rw [isolated, ((RolesKept.refl s2).each fun n s => .regainRun (.refl s)).role]
  exact beq_false_of_ne hrole

/-! ### A region goes down (R372) -/

theorem takeDownHalf_st (s : State) (hh : h < 2) (v : RegSt) (st : Nat) : (s.takeDownHalf h v st).regionSt (h + 1) = v := by
  unfold takeDownHalf
  extract_lets s1 s2
  have hrest : Calm s2 (((s2.releaseToken h).dropSteam (h + 1)).clearHalf h) := .clearHalf (.dropSteam (.releaseToken (.refl s2)))
  exact (regionSt_of_chip hrest.chip _).trans (regionSt_setRegion _ (by omega) v)

theorem takeDownSh_st (s : State) (v : RegSt) : (s.takeDownSh v).regionSt 0 = v := by
  unfold takeDownSh
  extract_lets s1 s2 s3 s4 s5 s6
  have h2 : s2.regionSt 0 = v := regionSt_setRegion _ (by decide) v
  have h3 : s3.chip = s2.chip := each_keeps (P := fun u => u.chip = s2.chip) rfl fun h u hu => (isolate_chip u h).trans hu
  have h5 : Calm s4 s5 := .clearSh (.dropSteam (.stopCommit (.refl s4)))
  have h4 : s4.chip = s3.chip := rfl
  have hst : s5.regionSt 0 = v := (regionSt_of_chip (h5.chip.trans (h4.trans h3)) 0).trans h2
  clear_value s5
  exact (regionSt_ready (s6.withCfg fun c => { c with staging := c.inForce }) (fun _ => false) 0).trans hst

theorem takeDown_st (s : State) (hr : r < 3) (v : RegSt) (st : Nat) : (s.takeDown r v st).regionSt r = v := by
  cases r with
  | zero => exact takeDownSh_st s v
  | succ h => exact takeDownHalf_st s (by omega) v st

/-- The restarts of a region within the last 60 s. -/
def pastRestarts (s : State) (r : Nat) : List (Nat × Nat) := s.flt.restart.filter fun e => e.1 == r && decide (s.time < e.2 + 24000000000)

theorem regionError_of_off (s : State) (ram : Bool) (hoff : s.regionRun r = false) : s.regionError r ram = s := if_pos (by simp [hoff])

theorem regionError_st (ram : Bool) (hr : r < 3) (halive : s.alive = true) (hrun : s.regionRun r = true) :
    (s.regionError r ram).regionSt r = if s.nat 0 F.FLT_CFG_REG_MAX ≤ (s.pastRestarts r).length then .held else .restarting := by
  unfold regionError
  rw [if_neg (by simp [halive, hrun])]
  extract_lets u s1 past
  have hkept : RestartsKept s s1 := .raise (.refl s)
  have hpast : past = s.pastRestarts r := by rw [pastRestarts, ← hkept.restart, ← hkept.time]
  rw [hkept.regMax, hpast]
  split
  · exact takeDown_st _ hr .held stRegionDown
  · exact takeDown_st _ hr .restarting stRegionDown

/-! ### A region restarts (R373) -/

theorem restartDone_of_other (h : s.regionSt r ≠ .restarting) : s.restartDone r = s := if_pos (by simp [h])

theorem restartDone_sh (halive : s.alive = true) (hst : s.regionSt 0 = .restarting) : (s.restartDone 0).regionSt 0 = .run := by
  unfold restartDone
  rw [if_neg (by simp [halive, hst])]
  dsimp -zeta only
  extract_lets rec0 s1 s2 s3
  have h1 : Calm (s.setRegion 0 .run) s1 := .putRec (.loadRegion (.mbxStart (.refl _)))
  have h2 : Calm (s.setRegion 0 .run) s2 := .ite h1 (.put h1)
  have hstart : s2.startSh.regionSt 0 = .run := (regionSt_of_chip (Calm.startSh h2).chip 0).trans (regionSt_setRegion s (by decide) .run)
  have h3 : s3.regionSt 0 = .run := (regionSt_ready s2.startSh (fun c => c.phase == .running) 0).trans hstart
  have hrecord : Calm s3 (s3.restartRecord 0).localNote := .localNote (.trigger (.refl s3))
  rw [regionSt_of_chip hrecord.chip, h3]

theorem restartDone_half (hh : h < 2) (halive : s.alive = true) (hst : s.regionSt (h + 1) = .restarting) :
    (s.restartDone (h + 1)).regionSt (h + 1) = .run := by
  unfold restartDone
  rw [if_neg (by simp [halive, hst])]
  dsimp -zeta only
  extract_lets s1 s2
  have h1 : Calm (s.setRegion (h + 1) .run) s1 := .startHalf (.loadRegion (.refl _))
  have h2 : s2.chip = s1.chip := by
    dsimp only [s2]
    split
    · exact isolate_chip s1 h
    · exact (Calm.ite (.takeToken (.refl s1)) (.put (.refl s1))).chip
  have hrest : Calm s2 ((s2.restartRecord (h + 1)).completeAll 0x09 (h + 1) stOK 0) := .completeAll (.trigger (.refl s2))
  exact (regionSt_of_chip (hrest.chip.trans (h2.trans h1.chip)) _).trans (regionSt_setRegion s (by omega) .run)

theorem restartDone_runs (hr : r < 3) (halive : s.alive = true) (hst : s.regionSt r = .restarting) : (s.restartDone r).regionRun r = true := by
  cases r with
  | zero => exact regionRun_of_st (restartDone_sh halive hst)
  | succ h => exact regionRun_of_st (restartDone_half (by omega) halive hst)

/-! ### Heartbeats (R379, R380, R382) -/

theorem heartReceived_sets (hon : s.heartOn h = true) (hother : s.heartOn (1 - h) = true) (hin : s.oos .abmbx = false) :
    s.Sets (s.heartReceived h) [(halfB h, F.SUP_HB_HB_RX, F.SUP_HB_HB_RX.wrap (s.get (halfB (1 - h)) H.hbSeq)), (halfB h, F.SUP_MST_PEER_UP, 1),
      (halfB h, H.hbRun, 0), (halfB h, H.hbRx, H.hbRx.wrap (s.time + 1 : Nat))] := by
  rw [heartReceived, if_pos (by simp [hon, hother, hin])]
  exact s.sets_puts_of_apart (halfB h)

theorem heartMiss_of_none (hnone : s.heartOn h = false ∨ s.get (halfB h) H.hbRx = (s.time : Int) + 1) : s.heartMiss h = s := by
  refine if_pos ?_
  rcases hnone with h | h <;> simp [h]

theorem heartMiss_first (hon : s.heartOn h = true) (hmissed : s.get (halfB h) H.hbRx ≠ (s.time : Int) + 1) (hrun : s.get (halfB h) H.hbRun = 0) :
    s.Sets (s.heartMiss h) [(halfB h, F.SUP_HB_HB_MISS, s.counted (halfB h) F.SUP_HB_HB_MISS), (halfB h, H.hbRun, 1)] := by
  have hmiss : s.heartMiss h = (s.bump (halfB h) F.SUP_HB_HB_MISS).put (halfB h) H.hbRun 1 := by
    rw [heartMiss, if_neg (by simp [hon, hmissed]), hrun]
    exact if_pos (by decide)
  rw [hmiss]
  refine (s.sets_bump (halfB h) F.SUP_HB_HB_MISS).trans (sets_put _ _ _ _) fun k hk hk' => ?_
  have hfirst : k = F.SUP_HB_HB_MISS.key (halfB h) := List.mem_singleton.mp hk
  have hsecond : k = H.hbRun.key (halfB h) := List.mem_singleton.mp hk'
  simp only [Fld.key, F.SUP_HB_HB_MISS, H.hbRun] at hfirst hsecond
  omega

/-- What the second miss in a row leaves, before the token is looked at. -/
def peerDown (s : State) (h : Nat) : State :=
  (((s.bump (halfB h) F.SUP_HB_HB_MISS).put (halfB h) H.hbRun 2).put (halfB h) F.SUP_MST_PEER_UP 0).raiseBy (h + 1) (.region (Fin.ofNat 3 (2 - h)))
    (fcode 3 (2 - h) 0xD3)

theorem heartMiss_second (hh : h < 2) (hon : s.heartOn h = true) (hmissed : s.get (halfB h) H.hbRx ≠ (s.time : Int) + 1)
    (hrun : s.get (halfB h) H.hbRun = 1) : s.heartMiss h =
      if (s.peerDown h).get (halfB h) F.SUP_MST_ROLE = 2 ∧ (s.peerDown h).master = 2 - h ∧ (s.peerDown h).on (halfB h) H.tkLost = false ∧
        (s.peerDown h).shRun = true then (s.peerDown h).takeToken h true else s.peerDown h := by
  have hother : 1 - h + 1 = 2 - h := by omega
  rw [heartMiss, if_neg (by simp [hon, hmissed]), hrun]
  simp only [hother]
  rw [if_neg (by decide)]
  refine if_congr ?_ rfl rfl
  simp only [Bool.and_eq_true, beq_iff_eq, Bool.not_eq_true', and_assoc]
  rfl

end State

/-- Settles O59: a region by the state its way down or up ends with, a half by the role it ends with, a heartbeat by the misses before it. -/
theorem regionsAndMastership : Obligations.RegionsAndMastership := by
  refine ⟨fun s r halive => ⟨fun ram hrun => ?error, fun ram hoff => congrArg Host.Outcome.next (State.regionError_of_off s ram hoff),
    fun hst => ⟨_, rfl, State.restartDone_runs r.isLt halive hst⟩,
    fun hst => congrArg Host.Outcome.next (State.restartDone_of_other hst)⟩, fun s h => ?half⟩
  case error =>
    have hdown := State.regionError_st ram r.isLt halive hrun
    exact ⟨fun hfew => ⟨_, rfl, hdown.trans (if_neg (Nat.not_le_of_lt hfew))⟩, fun hmany => ⟨_, rfl, hdown.trans (if_pos hmany)⟩⟩
  case half =>
    refine ⟨fun halive hpresent hrun hin => ⟨_, rfl, ?enter⟩, fun hoff => congrArg Host.Outcome.next ?stay,
      fun hpresent hrun hin hsh => ⟨_, rfl, State.isolationEnd_ends hpresent hrun hin hsh⟩, fun hon => ⟨_, rfl, ?send⟩,
      fun hon hother hin => ⟨_, rfl, State.heartReceived_sets hon hother hin⟩,
      fun hnone => congrArg Host.Outcome.next (State.heartMiss_of_none hnone),
      fun hon hmissed hrun => ⟨_, rfl, State.heartMiss_first hon hmissed hrun⟩, fun hon hmissed hrun => ?second⟩
    case enter =>
      rw [State.isolationEntry, if_pos halive]
      exact State.isolate_isolated hpresent hrun hin
    case stay =>
      show s.isolationEntry h.val = s
      rcases hoff with hdead | hoff
      · exact if_neg (by simp [hdead])
      · rw [State.isolationEntry, State.isolate_of_off (.inr hoff), ite_self]
    case send =>
      rw [State.heartSend, if_pos hon]
      exact s.sets_put ..
    case second =>
      have hmiss := State.heartMiss_second h.isLt hon hmissed hrun
      refine ⟨fun hrole hmaster hkeeps hsh => congrArg Host.Outcome.next (hmiss.trans (if_pos ⟨hrole, hmaster, hkeeps, hsh⟩)),
        fun hother => congrArg Host.Outcome.next (hmiss.trans (if_neg fun htake => ?_))⟩
      obtain ⟨hrole, -, hkeeps, -⟩ := htake
      rcases hother with hrole' | hlost
      · exact hrole' hrole
      · exact Bool.false_ne_true (hkeeps.symm.trans hlost)

end Sys2Proof.Machine
end
